-- ==== Sys2Proof/Word.lean ====
section
/-! DEFINITION. Word.lean: the byte and the words of the engine, and nothing else. Multi-byte
fields in memory are little-endian (00_scope.md, "Conventions"); the helpers that cut and join
fields stand in Machine/Bits.lean. -/
namespace Sys2Proof

/-- One byte of device memory, host memory, a Loft row or a message. -/
abbrev Byte := BitVec 8

/-- A 32-bit word: FP32 codes, unit locators, semaphore values. -/
abbrev Word32 := BitVec 32

/-- A 64-bit word: addresses, counters, reel time. -/
abbrev Word64 := BitVec 64

end Sys2Proof
end

