-- ==== Sys2Proof/Syntax.lean ====
section
/-! DEFINITION. Syntax.lean: the commands that the block takes, one constructor per row of the table
of operations and events (opcode_table.json), with the operands of each row.

Operand names: `q` a queue number; `i` the free-running ring index of a command; `d` a transfer
descriptor's number inside its MOVE; `die` 0 or 1; `region` 0–15 (8 × die + region); `c` a cadence
input; `e` a schedule entry; `p` an engine port; `loc` a unit locator (R10); `dt` the clk that pass
before a timed event; `r` a dictionary request and `rivals` the other orders of the same clk stamp
(R344). -/
namespace Sys2Proof

/-- The five paths of R329, with what tells requests of one path apart (R346). -/
inductive DictPath
  | management
  | mailbox
  | hostMctp
  | dictCommand (q : Nat)
  | peer (package : Nat)
  deriving DecidableEq, Repr

/-- A dictionary request header with its data (R332). -/
structure Request where
  path : DictPath
  tag : Nat
  index : Nat
  sub : Nat
  /-- `LENGTH`, for a read the bytes wanted -/
  length : Nat
  /-- `OFFSET` of a read -/
  offset : Nat
  /-- a reserved field of the header is non-zero -/
  reserved : Bool
  /-- the value of a write -/
  data : List Byte
  /-- the MCTP endpoint that sent it, on paths 1 and 3 (R335) -/
  endpoint : Nat := 0
  /-- an `OP` that is reserved, in place of the row's (R338) -/
  badOp : Option Nat := none
  /-- power is lost while the copies of a kept entry commit this write: the mask of the dies that have committed (R341) -/
  cut : Option Nat := none
  deriving DecidableEq, Repr

/-- What the FEC of a port found as a flit came (R303, R304): a codeword of the flit that it could not correct; and, of the
codewords that ended with the flit, how many it corrected and how many it could not. -/
structure Fec where
  bad : Bool
  corrected : Nat
  uncorrectable : Nat
  deriving DecidableEq, Repr

/-- What a translation completion says (R242–R244, R247, R248). -/
inductive TransAnswer
  /-- a range: virtual start, bytes, physical start, read, write and atomic rights -/
  | range (va bytes pa : Nat) (read write atomic : Bool)
  | notPresent
  | unsupported
  deriving DecidableEq, Repr

/-- The answers of a page-request response (R248). -/
inductive PageAnswer
  | success | invalid | failure
  deriving DecidableEq, Repr

/-- A Bruora transaction message (R314), whole. `segs` are the runs of data bytes that its segments carry,
each with its offset in the window, ascending. For a NACK, `offset` is the code. -/
structure Message where
  kind : Nat
  src : Nat
  dst : Nat
  window : Nat
  seq : Nat
  offset : Nat
  transit : Bool
  /-- bytes wanted by a read request -/
  length : Nat
  /-- incarnation of the source (R315) -/
  incarnation : Nat
  segs : List (Nat × List Byte)
  /-- bytes of an element of the transfer, against which a memory window is aligned (R319) -/
  elem : Nat := 1
  deriving DecidableEq, Repr

/-- Data bytes of a message. -/
def Message.bytes (m : Message) : Nat := (m.segs.map fun g => g.2.length).sum

/-- How a self-test ends (R14, R356): passed, failed columns of a Thresher, or failed otherwise. -/
inductive TestResult
  | pass
  | columns (failed : List Nat)
  | fail
  deriving DecidableEq, Repr

/-- The structures that the scrub reads (R354). -/
inductive Scrubbed
  | accumulators | millBanks | loft | barn | granary | queueRecords
  deriving DecidableEq, Repr

/-- The commands of the block, one per row of the table. -/
inductive Instr
  -- commands of a queue: the Drover takes the next descriptor of queue q (R259, R270)
  | attend (q : Nat)
  | gemm (q : Nat)
  | chain2 (q : Nat)
  | norm (q : Nat)
  | func (q : Nat)
  | moveTransfer (q : Nat)
  | moveFill (q : Nat)
  | moveCopy (q : Nat)
  | moveConvert (q : Nat)
  | kvAppend (q : Nat)
  | kvGather (q : Nat)
  | kvCreate (q : Nat)
  | kvSharePrefix (q : Nat)
  | kvFree (q : Nat)
  | kvTruncate (q : Nat)
  | kvHint (q : Nat)
  | kvQuery (q : Nat)
  | syncSemaphore (q : Nat)
  | syncCounterWait (q : Nat)
  | syncMemoryWait (q : Nat)
  | syncMemoryAdd (q : Nat)
  | syncMemoryStore (q : Nat)
  | table (q : Nat)
  | dump (q : Nat)
  /-- the capture in a place lapses -/
  | dumpLapse (place : Nat)
  | timed (q : Nat)
  | timedReleasePoint (q i dt : Nat)
  | fence (q : Nat)
  | fenceRelease (q i : Nat)
  | dictRead (q : Nat)
  | dictWrite (q : Nat)
  | commandCompletion (q i : Nat)
  /-- a detected error in a running command; `parity` tells a Loft parity error from another fault -/
  | commandRerun (q i : Nat) (parity : Bool)
  -- doorbells and queue control
  | doorbellDescTail (q value : Nat)
  | doorbellComplHead (q value : Nat)
  | queueBind (r : Request) (rivals : List Request)
  | queueUnbind (r : Request) (rivals : List Request)
  | queueStop (r : Request) (rivals : List Request)
  | queueStart (r : Request) (rivals : List Request)
  | borrowGrant (q : Nat)
  | mutualWaitYield (region : Nat)
  | queueYield (q : Nat)
  -- units
  | retireUnit (r : Request) (rivals : List Request)
  | returnUnit (r : Request) (rivals : List Request)
  | slotHandover (loc : Nat)
  | clusterMove (region cluster : Nat)
  | quarantineUnit (r : Request) (rivals : List Request)
  | releaseUnit (r : Request) (rivals : List Request)
  /-- one rotation step of a cluster: Threshers, or Gleaners -/
  | rotationStep (region cluster : Nat) (gleaners : Bool)
  | selfTestComplete (loc : Nat) (result : TestResult)
  | probationComplete (loc : Nat)
  | probationOverrun (region cluster : Nat) (gleaners : Bool)
  | knownAnswerTile (loc : Nat)
  /-- a detected failure: ledger code, physical locator, detail, affected command (queue and index), and
  whether the unit itself stays serviceable (an at-use detection) -/
  | faultDetected (code loc detail : Nat) (affected : Option (Nat × Nat)) (atUse : Bool)
  | correctedLimitExceeded (loc count : Nat)
  /-- one sweep on a die: errors corrected, and the Loft rows (region, cluster, row) found bad -/
  | scrubSweep (die : Nat) (what : Scrubbed) (corrected : Nat) (bad : List (Nat × Nat × Nat))
  | dieSelfTestComplete (die : Nat) (pass : Bool)
  | yardAccessViolation (loc q i : Nat)
  | ledgerHead (r : Request) (rivals : List Request)
  | ledgerOverflowClear (r : Request) (rivals : List Request)
  | worstClear (r : Request) (rivals : List Request)
  -- transfers, waits and gates
  | descriptorBurstArrival (q i : Nat)
  | descriptorCompletion (q i d : Nat)
  | semaphoreWaitSatisfied (q i : Nat) (d : Option Nat)
  | arrivalWaitSatisfied (q i : Nat)
  | memoryWaitPoll (q i : Nat)
  | gatedTileStart (q i tile : Nat)
  | gateTimeout (q i : Nat)
  | granaryWriterRelease (q i : Nat)
  -- translation
  | translationCompletion (die pasid va : Nat) (answer : TransAnswer)
  | invalidation (pasid va bytes : Nat)
  | invalidationCompletion (pasid va bytes : Nat)
  | pageRequestResponse (die pasid page : Nat) (answer : PageAnswer)
  | pageRequestTimeout (die pasid page : Nat)
  -- the Bellman
  | timeBusUpdate (die bus dt : Nat)
  | timeBusLoss (die dt : Nat)
  | cadencePulse (c dt : Nat)
  | pulseWindowEnd (c dt : Nat)
  | inputEnable (r : Request) (rivals : List Request)
  | nextFrame (r : Request) (rivals : List Request)
  | cadenceRate (r : Request) (rivals : List Request)
  | scheduleEntry (r : Request) (rivals : List Request)
  | bellmanMode (r : Request) (rivals : List Request)
  | scheduleRelease (e dt : Nat)
  | prefetchLaunch (e dt : Nat)
  /-- a deadline falls due: of a schedule entry (`e`), or the one that a TIMED gave commands of queue q -/
  | deadlineCheck (e : Option Nat) (q dt : Nat)
  | transferDeadlineDue (q i d dt : Nat)
  | counterSnapshot (e dt : Nat)
  | epochEnd (e : Option Nat) (dt : Nat)
  | epochDecision (dt : Nat)
  -- Bruora links
  /-- a 256-byte flit arrives, with what the FEC found -/
  | flitReceived (p : Nat) (flit : List Byte) (fec : Fec)
  | replayRequest (p seq : Nat)
  | lightDetected (p : Nat)
  /-- training ends: serviceable lanes, and the partner's package, port and incarnation -/
  | trainingComplete (p lanes package port incarnation : Nat) (ok : Bool)
  | portDarkTimeout (p : Nat)
  | laneLoss (p lane : Nat)
  | laneErrorRateCheck (p lane errors : Nat)
  | remoteWrite (m : Message)
  | remoteReadRequest (m : Message)
  | readData (m : Message)
  | acknowledge (m : Message)
  | nack (m : Message)
  | transitForward (m : Message)
  | linkRecoveryTimeout (dst : Nat)
  | linkRecovered (dst : Nat)
  | windowOpen (q : Nat)
  | windowClose (q : Nat)
  -- the dictionary and the memory-mapped aperture
  | requestRead (r : Request)
  | requestWrite (r : Request) (rivals : List Request)
  | requestDescribe (r : Request)
  /-- the `GO` write: the 16 header bytes and the request data of the page -/
  | mailboxGo (header data : List Byte)
  | mailboxDoneClear (value : Nat)
  | mmioStrayAccess (write : Bool) (offset : Nat)
  | vectorTableWrite (v address data : Nat) (mask : Bool)
  -- firmware and field access
  | fwUpdate (r : Request) (rivals : List Request)
  | rollbackCommit (r : Request) (rivals : List Request)
  | keyRevoke (r : Request) (rivals : List Request)
  | debugLockRaise (r : Request) (rivals : List Request)
  | ownerHashProgram (r : Request) (rivals : List Request)
  | decommission (r : Request) (rivals : List Request)
  | scopeClose (r : Request) (rivals : List Request)
  | debugNonceRead (r : Request)
  | debugResponse (r : Request) (rivals : List Request)
  | ownerPassword (r : Request) (rivals : List Request)
  | recoveryStatus (endpoint : Nat)
  | recoveryBegin (endpoint length : Nat)
  | recoveryData (endpoint offset : Nat) (data : List Byte)
  | recoveryEnd (endpoint : Nat)
  | recoveryAbort (endpoint : Nat)
  -- counters, trace, breakpoints
  | counterFreeze (r : Request) (rivals : List Request)
  | freezeSnapshot (die dt : Nat)
  | counterThaw (r : Request) (rivals : List Request)
  | daybookSync (die dt : Nat)
  | breakpoint (r : Request) (rivals : List Request)
  /-- breakpoint number 1–8; kind 1: Gleaner locator, yard offset, register image; kind 2: queue and index -/
  | breakpointHit (b loc offset : Nat) (image : List Byte) (cmd : Option (Nat × Nat))
  | breakResume (r : Request) (rivals : List Request)
  -- power, reset and start-up
  | powerCap (r : Request) (rivals : List Request)
  | throttleAssert
  | throttleRelease
  | resetOrderWarm (r : Request) (rivals : List Request)
  | resetOrderCold (r : Request) (rivals : List Request)
  | pwrGoodFall
  | pwrGoodRise
  | coldResetAssert
  /-- start-up: µs to the end of step 4, dies whose stacks and self-test pass (mask), ports that see light (mask) -/
  | coldResetRelease (us dies light : Nat)
  /-- entry by the pin, or the entry of an order given before -/
  | warmResetEntry (pin : Bool)
  | warmResetRelease (us dies : Nat)
  | bruoraTrainingBudgetEnd
  | startupTimeout
  /-- the background update ends its current phase: did the fetch of the staged image succeed -/
  | fwSlotWriteComplete (fetched : Bool)
  deriving DecidableEq, Repr

end Sys2Proof
end

