-- ==== Sys2Proof/Machine/Bits.lean ====
section
/-! DEFINITION. Machine/Bits.lean: bit fields, sign extension and byte order (00_scope.md,
"Conventions": bit 0 is the least significant bit, multi-byte fields are little-endian). -/
namespace Sys2Proof.Machine

/-- Bits [hi:lo] of a number. -/
def bits (x hi lo : Nat) : Nat := (x / 2 ^ lo) % 2 ^ (hi + 1 - lo)

/-- Bit `i` of a number. -/
def bit (x i : Nat) : Bool := (x / 2 ^ i) % 2 == 1

/-- Two's-complement reading of the low `w` bits. -/
def signed (x w : Nat) : Int :=
  let y := x % 2 ^ w
  if 2 * y < 2 ^ w then (y : Int) else (y : Int) - 2 ^ w

/-- The `w`-bit two's-complement code of an integer. -/
def unsignedOf (i : Int) (w : Nat) : Nat := (i % (2 ^ w : Int)).toNat

/-- Little-endian bytes to a number. -/
def leNat : List Byte → Nat
  | [] => 0
  | b :: bs => b.toNat + 256 * leNat bs

/-- The low `n` bytes of a number, little-endian. -/
def leBytes : Nat → Nat → List Byte
  | 0, _ => []
  | n + 1, x => BitVec.ofNat 8 (x % 256) :: leBytes n (x / 256)

/-- Bytes `off` to `off + n - 1` of a byte string, zero beyond its end. -/
def slice (bs : List Byte) (off n : Nat) : List Byte :=
  let t := (bs.drop off).take n
  t ++ List.replicate (n - t.length) 0

/-- The little-endian number in bytes `lo` to `hi` (inclusive, as R266 writes byte ranges). -/
def field (bs : List Byte) (lo hi : Nat) : Nat := leNat (slice bs lo (hi + 1 - lo))

/-- Do bytes `lo` to `hi` (inclusive) hold zero? -/
def zeroBytes (bs : List Byte) (lo hi : Nat) : Bool := field bs lo hi == 0

/-- Smallest whole number not below a / b. -/
def ceilDiv (a b : Nat) : Nat := (a + b - 1) / b

def boolNat (b : Bool) : Nat := if b then 1 else 0

/-- Number of set bits among the low `n`. -/
def popCount (x : Nat) : Nat → Nat
  | 0 => 0
  | n + 1 => boolNat (bit x n) + popCount x n

/-- Indices below `n` whose bit is set, ascending. -/
def setBits (x n : Nat) : List Nat := (List.range n).filter (bit x)

def setBit (x i : Nat) : Nat := if bit x i then x else x + 2 ^ i
def clearBit (x i : Nat) : Nat := if bit x i then x - 2 ^ i else x

/-- One step of CRC-32 (IEEE 802.3 polynomial, reflected). PRESUMED: the spec names the
polynomial; the reflected form with all-ones start and complement is the standard's. -/
def crcBit : Nat → Nat → Nat
  | 0, c => c
  | n + 1, c => crcBit n (if c % 2 = 1 then (c / 2) ^^^ 0xEDB88320 else c / 2)

/-- The remainder over bytes; both cases read the next byte alike: the match evaluates one byte before the next. -/
def crcOver : List Byte → Nat → Nat
  | [], c => c
  | b :: bs, c => match crcBit 8 (c ^^^ b.toNat) with
    | 0 => crcOver bs 0
    | n + 1 => crcOver bs (n + 1)

def crcBytes (bs : List Byte) : Nat := crcOver bs 0xFFFFFFFF ^^^ 0xFFFFFFFF

end Sys2Proof.Machine
end

