-- ==== Sys2Proof/Config.lean ====
section
/-! DEFINITION. Config.lean: what one implementation fixes and the spec does not state. Every
constant here is opaque (it has no body that a proof could see) unless the spec gives its value.
A claim about the model therefore holds whatever these values are. -/
namespace Sys2Proof.Config

/-- A FREE byte: the value of a byte that the spec calls undefined. The first argument is the
number drawn from `State.free` when the byte became undefined, the second its position. -/
opaque freeByte : Nat → Nat → Byte

/-- A FREE count: how far a counter of waiting or busy clk grew, or how long an unstated time
took. The argument is the number drawn from `State.free`. -/
opaque freeCount : Nat → Nat

/-- A FREE random value (a nonce, a drawn incarnation) of the given width in bits. -/
opaque randomBits : Nat → Nat → Nat

/-- A FREE choice: which of two NaN operands an operation delivers. IEEE 754-2019 and R42 say only
that the result is one of them. The arguments are the two payload words; true takes the first. -/
opaque nanFirst : Nat → Nat → Bool

/-- The 32-bit word at index `i` of the shipped table image of `slot` (R109: the images lie in the
Reeve mask ROM and are published as files; the spec does not list their contents). -/
opaque shippedWord : Nat → Nat → Nat

/-- SHA-384 of a byte string, as a 384-bit number (R377, R379, R387, R388). -/
opaque sha384 : List Byte → Nat

/-- ECDSA P-384 verification: public key (97 bytes), digest, signature (96 bytes) (R379, R387). -/
opaque ecdsaVerify : List Byte → Nat → List Byte → Bool

/-- The firmware image installed at manufacture, as the bytes of the image slot. -/
opaque factoryImage : List Byte

/-- Silicon stepping (`SILICON_STEP`), vendor enterprise number and serial number: identity values
that the spec does not give (R351). -/
opaque siliconStep : Nat
/-- Avcen's IANA enterprise number (`VENDOR_ENTERPRISE`, R335). -/
opaque vendorEnterprise : Nat
/-- The package serial number, 16 bytes as a number (`SERIAL_NUMBER`, R351). -/
opaque serialNumber : Nat

/-- SHA-384 hash fused in an image key slot (R377). -/
opaque imageKeyHash : Nat → Nat
/-- SHA-384 hash of the challenge-response public key (R377). -/
opaque debugKeyHash : Nat

/-- The index, modulo 2,048, of the set of its Barn slice that a 512-byte line of device memory falls in. R231 gives the
slices, lines and ways and not the index function. -/
opaque barnSet : Nat → Nat

/-- The stack, and so the Barn slice and the die, that a byte address of device memory lies on. -/
opaque stackOf : Nat → Nat

/-- Where in device memory the Reeve reserves the Granary's pool (R180 does not say). -/
opaque poolBase : Nat

/-- How many of the memory requests that the Carter of a region made before are still outstanding, and how long a request
waits for a tracking entry (R229). The arguments are the region and the number of requests made. -/
opaque outstanding : Nat → Nat → Nat
opaque trackingWait : Nat → Nat → Nat

/-- The payload of a link control flit (R303), whose layout the spec does not give: its byte `i` for the sequence number
acknowledged and the credits returned on the channels 0, 1 and 2; and what a received payload says: the sequence number
below which every flit has been accepted, and the credits of a channel. -/
opaque controlPayload : Nat → Nat × Nat × Nat → Nat → Byte
opaque controlAck : List Byte → Nat
opaque controlCredits : List Byte → Nat → Nat

/-- The engine's power with every issue held, in W (R427). -/
opaque idlePower : Nat → Nat

/-- `POWER_NOW` (R435): the power averaged over the last 1 ms, at a clk. -/
opaque powerNow : Nat → Nat

end Sys2Proof.Config
end

