-- ==== Sys2Proof/Machine/Flags.lean ====
section
/-! DEFINITION. Machine/Flags.lean: the conversion flag word (R65), the IEEE flags (R47) and the
per-flag element counts that R66 adds to the counters. -/
namespace Sys2Proof.Machine

/-- The eight conversion flags of R65, as the flags that one element or one command raised. -/
structure ConvFlags where
  amaxNan : Bool := false
  invalidCode : Bool := false
  nanSubst : Bool := false
  flushed : Bool := false
  underflow : Bool := false
  invalid : Bool := false
  overflow : Bool := false
  saturated : Bool := false
  deriving DecidableEq, Repr

/-- The five IEEE exception flags (R47). -/
structure IeeeFlags where
  invalid : Bool := false
  divZero : Bool := false
  overflow : Bool := false
  underflow : Bool := false
  inexact : Bool := false
  deriving DecidableEq, Repr

def ConvFlags.or (a b : ConvFlags) : ConvFlags :=
  { amaxNan := a.amaxNan || b.amaxNan, invalidCode := a.invalidCode || b.invalidCode,
    nanSubst := a.nanSubst || b.nanSubst, flushed := a.flushed || b.flushed,
    underflow := a.underflow || b.underflow, invalid := a.invalid || b.invalid,
    overflow := a.overflow || b.overflow, saturated := a.saturated || b.saturated }

def IeeeFlags.or (a b : IeeeFlags) : IeeeFlags :=
  { invalid := a.invalid || b.invalid, divZero := a.divZero || b.divZero,
    overflow := a.overflow || b.overflow, underflow := a.underflow || b.underflow,
    inexact := a.inexact || b.inexact }

/-- The flag word of R65, bit 7 `AMAX_NAN_SKIPPED` down to bit 0 `SATURATED`. -/
def ConvFlags.word (f : ConvFlags) : Nat :=
  128 * boolNat f.amaxNan + 64 * boolNat f.invalidCode + 32 * boolNat f.nanSubst + 16 * boolNat f.flushed
    + 8 * boolNat f.underflow + 4 * boolNat f.invalid + 2 * boolNat f.overflow + boolNat f.saturated

/-- `IEEE_FLAGS` of the completion record (R272): invalid is the high bit, inexact the low. -/
def IeeeFlags.word (f : IeeeFlags) : Nat :=
  16 * boolNat f.invalid + 8 * boolNat f.divZero + 4 * boolNat f.overflow + 2 * boolNat f.underflow
    + boolNat f.inexact

/-- What one command's arithmetic gathers: the flag words, and for each flag the number of elements
that raised it (R66); further, the event counts of the Mill, the Thresher and attention. -/
structure Gather where
  conv : ConvFlags := {}
  ieee : IeeeFlags := {}
  nAmaxNan : Nat := 0
  nInvalidCode : Nat := 0
  nNanSubst : Nat := 0
  nFlushed : Nat := 0
  nUnderflow : Nat := 0
  nInvalid : Nat := 0
  nOverflow : Nat := 0
  nSaturated : Nat := 0
  clampEvents : Nat := 0
  negVariance : Nat := 0
  rescales : Nat := 0
  emptyRows : Nat := 0
  nanRows : Nat := 0
  tilesComputed : Nat := 0
  tilesSkipped : Nat := 0
  tilesPartial : Nat := 0
  spillImages : Nat := 0
  macCount : Nat := 0
  millOps : Nat := 0
  millDiv : Nat := 0
  millFast : Nat := 0
  millStrict : Nat := 0
  millStat : Nat := 0
  millNorm : Nat := 0
  collisions : Nat := 0
  hazards : Nat := 0
  deriving DecidableEq, Repr

/-- Add one element's flags (R66: one element that raises two flags increments both counters). -/
def Gather.element (g : Gather) (c : ConvFlags) (i : IeeeFlags) : Gather :=
  { g with
    conv := g.conv.or c, ieee := g.ieee.or i,
    nAmaxNan := g.nAmaxNan + boolNat c.amaxNan, nInvalidCode := g.nInvalidCode + boolNat c.invalidCode,
    nNanSubst := g.nNanSubst + boolNat c.nanSubst, nFlushed := g.nFlushed + boolNat c.flushed,
    nUnderflow := g.nUnderflow + boolNat c.underflow, nInvalid := g.nInvalid + boolNat c.invalid,
    nOverflow := g.nOverflow + boolNat c.overflow, nSaturated := g.nSaturated + boolNat c.saturated }

/-- Add the IEEE flags of one internal operation, which is no conversion (R78). -/
def Gather.op (g : Gather) (i : IeeeFlags) : Gather := { g with ieee := g.ieee.or i }

/-- R81: an accumulation of an element saturated; the element is counted when it is complete (R66). -/
def Gather.saturate (g : Gather) : Gather := { g with conv := { g.conv with saturated := true } }

/-- R63: parts combine by OR of flags and sum of counts. -/
def Gather.merge (a b : Gather) : Gather :=
  { conv := a.conv.or b.conv, ieee := a.ieee.or b.ieee,
    nAmaxNan := a.nAmaxNan + b.nAmaxNan, nInvalidCode := a.nInvalidCode + b.nInvalidCode,
    nNanSubst := a.nNanSubst + b.nNanSubst, nFlushed := a.nFlushed + b.nFlushed,
    nUnderflow := a.nUnderflow + b.nUnderflow, nInvalid := a.nInvalid + b.nInvalid,
    nOverflow := a.nOverflow + b.nOverflow, nSaturated := a.nSaturated + b.nSaturated,
    clampEvents := a.clampEvents + b.clampEvents, negVariance := a.negVariance + b.negVariance,
    rescales := a.rescales + b.rescales, emptyRows := a.emptyRows + b.emptyRows,
    nanRows := a.nanRows + b.nanRows, tilesComputed := a.tilesComputed + b.tilesComputed,
    tilesSkipped := a.tilesSkipped + b.tilesSkipped, tilesPartial := a.tilesPartial + b.tilesPartial, spillImages := a.spillImages + b.spillImages,
    macCount := a.macCount + b.macCount, millOps := a.millOps + b.millOps, millDiv := a.millDiv + b.millDiv,
    millFast := a.millFast + b.millFast, millStrict := a.millStrict + b.millStrict,
    millStat := a.millStat + b.millStat, millNorm := a.millNorm + b.millNorm,
    collisions := a.collisions + b.collisions, hazards := a.hazards + b.hazards }

def gatherAll (gs : List Gather) : Gather := gs.foldl Gather.merge {}

end Sys2Proof.Machine
end

