-- ==== Sys2Proof/Machine/Real.lean ====
section
/-! DEFINITION. Machine/Real.lean: exact positive magnitudes. Every value that a conversion rounds
(R55) is a rational number or a root of one: the value 2^(L/256) of an LNS16 code (R32) and the
square root of R122 are roots. All comparisons here are exact. -/
namespace Sys2Proof.Machine

/-- The positive real (num / den)^(1 / root), for num, den and root above 0. -/
structure Mag where
  num : Nat
  den : Nat
  root : Nat
  deriving DecidableEq, Repr

def irootGo (r n : Nat) : Nat → Nat → Nat
  | 0, acc => acc
  | k + 1, acc => irootGo r n k (if (acc + 2 ^ k) ^ r ≤ n then acc + 2 ^ k else acc)

/-- The largest m with m^r ≤ n, for r above 0. -/
def iroot (r n : Nat) : Nat := if r = 1 then n else irootGo r n (Nat.log2 n / r + 1) 0

namespace Mag

/-- The magnitude 2^e. -/
def pow2 (e : Int) : Mag :=
  if 0 ≤ e then ⟨2 ^ e.toNat, 1, 1⟩ else ⟨1, 2 ^ (-e).toNat, 1⟩

/-- The magnitude n · 2^e. -/
def scaled (n : Nat) (e : Int) : Mag :=
  if 0 ≤ e then ⟨n * 2 ^ e.toNat, 1, 1⟩ else ⟨n, 2 ^ (-e).toNat, 1⟩

/-- The magnitude 2^(l / n), the value of an LNS code with log field l and n steps (R31, R32). -/
def exp2 (l : Int) (n : Nat) : Mag :=
  if 0 ≤ l then ⟨2 ^ l.toNat, 1, n⟩ else ⟨1, 2 ^ (-l).toNat, n⟩

def mul (a b : Mag) : Mag :=
  if a.root = b.root then ⟨a.num * b.num, a.den * b.den, a.root⟩
  else ⟨a.num ^ b.root * b.num ^ a.root, a.den ^ b.root * b.den ^ a.root, a.root * b.root⟩

def inv (a : Mag) : Mag := ⟨a.den, a.num, a.root⟩
def div (a b : Mag) : Mag := a.mul b.inv

/-- The square root of a magnitude. -/
def sqrt (a : Mag) : Mag := ⟨a.num, a.den, 2 * a.root⟩

/-- Whole powers of a magnitude. -/
def pow (a : Mag) (k : Nat) : Mag := ⟨a.num ^ k, a.den ^ k, a.root⟩

/-- a < b. -/
def lt (a b : Mag) : Bool :=
  a.num ^ b.root * b.den ^ a.root < b.num ^ a.root * a.den ^ b.root

def le (a b : Mag) : Bool := !(lt b a)
def eq (a b : Mag) : Bool := le a b && le b a

/-- The numerator and denominator of (v / 2^q)^root. -/
def times (v : Mag) (q : Int) : Nat × Nat :=
  if 0 ≤ q then (v.num, v.den * 2 ^ (q.toNat * v.root)) else (v.num * 2 ^ ((-q).toNat * v.root), v.den)

/-- floor(v / 2^q), and whether v is exactly that multiple of 2^q. -/
def floorAt (v : Mag) (q : Int) : Nat × Bool :=
  let (n, d) := v.times q
  let f := iroot v.root (n / d)
  (f, f ^ v.root * d == n)

/-- floor(log2 (num / den)). -/
def ratLog2 (n d : Nat) : Int :=
  let t : Int := (Nat.log2 n : Int) - (Nat.log2 d : Int)
  if 0 ≤ t then (if d * 2 ^ t.toNat ≤ n then t else t - 1)
  else (if d ≤ n * 2 ^ (-t).toNat then t else t - 1)

/-- floor(log2 v). -/
def log2 (v : Mag) : Int := (ratLog2 v.num v.den).fdiv v.root

end Mag

/-- Where v lies between floor(v / 2^q) and the next whole number: exact, below half, half, above. -/
inductive Rest
  | exact | below | half | above
  deriving DecidableEq, Repr

/-- floor(v / 2^q) and where the rest lies. -/
def Mag.split (v : Mag) (q : Int) : Nat × Rest :=
  let (f, ex) := v.floorAt q
  if ex then (f, .exact)
  else
    let (h, hex) := v.floorAt (q - 1)
    (f, if h = 2 * f then .below else if hex then .half else .above)

/-- The rounding attributes of R50 with defaults resolved. -/
inductive Round
  | rne | rna | rup | rdn | rtz | rto
  deriving DecidableEq, Repr

/-- R55: the whole number that rounding delivers for a magnitude f + rest of the given sign, and
whether the rounding was inexact. -/
def Round.apply (r : Round) (neg : Bool) (f : Nat) (rest : Rest) : Nat :=
  match rest with
  | .exact => f
  | rest =>
    match r with
    | .rne => if rest = .above ∨ (rest = .half ∧ f % 2 = 1) then f + 1 else f
    | .rna => if rest = .above ∨ rest = .half then f + 1 else f
    | .rup => if neg then f else f + 1
    | .rdn => if neg then f + 1 else f
    | .rtz => f
    | .rto => if f % 2 = 1 then f else f + 1

/-- Does the attribute round a magnitude of this sign toward zero, when it is directed? -/
def Round.inward (r : Round) (neg : Bool) : Bool :=
  match r with
  | .rtz | .rto => true
  | .rup => neg
  | .rdn => !neg
  | .rne | .rna => false

/-- The attribute of a `ROUND` encoding 0–5 (R50). -/
def Round.ofCode : Nat → Round
  | 1 => .rna | 2 => .rup | 3 => .rdn | 4 => .rtz | 5 => .rto | _ => .rne

def Round.code : Round → Nat
  | .rne => 0 | .rna => 1 | .rup => 2 | .rdn => 3 | .rtz => 4 | .rto => 5

end Sys2Proof.Machine
end

