-- ==== Sys2Proof/Machine/Formats.lean ====
section
/-! DEFINITION. Machine/Formats.lean: the fifteen formats and the value of every code
(02_number_formats.md, R20, R24–R37). -/
namespace Sys2Proof.Machine

/-- The format codes 0x0–0xE of R20. -/
inductive Fmt
  | fp64 | fp32 | bf16 | fp16 | e4m3 | e5m2 | e3m2 | e2m3 | e2m1 | int8 | int4 | int32 | lns8 | lns16 | e8m0
  deriving DecidableEq, Repr

def Fmt.ofCode : Nat → Option Fmt
  | 0 => some .fp64 | 1 => some .fp32 | 2 => some .bf16 | 3 => some .fp16 | 4 => some .e4m3
  | 5 => some .e5m2 | 6 => some .e3m2 | 7 => some .e2m3 | 8 => some .e2m1 | 9 => some .int8
  | 10 => some .int4 | 11 => some .int32 | 12 => some .lns8 | 13 => some .lns16 | 14 => some .e8m0
  | _ => none

def Fmt.code : Fmt → Nat
  | .fp64 => 0 | .fp32 => 1 | .bf16 => 2 | .fp16 => 3 | .e4m3 => 4 | .e5m2 => 5 | .e3m2 => 6
  | .e2m3 => 7 | .e2m1 => 8 | .int8 => 9 | .int4 => 10 | .int32 => 11 | .lns8 => 12 | .lns16 => 13
  | .e8m0 => 14

/-- Width in bits (R20). -/
def Fmt.width : Fmt → Nat
  | .fp64 => 64 | .fp32 => 32 | .bf16 => 16 | .fp16 => 16 | .e4m3 => 8 | .e5m2 => 8 | .e3m2 => 6
  | .e2m3 => 6 | .e2m1 => 4 | .int8 => 8 | .int4 => 4 | .int32 => 32 | .lns8 => 8 | .lns16 => 16
  | .e8m0 => 8

/-- Byte width with sub-byte formats counting as 1 (R90, R160). -/
def Fmt.byteWidth (f : Fmt) : Nat := if f.width < 8 then 1 else f.width / 8

/-- Elements of one packing group (R28, R29). -/
def Fmt.group : Fmt → Nat
  | .e2m1 | .int4 => 2
  | .e3m2 | .e2m3 => 4
  | _ => 1

/-- Bytes that `n` elements of one row take (R28–R30). -/
def Fmt.rowBytes (f : Fmt) (n : Nat) : Nat := ceilDiv (n * f.width) 8

def Fmt.isInt : Fmt → Bool
  | .int8 | .int4 | .int32 => true
  | _ => false

def Fmt.isLns : Fmt → Bool
  | .lns8 | .lns16 => true
  | _ => false

/-- The eight binary floating-point formats, counting FP64. -/
def Fmt.isFloat : Fmt → Bool
  | .fp64 | .fp32 | .bf16 | .fp16 | .e4m3 | .e5m2 | .e3m2 | .e2m3 | .e2m1 => true
  | _ => false

/-- The formats that fast mode flushes and strict mode rounds by IEEE 754 (R45, R46). -/
def Fmt.isIeee : Fmt → Bool
  | .fp64 | .fp32 | .bf16 | .fp16 => true
  | _ => false

/-- Exponent bits, fraction bits and bias of a float format (R24). -/
structure Layout where
  e : Nat
  m : Nat
  bias : Int
  deriving DecidableEq, Repr

def Fmt.layout : Fmt → Layout
  | .fp64 => ⟨11, 52, 1023⟩
  | .fp32 => ⟨8, 23, 127⟩
  | .bf16 => ⟨8, 7, 127⟩
  | .fp16 => ⟨5, 10, 15⟩
  | .e4m3 => ⟨4, 3, 7⟩
  | .e5m2 => ⟨5, 2, 15⟩
  | .e3m2 => ⟨3, 2, 3⟩
  | .e2m3 => ⟨2, 3, 1⟩
  | .e2m1 => ⟨2, 1, 1⟩
  | _ => ⟨8, 0, 127⟩

/-- A NaN: its sign and its fraction, aligned to 52 bits, the quiet bit at bit 51 (R25, R42). -/
structure NaN where
  neg : Bool
  payload : Nat
  deriving DecidableEq, Repr

def NaN.canonical : NaN := ⟨false, 2 ^ 51⟩
def NaN.signalling (n : NaN) : Bool := n.payload / 2 ^ 51 % 2 == 0
def NaN.quiet (n : NaN) : NaN := ⟨n.neg, if n.signalling then n.payload + 2 ^ 51 else n.payload⟩

/-- A decoded value. -/
inductive Val
  | nan (n : NaN)
  | inf (neg : Bool)
  | zero (neg : Bool)
  | fin (neg : Bool) (m : Mag)
  deriving DecidableEq, Repr

def Val.neg : Val → Bool
  | .nan n => n.neg | .inf s => s | .zero s => s | .fin s _ => s

def Val.isNan : Val → Bool
  | .nan _ => true
  | _ => false

def Val.abs : Val → Val
  | .nan n => .nan ⟨false, n.payload⟩ | .inf _ => .inf false | .zero _ => .zero false | .fin _ m => .fin false m

def Val.negate : Val → Val
  | .nan n => .nan ⟨!n.neg, n.payload⟩ | .inf s => .inf (!s) | .zero s => .zero (!s) | .fin s m => .fin (!s) m

def Val.one : Val := .fin false ⟨1, 1, 1⟩

/-- The value of an integer. -/
def Val.ofInt (i : Int) : Val :=
  if i = 0 then .zero false else .fin (i < 0) ⟨i.natAbs, 1, 1⟩

/-- R24, R25: the value of a float code. -/
def decodeFloat (f : Fmt) (c : Nat) : Val :=
  let l := f.layout
  let s := bit c (l.e + l.m)
  let ex := bits c (l.e + l.m - 1) l.m
  let fr := c % 2 ^ l.m
  let top := ex == 2 ^ l.e - 1
  let special := match f with
    | .e4m3 => top && fr == 7
    | .e3m2 | .e2m3 | .e2m1 => false
    | _ => top
  if special then
    match f with
    | .e4m3 | .e5m2 => if f = .e5m2 ∧ fr = 0 then .inf s else .nan ⟨s, 2 ^ 51 + fr % 2 ^ (l.m - 1) * 2 ^ (52 - l.m)⟩
    | _ => if fr = 0 then .inf s else .nan ⟨s, fr * 2 ^ (52 - l.m)⟩
  else if ex = 0 then
    if fr = 0 then .zero s else .fin s (Mag.scaled fr (1 - l.bias - l.m))
  else .fin s (Mag.scaled (2 ^ l.m + fr) ((ex : Int) - l.bias - l.m))

/-- The reading of a code: its value, and whether it was the reserved LNS16 code 0xFFFF (R33). -/
structure Decoded where
  val : Val
  invalidCode : Bool
  deriving DecidableEq, Repr

/-- R24–R37: the value of a code of a format, with the operand's `UNSIGNED` bit. -/
def decode (f : Fmt) (uns : Bool) (c0 : Nat) : Decoded :=
  let c := c0 % 2 ^ f.width
  match f with
  | .int8 | .int4 | .int32 =>
    ⟨Val.ofInt (if uns then (c : Int) else signed c f.width), false⟩
  | .lns8 =>
    let l := signed c 7
    if l = -64 then ⟨if bit c 7 then .nan NaN.canonical else .zero false, false⟩
    else ⟨.fin (bit c 7) (Mag.exp2 l 8), false⟩
  | .lns16 =>
    let l := signed c 15
    let s := bit c 15
    if l = -16384 then ⟨.zero s, false⟩
    else if l = 16383 then ⟨.inf s, false⟩
    else if l = -1 then ⟨.nan NaN.canonical, s⟩
    else ⟨.fin s (Mag.exp2 l 256), false⟩
  | .e8m0 => ⟨if c = 255 then .nan NaN.canonical else .fin false (Mag.pow2 ((c : Int) - 127)), false⟩
  | _ => ⟨decodeFloat f c, false⟩

/-- R42: the canonical NaN code of a format that has one. -/
def Fmt.canonicalNan : Fmt → Nat
  | .fp64 => 0x7FF8000000000000 | .fp32 => 0x7FC00000 | .bf16 => 0x7FC0 | .fp16 => 0x7E00 | .e4m3 => 0x7F
  | .e5m2 => 0x7E | .lns8 => 0xC0 | .lns16 => 0x7FFF | .e8m0 => 0xFF
  | _ => 0

/-- R43: the substitute code of a format that has no NaN. -/
def Fmt.nanSubstitute (f : Fmt) (uns : Bool) : Option Nat :=
  match f with
  | .e3m2 | .e2m3 | .e2m1 => some 0
  | .int8 => some (if uns then 0 else 0x80)
  | .int4 => some (if uns then 0 else 0x8)
  | .int32 => some (if uns then 0 else 0x80000000)
  | _ => none

/-- The largest finite significand and the exponent of its last place (R24, "Largest finite"). -/
def Fmt.maxFinite (f : Fmt) : Nat × Int :=
  let l := f.layout
  match f with
  | .e4m3 => (14, 5)
  | .e3m2 | .e2m3 | .e2m1 => (2 ^ (l.m + 1) - 1, (2 ^ l.e - 1 : Int) - l.bias - l.m)
  | _ => (2 ^ (l.m + 1) - 1, (2 ^ l.e - 2 : Int) - l.bias - l.m)

/-- The code of the largest finite magnitude of a float format, sign clear. -/
def Fmt.maxCode : Fmt → Nat
  | .fp64 => 0x7FEFFFFFFFFFFFFF | .fp32 => 0x7F7FFFFF | .bf16 => 0x7F7F | .fp16 => 0x7BFF | .e4m3 => 0x7E
  | .e5m2 => 0x7B | .e3m2 => 0x1F | .e2m3 => 0x1F | .e2m1 => 0x7 | .lns8 => 0x3F | .lns16 => 0x3FFE
  | .e8m0 => 0xFE | _ => 0

/-- The code of the infinity of a format that has one, sign clear. -/
def Fmt.infCode : Fmt → Nat
  | .fp64 => 0x7FF0000000000000 | .fp32 => 0x7F800000 | .bf16 => 0x7F80 | .fp16 => 0x7C00 | .e5m2 => 0x7C
  | .lns16 => 0x3FFF | .e4m3 => 0x7F | _ => 0

/-- Put a sign bit on a code. -/
def Fmt.withSign (f : Fmt) (neg : Bool) (c : Nat) : Nat := if neg then c + 2 ^ (f.width - 1) else c

/-- Bounds of an integer format (R26). -/
def Fmt.intRange (f : Fmt) (uns : Bool) : Int × Int :=
  if uns then (0, 2 ^ f.width - 1) else (-(2 ^ (f.width - 1)), 2 ^ (f.width - 1) - 1)

/-- Code of element `i` in a packed row (R28, R29): bits [w·i + w - 1 : w·i] of the row read
little-endian. -/
def elementCode (f : Fmt) (row : List Byte) (i : Nat) : Nat :=
  let lo := i * f.width
  let w := leNat (slice row (lo / 8) (f.width / 8 + 2))
  (w / 2 ^ (lo % 8)) % 2 ^ f.width

/-- Pack the codes of one row (R28–R30). -/
def packNat (f : Fmt) : List Nat → Nat
  | [] => 0
  | c :: cs => c % 2 ^ f.width + 2 ^ f.width * packNat f cs

def packRow (f : Fmt) (codes : List Nat) : List Byte := leBytes (f.rowBytes codes.length) (packNat f codes)

end Sys2Proof.Machine
end

