-- ==== Sys2Proof/Machine/Convert.lean ====
section
/-! DEFINITION. Machine/Convert.lean: rounding into every format, saturation, flush, amax and the
scale rule (03_conversion.md, R49–R66), and the exact arithmetic of values that the units share. -/
namespace Sys2Proof.Machine

/-- One delivered element: its code and the flags it raised. -/
structure Delivered where
  code : Nat
  conv : ConvFlags := {}
  ieee : IeeeFlags := {}
  deriving DecidableEq, Repr

/-- R42, R43: a NaN delivered into a format. -/
def deliverNan (f : Fmt) (uns strict : Bool) (n : NaN) : Delivered :=
  match f.nanSubstitute uns with
  | some c => { code := c, conv := { nanSubst := true } }
  | none =>
    if strict && f.isIeee then
      let q := n.quiet
      { code := f.withSign q.neg (f.infCode + q.payload / 2 ^ (52 - f.layout.m)),
        ieee := { invalid := n.signalling } }
    else { code := f.canonicalNan }

/-- R44: an infinity or a value beyond the range; `fin` says that it was finite. -/
def deliverBeyond (f : Fmt) (uns strict sat neg fin : Bool) : Delivered :=
  let io : IeeeFlags := if strict && f.isIeee && fin then { overflow := true, inexact := true } else {}
  match f with
  | .int8 | .int4 | .int32 =>
    let (lo, hi) := f.intRange uns
    { code := unsignedOf (if neg then lo else hi) f.width, conv := { saturated := true } }
  | .e3m2 | .e2m3 | .e2m1 | .lns8 => { code := f.withSign neg f.maxCode, conv := { saturated := true } }
  | .e8m0 =>
    if sat then { code := 0xFE, conv := { saturated := true } }
    else { code := 0xFF, conv := { overflow := true } }
  | .e4m3 =>
    if sat then { code := f.withSign neg f.maxCode, conv := { saturated := true } }
    else { code := f.withSign neg 0x7F, conv := { overflow := true } }
  | _ =>
    if sat then { code := f.withSign neg f.maxCode, conv := { saturated := true }, ieee := io }
    else { code := f.withSign neg f.infCode, conv := { overflow := fin }, ieee := io }

/-- Zero of a format (R41): the formats without a negative zero deliver their only zero. -/
def zeroCode (f : Fmt) (neg : Bool) : Nat :=
  match f with
  | .lns8 => 0x40
  | .lns16 => if neg then 0xC000 else 0x4000
  | .int8 | .int4 | .int32 | .e8m0 => 0
  | _ => f.withSign neg 0

/-- R55, R57–R59: a finite non-zero magnitude into a float format. -/
def roundFloat (f : Fmt) (r : Round) (sat strict neg : Bool) (v : Mag) : Delivered :=
  let l := f.layout
  let emin : Int := 1 - l.bias
  let q : Int := v.log2 - l.m
  let (uf, ur) := v.split q
  let u := r.apply neg uf ur
  let (mf, mq) := f.maxFinite
  let top := Mag.scaled mf mq
  let nearest := r == .rne || r == .rna
  -- R57: the rounding with an unbounded exponent range exceeds the largest finite value
  let above := if nearest then Mag.le (Mag.scaled (2 * mf + 1) (mq - 1)) v
    else Mag.lt top (Mag.scaled u q) && Mag.lt top v
  if above && (nearest || !(r.inward neg)) then deliverBeyond f false strict sat neg true
  else if above then
    { code := f.withSign neg f.maxCode, conv := { saturated := true },
      ieee := if strict && f.isIeee then { overflow := true, inexact := true } else {} }
  else
    let tiny := Mag.lt (Mag.scaled u q) (Mag.pow2 emin)
    if !strict && tiny && f.isIeee && f != .fp64 then
      { code := f.withSign neg 0, conv := { flushed := true } }
    else
      let qb := if q < emin - l.m then emin - l.m else q
      let (bf, br) := v.split qb
      let b := r.apply neg bf br
      -- b counts units of 2^qb: below 2^m it is a subnormal, at 2^(m+1) the next binade
      let code := if qb = emin - l.m then b
        else (qb + l.m + l.bias).toNat * 2 ^ l.m + (b - 2 ^ l.m)
      let inexact := br != .exact
      { code := f.withSign neg code, conv := { underflow := b == 0 },
        ieee := if strict && f.isIeee then { inexact := inexact, underflow := tiny && inexact && b != 0 } else {} }

/-- R53, R58: a finite non-zero magnitude into an integer format; whatever delivers the zero raises `UNDERFLOW`,
a negative value into an unsigned format too. -/
def roundInt (f : Fmt) (uns : Bool) (r : Round) (neg : Bool) (v : Mag) : Delivered :=
  let (i, rest) := v.split 0
  let n := r.apply neg i rest
  let x : Int := if neg then -(n : Int) else n
  let (lo, hi) := f.intRange uns
  if x < lo ∨ hi < x then
    let d := deliverBeyond f uns false false neg true
    { d with conv := { d.conv with underflow := d.code == 0 } }
  else { code := unsignedOf x f.width, conv := { underflow := n == 0 } }

/-- Steps, smallest and largest log field of a logarithmic format (R31, R32). -/
def lnsShape (f : Fmt) : Nat × Int × Int := if f = .lns8 then (8, -63, 63) else (256, -16383, 16382)

/-- Code of an LNS number with log field l. -/
def lnsCode (f : Fmt) (neg : Bool) (l : Int) : Nat := f.withSign neg (unsignedOf l (f.width - 1))

/-- R34, R60: a finite non-zero magnitude into a logarithmic format. -/
def roundLns (f : Fmt) (r : Round) (sat neg : Bool) (v : Mag) : Delivered :=
  let (n, lo, hi) := lnsShape f
  let p := v.pow n
  let fl := p.log2
  let h := (v.pow (2 * n)).log2
  let ex := Mag.eq p (Mag.pow2 fl)
  let rest : Rest := if ex then .exact
    else if h < 2 * fl + 1 then .below
    else if Mag.eq (v.pow (2 * n)) (Mag.pow2 (2 * fl + 1)) then .half else .above
  let up : Bool := match rest with
    | .exact => false
    | rest => match r with
      | .rne => rest == .above || (rest == .half && fl % 2 != 0)
      -- DEDUCED: R60's example takes the log field of larger magnitude on a tie away (log entry 12)
      | .rna => rest == .above || (rest == .half && 0 ≤ fl)
      | .rup => !neg
      | .rdn => neg
      | _ => false
  let L := if up then fl + 1 else fl
  let nearest := r == .rne || r == .rna
  let beyond := if nearest then 2 * hi + 1 ≤ h else hi < L
  if beyond && (nearest || !(r.inward neg)) then deliverBeyond f false false sat neg true
  else if beyond then { code := f.withSign neg f.maxCode, conv := { saturated := true } }
  else if Mag.lt v (Mag.exp2 lo n) then
    let keep := if nearest then Mag.le (Mag.mul (Mag.exp2 lo n) ⟨1, 2, 1⟩) v else !(r.inward neg)
    if keep then { code := lnsCode f neg lo }
    else { code := zeroCode f neg, conv := { underflow := true } }
  else if hi < L then { code := f.withSign neg f.maxCode }
  else if f = .lns16 ∧ L = -1 then
    -- R34: L = −1 is reserved at either sign
    let l' : Int := match r with
      | .rne | .rna => if Mag.le (Mag.exp2 (-1) 256) v then 0 else -2
      | .rup => if neg then -2 else 0
      | .rdn => if neg then 0 else -2
      | _ => -2
    { code := lnsCode f neg l' }
  else { code := lnsCode f neg L }

/-- R61 and the note to R44: a positive magnitude into E8M0. An exponent code above 254 is beyond the range under
every attribute. -/
def roundE8m0 (r : Round) (sat : Bool) (v : Mag) : Delivered :=
  let k := v.log2
  let half := Mag.scaled 3 (k - 1)
  let ex := Mag.eq v (Mag.pow2 k)
  let tie := Mag.eq v half
  let up : Bool := if ex then false else match r with
    | .rne => Mag.lt half v || (tie && (k + 127) % 2 != 0)
    | .rna => Mag.le half v
    | .rup => true
    | .rto => (k + 127) % 2 == 0
    | _ => false
  let nearest := r == .rne || r == .rna
  let e := (if up then k + 1 else k) + 127
  if k < -127 then { code := 0, conv := { underflow := true } }
  else if 254 < e ∨ (nearest ∧ Mag.le (Mag.scaled 3 126) v) then deliverBeyond .e8m0 false false sat false true
  else { code := e.toNat }

/-- R55: deliver an exact value into a format under a rounding attribute, a saturate bit and the
command's mode. -/
def deliver (f : Fmt) (uns : Bool) (r : Round) (sat strict : Bool) (v : Val) : Delivered :=
  match v with
  | .nan n => deliverNan f uns strict n
  | .inf s =>
    if f = .e8m0 ∧ s then { code := 0xFF, conv := { invalid := true } }
    else deliverBeyond f uns strict sat s false
  | .zero s =>
    if f = .e8m0 then { code := 0, conv := { invalid := true } } else { code := zeroCode f s }
  | .fin s m =>
    match f with
    | .int8 | .int4 | .int32 => roundInt f uns r s m
    | .lns8 | .lns16 => roundLns f r sat s m
    | .e8m0 => if s then { code := 0xFF, conv := { invalid := true } } else roundE8m0 r sat m
    | _ => roundFloat f r sat strict s m

/-- A value read from storage and the flags its reading raised. -/
structure Read where
  val : Val
  conv : ConvFlags := {}
  deriving DecidableEq, Repr

/-- Is a finite value subnormal in a format? -/
def isSubnormal (f : Fmt) (m : Mag) : Bool := Mag.lt m (Mag.pow2 (1 - f.layout.bias))

/-- R33, R59: read an element; in fast mode a subnormal FP32, BF16 or FP16 element is a zero. -/
def readElem (f : Fmt) (uns strict : Bool) (c : Nat) : Read :=
  let d := decode f uns c
  let cf : ConvFlags := { invalidCode := d.invalidCode }
  match d.val with
  | .fin s m =>
    if !strict && f.isIeee && isSubnormal f m then { val := .zero s, conv := { cf with flushed := true } }
    else { val := .fin s m, conv := cf }
  | v => { val := v, conv := cf }

/-! ### Exact arithmetic of values, with the special cases of IEEE 754-2019 -/

/-- The exact result of an operation and whether it was an invalid operation. -/
structure Exact where
  val : Val
  invalid : Bool := false
  divZero : Bool := false
  deriving DecidableEq, Repr

/-- R42: a result that is one of its NaN inputs. -/
def pickNan (a b : NaN) : NaN :=
  if Config.nanFirst (a.payload + 2 ^ 52 * boolNat a.neg) (b.payload + 2 ^ 52 * boolNat b.neg) then a.quiet else b.quiet

/-- NaN handling of a two-operand operation; none when neither is a NaN. -/
def nan2 (a b : Val) : Option Exact :=
  match a, b with
  | .nan x, .nan y => some { val := .nan (pickNan x y), invalid := x.signalling || y.signalling }
  | .nan x, _ => some { val := .nan x.quiet, invalid := x.signalling }
  | _, .nan y => some { val := .nan y.quiet, invalid := y.signalling }
  | _, _ => none

def newNan : Exact := { val := .nan NaN.canonical, invalid := true }

/-- Exact product (R39, R77): the sign is the exclusive OR, zero times infinity is NaN. -/
def mulX (a b : Val) : Exact :=
  match nan2 a b with
  | some r => r
  | none =>
    let s := a.neg != b.neg
    match a, b with
    | .inf _, .zero _ | .zero _, .inf _ => newNan
    | .inf _, _ | _, .inf _ => { val := .inf s }
    | .zero _, _ | _, .zero _ => { val := .zero s }
    | .fin _ m, .fin _ n => { val := .fin s (m.mul n) }
    | _, _ => newNan

/-- Exact sum of two rational magnitudes with signs; an exact zero takes the sign of R41: +0, or −0
when rounding toward −∞ (`rdn`). -/
def sumFin (rdn : Bool) (s : Bool) (m : Mag) (t : Bool) (n : Mag) : Val :=
  let a := m.num * n.den
  let b := n.num * m.den
  let d := m.den * n.den
  if s = t then .fin s ⟨a + b, d, 1⟩
  else if a = b then .zero rdn
  else if b < a then .fin s ⟨a - b, d, 1⟩ else .fin t ⟨b - a, d, 1⟩

/-- Exact sum. -/
def addX (rdn : Bool) (a b : Val) : Exact :=
  match nan2 a b with
  | some r => r
  | none =>
    match a, b with
    | .inf s, .inf t => if s = t then { val := .inf s } else newNan
    | .inf s, _ => { val := .inf s }
    | _, .inf t => { val := .inf t }
    | .zero s, .zero t => { val := .zero (if s = t then s else rdn) }
    | .zero _, y => { val := y }
    | x, .zero _ => { val := x }
    | .fin s m, .fin t n => { val := sumFin rdn s m t n }
    | _, _ => newNan

/-- Exact difference. A NaN subtrahend keeps its sign (R42). -/
def subX (rdn : Bool) (a b : Val) : Exact := addX rdn a (if b.isNan then b else b.negate)

/-- Exact fused multiply-add a × b + c. DESIGN CHOICE: IEEE 754-2019 leaves open whether
fusedMultiplyAdd(0, ∞, quiet NaN) is an invalid operation, and R79 does not say; the product raises it (log entry 135). -/
def fmaX (rdn : Bool) (a b c : Val) : Exact :=
  let p := mulX a b
  match c with
  | .nan y =>
    match a, b with
    | .nan _, _ | _, .nan _ =>
      let r := addX rdn p.val c
      { r with invalid := r.invalid || p.invalid || y.signalling }
    | _, _ => { val := .nan y.quiet, invalid := p.invalid || y.signalling }
  | _ =>
    let r := addX rdn p.val c
    { r with invalid := r.invalid || p.invalid }

/-- Exact quotient. -/
def divX (a b : Val) : Exact :=
  match nan2 a b with
  | some r => r
  | none =>
    let s := a.neg != b.neg
    match a, b with
    | .inf _, .inf _ | .zero _, .zero _ => newNan
    | .inf _, _ => { val := .inf s }
    | _, .inf _ => { val := .zero s }
    | .zero _, _ => { val := .zero s }
    | .fin _ _, .zero _ => { val := .inf s, divZero := true }
    | .fin _ m, .fin _ n => { val := .fin s (m.div n) }
    | _, _ => newNan

/-- Exact square root. -/
def sqrtX (a : Val) : Exact :=
  match a with
  | .nan x => { val := .nan x.quiet, invalid := x.signalling }
  | .inf false => { val := .inf false }
  | .zero s => { val := .zero s }
  | .fin false m => { val := .fin false m.sqrt }
  | _ => newNan

/-- IEEE 754-2019 order of two values that are not NaN: a < b, with −0 and +0 equal (R40). -/
def Val.lt (a b : Val) : Bool :=
  match a, b with
  | .nan _, _ | _, .nan _ => false
  | .inf s, .inf t => s && !t
  | .inf s, _ => s
  | _, .inf t => !t
  | .zero _, .zero _ => false
  | .zero _, .fin t _ => !t
  | .fin s _, .zero _ => s
  | .fin s m, .fin t n => if s = t then (if s then Mag.lt n m else Mag.lt m n) else s

/-- R40: the IEEE 754-2019 maximum; −0 counts below +0, a NaN gives NaN. -/
def maxX (a b : Val) : Exact :=
  match nan2 a b with
  | some r => r
  | none =>
    match a, b with
    | .zero s, .zero t => { val := .zero (s && t) }
    | _, _ => { val := if Val.lt a b then b else a }

/-- R40: the IEEE 754-2019 minimum. -/
def minX (a b : Val) : Exact :=
  match nan2 a b with
  | some r => r
  | none =>
    match a, b with
    | .zero s, .zero t => { val := .zero (s || t) }
    | _, _ => { val := if Val.lt b a then b else a }

/-! ### Operations that round -/

/-- A value held in a register of the datapath and the IEEE flags the operation raised. -/
structure Rounded where
  val : Val
  ieee : IeeeFlags := {}
  conv : ConvFlags := {}
  deriving DecidableEq, Repr

/-- Round an exact result once into a working format (FP32 or FP64). In fast mode a result below
2^−126 is a zero of its sign (R59, R78); in strict mode the IEEE flags are gathered. -/
def roundWork (f : Fmt) (strict : Bool) (r : Round) (x : Exact) : Rounded :=
  let d := deliver f false r false strict x.val
  let fl : IeeeFlags := if strict then
      { d.ieee with
        invalid := d.ieee.invalid || x.invalid, divZero := x.divZero }
    else {}
  { val := (decode f false d.code).val, ieee := fl, conv := { flushed := d.conv.flushed } }

/-- R436: bring an input value into the working format. -/
def toWork (w : Fmt) (src : Fmt) (strict : Bool) (v : Val) : Rounded :=
  if src.isLns || src == .int32 then
    match v with
    | .fin s m => roundWork w strict .rne { val := .fin s m }
    | _ => { val := v }
  else { val := v }

/-! ### amax (R62) and the scale rule (R64) -/

/-- R62: the running amax of a tensor or a row, as an exact value; NaN elements are excluded. -/
def amaxStep (a v : Val) : Val := match v with
  | .nan _ => a
  | v => (maxX a v.abs).val

/-- R62: an amax delivered in FP32, rounded toward +∞, never flushed. -/
def amaxCode (a : Val) : Nat := (deliver .fp32 false .rup false true a).code

/-- Largest finite value of a `QUANTISE` destination as the default target T (R64). -/
def targetOf (f : Fmt) (uns : Bool) : Val :=
  match f with
  | .int8 | .int4 | .int32 => Val.ofInt (f.intRange uns).2
  | .lns8 => .fin false (Mag.exp2 63 8)
  | .lns16 => .fin false (Mag.exp2 16382 256)
  | _ => let (m, q) := f.maxFinite; .fin false (Mag.scaled m q)

/-- R64: derive_scale. `e8` names the E8M0 scale format. The result is the scale's code. -/
def deriveScale (e8 strict : Bool) (a T : Val) : Delivered :=
  match a with
  | .zero _ => { code := if e8 then 127 else 0x3F800000 }
  | _ =>
    let r : Val := match a with
      | .inf _ => .inf false
      | a => (divX a.abs T).val
    if e8 then
      match r with
      | .fin _ m =>
        let k0 := m.log2
        let k := if Mag.eq m (Mag.pow2 k0) then k0 else k0 + 1
        if 127 < k then { code := 254, conv := { saturated := true } }
        else if k < -127 then { code := 0 } else { code := (k + 127).toNat }
      | _ => { code := 254, conv := { saturated := true } }
    else
      let d := deliver .fp32 false .rup false true r
      if d.code = 0x7F800000 then { code := 0x7F7FFFFF, conv := { saturated := true } }
      else if !strict && d.code < 0x00800000 then { code := 0x00800000 } else { code := d.code }

end Sys2Proof.Machine
end

