-- ==== Sys2Proof/Machine/Operands.lean ====
section
/-! DEFINITION. Machine/Operands.lean: operand type words (R21–R23, R30, R38), conversion control
words (R50–R52) and their issue checks. A check answers the list of codes that hold; the engine
reports the lowest (R22, R270). -/
namespace Sys2Proof.Machine

/-- The lowest code of a list, none when it is empty. -/
def lowest : List Nat → Option Nat
  | [] => none
  | c :: cs => match lowest cs with
    | none => some c
    | some d => some (if c ≤ d then c else d)

/-- A code that holds when the condition does. -/
def cond (b : Bool) (code : Nat) : List Nat := if b then [code] else []

/-- An operand type word (R21), read. -/
structure OpType where
  fmt : Fmt := .fp64
  uns : Bool := false
  /-- 0 none, 1 per row, 2 per output channel -/
  grain : Nat := 0
  /-- 0 E8M0, 1 FP32 -/
  scaleFp32 : Bool := false
  deriving DecidableEq, Repr

/-- The reading of a 16-bit type word; an unreadable format reads as FP64, and `typeCodes` refuses it. -/
def OpType.ofWord (w : Nat) : OpType :=
  { fmt := (Fmt.ofCode (bits w 3 0)).getD .fp64, uns := bit w 4, grain := bits w 7 6, scaleFp32 := bit w 8 }

/-- The type word of a reading. -/
def OpType.word (t : OpType) : Nat := t.fmt.code + 16 * boolNat t.uns + 64 * t.grain + 256 * boolNat t.scaleFp32

/-- Format of the scale vector. -/
def OpType.scaleFmt (t : OpType) : Fmt := if t.scaleFp32 then .fp32 else .e8m0

/-- The roles of R23. -/
inductive Role
  | operand | product | millIn | millOut
  deriving DecidableEq, Repr

/-- R23: may a format stand in a role? (The marks "strict only" are not part of this test.) -/
def roleAllows : Role → Fmt → Bool
  | .operand, .int32 | .operand, .e8m0 => false
  | .operand, _ => true
  | .product, .e3m2 | .product, .e2m3 | .product, .e2m1 | .product, .int4 | .product, .e8m0 => false
  | .product, _ => true
  | .millIn, .e8m0 => false
  | .millIn, _ => true
  | .millOut, .e3m2 | .millOut, .e2m3 | .millOut, .e2m1 | .millOut, .int4 | .millOut, .e8m0 => false
  | .millOut, _ => true

/-- R38: formats that may carry a scale as an operand. -/
def scalable : Fmt → Bool
  | .e4m3 | .e5m2 | .e3m2 | .e2m3 | .e2m1 | .int8 | .int4 | .bf16 | .fp16 => true
  | _ => false

/-- R22 rows 0x2101 and 0x2102: the words' own form. -/
def typeFormCodes (w : Nat) : List Nat :=
  let f := Fmt.ofCode (bits w 3 0)
  cond (bits w 15 9 != 0 || bit w 5 || f.isNone || bits w 7 6 == 3) 0x2101 ++
  cond (bit w 4 && !((f.map Fmt.isInt).getD true)) 0x2102

/-- R22: the codes one type word breaks: its role, the grain its place permits (0 for none),
the innermost dimension of its tensor and the command's mode. -/
def typeCodes (w : Nat) (role : Role) (grain : Nat) (inner : Nat) (strict : Bool) : List Nat :=
  let t := OpType.ofWord w
  typeFormCodes w ++
  (match Fmt.ofCode (bits w 3 0) with
   | none => []
   | some f =>
    cond (!roleAllows role f) 0x2103 ++
    cond (f == .fp64 && !strict) 0x2104 ++
    cond (inner % f.group != 0) 0x2105 ++
    cond (t.grain != 0 && (t.grain != grain || !scalable f)) 0x2106)

/-- A conversion with defaults resolved (R52). -/
structure Conv where
  round : Round := .rne
  sat : Bool := false
  amaxTensor : Bool := false
  amaxRow : Bool := false
  deriving DecidableEq, Repr

/-- The defaults of R52 as sampled at issue: `DEFAULT_ROUND` and `DEFAULT_SATURATE`. -/
structure ConvDefaults where
  round : Nat := 0
  sat : Bool := true
  deriving DecidableEq, Repr

/-- R50, R52: read a conversion control word, resolving 0b111 and 0b10. -/
def Conv.ofWord (d : ConvDefaults) (w : Nat) : Conv :=
  { round := Round.ofCode (if bits w 5 3 = 7 then d.round else bits w 5 3),
    sat := if bits w 7 6 = 2 then d.sat else bits w 7 6 == 1,
    amaxTensor := bit w 8, amaxRow := bit w 9 }

/-- R62: does the conversion gather an amax? -/
def Conv.gathers (c : Conv) : Bool := c.amaxTensor || c.amaxRow

/-- The nibble of `CONV_RESOLVED` (R272). -/
def Conv.nibble (c : Conv) : Nat := 8 * boolNat c.sat + c.round.code

/-- R51: the codes a conversion word breaks for its destination and mode. -/
def convCodes (d : ConvDefaults) (w : Nat) (dst : Fmt) (strict : Bool) : List Nat :=
  let c := Conv.ofWord d w
  cond (bits w 15 10 != 0 || bits w 2 0 != 0 || bits w 7 6 == 3 || bits w 5 3 == 6) 0x2107 ++
  cond (!strict && (dst == .fp32 || dst == .bf16 || dst == .fp16) && c.round != .rne && c.round != .rto) 0x2108 ++
  cond (c.round == .rto && !dst.isIeee) 0x2109

/-! ### Reading scaled elements -/

/-- R39: read a shared scale; a subnormal FP32 scale is flushed in fast mode. -/
def readScale (fp32 strict : Bool) (c : Nat) : Read :=
  if fp32 then readElem .fp32 false strict c else readElem .e8m0 false strict c

/-- R39: the value an element stands for, as an IEEE 754 product with its scale. -/
def applyScale (v : Val) : Option Val → Exact
  | none => { val := v }
  | some s => mulX v s

/-! ### A rounded tensor row -/

/-- What a conversion of one row delivers: the codes, and the exact amax over the row (R62). -/
structure RowOut where
  codes : List Nat := []
  amax : Val := .zero false
  g : Gather := {}
  deriving DecidableEq, Repr

/-- R55: the exact value that is rounded, `x` divided by the destination scale `sc`, with the exceptions of both. -/
def overScale (x : Exact) (sc : Val) : Exact :=
  match sc with
  | .fin false ⟨1, 1, 1⟩ => x
  | sc =>
    let q := divX x.val sc
    { q with invalid := q.invalid || x.invalid, divZero := q.divZero || x.divZero }

/-- R55, R62: convert one element, `x` before division by the destination scale `sc`. `pre` and `preI` are what the
element's earlier roundings raised. The IEEE flags of the operation itself are gathered in strict mode (R47). -/
def RowOut.push (o : RowOut) (t : OpType) (c : Conv) (strict amax : Bool) (x : Exact) (sc : Val) (pre : ConvFlags)
    (preI : IeeeFlags) : RowOut :=
  let y := overScale x sc
  let d := deliver t.fmt t.uns c.round c.sat strict y.val
  let op : IeeeFlags := if strict then { invalid := y.invalid, divZero := y.divZero } else {}
  let skip : ConvFlags := { amaxNan := amax && x.val.isNan }
  { codes := o.codes ++ [d.code], amax := if amax then amaxStep o.amax x.val else o.amax,
    g := o.g.element ((d.conv.or pre).or skip) ((d.ieee.or op).or preI) }

end Sys2Proof.Machine
end

