-- ==== Sys2Proof/Machine/Thresher.lean ====
section
/-! DEFINITION. Machine/Thresher.lean: the arithmetic of the matrix units (04_thresher.md): operand
pairs and paths (R71, R75), group sums (R76–R78), strict sequential accumulation (R79, R80), integer
accumulation (R81), the log-domain path (R82, R83), the tally column (R84), scales at drain (R86) and
split reductions (R92). By R89 a result depends on no loop order, so none appears here. -/
namespace Sys2Proof.Machine

/-- A tensor as read: its type word, the codes of its rows, its scale codes. -/
structure Tensor where
  ty : OpType := {}
  rows : List (List Nat) := []
  scales : List Nat := []
  deriving DecidableEq, Repr

/-- The paths of R71. -/
inductive Path
  | float | strict32 | strict64 | int | log
  deriving DecidableEq, Repr

/-- `ACC_FORMAT` of a path (R74). -/
def Path.acc : Path → Nat
  | .strict64 => 1 | .int => 2 | _ => 0

def Path.accFmt : Path → Fmt
  | .strict64 => .fp64 | .int => .int32 | _ => .fp32

/-- R82: what the operand converter accepts. -/
def converterAccepts (f : Fmt) : Bool :=
  f.isLns || f == .e4m3 || f == .e5m2 || f == .bf16 || f == .fp16

/-- A float format up to FP32. -/
def upToFp32 (f : Fmt) : Bool := f.isFloat && f != .fp64

/-- R71: the path of an operand pair, or the refusal code. -/
def pairPath (a b : Fmt) (strict : Bool) : Except Nat Path :=
  if a.isLns || b.isLns then
    if converterAccepts a && converterAccepts b then .ok .log else .error 0x2202
  else if (a == .int8 || a == .int4) && (b == .int8 || b == .int4) then .ok .int
  else if upToFp32 a && upToFp32 b then .ok (if strict then .strict32 else .float)
  else if a == .fp64 && b == .fp64 && strict then .ok .strict64
  else .error 0x2201

/-- The product control word (R74), read. -/
structure ProductControl where
  blockM : Nat
  splitK : Nat
  loopOrder : Bool
  leftMajor : Bool
  tally : Bool
  accInit : Bool
  accFormat : Nat
  logPath : Bool
  reserved : Bool
  deriving DecidableEq, Repr

def ProductControl.ofWord (w : Nat) : ProductControl :=
  { blockM := bits w 25 20, splitK := bits w 19 18, loopOrder := bit w 17, leftMajor := bit w 16,
    tally := bit w 15, accInit := bit w 14, accFormat := bits w 13 12, logPath := bit w 11,
    reserved := bits w 31 26 != 0 || bits w 10 0 != 0 }

/-- Parts of a split reduction (R92). -/
def ProductControl.parts (p : ProductControl) : Nat := 2 ^ p.splitK

/-- R75: formats of the accumulate-into tensor for an accumulator. -/
def accIntoAllowed (p : Path) (t : OpType) : Bool :=
  match p with
  | .int => (t.fmt == .int32 && !t.uns) || t.fmt == .int8 || t.fmt == .int4
  | .strict64 => t.fmt.isFloat
  | _ => upToFp32 t.fmt

/-- R90: live-tile demand and capacity. -/
def liveTiles (p : ProductControl) : Nat := if p.loopOrder then p.blockM + 1 else 1
def slotCapacity (fp64 : Bool) : Nat := if fp64 then 4 else 8

/-- R90: Loft rows of the spill area for a demand. -/
def spillRows (demand : Nat) (fp64 : Bool) : Nat :=
  let c := slotCapacity fp64
  if demand ≤ c then 0 else (demand - (c - 1)) * (if fp64 then 66 else 34)

/-! ### Products and sums -/

/-- R83: the D table: 2^(f/steps) at 24 significant bits, to nearest. -/
def dTable (steps f : Nat) : Mag :=
  let (k, rest) := (Mag.exp2 f steps).split (-23)
  Mag.scaled (Round.rne.apply false k rest) (-23)

/-- R83, R35: the product of two LNS codes as an exact binary value. `both8` names a pair of LNS8
operands, whose fields have eight steps. -/
def logProduct (both8 : Bool) (a b : Nat) : Val :=
  let f : Fmt := if both8 then .lns8 else .lns16
  let x := (decode f false a).val
  let y := (decode f false b).val
  match x, y with
  | .fin s _, .fin t _ =>
    let steps : Nat := if both8 then 8 else 256
    let l : Int := if both8 then signed a 7 + signed b 7 else signed a 15 + signed b 15
    .fin (s != t) ((dTable steps (l.emod steps).toNat).mul (Mag.pow2 (l.fdiv steps)))
  | _, _ => (mulX x y).val

/-- R82: the operand converter: an operand code of any accepted format to LNS16, with its flags. -/
def convertOnLoad (t : OpType) (strict : Bool) (c : Nat) : Nat × ConvFlags :=
  match t.fmt with
  | .lns16 => (c, (readElem .lns16 false strict c).conv)
  | _ =>
    let r := readElem t.fmt t.uns strict c
    let d := deliver .lns16 false .rne false strict r.val
    (d.code, r.conv.or d.conv)

/-- Sum of t_i over a group (R77): the signed truncated multiples of 2^q. -/
def windowSum (q : Int) : List Val → Int
  | [] => 0
  | .fin s m :: ps =>
    let t : Int := (m.floorAt q).1
    (if s then -t else t) + windowSum q ps
  | _ :: ps => windowSum q ps

/-- Largest floor(log2 |p|) over the non-zero products of a group. -/
def topExp : List Val → Option Int
  | [] => none
  | .fin _ m :: ps => match topExp ps with
    | none => some m.log2
    | some e => some (if e < m.log2 then m.log2 else e)
  | _ :: ps => topExp ps

/-- R77: the sum of one group of products. -/
def groupSum (ps : List Val) : Val :=
  let hasInf (s : Bool) := ps.any fun p => p == Val.inf s
  if ps.any Val.isNan || (hasInf false && hasInf true) then .nan NaN.canonical
  else if hasInf false then .inf false
  else if hasInf true then .inf true
  else match topExp ps with
    | none => .zero (ps.all fun p => p == Val.zero true)
    | some e =>
      let w := windowSum (e - 56) ps
      if w = 0 then .zero false else .fin (w < 0) (Mag.scaled w.natAbs (e - 56))

/-- R76: cut the products into groups of 32; the last is completed with +0. -/
def groups (fuel : Nat) (ps : List Val) : List (List Val) :=
  match fuel, ps with
  | 0, _ => []
  | _, [] => []
  | fuel + 1, ps =>
    let g := ps.take 32
    (g ++ List.replicate (32 - g.length) (Val.zero false)) :: groups fuel (ps.drop 32)

/-- A value accumulated, with the flags gathered. -/
structure Acc where
  val : Val := .zero false
  g : Gather := {}
  deriving DecidableEq, Repr

/-- R78: acc := round(acc + G), to nearest even in FP32. -/
def accAdd (strict : Bool) (a : Acc) (x : Val) : Acc :=
  let r := roundWork .fp32 strict .rne (addX false a.val x)
  { val := r.val, g := a.g.op r.ieee }

/-- R79, R80: one fused multiply-add of strict accumulation. -/
def accFma (f : Fmt) (r : Round) (a : Acc) (x y : Val) : Acc :=
  let e := fmaX (r == .rdn) x y a.val
  let d := roundWork f true r e
  { val := d.val, g := a.g.op d.ieee }

/-- R81: saturating INT32 addition. Its flag counts once for the output element (`Acc.counted`). -/
def accInt (a : Acc) (x : Int) : Acc :=
  let cur : Int := match a.val with
    | .fin s m => if s then -(m.num / m.den : Nat) else (m.num / m.den : Nat)
    | _ => 0
  let t := cur + x
  if t < -(2 ^ 31) then { val := Val.ofInt (-(2 ^ 31)), g := a.g.saturate }
  else if 2 ^ 31 - 1 < t then { val := Val.ofInt (2 ^ 31 - 1), g := a.g.saturate }
  else { val := Val.ofInt t, g := a.g }

/-- The integer value of an exact integer product or element. -/
def Val.toInt : Val → Int
  | .fin s m => if s then -(m.num / m.den : Nat) else (m.num / m.den : Nat)
  | _ => 0

/-- R80: the attribute of strict accumulation. -/
def strictRound (r : Round) : Round := if r = .rto then .rne else r

/-- One part of a reduction from a start value (R76–R81, R83). `a` and `b` are the operand codes'
readings: values for the float and integer paths; for the log path the exact products come ready. -/
def reducePart (p : Path) (strict : Bool) (r : Round) (start : Acc) (prods : List (Val × Val)) : Acc :=
  match p with
  | .strict32 => prods.foldl (fun acc xy => accFma .fp32 (strictRound r) acc xy.1 xy.2) start
  | .strict64 => prods.foldl (fun acc xy => accFma .fp64 (strictRound r) acc xy.1 xy.2) start
  | .int => (groups (prods.length + 1) (prods.map fun xy => (mulX xy.1 xy.2).val)).foldl
      (fun acc g => accInt acc ((g.map Val.toInt).foldl (· + ·) 0)) start
  | .float => (groups (prods.length + 1) (prods.map fun xy => (mulX xy.1 xy.2).val)).foldl
      (fun acc g => accAdd false acc (groupSum g)) start
  | .log => (groups (prods.length + 1) (prods.map Prod.fst)).foldl
      (fun acc g => accAdd strict acc (groupSum g)) start

/-- R92: combine two partial tiles in the accumulator format. -/
def combineParts (p : Path) (strict : Bool) (r : Round) (a b : Acc) : Acc :=
  match p with
  | .int => { (accInt a b.val.toInt) with g := (accInt a b.val.toInt).g.merge b.g }
  | .strict32 | .strict64 =>
    let d := roundWork p.accFmt true (strictRound r) (addX (strictRound r == .rdn) a.val b.val)
    { val := d.val, g := (a.g.op d.ieee).merge b.g }
  | _ => { (accAdd strict a b.val) with g := (accAdd strict a b.val).g.merge b.g }

/-- R66: an output element that saturated on the way counts as one. -/
def Acc.counted (a : Acc) : Acc := { a with g := { a.g with nSaturated := boolNat a.g.conv.saturated } }

/-- R92: the products of part i when nK tiles of 64 are cut into s parts. -/
def partOf (s i : Nat) (k : Nat) (prods : List (Val × Val)) : List (Val × Val) :=
  let c := ceilDiv (ceilDiv k 64) s
  (prods.drop (i * c * 64)).take (c * 64)

/-- One output element over the whole reduction, split into s parts. -/
def reduceAll (p : Path) (strict : Bool) (r : Round) (s : Nat) (start : Acc) (prods : List (Val × Val)) : Acc :=
  let part (i : Nat) (st : Acc) := reducePart p strict r st (partOf s i prods.length prods)
  Acc.counted <| if s = 1 then reducePart p strict r start prods
  else (List.range (s - 1)).foldl (fun acc i => combineParts p strict r acc (part (i + 1) {})) (part 0 start)

/-- One operand row, read: the codes' values, with the flags of the reading. On the log path the
codes become LNS16 codes (or stay LNS8 where both operands are LNS8). -/
structure OperandRow where
  codes : List Nat := []
  vals : List Val := []
  g : Gather := {}
  deriving DecidableEq, Repr

def readOperandRow (p : Path) (both8 strict : Bool) (t : OpType) (codes : List Nat) : OperandRow :=
  if p = .log then
    codes.foldl (fun o c =>
      if both8 then { o with codes := o.codes ++ [c] }
      else
        let (d, fl) := convertOnLoad t strict c
        { o with
          codes := o.codes ++ [d], g := o.g.element fl {} }) {}
  else
    codes.foldl (fun o c =>
      let r := readElem t.fmt t.uns strict c
      { o with
        vals := o.vals ++ [r.val], g := o.g.element r.conv {} }) {}

/-- The paired operands of one output element. -/
def pairs (p : Path) (both8 : Bool) (a b : OperandRow) : List (Val × Val) :=
  if p = .log then (List.zip a.codes b.codes).map fun xy => (logProduct both8 xy.1 xy.2, Val.one)
  else List.zip a.vals b.vals

/-- Column j of a matrix held by rows. -/
def column (rows : List (List Nat)) (j : Nat) : List Nat := rows.map fun r => r.getD j 0

/-- R86: the drained value of an accumulator element under shared scales. -/
def drain (strict : Bool) (scaled : Bool) (sa sb : Val) (acc : Acc) : Acc :=
  if scaled then
    let x := mulX sa sb
    let y := mulX x.val acc.val
    let r := roundWork .fp32 strict .rne { val := y.val, invalid := x.invalid || y.invalid }
    { val := r.val, g := acc.g.op r.ieee }
  else acc

/-- What one product needs beside its operands. -/
structure ProductCfg where
  path : Path := .float
  strict : Bool := false
  round : Round := .rne
  parts : Nat := 1
  tally : Bool := false
  deriving DecidableEq, Repr

/-- A matrix of drained values with the flags gathered. -/
structure Drained where
  rows : List (List Val) := []
  /-- the drained tally column (R84, R86) -/
  tally : List Val := []
  /-- format that the drained values are held in -/
  fmt : Fmt := .fp32
  g : Gather := {}
  deriving DecidableEq, Repr

/-- R84: the products of a left row with the ones of the tally column: 1.0, 1 or LNS16 0x0000. -/
def tallyProducts (p : Path) (both8 strict : Bool) (t : OpType) (a : OperandRow) : List (Val × Val) :=
  if p = .log then a.codes.map fun c => (logProduct false (if both8 then (convertOnLoad t strict c).1 else c) 0, Val.one)
  else a.vals.map fun v => (v, Val.one)

/-- One left and one right operand of a product, read: rows of the left one, columns of the right one. -/
structure ProductOperands where
  both8 : Bool
  left : List OperandRow
  right : List OperandRow
  deriving DecidableEq, Repr

def readOperands (cfg : ProductCfg) (A B : Tensor) (cols : Nat) : ProductOperands :=
  let both8 := A.ty.fmt == .lns8 && B.ty.fmt == .lns8
  { both8 := both8, left := A.rows.map (readOperandRow cfg.path both8 cfg.strict A.ty),
    right := (List.range cols).map fun j => readOperandRow cfg.path both8 cfg.strict B.ty (column B.rows j) }

/-- R68–R86, R92: one matrix product. `cols` is N; `start m n` is the initial accumulator value. DESIGN CHOICE: the tally
column starts from +0 with `ACC_INIT` too, since the accumulate-into tensor has no value for it (log entry 147). -/
def product (cfg : ProductCfg) (A B : Tensor) (cols : Nat) (start : Nat → Nat → Acc) : Drained :=
  let ops := readOperands cfg A B cols
  let both8 := ops.both8
  let as := ops.left
  let bs := ops.right
  let sa := A.scales.map (readScale A.ty.scaleFp32 cfg.strict)
  let sb := B.scales.map (readScale B.ty.scaleFp32 cfg.strict)
  let scaled := A.ty.grain != 0 || B.ty.grain != 0
  let one : Read := { val := .one }
  let cell (m : Nat) (a : OperandRow) (n : Nat) (b : OperandRow) : Acc :=
    drain cfg.strict scaled (sa.getD m one).val (sb.getD n one).val
      (reduceAll cfg.path cfg.strict cfg.round cfg.parts (start m n) (pairs cfg.path both8 a b))
  let out := as.zipIdx.map fun am => bs.zipIdx.map fun bn => cell am.2 am.1 bn.2 bn.1
  -- R84–R86: the tally column sums the left row and is scaled by s_A(m) only; its flags join the command's
  let tally := as.zipIdx.map fun am =>
    if cfg.tally then drain cfg.strict scaled (sa.getD am.2 one).val .one
      (reduceAll cfg.path cfg.strict cfg.round cfg.parts {} (tallyProducts cfg.path both8 cfg.strict A.ty am.1))
    else {}
  let readG := ((as ++ bs).map OperandRow.g).foldl Gather.merge {}
  let scaleG := (sa ++ sb).foldl (fun g s => g.element s.conv {}) ({} : Gather)
  let cellG := (out.map fun r => (r.map Acc.g).foldl Gather.merge {}).foldl Gather.merge {}
  { rows := out.map fun r => r.map Acc.val, tally := tally.map Acc.val,
    fmt := if scaled then .fp32 else cfg.path.accFmt,
    g := { ((readG.merge scaleG).merge (cellG.merge (gatherAll (tally.map Acc.g)))) with
           macCount := A.rows.length * cols * B.rows.length } }

end Sys2Proof.Machine
end

