-- ==== Sys2Proof/Machine/Mill.lean ====
section
/-! DEFINITION. Machine/Mill.lean: the Mill (05_mill.md): rows in a working format (R436), table
images and their checks (R99, R100, R104, R112–R114), fast evaluation (R100–R103), NE-3 rules
(R119), strict direct tables (R106–R108) and one-pass normalisation (R120–R122). -/
namespace Sys2Proof.Machine

/-! ### Rows of codes -/

/-- One row as stored: its type word, its codes, and the code of its shared scale (R38). -/
structure Row where
  ty : OpType := {}
  codes : List Nat := []
  scale : Option Nat := none
  deriving DecidableEq, Repr

/-- R436: the working format of an operation over inputs and a result. -/
def workFmt (strict : Bool) (fs : List Fmt) : Fmt := if strict && fs.any (· == .fp64) then .fp64 else .fp32

/-- The exact code of a value that a format holds (drained values, R157). -/
def exactCode (f : Fmt) (v : Val) : Nat := (deliver f false .rne false true v).code

/-- A value brought into the working format, with its flags. -/
structure Worked where
  val : Val
  g : Gather := {}
  deriving DecidableEq, Repr

/-- R39, R436: read one element of a row into the working format. DEDUCED: a scaled value that the
working format does not hold is rounded once like an LNS value (log entry 13). -/
def workElem (w : Fmt) (strict : Bool) (ty : OpType) (scale : Option Val) (c : Nat) : Worked :=
  let r := readElem ty.fmt ty.uns strict c
  let g : Gather := ({} : Gather).element r.conv {}
  let t := match scale with
    | none => toWork w ty.fmt strict r.val
    | s => roundWork w strict .rne (applyScale r.val s)
  { val := t.val, g := (g.element t.conv t.ieee) }

/-- The scale of a row, read once (R39). -/
def rowScale (strict : Bool) (r : Row) : Option Val × Gather :=
  match r.scale with
  | none => (none, {})
  | some c =>
    let s := readScale r.ty.scaleFp32 strict c
    (some s.val, ({} : Gather).element s.conv {})

/-- A whole row in the working format. -/
def workRow (w : Fmt) (strict : Bool) (r : Row) : List Val × Gather :=
  let (s, g0) := rowScale strict r
  r.codes.foldl (fun (acc : List Val × Gather) c =>
    let e := workElem w strict r.ty s c
    (acc.1 ++ [e.val], acc.2.merge e.g)) ([], g0)

/-! ### Table images -/

/-- The image in a slot: one of the shipped catalogue (R109), or bytes loaded by TABLE. -/
inductive Image
  | shipped (slot : Nat)
  | loaded (bytes : List Byte)
  deriving DecidableEq, Repr

/-- Family, option, monotone direction, negative and positive binades, `TOP_EXP`, `C`, `K0`, `K1`,
`X_SAT` and `PHASE` of a shipped slot (R109). -/
structure ShippedHead where
  family : Nat
  recon : Nat
  monotone : Nat
  neg : Nat := 0
  pos : Nat := 24
  top : Int
  c : Nat := 0
  k0 : Nat := 0
  k1 : Nat := 0
  xsat : Nat := 0
  phase : Nat := 0
  deriving DecidableEq, Repr

/-- R109: the catalogue. -/
def shippedHead : Nat → ShippedHead
  | 0 => { family := 0, recon := 0, monotone := 1, top := -1, c := 0x3FF0000000000000 }
  | 1 => { family := 0, recon := 0, monotone := 1, top := -1, c := 0x3FF71547652B82FE }
  | 2 => { family := 1, recon := 0, monotone := 1, neg := 24, top := -2, c := 0x3FF0000000000000 }
  | 3 => { family := 1, recon := 0, monotone := 1, neg := 24, top := -2, c := 0x3FE62E42FEFA39EF }
  | 4 => { family := 1, recon := 1, monotone := 2, neg := 24, top := -2 }
  | 5 => { family := 1, recon := 2, monotone := 2, neg := 24, top := -1 }
  | 6 => { family := 2, recon := 0, monotone := 0, top := -1 }
  | 7 => { family := 2, recon := 0, monotone := 0, top := -1, phase := 1 }
  | 8 => { family := 3, recon := 0, monotone := 1, top := 4, k0 := 0x3F000000, k1 := 0x3F000000, xsat := 0x41900000 }
  | 9 => { family := 3, recon := 0, monotone := 1, top := 3, k1 := 0x3F800000, xsat := 0x41180000 }
  | 10 => { family := 3, recon := 1, monotone := 1, top := 2, k0 := 0x3F000000, k1 := 0x3F000000, xsat := 0x40C00000 }
  | 11 => { family := 3, recon := 1, monotone := 1, top := 2, k0 := 0x3F000000, k1 := 0x3F000000, xsat := 0x40C00000 }
  | 12 => { family := 3, recon := 1, monotone := 1, top := 4, k0 := 0x3F000000, k1 := 0x3F000000, xsat := 0x41900000 }
  | _ => { family := 4, recon := 2, monotone := 2, top := 6, k1 := 0x42B00000 }

/-- Size of a shipped image (R109). -/
def shippedBytes (slot : Nat) : Nat :=
  let h := shippedHead slot
  64 + (h.neg + h.pos) * 32 * 16

namespace Image

/-- The 32-bit word at a byte offset of an image, little-endian. -/
def u32 (im : Image) (off : Nat) : Nat :=
  match im with
  | .shipped s => Config.shippedWord s (off / 4) % 2 ^ 32
  | .loaded b => leNat (slice b off 4)

def ver (im : Image) : Nat := match im with
  | .shipped _ => 4
  | .loaded b => field b 0 1
def family (im : Image) : Nat := match im with
  | .shipped s => (shippedHead s).family
  | .loaded b => field b 2 2
def recon (im : Image) : Nat := match im with
  | .shipped s => (shippedHead s).recon
  | .loaded b => field b 3 3
def monotone (im : Image) : Nat := match im with
  | .shipped s => (shippedHead s).monotone
  | .loaded b => field b 4 4
def binPos (im : Image) : Nat := match im with
  | .shipped s => (shippedHead s).pos
  | .loaded b => field b 5 5
def binNeg (im : Image) : Nat := match im with
  | .shipped s => (shippedHead s).neg
  | .loaded b => field b 6 6
def topExp (im : Image) : Int := match im with
  | .shipped s => (shippedHead s).top
  | .loaded b => signed (field b 7 7) 8
def size (im : Image) : Nat := match im with
  | .shipped s => shippedBytes s
  | .loaded b => b.length
def crc (im : Image) : Nat := im.u32 12
def cCode (im : Image) : Nat := match im with
  | .shipped s => (shippedHead s).c
  | .loaded b => field b 16 23
def k0 (im : Image) : Nat := match im with
  | .shipped s => (shippedHead s).k0
  | .loaded b => field b 24 27
def k1 (im : Image) : Nat := match im with
  | .shipped s => (shippedHead s).k1
  | .loaded b => field b 28 31
def xsat (im : Image) : Nat := match im with
  | .shipped s => (shippedHead s).xsat
  | .loaded b => field b 32 35
def phase (im : Image) : Nat := match im with
  | .shipped s => (shippedHead s).phase
  | .loaded b => field b 59 59
def a0 (im : Image) : Nat := im.u32 36
def a1 (im : Image) (neg : Bool) : Nat := im.u32 (if neg then 44 else 40)
def vEnd (im : Image) (neg : Bool) : Nat := im.u32 (if neg then 52 else 48)
def direct (im : Image) : Bool := im.family == 7
def ne3 (im : Image) : Bool := im.ver == 3
/-- Segments of one binade: 32, or 16 of an NE-3 image (R100, R119). -/
def segs (im : Image) : Nat := if im.ne3 then 16 else 32
/-- Kind as `SLOT_KIND` reports it (R125). -/
def kind (im : Image) : Nat := if im.ne3 then 3 else if im.direct then 2 else 1

/-- Code of field `i` (v, c0, c1, c2) of record `r` of a segmented image (R113). -/
def segRec (im : Image) (r i : Nat) : Nat := im.u32 (64 + 16 * r + 4 * i)

/-- Index of the record of binade `b` (from the lowest), segment `j`, of a side (R113). -/
def recIndex (im : Image) (neg : Bool) (b j : Nat) : Nat :=
  (if neg then b else im.binNeg + b) * im.segs + j

def binades (im : Image) (neg : Bool) : Nat := if neg then im.binNeg else im.binPos

end Image

/-- The value of an FP32 code; every code of an image is read as stored. -/
def fp32 (c : Nat) : Val := decodeFloat .fp32 (c % 2 ^ 32)

/-! ### Checks of the loader -/

/-- Exponent E with 2^E ≥ v > 2^(E−1). -/
def ceilLog2 (v : Mag) : Int := if Mag.eq v (Mag.pow2 v.log2) then v.log2 else v.log2 + 1

/-- R100: the value that `TOP_EXP` must have; none when the constants leave no positive reach. -/
def topExpOf (family recon : Nat) (k0 k1 xsat : Val) : Option Int :=
  match family, recon with
  | 0, _ | 2, _ | 1, 2 => some (-1)
  | 1, _ => some (-2)
  | 3, _ => match xsat with
    | .fin false m => some (ceilLog2 m - 1)
    | _ => none
  | 4, 0 => match k0.abs, k1.abs with
    | .fin _ m, .fin _ n => some (ceilLog2 (if Mag.lt m n then n else m) - 1)
    | .fin _ m, .zero _ | .zero _, .fin _ m => some (ceilLog2 m - 1)
    | _, _ => none
  | _, _ => match k1 with
    | .fin false m => some (ceilLog2 m - 1)
    | _ => none

/-- Options of a family (R99). -/
def reconLimit : Nat → Nat
  | 0 => 1 | 1 => 3 | 2 => 1 | 3 => 2 | 4 => 3 | 7 => 1 | _ => 0

def finiteCode32 (c : Nat) : Bool := bits c 30 23 != 255
def finiteCode64 (c : Nat) : Bool := bits c 62 52 != 2047

/-- Does a sign-split family's reduced domain have a negative side? -/
def negativeSide (family recon : Nat) (k0 : Val) : Bool :=
  family == 1 || (family == 4 && recon == 0 && Val.lt k0 (.zero false))

/-- All 32-bit words of a payload finite? -/
def allFinite (im : Image) : Nat → Bool
  | 0 => true
  | n + 1 => finiteCode32 (im.u32 (64 + 4 * n)) && allFinite im n

/-- R107, R108: no reserved flag nibble at a code that is not NaN. -/
def nibblesOk (inFmt : Fmt) : List Byte → Nat → Bool
  | [], _ => true
  | b :: bs, i =>
    let ok (c n : Nat) : Bool := n ≤ 5 || (decodeFloat inFmt c).isNan
    ok (2 * i) (b.toNat % 16) && ok (2 * i + 1) (b.toNat / 16) && nibblesOk inFmt bs (i + 1)

/-- R114: is a loaded image malformed (0x2301)? DESIGN CHOICE: of the header fields that an image does not use, `PHASE`
outside the periodic family, `DIRECT_*` of a segmented image and `MONOTONE` of an NE-3 image must be zero, and the
constants and `MONOTONE` of a direct image are not looked at beyond their own form (log entries 141 and 142). -/
def imageMalformed (b : List Byte) : Bool :=
  let im := Image.loaded b
  let fam := im.family
  let direct := fam == 7
  let k0 := fp32 im.k0
  let k1 := fp32 im.k1
  let split := fam == 1 || (fam == 4 && im.recon == 0)
  b.length < 64 ||
  (im.ver != 4 && im.ver != 3) || (im.ver == 3 && direct) || reconLimit fam ≤ im.recon ||
  im.monotone > 2 || (im.ver == 3 && im.monotone != 0) || field b 60 63 != 0 ||
  field b 8 11 != b.length ||
  !finiteCode64 im.cCode || !finiteCode32 im.k0 || !finiteCode32 im.k1 || !finiteCode32 im.xsat ||
  !finiteCode32 im.a0 || !finiteCode32 (im.a1 false) || !finiteCode32 (im.a1 true) ||
  !finiteCode32 (im.vEnd false) || !finiteCode32 (im.vEnd true) ||
  im.phase > 3 || (fam != 2 && im.phase != 0) ||
  (if direct then
    im.binPos != 0 || im.binNeg != 0 || field b 7 7 != 0 || b.length != 163904 ||
    (field b 56 56 != 2 && field b 56 56 != 3) || (field b 57 57 != 2 && field b 57 57 != 3) || 5 < field b 58 58 ||
    !nibblesOk (if field b 56 56 = 2 then .bf16 else .fp16) (b.drop (64 + 131072)) 0
  else
    field b 56 58 != 0 || im.binPos == 0 || 24 < im.binPos || 24 < im.binNeg ||
    b.length != 64 + 16 * im.segs * (im.binPos + im.binNeg) ||
    topExpOf fam im.recon k0 k1 (fp32 im.xsat) != some im.topExp ||
    (negativeSide fam im.recon k0 && im.binNeg == 0) || (!split && im.binNeg != 0) ||
    !allFinite im ((b.length - 64) / 4))

/-- The image bytes with the `CRC32` field as zero (R112). -/
def crcInput (b : List Byte) : List Byte := b.take 12 ++ [0, 0, 0, 0] ++ b.drop 16

/-- a ≤ b for finite values. -/
def Val.le (a b : Val) : Bool := !(Val.lt b a)

/-- a ≤ b in the declared direction (`MONOTONE` 1), or a ≥ b (`MONOTONE` 2). -/
def ordered (dir : Nat) (a b : Val) : Bool := if dir = 1 then Val.le a b else Val.le b a

/-- R104: first record of a side whose seam is out of order or whose vertex lies inside. `neg` reads
the order on decreasing |r|. -/
def sideFailure (im : Image) (neg : Bool) : Nat → Nat → Option Nat
  | 0, _ => none
  | n + 1, r =>
    let base := if neg then 0 else im.binNeg * im.segs
    let v := fp32 (im.segRec (base + r) 0)
    let next := if n = 0 then fp32 (im.vEnd neg) else fp32 (im.segRec (base + r + 1) 0)
    let c1 := fp32 (im.segRec (base + r) 2)
    let c2 := fp32 (im.segRec (base + r) 3)
    let vertexInside : Bool := match c2 with
      | .zero _ => false
      | c2 =>
        let d := (divX c1.negate (mulX (Val.ofInt 2) c2).val).val
        Val.lt (.zero false) d && Val.lt d Val.one
    let okSeam := if neg then ordered im.monotone next v else ordered im.monotone v next
    if !okSeam || vertexInside then some (base + r) else sideFailure im neg n (r + 1)

/-- R99, last column, and R104: the join and A0. -/
def joinHolds (im : Image) : Bool :=
  let a0 := fp32 im.a0
  let pos := fp32 (im.vEnd false)
  let neg := fp32 (im.vEnd true)
  let dir := im.monotone
  let half := Val.fin false ⟨1, 2, 1⟩
  let lowPos := fp32 (im.segRec (im.recIndex false 0 0) 0)
  let lowNeg := fp32 (im.segRec (im.recIndex true 0 0) 0)
  let between := ordered dir a0 lowPos && (im.binNeg == 0 || ordered dir lowNeg a0)
  let join := match im.family, im.recon with
    | 0, _ => ordered dir pos (mulX (Val.ofInt 2) a0).val
    | 1, 0 => ordered dir pos (addX false Val.one neg).val
    -- R99 writes these two joins in their non-increasing form
    | 1, _ => ordered dir pos (mulX half neg).val
    | 3, _ => match a0 with
      | .zero _ => true
      | _ => false
    | _, _ => true
  between && join

/-- R104: the declared-monotone check. `some (some r)` names the first failing record, `some none`
a failure of A0 or of the join, which belongs to no record. -/
def monotoneFailure (im : Image) : Option (Option Nat) :=
  if im.monotone = 0 || im.ne3 || im.direct then none
  else match sideFailure im true (im.binNeg * im.segs) 0 with
    | some r => some (some r)
    | none => match sideFailure im false (im.binPos * im.segs) 0 with
      | some r => some (some r)
      | none => if joinHolds im then none else some none

/-- R114, R117 step 4, R118: the codes that reject an image, before the bank's capacity. -/
def imageCodes (ne3Allowed : Bool) (b : List Byte) : List Nat :=
  let mal := imageMalformed b
  cond mal 0x2301 ++ cond (!mal && crcBytes (crcInput b) != field b 12 15) 0x2302 ++
  cond (!mal && (monotoneFailure (.loaded b)).isSome) 0x2303 ++
  cond (!ne3Allowed && field b 0 1 == 3) 0x2305

/-! ### The shipped catalogue in service (R105, R109) -/

/-- A shipped image as bytes, header after R112 and words from the part. -/
def shippedImage (slot : Nat) : List Byte :=
  let h := shippedHead slot
  let im := Image.shipped slot
  let n := shippedBytes slot
  leBytes 2 4 ++ leBytes 1 h.family ++ leBytes 1 h.recon ++ leBytes 1 h.monotone ++ leBytes 1 h.pos ++ leBytes 1 h.neg ++
    leBytes 1 (unsignedOf h.top 8) ++ leBytes 4 n ++ leBytes 4 im.crc ++ leBytes 8 h.c ++ leBytes 4 h.k0 ++ leBytes 4 h.k1 ++
    leBytes 4 h.xsat ++ (List.range 5).flatMap (fun i => leBytes 4 (im.u32 (36 + 4 * i))) ++ leBytes 3 0 ++ leBytes 1 h.phase ++
    leBytes 4 0 ++ (List.range ((n - 64) / 4)).flatMap fun i => leBytes 4 (im.u32 (64 + 4 * i))

/-- R104: a shipped image passes the checks of the loader before it enters service. -/
def shippedOk (slot : Nat) : Bool :=
  let b := shippedImage slot
  !imageMalformed b && (monotoneFailure (.loaded b)).isNone

/-- The image that is evaluated. The words of a shipped image are free within R104 and R114: where the constants of
Config would break them, an image of the same head whose shape is 0 stands in (log entry 127). -/
def Image.inService (im : Image) : Image :=
  match im with
  | .loaded b => .loaded b
  | .shipped s =>
    if shippedOk s then .shipped s else .loaded ((shippedImage s).take 36 ++ List.replicate 23 0 ++
      leBytes 1 (shippedHead s).phase ++ List.replicate (shippedBytes s - 60) 0)

/-! ### Fast evaluation (R100–R103) -/

/-- FP32 fused multiply-add of the lane, ties to even, fast mode. -/
def laneFma (a b c : Val) : Rounded := roundWork .fp32 false .rne (fmaX false a b c)

/-- Clamp to the closed interval between two seams, and whether that changed the value. -/
def clampBetween (a b h : Val) : Val × Bool :=
  let lo := if Val.le a b then a else b
  let hi := if Val.le a b then b else a
  if Val.lt h lo then (lo, true) else if Val.lt hi h then (hi, true) else (h, false)

/-- A value of the lane on the way to a function's result: whether a clamp changed it, and whether a rounding on the
way flushed (R59). -/
structure FuncOut where
  val : Val
  flushed : Bool := false
  clamped : Bool := false
  deriving DecidableEq, Repr

/-- R100, R103, R119: the shape h at a reduced argument of side `neg` and magnitude `r` (none for zero). DESIGN CHOICE:
the NE-3 clamp acts on what the lane computes, so neither A0 at r = 0 nor the end seam passes it (log entry 136). -/
def shape (im : Image) (neg : Bool) (r : Option Mag) : FuncOut :=
  match r with
  | none => { val := fp32 im.a0 }
  | some m =>
    let low : Int := im.topExp - im.binades neg + 1
    let lowSeam := fp32 (im.segRec (im.recIndex neg 0 0) 0)
    let clamp (a b : Val) (h : FuncOut) : FuncOut :=
      let vc := if im.ne3 then clampBetween lowSeam (fp32 (im.vEnd neg)) h.val
        else if im.monotone = 0 then (h.val, false) else clampBetween a b h.val
      { h with val := vc.1, clamped := vc.2 }
    let k := m.log2
    if im.topExp < k then { val := fp32 (im.vEnd neg) }
    else if k < low then
      let h := laneFma (fp32 (im.a1 neg)) (.fin false m) (fp32 im.a0)
      clamp (fp32 im.a0) lowSeam { val := h.val, flushed := h.conv.flushed }
    else
      let w : Int := if im.ne3 then k - 4 else k - 5
      -- j and d count in units of the segment width 2^w, from 2^k
      let u := m.mul (Mag.pow2 (-w))
      let j := u.num / u.den - im.segs
      let b := (k - low).toNat
      let i := im.recIndex neg b j
      let d : Val := if u.num % u.den = 0 then .zero false else .fin false ⟨u.num % u.den, u.den, 1⟩
      let inner := laneFma (fp32 (im.segRec i 3)) d (fp32 (im.segRec i 2))
      let h := laneFma inner.val d (fp32 (im.segRec i 1))
      let last := j + 1 = im.segs && b + 1 = im.binades neg
      let upper := if last then fp32 (im.vEnd neg) else fp32 (im.segRec (i + 1) 0)
      clamp (fp32 (im.segRec i 0)) upper { val := h.val, flushed := inner.conv.flushed || h.conv.flushed }

/-- The reconstruction's last rounding to FP32 over the lane's value `h`, with the flush of R102 (to +0 under NE-3,
R119). A flush on the way raises `FLUSHED` too (log entry 137). -/
def funcResult (ne3 : Bool) (x : Exact) (h : FuncOut) : FuncOut :=
  let r := roundWork .fp32 false .rne x
  let fl := h.flushed || r.conv.flushed
  { h with
    val := match r.val with
      | .zero s => .zero (s && !(ne3 && fl))
      | v => v,
    flushed := fl }

/-- h × 2^e in FP32 (R100). A shift far below the range is a flushed zero of h's sign. -/
def scaleResult (ne3 : Bool) (h : FuncOut) (e : Int) : FuncOut :=
  match h.val with
  | .fin s m =>
    if e < -500 then { h with val := .zero (s && !ne3), flushed := true }
    else funcResult ne3 { val := .fin s (m.mul (Mag.pow2 e)) } h
  | v => funcResult ne3 { val := v } h

/-- 1 / 2π to 256 fraction bits (R99). DESIGN CHOICE: the 256 bits are those after the point
(log entry 14). -/
def invTwoPi : Nat := 0x28be60db9391054a7f09d5f47d4d377036d8a5664f10e4107f9458eaf7aef158

/-- A finite value as a signed rational numerator over a denominator. -/
def Val.ratio : Val → Int × Nat
  | .fin s m => (if s then -(m.num : Int) else (m.num : Int), m.den)
  | _ => (0, 1)

/-- A signed rational as a value. -/
def Val.ofRatio (n : Int) (d : Nat) : Val := if n = 0 then .zero false else .fin (n < 0) ⟨n.natAbs, d, 1⟩

/-- The magnitude of a value, none for zero. -/
def Val.mag? : Val → Option Mag
  | .fin _ m => some m
  | _ => none

/-- R99–R103, R119: a special function in fast mode on an FP32 value that is not NaN. -/
def evalFast (im : Image) (x : Val) : FuncOut :=
  let ne3 := im.ne3
  let nan : FuncOut := { val := .nan NaN.canonical }
  let beyond : FuncOut := { val := .fin false (Mag.pow2 128) }
  match im.family with
  | 0 =>
    match x with
    | .inf true => { val := .zero false }
    | .inf false =>
      -- t = C · ∞: beyond the range only where C is positive (log entry 138)
      match decodeFloat .fp64 im.cCode with
      | .zero _ => nan
      | c => if c.neg then { val := .zero false } else beyond
    | x =>
      -- t = C · x exactly, n = floor t, r = t − n truncated to 40 fraction bits
      let (cn, cd) := (decodeFloat .fp64 im.cCode).ratio
      let (xn, xd) := x.ratio
      let tn := cn * xn
      let td := cd * xd
      let n : Int := tn.fdiv td
      if 128 ≤ n then beyond
      else
        let r40 : Nat := ((tn - n * td) * 2 ^ 40 / td).toNat
        scaleResult ne3 (shape im false (if r40 = 0 then none else some ⟨r40, 2 ^ 40, 1⟩)) n
  | 1 =>
    match x with
    | .zero s =>
      if im.recon = 0 then { val := .inf true } else { val := .inf s }
    | .inf false => { val := if im.recon = 0 then .inf false else .zero false }
    | .fin false m =>
      let k := m.log2
      let m0 := m.mul (Mag.pow2 (-k))
      let up : Bool := if im.recon = 2 then k.emod 2 == 1 else Mag.le ⟨3, 2, 1⟩ m0
      let e : Int := if up then k + 1 else k
      let mm := if up then m0.mul (Mag.pow2 (-1)) else m0
      let neg := mm.num < mm.den
      let d := if neg then mm.den - mm.num else mm.num - mm.den
      let h := shape im neg (if d = 0 then none else some ⟨d, mm.den, 1⟩)
      if im.recon = 0 then
        let s := roundWork .fp32 false .rne (addX false (Val.ofInt e) h.val)
        let c32 := (decodeFloat .fp32 (deliver .fp32 false .rne false true (decodeFloat .fp64 im.cCode)).code)
        funcResult ne3 (mulX c32 s.val) { h with flushed := h.flushed || s.conv.flushed }
      else scaleResult ne3 h (if im.recon = 1 then -e else -(e / 2))
    | _ => nan
  | 2 =>
    match x with
    | .inf _ => nan
    | x =>
      let (xn, xd) := x.ratio
      -- frac(x / 2π) over the denominator xd · 2^256
      let den : Nat := xd * 2 ^ 256
      let f : Nat := ((xn * (invTwoPi : Int)).emod (den : Int)).toNat
      let u := 4 * f + im.phase * den
      let q := (u / den) % 4
      let rho := u % den
      let r := if q % 2 = 0 then rho else den - rho
      let h := shape im false (if r = 0 then none else some ⟨r, den, 1⟩)
      funcResult ne3 { val := if q < 2 then h.val else h.val.negate } h
  | 3 =>
    let sat := fp32 im.xsat
    let big := Val.le sat x.abs
    let h : FuncOut := if big then { val := fp32 (im.vEnd false) } else shape im false x.abs.mag?
    let k1 := if x.neg then (fp32 im.k1).negate else fp32 im.k1
    if im.recon = 0 then funcResult ne3 (fmaX false k1 h.val (fp32 im.k0)) h
    else
      match x with
      | .inf s =>
        match (fmaX false k1 (fp32 (im.vEnd false)) (fp32 im.k0)).val with
        | .zero _ => { val := .zero s }
        | _ => { val := .inf s }
      | x =>
        let u := roundWork .fp32 false .rne (fmaX false k1 h.val (fp32 im.k0))
        funcResult ne3 (mulX x u.val) { h with flushed := h.flushed || u.conv.flushed }
  | _ =>
    let k0 := fp32 im.k0
    let k1 := fp32 im.k1
    if im.recon = 0 then
      let y := if Val.lt x k0 then k0 else if Val.lt k1 x then k1 else x
      let h := shape im (match y with
        | .fin s _ => s
        | _ => false) y.mag?
      funcResult ne3 { val := h.val } h
    else
      let y := if Val.lt k1 x.abs then k1 else x.abs
      let h := shape im false y.mag?
      if im.recon = 1 then funcResult ne3 { val := h.val } h
      else match x with
        | .inf false => { val := .inf false }
        | x =>
          let p := (maxX x (.zero false)).val
          funcResult ne3 (addX false p h.val) h

/-! ### Strict evaluation (R106–R108) -/

def directIn (im : Image) : Nat := match im with
  | .shipped _ => 0
  | .loaded b => field b 56 56
def directOut (im : Image) : Nat := match im with
  | .shipped _ => 0
  | .loaded b => field b 57 57
def directRound (im : Image) : Nat := match im with
  | .shipped _ => 0
  | .loaded b => field b 58 58

/-- R107: the IEEE flags of a nibble. -/
def nibbleFlags : Nat → IeeeFlags
  | 1 => { inexact := true }
  | 2 => { inexact := true, overflow := true }
  | 3 => { inexact := true, underflow := true }
  | 4 => { invalid := true }
  | 5 => { divZero := true }
  | _ => {}

/-- R106–R108: one strict lookup of an input code. -/
def lookup (im : Image) (inFmt outFmt : Fmt) (code : Nat) : Delivered :=
  match (decodeFloat inFmt code) with
  | .nan n =>
    let d := deliverNan outFmt false true n
    { code := d.code, ieee := d.ieee }
  | _ => match im with
    | .shipped _ => { code := 0 }
    | .loaded b =>
      let nib := field b (64 + 131072 + code / 2) (64 + 131072 + code / 2)
      { code := field b (64 + 2 * code) (65 + 2 * code),
        ieee := nibbleFlags (if code % 2 = 0 then nib % 16 else nib / 16) }

/-! ### One function over elements -/

/-- R108, R111, R119: deliver f(x) of one element of a row into storage; `out` names the destination. The element read
and the element delivered each count for themselves (R66). DESIGN CHOICE: a strict lookup whose word sets `AMAX` gathers
over the entries delivered, and raises no `AMAX_NAN_SKIPPED` for a NaN entry (R107; log entry 139). -/
def funcElem (im : Image) (strict : Bool) (ty : OpType) (scale : Option Val) (out : OpType) (c : Conv)
    (amax : Bool) (code : Nat) (o : RowOut) : RowOut :=
  if strict then
    let d := lookup im ty.fmt out.fmt code
    { codes := o.codes ++ [d.code],
      amax := if amax then amaxStep o.amax (decodeFloat out.fmt d.code) else o.amax,
      g := { (o.g.op d.ieee) with
             millStrict := o.g.millStrict + 1 } }
  else
    let e := workElem .fp32 false ty scale code
    let x : Val := if im.ne3 && e.g.nFlushed > 0 then .zero false else e.val
    let y : FuncOut := match x with
      | .nan _ => { val := .nan NaN.canonical }
      | x => evalFast im.inService x
    let o' := o.push out c false amax { val := y.val } Val.one { flushed := y.flushed } {}
    { o' with
      g := { o'.g.merge e.g with
             clampEvents := o'.g.clampEvents + boolNat y.clamped, millFast := o'.g.millFast + 1 } }

/-- R111: a function word. -/
def funcSlot (w : Nat) : Nat := w % 32
def funcNe3 (w : Nat) : Bool := bit w 5

/-- What the issue check knows of the sampled bank (R116). -/
structure BankView where
  image : Nat → Option Image := fun _ => none
  ne3Allowed : Bool := false

/-- R106, R111, R116, R118: the codes that refuse a function word for an input, an output, a
resolved attribute and a mode. -/
def funcCodes (bank : BankView) (w : Nat) (strict : Bool) (inFmt outFmt : Fmt) (scaled : Bool) (r : Round) : List Nat :=
  let sixteen (f : Fmt) : Bool := f == .bf16 || f == .fp16
  let ne3 := funcNe3 w
  cond (w / 64 != 0) 0x2316 ++
  cond (strict && (!sixteen inFmt || !sixteen outFmt || scaled)) 0x2313 ++
  cond (ne3 && (!bank.ne3Allowed || strict)) 0x2314 ++
  (match bank.image (funcSlot w) with
   | none => [0x2311]
   | some im =>
     cond (im.ne3 != ne3) 0x2314 ++
     cond (strict && (!im.direct || directIn im != inFmt.code || directOut im != outFmt.code ||
       directRound im != r.code)) 0x2312 ++
     cond (!strict && im.direct) 0x2312)

/-! ### Normalisation (R120–R122) -/

/-- The norm control word (R120), read. -/
structure NormControl where
  emit : Bool := false
  pilot : Bool := false
  affine : Bool := false
  rms : Bool := false
  bad : Bool := false
  deriving DecidableEq, Repr

def NormControl.ofWord (w : Nat) : NormControl :=
  { emit := bit w 8, pilot := bit w 7, affine := bit w 6, rms := bits w 5 4 == 1,
    bad := bits w 31 9 != 0 || bits w 3 0 != 0 || 1 < bits w 5 4 }

/-- R121: S1 and S2 of a row, with the flags of their operations. In fast mode z_i is a rounding that may flush; the
group sums raise nothing (R78; log entry 140). -/
def rowSums (strict : Bool) (p : Val) (xs : List Val) : Val × Val × Gather :=
  if strict then
    let step (a : Val × Val × Gather) (x : Val) : Val × Val × Gather :=
      let z := roundWork .fp64 true .rne (subX false x p)
      let s1 := roundWork .fp64 true .rne (addX false a.1 z.val)
      let s2 := roundWork .fp64 true .rne (fmaX false z.val z.val a.2.1)
      (s1.val, s2.val, ((a.2.2.op z.ieee).op s1.ieee).op s2.ieee)
    xs.foldl step (.zero false, .zero false, {})
  else
    let rs := xs.map fun x => roundWork .fp32 false .rne (subX false x p)
    let zs := rs.map Rounded.val
    let sum (ps : List Val) : Val :=
      ((groups (ps.length + 1) ps).foldl (fun acc g => accAdd false acc (groupSum g)) ({} : Acc)).val
    (sum zs, sum (zs.map fun z => (mulX z z).val), rs.foldl (fun g r => g.element r.conv {}) {})

/-- The statistics of a row (R122), and the FP32 codes that `EMIT_STATS` writes. -/
structure Stats where
  mean : Val
  rstd : Val
  meanCode : Nat := 0
  rstdCode : Nat := 0
  g : Gather := {}
  deriving DecidableEq, Repr

/-- R122: a statistic rounded to FP32. In strict mode the rounding gathers the IEEE flags. -/
def statOut (strict : Bool) (v : Val) : Delivered := deliver .fp32 false .rne false strict v

/-- R122: mean and reciprocal standard deviation. Under RMS no mean is formed. -/
def rowStats (strict : Bool) (nc : NormControl) (eps : Val) (xs : List Val) : Stats :=
  let w : Fmt := if strict then .fp64 else .fp32
  let rd (x : Exact) := roundWork w strict .rne x
  let p : Val := if nc.pilot && !nc.rms then xs.headD (.zero false) else .zero false
  let (s1, s2, g0) := rowSums strict p xs
  let n := Val.ofInt xs.length
  let none_ : Rounded := { val := .zero false }
  let mu := if nc.rms then none_ else rd (divX s1 n)
  let mean := if nc.rms then none_ else rd (addX false p mu.val)
  let q := rd (divX s2 n)
  let sq := if nc.rms then none_ else rd (mulX mu.val mu.val)
  let v0 := if nc.rms then q else rd (subX false q.val sq.val)
  let negv : Bool := match v0.val with
    | .fin s _ => s && !nc.rms
    | _ => false
  let var : Val := if negv then .zero false else v0.val
  let ve := rd (addX false var eps)
  let rt := rd (sqrtX ve.val)
  let rs := rd (divX Val.one rt.val)
  let fl := [mu, mean, q] ++ (if nc.rms then [] else [sq, v0]) ++ [ve, rt, rs]
  let g1 := fl.foldl (fun (g : Gather) r => (g.op r.ieee).element r.conv {}) g0
  let m := statOut strict mean.val
  let r := statOut strict rs.val
  let g2 := if nc.emit then (g1.op m.ieee).op r.ieee else g1
  { mean := mean.val, rstd := rs.val, meanCode := m.code, rstdCode := r.code,
    g := { g2 with negVariance := g2.negVariance + boolNat negv } }

/-- R122: one normalised element, rounded once into the destination. -/
def normElem (strict : Bool) (st : Stats) (gam bet : Val) (out : OpType) (c : Conv) (amax : Bool) (o : RowOut) (x : Val) :
    RowOut :=
  let w : Fmt := if strict then .fp64 else .fp32
  let d := roundWork w strict .rne (subX false x st.mean)
  let t := roundWork w strict .rne (mulX d.val st.rstd)
  let y := fmaX (c.round == .rdn) t.val gam bet
  o.push out c strict amax y Val.one { flushed := d.conv.flushed || t.conv.flushed } (d.ieee.or t.ieee)

/-- R120–R122: normalise one row held in the working format. -/
def normRow (strict : Bool) (nc : NormControl) (eps : Val) (gam bet : List Val) (out : OpType) (c : Conv)
    (amax : Bool) (xs : List Val) : RowOut × Stats :=
  let st := rowStats strict nc eps xs
  let one := Val.one
  let o := (xs.zipIdx).foldl (fun o xi =>
    normElem strict st (if nc.affine then gam.getD xi.2 one else one)
      (if nc.affine then bet.getD xi.2 (.zero false) else .zero false) out c amax o xi.1) ({ g := st.g } : RowOut)
  ({ o with
     g := { o.g with
            millStat := xs.length, millNorm := xs.length } }, st)

end Sys2Proof.Machine
end

