-- ==== Sys2Proof/Machine/State.lean ====
section
/-! DEFINITION. Machine/State.lean: everything the spec gives the block, as plain data, and
`State.reset`: the engine of a factory-fresh part, ready, right after cold reset and start-up.
Sparse tables are lists of key and value pairs with strictly rising keys; what an unlisted key reads
as stands beside each field. -/
namespace Sys2Proof.Machine

/-- A sparse table keyed by a number, keys strictly rising. -/
abbrev Table (α : Type) := List (Nat × α)

/-- Why a step stops with a fault. No command of this block does: every command of R-numbered effect
ends in a next state, so this type has no constructor in use. -/
inductive Fault
  /-- Raised by nobody; kept so that the type is inhabited. Safe. -/
  | none
  deriving DecidableEq, Repr

/-- Why a step is refused. -/
inductive Refusal
  /-- Raised by `exec` for a command without a meaning. Safe: the machine stops. -/
  | notModelled (mnemonic : String)
  deriving DecidableEq, Repr

/-! ### Boundary, reset and power (19_boundary_startup.md) -/

/-- R418: the boundary states. -/
inductive Boundary
  | absent | unpowered | inReset | blank | booting | recovery | ready | decommissioned
  deriving DecidableEq, Repr

/-- Pins, reset progress and power. -/
structure Pins where
  state : Boundary := .ready
  /-- `ENG_PWR_GOOD` -/
  pwrGood : Bool := true
  /-- `ENG_COLD_RESET_N` held low -/
  coldHeld : Bool := false
  /-- `ENG_WARM_RESET_N` held low -/
  warmHeld : Bool := false
  /-- `ENG_THROTTLE_N` low -/
  throttleLow : Bool := false
  /-- `ENG_READY` -/
  ready : Bool := true
  /-- `ENG_FAULT_N` driven low -/
  faultLow : Bool := false
  /-- fabric port, host translation unit and management bus isolated (R420) -/
  isolated : Bool := false
  /-- the reset in progress is a warm one -/
  warm : Bool := false
  /-- a reset ordered and answered, not yet begun: 1 warm, 2 cold (R429, R430) -/
  ordered : Nat := 0
  /-- bit n: die n serves queues -/
  dies : Nat := 3
  /-- bit n: die n is stopped by a fatal fault until the next reset -/
  fatal : Nat := 0
  /-- bit n: die n is stopped at die severity until its self-test passes -/
  stopped : Nat := 0
  cause : Nat := 0
  startupUs : Nat := 0
  startupStep : Nat := 7
  /-- `clk` at the release that started the engine -/
  releasedAt : Nat := 0
  /-- ports still training in start-up step 5 (mask) -/
  training : Nat := 0
  /-- the cap that `POWER_CAP` held when it last took effect (R427, R428) -/
  capEffective : Nat := 3200
  capUnmet : Bool := false
  deriving DecidableEq, Repr

/-! ### Fuses, firmware and access (17_firmware_access.md) -/

/-- R377: the fuse block. Key hashes themselves are constants of the part (Config). -/
structure Fuses where
  lifecycle : Nat := 2
  keysProgrammed : Nat := 1
  keysRevoked : Nat := 0
  debugKey : Bool := true
  ownerHash : Option Nat := none
  rollback : Nat := 0
  debugLock : Nat := 1
  features : Nat := 0x7FFFF
  /-- manufacturing spare map: physical locators -/
  spare : List Nat := []
  deriving DecidableEq, Repr

/-- What the image slot holds (R380). -/
inductive SlotImage
  | empty
  /-- the image installed at manufacture -/
  | factory
  /-- a write that stopped part-way left old and new bytes (R382) -/
  | mixed
  | bytes (b : List Byte)
  deriving DecidableEq, Repr

/-- Firmware, updates, recovery and field scopes. -/
structure Firmware where
  slot : SlotImage := .factory
  runningSvn : Nat := 0
  runningVersion : Nat := 0
  runningKey : Nat := 0
  updateState : Nat := 0
  updateCode : Nat := 0
  /-- staged image: address and length -/
  staged : Nat × Nat := (0, 0)
  /-- the fetched copy in Reeve memory -/
  fetched : List Byte := []
  /-- a warm reset held until the slot write completes: 0 none, else its cause code -/
  heldWarm : Nat := 0
  /-- endpoint that holds the recovery session -/
  session : Option Nat := none
  sessionLength : Nat := 0
  received : Nat := 0
  recoveryCode : Nat := 0
  /-- `SCOPE_OPEN` -/
  scopes : Nat := 0
  /-- every scope was opened by challenge (R378) -/
  byChallenge : Nat := 0
  nonce : Option Nat := none
  /-- last read of the nonce: its clk, and the nonce before that clk (R389) -/
  drawn : Option (Nat × Option Nat) := none
  attempts : Nat := 0
  deriving DecidableEq, Repr

/-! ### Reel copies, cadence inputs, schedule and epochs (13_cadence.md) -/

/-- One die's copy of reel time (R282, R283). -/
structure Reel where
  time : Nat := 0
  /-- reel time in the clk before -/
  prev : Nat := 0
  /-- eighths of a tick towards the next tick: 5 per clk -/
  frac : Nat := 0
  /-- 0 not valid since cold reset, 1 disciplined, 2 holdover -/
  state : Nat := 0
  /-- offset still to correct: bus time minus copy -/
  delta : Int := 0
  /-- ticks run towards the next corrected tick -/
  slew : Nat := 0
  /-- it runs at half rate until the offset is 0 -/
  half : Bool := false
  /-- reel times before and after the latest step forward (R296) -/
  stepFrom : Nat := 0
  stepTo : Nat := 0
  deriving DecidableEq, Repr

/-- One cadence input (R285, R286). -/
structure Input where
  state : Nat := 0
  frame : Nat := 0
  /-- reel time of the pulse of the current frame -/
  t : Nat := 0
  /-- reel time of the last received pulse, and synthetic pulses since -/
  lastRx : Nat := 0
  synth : Nat := 0
  next : Option Nat := none
  /-- the frame before the current one -/
  prev : Option Nat := none
  /-- rate in force -/
  n : Nat := 50
  den : Nat := 1
  /-- reel time at which the pulse of the current frame was taken or inserted (R296) -/
  seen : Nat := 0
  /-- frame to the reel time of its pulse and the rate in force from it (R287) -/
  times : Table (Nat × Nat × Nat) := []
  /-- the latest write of its rate: its clk, and the rate before it (R286) -/
  oldRate : Option (Nat × Nat × Nat) := none
  deriving DecidableEq, Repr

/-- A deadline as a point of a frame (R287, R294); `check` names the deadline check it comes from, none
for one that a TIMED gave. -/
structure Due where
  input : Nat
  frame : Nat
  phase : Nat
  check : Option Nat
  deriving DecidableEq, Repr

/-- A release of a schedule entry that a deadline check judges (R291, R294). -/
structure Release where
  entry : Nat
  input : Nat
  frame : Nat
  queues : List Nat
  /-- its deadline was due when its check was written: the check's entry and the deadline, by the old contents (R290) -/
  fixed : Option (Nat × Due) := none
  deriving DecidableEq, Repr

/-- An event that was due when its entry was written: it still takes effect, by the old contents (R290). -/
structure Owed where
  entry : Nat
  word : Nat
  frame : Nat
  time : Nat
  deriving DecidableEq, Repr

/-- A closed epoch that waits for its decision (R298), with the span in which detection was degraded. -/
structure ClosedEpoch where
  n : Nat
  opened : Nat
  closed : Nat
  degraded : Bool
  deriving DecidableEq, Repr

/-- Work of one sealed command (R372): its epoch, the physical units that worked on it, when the work ended. -/
structure SealedWork where
  epoch : Nat
  units : List Nat
  time : Nat
  deriving DecidableEq, Repr

/-- The Bellman. -/
structure Bellman where
  reel0 : Reel := {}
  reel1 : Reel := {}
  inputs : List Input := [{}, {}, {}, {}]
  /-- entries as 128-bit numbers; unlisted: 0 -/
  schedule : Table Nat := []
  /-- frame on which each entry last fired, or that it has passed -/
  fired : Table Nat := []
  releases : List Release := []
  owed : List Owed := []
  epoch : Nat := 0
  epochOpened : Nat := 0
  /-- detection was degraded at some moment of the open epoch -/
  epochDegraded : Bool := false
  closed : List ClosedEpoch := []
  confirmed : Option Nat := none
  denied : Option Nat := none
  outcomeBase : Nat := 0
  outcomeMap : Nat := 0
  outcomeCount : Nat := 0
  work : List SealedWork := []
  deriving DecidableEq, Repr

/-! ### Threshers (04_thresher.md) -/

/-- R88: the states of an accumulator slot. -/
inductive SlotState
  | free | accumulating | draining | swap
  deriving DecidableEq, Repr

/-- R87: an accumulator tile slot. An FP64 tile stands in the lower slot of its pair, and the upper one is taken. -/
structure AccSlot where
  state : SlotState := .free
  /-- rows of the output tile, as codes of the accumulator format -/
  tile : List (List Nat) := []
  tally : List Nat := []
  /-- row-statistic side store: two FP32 words per row -/
  side : List (Nat × Nat) := []
  /-- gathered IEEE flags, conversion flags, and groups added -/
  ieee : Nat := 0
  conv : Nat := 0
  groups : Nat := 0
  deriving DecidableEq, Repr

/-- R70: what a Thresher's Loft port carries. -/
inductive PortUse
  | stationary | stream | accInit | spill | restore
  deriving DecidableEq, Repr

/-- One Thresher: its two stationary banks, of which the array streams against `active` (R69), its Loft port with the
transfers that wait for it, in Loft rows (R70), and its eight slots (R87). A bank holds the codes of a stationary tile,
one list per reduction element. -/
structure Thresher where
  bank0 : List (List Nat) := []
  bank1 : List (List Nat) := []
  active : Nat := 0
  port : List (PortUse × Nat) := []
  slots : List AccSlot := List.replicate 8 {}
  deriving DecidableEq, Repr

/-! ### Loft (09_loft.md) -/

/-- The contents of a Loft row: known bytes, or undefined since a numbered moment. -/
inductive RowData
  | known (b : List Byte)
  | undef (stamp : Nat)
  deriving DecidableEq, Repr

/-- One row with its eight parity bits, one for each 64-byte sector, its error mark (R215) and its pending bit (R214).
The parity of an undefined row is that of the bytes it turns out to hold. -/
structure LoftRow where
  data : RowData
  parity : Nat := 0
  mark : Bool := false
  pending : Bool := false
  deriving DecidableEq, Repr

/-- A partition table entry (R200). -/
structure Partition where
  state : Nat := 0
  pinned : Bool := false
  hazard : Bool := false
  pasid : Nat := 0
  ctrCount : Nat := 0
  ctrBase : Nat := 0
  semCount : Nat := 0
  semBase : Nat := 0
  units : Nat := 0
  baseUnit : Nat := 0
  mask : Nat := 0
  deriving DecidableEq, Repr

/-- A partition saved to a state area (R202): relative rows, semaphores and counters per cluster. -/
structure SavedPartition where
  rows : Table LoftRow := []
  sems : Table Nat := []
  ctrs : Table Nat := []
  deriving DecidableEq, Repr

/-- The Lofts of the engine. Row, semaphore and counter keys are (region × 16 + logical cluster) ×
4096 + index. -/
structure Loft where
  /-- stamp of the moment since which unlisted rows are undefined -/
  base : Nat := 0
  /-- rows written since the reset -/
  rows : Table LoftRow := []
  /-- unlisted: 0 -/
  sems : Table Nat := []
  ctrs : Table Nat := []
  /-- region × 64 + entry; unlisted: free -/
  parts : Table Partition := []
  /-- PASID that last held a unit of 16 rows; key (region × 16 + cluster) × 256 + unit -/
  lastUser : Table Nat := []
  deriving DecidableEq, Repr

/-! ### Granary (08_granary.md) -/

/-- A context record with its tables (R176–R178). -/
structure Sequence where
  /-- 1 resident, 2 freeing, 3 evicted -/
  state : Nat := 1
  evictable : Bool := false
  priority : Nat := 0
  hint : Nat := 0
  pasid : Nat := 0
  kType : Nat := 0
  vType : Nat := 0
  dim : Nat := 0
  heads : Nat := 0
  perSheaf : Nat := 0
  layers : Nat := 0
  capacity : Nat := 0
  readers : Nat := 0
  generation : Nat := 0
  lastRead : Nat := 0
  /-- committed length per layer; unlisted: 0 -/
  lengths : Table Nat := []
  /-- tally entries that are `PRESENT`: entry index to sheaf -/
  tally : Table Nat := []
  tallySheaves : List Nat := []
  dirSheaves : List Nat := []
  /-- tally and directory sheaves, by number, that cannot be read (R364) -/
  badTally : List Nat := []
  badDir : List Nat := []
  deriving DecidableEq, Repr

/-- Metadata of a sheaf in use (R179). `REFS` of a sheaf that is reserved and not yet named by a table is 0. `NEXT_FREE`
is 0xFFFF_FFFF while a sheaf is in use; of a free one it follows from the free list (`State.nextFree`). -/
structure Sheaf where
  refs : Nat := 1
  /-- 1 data, 2 tally, 3 directory -/
  kind : Nat := 1
  pasid : Nat := 0
  deriving DecidableEq, Repr

/-- R188: a tally entry that a walker holds: its sequence, its index, and the sheaf that it names, if it is `PRESENT`. -/
structure HeldEntry where
  seq : Nat
  index : Nat
  sheaf : Option Nat
  deriving DecidableEq, Repr

structure Granary where
  pool : Nat := 8388608
  /-- the free list (R179): sheaves that came back, from its head, then every sheaf from `fresh` on -/
  freed : List Nat := []
  fresh : Nat := 0
  /-- R188: region to the tally entries that its walker holds, most recent first, 1,024 at most -/
  walkers : Table (List HeldEntry) := []
  seqs : Table Sequence := []
  /-- sheaves in use; unlisted: free -/
  sheaves : Table Sheaf := []
  /-- bytes of data sheaves, key sheaf × 65536 + byte; unlisted bytes are undefined -/
  data : List Host.Cell := []
  /-- sheaves held for queues (R275) -/
  staged : Nat := 0
  /-- sheaves withdrawn from the pool (R364) -/
  withdrawn : List Nat := []
  deriving DecidableEq, Repr

/-! ### Mill tables (05_mill.md) -/

structure Mills where
  generation : Nat := 1
  /-- slots of the active bank; unlisted: empty -/
  active : Table Image := (List.range 14).map fun n => (n, Image.shipped n)
  /-- slots of the bank of the previous generation, which becomes the shadow bank -/
  shadow : Table Image := []
  shadowGeneration : Nat := 0
  deriving DecidableEq, Repr

/-! ### Queues and commands in flight (12_queues_commands.md) -/

/-- An access of an issue check that waits for a translation or a page. -/
structure IssueWait where
  va : Nat
  access : Nat
  desc : Bool
  fault : Bool
  deriving DecidableEq, Repr

/-- A queue record (R256) and the Drover's state of that queue. -/
structure Queue where
  /-- the RW fields of the bind image, as the 512-bit record -/
  image : Nat
  pasid : Nat
  priority : Nat
  cadenceBound : Bool
  vector : Nat
  coalesce : Nat
  slot : Nat
  descLog2 : Nat
  descBase : Nat
  complLog2 : Nat
  complBase : Nat
  floor : Nat
  borrow : Nat
  clusters : Nat
  semCount : Nat
  ctrCount : Nat
  staging : Nat
  region : Nat
  /-- 1 running, 2 stopped, 3 error -/
  state : Nat := 1
  parked : Bool := false
  halted : Bool := false
  released : Bool := false
  head : Nat := 0
  tail : Nat := 0
  complTail : Nat := 0
  complHead : Nat := 0
  lastError : Nat := 0
  /-- entry of the region's partition table, none for a queue without Loft -/
  part : Option Nat := none
  /-- units held beyond the floor, and when the first of them was granted -/
  borrowed : Nat := 0
  borrowTime : Nat := 0
  /-- units that the next command waits for, and since which order of requests -/
  wants : Option Nat := none
  wantsSince : Nat := 0
  /-- it has been ordered to yield (R277) -/
  yieldOrdered : Bool := false
  /-- staging sheaves not yet drawn (R275) -/
  stagingLeft : Nat := 0
  /-- the whole partition is saved to the state area -/
  saved : Option SavedPartition := none
  /-- completions with `IRQ` since the last interrupt -/
  irqCount : Nat := 0
  /-- frame of the release in force, and its entry -/
  releaseFrame : Option (Nat × Nat) := none
  /-- a prefetch launch serves it at class 7 -/
  boosted : Bool := false
  /-- deadline that later commands carry from a TIMED -/
  timedDeadline : Option Due := none
  /-- deadlines of its TIMEDs that have been judged, and points of deadlines for which it has had its event (R295) -/
  timedJudged : List Due := []
  missed : List (Nat × Nat × Nat) := []
  /-- a failed issue-phase access: code and detail -/
  issueFailure : Option (Nat × Nat) := none
  /-- an access of its issue check that waits: address, access, whether it is the descriptor fetch, and
  whether it met a fault -/
  issueWait : Option IssueWait := none
  /-- spill images of its commands' live tiles that stand in the state area while its task is parked (R249) -/
  images : Nat := 0
  deriving DecidableEq, Repr

/-- What a command in flight waits for. -/
inductive Wait
  /-- finished: its completion record can be written -/
  | done
  /-- a translation of this address and access (0 read, 1 write, 2 atomic) -/
  | translation (va access : Nat)
  /-- a page request on the page of this address, and the access -/
  | page (va access : Nat)
  /-- its task is parked, and its own accesses are translated -/
  | parked
  | semaphore
  | counter
  | memory
  /-- gated tiles: tiles started -/
  | gate (tile : Nat)
  /-- earlier readers or writers of its sequence -/
  | granary
  | fence
  | release
  /-- a capture is armed -/
  | capture
  /-- the shadow bank -/
  | shadow
  /-- transfer descriptors in flight -/
  | transfer
  /-- a link to a package -/
  | link (dst : Nat)
  /-- the arbiter: an earlier request to its dictionary entry is not complete (R336) -/
  | dictionary
  /-- a detected fault orders it run again from the start (R216, R362); whether it was a parity error -/
  | rerun (parity : Bool)
  /-- its completion record waits for a translation or page of the completion ring -/
  | recordWrite (va : Nat) (fault : Bool)
  deriving DecidableEq, Repr

/-- A transfer descriptor in a Carter slot (R220, R233). -/
structure Slot where
  /-- number inside the MOVE -/
  d : Nat
  bytes : List Byte
  /-- descriptors with `FENCE` among the first d + 1 (R226) -/
  fences : Nat := 0
  /-- clusters (mask) on which its semaphore wait is satisfied -/
  semGot : Nat := 0
  started : Bool := false
  /-- first row not landed at every destination (R233), and first row not formed -/
  cursor : Nat := 0
  formed : Nat := 0
  /-- every row has landed, at a reel time -/
  landed : Option Nat := none
  /-- stopped at a fault: address and access -/
  faulted : Option (Nat × Nat) := none
  /-- stopped part-way, to be resumed at its cursor (R234) -/
  stopped : Bool := false
  /-- its MOVE has failed at or before it and it goes no further -/
  failed : Bool := false
  /-- rows of the arrival group being formed for a window: offset in the window and bytes -/
  group : List (Nat × List Byte) := []
  /-- messages not yet acknowledged: sequence number, first row, row after the last -/
  unacked : List (Nat × Nat × Nat) := []
  /-- read requests not yet answered: sequence number, offset in the window -/
  reads : List (Nat × Nat) := []
  /-- runs of a window source that have been read for the row in hand: offset and bytes -/
  got : List (Nat × List Byte) := []
  /-- its deadline, once it has been missed; after a step over it, the stepped time -/
  missed : Option Nat := none
  /-- R226: its source and destination overlap: its bytes are free, drawn under this number -/
  stamp : Option Nat := none
  deriving DecidableEq, Repr

/-- A row that a descriptor of a MOVE has written: fences before it, descriptor, space (0 memory, 1 Loft,
2 window), address, bytes (R226). -/
structure Wrote where
  fences : Nat
  d : Nat
  space : Nat
  address : Nat
  bytes : Nat
  deriving DecidableEq, Repr

/-- Why a MOVE fails: descriptor number, code, cursor (R234, R237). -/
structure Failing where
  d : Nat
  code : Nat
  cursor : Nat
  deriving DecidableEq, Repr

/-- The state of a MOVE in transfer form. -/
structure Transfer where
  base : Nat := 0
  log2 : Nat := 0
  first : Nat := 0
  count : Nat := 0
  fetched : Nat := 0
  fences : Nat := 0
  /-- a burst fetch waits for a translation -/
  burst : Bool := false
  /-- a burst fetch met a fault at this address -/
  burstPage : Option Nat := none
  slots : List Slot := []
  completed : Nat := 0
  failure : Option Failing := none
  wrote : List Wrote := []
  deriving DecidableEq, Repr

/-- The descriptor and every record that a command names, read once at issue (R264, R151): argument
record, operand table of a FUNC or MOVE convert, chain record, mask and key descriptor with its block
list, supplied scale, merge list. -/
structure Recs where
  desc : List Byte := []
  args : List Byte := []
  tab : List Byte := []
  chain : List Byte := []
  mask : List Byte := []
  blocks : List Byte := []
  scale : List Byte := []
  merge : List Byte := []
  deriving DecidableEq, Repr

/-- A command in flight, with what its completion record will carry (R272). -/
structure Cmd where
  q : Nat
  i : Nat
  pasid : Nat
  die : Nat
  region : Nat
  clusters : Nat
  recs : Recs
  /-- the products of a CHAIN2 -/
  prods : List Recs := []
  wait : Wait
  status : Nat := 0
  refused : Bool := false
  /-- generation, default round, default saturate, resolved form -/
  gen : Nat := 0
  defRound : Nat := 0
  defSat : Bool := true
  form : Nat := 0
  /-- committed lengths sampled at issue, in the order of the segments (R192) -/
  lengths : List Nat := []
  seqs : List Nat := []
  /-- it is a Granary writer that waits or works on its sequence -/
  writer : Bool := false
  nonRerunnable : Bool := false
  /-- it has signalled, incremented or sent (R216) -/
  released : Bool := false
  reruns : Nat := 0
  resumes : Nat := 0
  deadline : Option Due := none
  /-- reel time of a deadline that fell due before it completed; after a step over it, the stepped time (R296) -/
  missedAt : Option Nat := none
  /-- a deadline of one of its transfers was missed (R236), or its gate timed out in cadence mode (R167) -/
  late : Bool := false
  /-- fields of the record -/
  split : Bool := false
  ieee : Nat := 0
  conv : Nat := 0
  limit : Nat := 0
  ratio : Nat := 0
  amax : Nat := 0
  resolved : List Nat := []
  mb : Nat := 0
  spill : Nat := 0
  lateness : Nat := 0
  collisions : Nat := 0
  hazards : Nat := 0
  detail : Nat := 0
  transfer : Option Transfer := none
  /-- sheaves reserved at issue, each with the tally entry it is for (R184, R185) -/
  reserved : List (Nat × Nat) := []
  /-- how many of them were drawn from the queue's staging sheaves (R275) -/
  drawn : Nat := 0
  evicted : Nat := 0
  /-- gate: counter value at the last increment seen, tiles released -/
  tiles : Nat := 0
  /-- clusters (mask) on which a semaphore wait is satisfied -/
  semGot : Nat := 0
  /-- retries of the page request of its current fault -/
  retries : Nat := 0
  order : Nat := 0
  issuedAt : Nat := 0
  /-- bytes of the gated tiles read from a Loft ring, in order (R168) -/
  ringData : List (List Byte) := []
  /-- unit of the last fault that affected it (R362) -/
  lastFault : Option Nat := none
  /-- release point of a TIMED that waits for it -/
  releaseAt : Option Due := none
  /-- the same given as reel time -/
  releaseReel : Option Nat := none
  /-- it has begun on its units (R403) -/
  begun : Bool := false
  /-- tiles of a `SEND` that have not left (R170): offset and bytes -/
  sends : List (Nat × List Byte) := []
  /-- it waits by R193 and has not been checked -/
  unchecked : Bool := false
  /-- its breakpoint hit has been taken (R413) -/
  hit : Bool := false
  deriving DecidableEq, Repr

/-! ### Translation (11_translation.md) -/

/-- A look-aside entry (R242–R244). -/
structure Entry where
  pasid : Nat
  va : Nat
  bytes : Nat
  pa : Nat
  read : Bool
  write : Bool
  atomic : Bool
  /-- the translation was asked for writing -/
  asked : Bool
  deriving DecidableEq, Repr

/-- An outstanding translation request. -/
structure TransReq where
  die : Nat
  region : Nat
  pasid : Nat
  va : Nat
  access : Nat
  /-- an invalidation overlapped it (R246) -/
  discard : Bool := false
  /-- what waits for it: queue, index, and within the command -/
  who : Nat × Nat × Nat := (0, 0, 0)
  deriving DecidableEq, Repr

/-- An outstanding page request (R247). -/
structure PageReq where
  die : Nat
  pasid : Nat
  page : Nat
  rights : Nat
  /-- bytes of the page that the completion reported: 4 KiB where it reported none -/
  bytes : Nat := 4096
  retries : Nat := 0
  /-- answered with success, translation asked again -/
  answered : Bool := false
  /-- it waits for a free place -/
  queued : Bool := false
  deriving DecidableEq, Repr

structure Translation where
  /-- region 0–15 to the entries of its Carter, most recent first -/
  carter : Table (List Entry) := []
  die0 : List Entry := []
  die1 : List Entry := []
  requests : List TransReq := []
  pages : List PageReq := []
  /-- invalidations received and not completed: PASID, va, bytes -/
  invalidations : List (Nat × Nat × Nat) := []
  /-- region to the tracking entries that its Carter holds, and the requests that it has made (R229); unlisted: 0, 0 -/
  tracking : Table (Nat × Nat) := []
  /-- page requests are disabled until the next cold reset -/
  priState : Nat := 0
  deriving DecidableEq, Repr

/-! ### Bruora (14_bruora_links.md) -/

/-- The payload of a flit that has not left, with the message that it ends. -/
structure Unsent where
  channel : Nat
  payload : List Byte
  last : Option Message := none
  deriving DecidableEq, Repr

structure Port where
  state : Nat := 1
  width : Nat := 16
  partner : Option (Nat × Nat) := none
  partnerIncarnation : Option Nat := none
  /-- physical lane of each logical lane -/
  lanes : List Nat := List.range 16
  lanesOk : Nat := 0x3FFFF
  /-- next flit sequence number expected, and next to send -/
  rx : Nat := 0
  tx : Nat := 0
  /-- sent and unacknowledged flits, oldest first -/
  kept : List (Nat × List Byte) := []
  /-- replays of the flit at the front -/
  replays : Nat := 0
  /-- flits that may still be sent on the channels 0, 1 and 2 (R307) -/
  credits : Nat × Nat × Nat := (1024, 1024, 1024)
  /-- flits received on them whose credits have not been returned: what their receive buffers hold -/
  owed : Nat × Nat × Nat := (0, 0, 0)
  /-- flits that wait for credits, in order -/
  unsent : List Unsent := []
  /-- retraining keeps the equalisation -/
  retrain : Bool := false
  deriving DecidableEq, Repr

structure Window where
  id : Nat
  pasid : Nat
  q : Nat
  memory : Bool
  read : Bool
  write : Bool
  counter : Nat
  base : Nat
  size : Nat
  peers : Nat
  region : Nat
  part : Nat
  faulted : Bool := false
  /-- translations of a memory window, held until it closes (R317) -/
  held : List Entry := []
  deriving DecidableEq, Repr

/-- A message sent and not yet acknowledged, with its MOVE and descriptor. -/
structure Sent where
  msg : Message
  q : Nat
  i : Nat
  d : Nat
  port : Nat
  deriving DecidableEq, Repr

structure Bruora where
  ports : List Port := List.replicate 16 {}
  windows : List Window := []
  /-- next message number per target; unlisted: 0 -/
  sequence : Table Nat := []
  /-- highest message landed in order per source, with the source's incarnation -/
  landed : Table (Nat × Nat) := []
  sent : List Sent := []
  /-- destinations whose link is lost -/
  lost : List Nat := []
  /-- answers and transit messages whose route is not available now (R313) -/
  held : List Message := []
  incarnation : Nat := 1
  incarnationWrites : Nat := 1
  incarnationWorn : Bool := false
  deriving DecidableEq, Repr

/-! ### Dictionary, mailbox and interrupts (15_object_dictionary.md) -/

/-- A kept entry as stored (R340–R342). -/
structure Kept where
  value : Nat
  writes : Nat
  /-- 0 in use, 1 warned, 2 worn -/
  wear : Nat := 0
  /-- the value of one copy, written later than the other, which a power loss left at `value` (R341) -/
  later : Option Nat := none
  deriving DecidableEq, Repr

/-- An interrupt vector (R350). -/
structure IrqVector where
  address : Nat
  data : Nat
  mask : Bool
  pending : Bool
  deriving DecidableEq, Repr

structure Dictionary where
  /-- values of RW entries and counters that no other field holds; key index × 256 + sub; unlisted: default -/
  regs : Table Nat := []
  /-- kept entries that have been written -/
  kept : Table Kept := []
  /-- kept entries with a copy that no longer commits (R341): key to the dies (mask); unlisted: none -/
  stuck : Table Nat := []
  wearList : List Nat := []
  busy : Bool := false
  done : Bool := false
  request : List Byte := []
  response : List Byte := []
  /-- unlisted: address 0, data 0, masked -/
  vectors : Table IrqVector := []
  /-- the clk of the latest writes, and the entries that they changed with what a read returned before (R327, R344) -/
  prior : Nat × List (Nat × Nat) := (0, [])
  deriving DecidableEq, Repr

/-! ### Integrity (16_integrity.md, 01_hierarchy.md) -/

/-- A ledger entry (R368). -/
structure LedgerEntry where
  code : Nat
  severity : Nat
  nested : Bool
  action : Nat
  state : Nat
  seq : Nat
  phys : Nat
  log : Nat
  time : Nat
  exposed : Nat
  root : Nat
  pasid : Nat := 0
  queue : Nat := 0
  valid : Bool := false
  index : Nat := 0
  detail : Nat := 0
  deriving DecidableEq, Repr

/-- One die's ledger (R368–R370). -/
structure Ledger where
  /-- place to entry -/
  places : Table LedgerEntry := []
  head : Nat := 0
  tail : Nat := 0
  count : Nat := 0
  overflow : Bool := false
  dropped : Nat := 0
  seq : Nat := 0
  worst : Nat := 0
  worstEntry : Option LedgerEntry := none
  /-- the last clk with an entry, and the worst entry of that clk (R370) -/
  newest : Option (Nat × LedgerEntry) := none
  deriving DecidableEq, Repr

/-- An open containment domain (R361, R365). -/
structure Domain where
  loc : Nat
  severity : Nat
  root : Nat
  /-- its entries: die, `SEQ` -/
  entries : List (Nat × Nat)
  /-- the command whose rerun or failure closes it -/
  cmd : Option (Nat × Nat) := none
  deriving DecidableEq, Repr

/-- Where a unit stands that is not simply in service. -/
inductive UnitPhase
  | selfTest
  /-- passed, waits for its probation to begin -/
  | tested
  /-- in probation -/
  | probation
  /-- passed its probation: takes its slot at the next command boundary -/
  | passed
  deriving DecidableEq, Repr

/-- Hosts of one physical cluster's slots (R9, R12, R198): physical unit of each logical Thresher and Gleaner, and
physical bank of each logical Loft bank, none while hosted in turn. -/
structure ClusterHosts where
  threshers : List (Option Nat) := [some 0, some 1, some 2, some 3]
  gleaners : List (Option Nat) := [some 0, some 1]
  banks : List (Option Nat) := (List.range 16).map some
  /-- rotation steps taken -/
  step : Nat := 0
  /-- a probation overran: duplicate execution of Threshers, of Gleaners (R358) -/
  overrunThresher : Bool := false
  overrunGleaner : Bool := false
  deriving DecidableEq, Repr

/-- A fault above notice severity that takes part in the decision of epochs (R298, R372). -/
structure FaultRecord where
  loc : Nat
  severity : Nat
  exposed : Nat
  deriving DecidableEq, Repr

structure Integrity where
  ledger0 : Ledger := {}
  ledger1 : Ledger := {}
  domains : List Domain := []
  /-- domains that closed, with their clk: they count as open in it (R366) -/
  shut : List (Nat × Domain) := []
  faults : List FaultRecord := []
  /-- FIELD_SPARE_MAP: units and steered columns -/
  field : List Nat := []
  /-- retired units that the full map does not record -/
  unrecorded : List Nat := []
  quarantined : List Nat := []
  /-- units ordered out at the next boundary of their slot: locator, and whether by quarantine -/
  leaving : List (Nat × Bool) := []
  /-- phase of units that are testing or in probation, by locator -/
  phases : Table UnitPhase := []
  /-- units that a fault, a release, a return or a move sent to self-test and that are not back yet -/
  out : List Nat := []
  /-- units whose return was ordered (R15) -/
  returning : List Nat := []
  /-- reel time of the last passed self-test or probation, by locator; unlisted: 0 -/
  passed : Table Nat := []
  /-- region to the physical cluster of each logical cluster (none: hosted in turn); unlisted: 0–15 -/
  maps : Table (List (Option Nat)) := []
  /-- logical clusters hosted in turn while their physical cluster is out of service: region, logical, physical -/
  away : List (Nat × Nat × Nat) := []
  /-- physical cluster (region × 32 + cluster) to its hosts; unlisted: none left its first host -/
  hosts : Table ClusterHosts := []
  remaps : Nat := 0
  /-- last logical locator that a physical unit held (R368); unlisted: none -/
  lastSlot : Table Nat := []
  deriving DecidableEq, Repr

/-! ### Counters, trace, inspection (18_observability.md) -/

/-- A Daybook event (R401) as its 128-bit number. -/
structure DaybookBuffer where
  events : List Nat := []
  lost : Bool := false
  lastSync : Nat := 0
  deriving DecidableEq, Repr

/-- The Daybook port (R405): blocks sent on its four lanes together since it left idle, in blocks and 33rds of a block; the
first block that no event has been given; and the die whose event goes first when both buffers hold one. -/
structure DaybookPort where
  blocks : Nat := 0
  frac : Nat := 0
  next : Nat := 0
  turn : Nat := 0
  deriving DecidableEq, Repr

/-- What a capture copied (R410). -/
structure Captured where
  index : Nat
  tag : Nat
  time : Nat
  type : Nat
  rows : Nat
  columns : Nat
  data : List Byte
  deriving DecidableEq, Repr

/-- An armed capture (R407–R411). -/
structure Capture where
  place : Nat
  q : Nat
  i : Nat
  record : List Byte
  /-- commands of the watched queue issued, and matching ones passed over -/
  issued : Nat := 0
  skipped : Nat := 0
  /-- index of the matched command -/
  matched : Option Nat := none
  /-- the copy, once the matched command has run -/
  got : Option Captured := none
  deriving DecidableEq, Repr

structure HaltRecord where
  pasid : Nat
  breakpoint : Nat
  loc : Nat
  time : Nat
  offset : Nat
  image : List Byte
  deriving DecidableEq, Repr

structure Observe where
  frozen : Bool := false
  freezeTime : Nat := 0
  /-- freeze ordered: T, and the dies that still have to copy (mask) -/
  due : Option (Nat × Nat) := none
  /-- the first freeze ignored in a clk while frozen: the clk, and T (R400) -/
  missed : Option (Nat × Nat) := none
  /-- snapshot of the counters, and of the task counter sets -/
  snapshot : Table Nat := []
  snapshotTasks : Table (List Nat) := []
  /-- PASID to its sixteen counts -/
  tasks : Table (List Nat) := []
  daybook0 : DaybookBuffer := {}
  daybook1 : DaybookBuffer := {}
  dayPort : DaybookPort := {}
  /-- events sent by the port (`DAYBOOK_EVENTS`) -/
  sent : Nat := 0
  captures : List Capture := []
  /-- breakpoint number 1–8 to its record; unlisted: 0 -/
  breakpoints : Table Nat := []
  halts : List HaltRecord := []
  /-- place of the oldest record once all 16 are used -/
  haltNext : Nat := 0
  halted : List Nat := []
  /-- hits of the last clk with one: the clk, the PASID, and whether it was halted before that clk (R414) -/
  hits : List (Nat × Nat × Bool) := []
  deriving DecidableEq, Repr

/-! ### Barn (R231, R232) -/

/-- A line of the Barn: line number, whether kept, whether first to evict. -/
structure BarnLine where
  line : Nat
  keep : Bool
  stream : Bool
  dirty : Bool
  deriving DecidableEq, Repr

/-! ### What the engine sends -/

/-- A message that leaves the block. -/
inductive Out
  /-- response to a dictionary request: path, tag, abort code, data -/
  | response (path : DictPath) (op tag abort : Nat) (data : List Byte)
  /-- the message body of a response on path 1, or on path 3 (`host`), to an endpoint (R335) -/
  | mctp (host : Bool) (endpoint : Nat) (bytes : List Byte)
  /-- notification to the package controller (R345): kind and value -/
  | notify (kind value : Nat)
  | interrupt (v address data : Nat)
  | translationRequest (die pasid va access : Nat)
  | pageRequest (die pasid page rights : Nat)
  | invalidationComplete (pasid va bytes : Nat)
  | message (port : Nat) (m : Message)
  | replay (port seq : Nat)
  | flit (port : Nat) (bytes : List Byte)
  | recovery (endpoint code received : Nat)
  /-- a data block of the Daybook port: its lane, its number among the blocks of all lanes, its eight bytes (R405). Every
  other block is an alignment marker or an idle control block (`isMarker`) -/
  | daybook (lane block : Nat) (bytes : List Byte)
  /-- completion with the fabric's unsupported-request status (R421) -/
  | unsupported (what : Nat)
  deriving DecidableEq, Repr

/-! ### The whole state -/

structure State where
  /-- commands waiting, first in, first out -/
  pending : List Instr := []
  /-- the model's own counter of free values drawn; not the spec's -/
  free : Nat := 0
  /-- core clk since cold reset -/
  clk : Nat := 0
  pins : Pins := {}
  fuses : Fuses := {}
  fw : Firmware := {}
  bell : Bellman := {}
  /-- device memory by physical address; unlisted bytes read 0 -/
  devMem : List Host.Cell := []
  /-- host memory by physical address; unlisted bytes read 0 -/
  hostMem : List Host.Cell := []
  /-- lines of device memory marked uncorrectable (R364) -/
  poisoned : List Nat := []
  /-- logical Threshers, key (region × 16 + logical cluster) × 4 + number; unlisted: nothing loaded, every slot free -/
  threshers : Table Thresher := []
  loft : Loft := {}
  granary : Granary := {}
  mills : Mills := {}
  /-- bound queues -/
  queues : Table Queue := []
  /-- class cursors of each die's Drover, die × 8 + class; unlisted: 0 -/
  cursors : Table Nat := []
  /-- queue to the clk since which it has been ready without being served (R262) -/
  waiting : Table Nat := []
  /-- commands in flight in issue order -/
  cmds : List Cmd := []
  trans : Translation := {}
  bruora : Bruora := {}
  dict : Dictionary := {}
  integ : Integrity := {}
  obs : Observe := {}
  barn : List BarnLine := []
  /-- what the engine has sent, newest last -/
  outbox : List Out := []
  /-- commands issued, for the order of issue -/
  issued : Nat := 0
  deriving DecidableEq, Repr

/-- The engine right after cold reset and start-up of a factory-fresh part (R429, R432): every entry
at its default, the Mill catalogue loaded as generation 1, the Granary empty, no queue bound, every
field scope closed, and an empty queue of commands. -/
def State.reset : State := {}

/-- The engine held in cold reset (R418, R419): what `COLD_RESET_RELEASE` starts from. -/
def State.inReset : State :=
  { pins := { state := .inReset, coldHeld := true, ready := false, isolated := true, startupStep := 0 } }

end Sys2Proof.Machine
end

