-- ==== Sys2Proof/Machine/Time.lean ====
section
/-! DEFINITION. Machine/Time.lean: clk and the two copies of reel time (R282, R283). -/
namespace Sys2Proof.Machine

/-- R282, R283: one copy over n clk. The copy runs 5 ticks per 8 clk; while it corrects a small
offset it runs 1/1,024 fast or slow, and while it is more than 64 ns ahead it runs at half rate.
DESIGN CHOICE: the fraction of a tick in which a correction ends is dropped (log entry 2). -/
def Reel.after (r : Reel) (n : Nat) : Reel :=
  let e := r.frac + 5 * n
  let base := e / 8
  let run := r.slew + base
  if r.delta = 0 then { r with time := r.time + base, frac := e % 8, half := false }
  else if 0 < r.delta then
    let gain := min (run / 1024) r.delta.toNat
    { r with time := r.time + base + gain, frac := e % 8, slew := run % 1024, delta := r.delta - gain, half := false }
  else
    let rate := if r.half then 2 else 1024
    let loss := min (run / rate) r.delta.natAbs
    { r with
      time := r.time + (base - loss), frac := e % 8, slew := run % rate, delta := r.delta + loss,
      half := r.half && r.delta + loss != 0 }

/-- One copy over n clk, with the time of the clk before. -/
def Reel.run (r : Reel) (n : Nat) : Reel := if n = 0 then r else { r.after n with prev := (r.after (n - 1)).time }

/-- n clk pass for the clocks. -/
def State.pass (s : State) (n : Nat) : State :=
  { s with clk := s.clk + n, bell := { s.bell with reel0 := s.bell.reel0.run n, reel1 := s.bell.reel1.run n } }

/-- Reel time of a die. -/
def State.reel (s : State) (die : Nat) : Nat := if die = 0 then s.bell.reel0.time else s.bell.reel1.time

end Sys2Proof.Machine
end

