-- ==== Sys2Proof/Machine/Ops.lean ====
section
/-! DEFINITION. Machine/Ops.lean: the named operations over tables, memory and the state that every
family of commands shares: reading and writing memory, counters, what the engine sends, interrupts,
Daybook events. -/
namespace Sys2Proof.Machine

/-! ### Sparse tables -/

/-- The value at a key. -/
def Table.find? {α : Type} (k : Nat) : Table α → Option α
  | [] => none
  | (j, v) :: t => if j = k then some v else if k < j then none else Table.find? k t

/-- Put a value at a key, keys strictly rising. -/
def Table.put {α : Type} (k : Nat) (v : α) : Table α → Table α
  | [] => [(k, v)]
  | (j, w) :: t => if k < j then (k, v) :: (j, w) :: t else if k = j then (k, v) :: t else (j, w) :: Table.put k v t

/-- Take a key out. -/
def Table.drop {α : Type} (k : Nat) (t : Table α) : Table α := t.filter fun e => e.1 != k

/-- Keys strictly rising. -/
def Table.rising {α : Type} : Table α → Bool
  | (j, _) :: (k, w) :: t => j < k && Table.rising ((k, w) :: t)
  | _ => true

/-! ### Memory: (address, byte) pairs in one canonical form -/

/-- An unlisted byte reads 0 (log entry 4). -/
def memByte (m : List Host.Cell) (a : Nat) : Byte := (Table.find? a m).getD 0

/-- n bytes from an address. -/
def memRead (m : List Host.Cell) (a n : Nat) : List Byte :=
  let part := m.filter fun c => a ≤ c.1 && c.1 < a + n
  (List.range n).map fun i => memByte part (a + i)

/-- The cells of a byte string at an address: the bytes that are not 0. -/
def cellsAt : Nat → List Byte → List Host.Cell
  | _, [] => []
  | a, b :: bs => if b = 0 then cellsAt (a + 1) bs else (a, b) :: cellsAt (a + 1) bs

/-- Write a byte string at an address. -/
def memWrite (m : List Host.Cell) (a : Nat) (bs : List Byte) : List Host.Cell :=
  (m.filter fun c => c.1 < a) ++ cellsAt a bs ++ m.filter fun c => a + bs.length ≤ c.1

/-- The canonical form: addresses strictly rising, no byte 0 listed. -/
def Memory.wf (m : List Host.Cell) : Bool := Table.rising m && m.all fun c => c.2 != 0

/-- The package physical map: device memory from 0 (16 stacks of 72 GiB), host memory from 2^50.
DESIGN CHOICE: the map is the package manual's (log entry 5). -/
def deviceBytes : Nat := 1152 * 2 ^ 30
def hostBase : Nat := 2 ^ 50
def hostEnd : Nat := 2 ^ 52

/-- R241: does a physical range lie in device memory, in host memory, or elsewhere? -/
def isDevice (pa n : Nat) : Bool := pa + n ≤ deviceBytes
def isHost (pa n : Nat) : Bool := hostBase ≤ pa && pa + n ≤ hostEnd

namespace State

/-- Bytes of package physical memory. -/
def physRead (s : State) (pa n : Nat) : List Byte :=
  if pa < hostBase then memRead s.devMem pa n else memRead s.hostMem (pa - hostBase) n

def physWrite (s : State) (pa : Nat) (bs : List Byte) : State :=
  if pa < hostBase then
    { s with
      devMem := memWrite s.devMem pa bs,
      -- R364: a written location is no longer uncorrectable
      poisoned := s.poisoned.filter fun l => !(pa ≤ l * 512 && l * 512 + 512 ≤ pa + bs.length) }
  else { s with hostMem := memWrite s.hostMem (pa - hostBase) bs }

/-- Draw a fresh number for free values. -/
def draw (s : State) : Nat × State := (s.free, { s with free := s.free + 1 })

/-! ### Dictionary values kept as numbers -/

/-- Key of an entry. -/
def key (index sub : Nat) : Nat := index * 256 + sub

/-- A counter or plain value; unlisted: `d`. -/
def reg (s : State) (index sub d : Nat) : Nat := (Table.find? (key index sub) s.dict.regs).getD d

def setReg (s : State) (index sub v : Nat) : State :=
  { s with dict := { s.dict with regs := Table.put (key index sub) v s.dict.regs } }

/-- Add to a counter. Counters wrap when they are read. -/
def bump (s : State) (index sub n : Nat) : State :=
  { s with dict := { s.dict with
      regs := if n = 0 then s.dict.regs else Table.put (key index sub) (s.reg index sub 0 + n) s.dict.regs } }

/-- A kept value; unlisted: its default. -/
def keptReg (s : State) (index sub d : Nat) : Nat :=
  match Table.find? (key index sub) s.dict.kept with
  | some k => k.value
  | none => d

/-- A counter of waiting or busy time grows by a free amount. -/
def bumpFree (s : State) (index sub : Nat) : State :=
  let (f, s') := s.draw
  s'.bump index sub (Config.freeCount f)

/-! ### What the engine sends -/

def send (s : State) (o : Out) : State := { s with outbox := s.outbox ++ [o] }

/-- R345: notify the package controller. -/
def notify (s : State) (kind value : Nat) : State := s.send (.notify kind value)

def vector (s : State) (v : Nat) : IrqVector :=
  (Table.find? v s.dict.vectors).getD { address := 0, data := 0, mask := true, pending := false }

def setVector (s : State) (v : Nat) (e : IrqVector) : State :=
  { s with dict := { s.dict with vectors := Table.put v e s.dict.vectors } }

/-- R350: signal a vector, or set its pending bit while it is masked. -/
def interrupt (s : State) (v : Nat) : State :=
  if 4096 ≤ v then s
  else
    let e := s.vector v
    if e.mask then s.setVector v { e with pending := true } else s.send (.interrupt v e.address e.data)

/-! ### Daybook events (R401–R404) -/

def daybook (s : State) (die : Nat) : DaybookBuffer := if die = 0 then s.obs.daybook0 else s.obs.daybook1

def setDaybook (s : State) (die : Nat) (b : DaybookBuffer) : State :=
  { s with obs := if die = 0 then { s.obs with daybook0 := b } else { s.obs with daybook1 := b } }

/-- R401: the 128-bit event. -/
def eventWord (time die place region cluster kind payload : Nat) (lost : Bool) : Nat :=
  time % 2 ^ 44 + 2 ^ 44 * boolNat lost + 2 ^ 45 * (die % 2) + 2 ^ 46 * (region % 8) + 2 ^ 49 * (cluster % 16) +
    2 ^ 53 * place + 2 ^ 56 * kind + 2 ^ 64 * (payload % 2 ^ 64)

/-- Kinds that are formed only in the trace scope (R402). -/
def traceKind (kind : Nat) : Bool := kind == 2 || kind == 3 || kind == 4 || kind == 10

/-- R402: is an event of this kind formed? -/
def eventFormed (s : State) (kind : Nat) : Bool :=
  s.keptReg 0x2E00 0x0C 0 == 1 &&
  (!traceKind kind ||
    (bit s.fw.scopes 1 && (kind == 10 || bit (s.keptReg 0x2E00 0x0D 3) (if kind = 4 then 1 else 0))))

/-- R404: put one event in a die's buffer, a sync before it after a drop. -/
def dayEvent (s : State) (die place region cluster kind payload : Nat) : State :=
  if !s.eventFormed kind then s
  else
    let b := s.daybook die
    let now := s.reel die
    let room := if traceKind kind then 16384 - 256 else 16384
    let need := if b.lost then 2 else 1
    if b.events.length + need ≤ room then
      let sync := if b.lost then [eventWord now die 0 0 0 1 now false] else []
      s.setDaybook die { b with
        events := b.events ++ sync ++ [eventWord now die place region cluster kind payload b.lost], lost := false,
        lastSync := if b.lost then now else b.lastSync }
    else (s.setDaybook die { b with lost := true }).bump 0x2E00 0x0F 1

/-! ### The Daybook port (R405) -/

/-- Is a block of the port an alignment marker? Each lane sends one in 16,384 blocks; blocks are dealt to the lanes in turn. -/
def isMarker (block : Nat) : Bool := block % 65536 < 4

/-- The first block from one on in which an event can begin: an even data block. -/
def pairFrom (block : Nat) : Nat :=
  let b := block + block % 2
  if isMarker b then b - b % 65536 + 4 else b

/-- The two data blocks of an event: bytes 0–7, then bytes 8–15. -/
def eventBlocks (block event : Nat) : List Out :=
  let b := leBytes 16 event
  [.daybook (block % 4) block (b.take 8), .daybook ((block + 1) % 4) (block + 1) (b.drop 8)]

/-- What the port holds and has sent. -/
structure DayRun where
  port : DaybookPort
  events0 : List Nat
  events1 : List Nat
  out : List Out := []

/-- Deal one event, of each die alternately when both hold events, where a pair of blocks begins below the limit. -/
def DayRun.deal (r : DayRun) (limit : Nat) : DayRun :=
  let p := pairFrom r.port.next
  let take (die : Nat) (e : Nat) : DayRun :=
    { r with port := { r.port with next := p + 2, turn := 1 - die }, out := r.out ++ eventBlocks p e }
  if limit ≤ p then r
  else match r.events0, r.events1 with
    | [], [] => r
    | e :: es, [] => { take 0 e with events0 := es }
    | [], f :: fs => { take 1 f with events1 := fs }
    | e :: es, f :: fs => if r.port.turn = 0 then { take 0 e with events0 := es } else { take 1 f with events1 := fs }

/-- R404, R405: the port over n clk, at 35 blocks in 33 clk. It is idle outside Ready and while `DAYBOOK_ENABLE` is 0
(log entry 3). -/
def dayRun (s : State) (n : Nat) : DayRun :=
  let x := s.obs.dayPort
  let limit := x.blocks + (x.frac + 35 * n) / 33
  let r : DayRun := {
    port := { x with blocks := limit, frac := (x.frac + 35 * n) % 33, next := max x.next x.blocks },
    events0 := s.obs.daybook0.events, events1 := s.obs.daybook1.events }
  if s.pins.state != .ready || s.keptReg 0x2E00 0x0C 0 != 1 then r
  else (List.range (r.events0.length + r.events1.length)).foldl (fun r _ => r.deal limit) r

/-! ### Queues and commands -/

def queue? (s : State) (q : Nat) : Option Queue := Table.find? q s.queues

def setQueue (s : State) (q : Nat) (r : Queue) : State := { s with queues := Table.put q r s.queues }

def onQueue (s : State) (q : Nat) (f : Queue → Queue) : State :=
  match s.queue? q with
  | none => s
  | some r => s.setQueue q (f r)

def cmd? (s : State) (q i : Nat) : Option Cmd := s.cmds.find? fun c => c.q == q && c.i == i

def setCmd (s : State) (c : Cmd) : State :=
  { s with cmds := s.cmds.map fun x => if x.q == c.q && x.i == c.i then c else x }

def dropCmd (s : State) (q i : Nat) : State := { s with cmds := s.cmds.filter fun x => !(x.q == q && x.i == i) }

/-- Task counter `n` of a PASID (R397). -/
def bumpTask (s : State) (pasid n amount : Nat) : State :=
  { s with obs := { s.obs with
      tasks := match Table.find? pasid s.obs.tasks with
        | none => s.obs.tasks
        | some t => Table.put pasid (t.zipIdx.map fun xi => if xi.2 = n then xi.1 + amount else xi.1) s.obs.tasks } }

/-- Die of a region number 0–15. -/
def dieOf (region : Nat) : Nat := region / 8

end State
end Sys2Proof.Machine
end

