-- ==== Sys2Proof/Machine/Clock.lean ====
section
/-! DEFINITION. Machine/Clock.lean: points in frames as reel time (R285–R288). -/
namespace Sys2Proof.Machine

/-- R288: the frame whose low 32 bits are given, nearest the current one. -/
def frameNear (current low : Nat) : Nat :=
  unsignedOf ((current : Int) + signed ((low + 2 ^ 32 - current % 2 ^ 32) % 2 ^ 32) 32) 64

/-- Is a 64-bit frame number ahead of the current one, counted modulo 2^64? -/
def frameAhead (current frame : Nat) : Bool :=
  let d := (frame + 2 ^ 64 - current % 2 ^ 64) % 2 ^ 64
  0 < d && d < 2 ^ 63

/-- The point of a deadline. -/
def Due.point (d : Due) : Nat × Nat × Nat := (d.input, d.frame, d.phase)

namespace State

def reelOf (s : State) (die : Nat) : Reel := if die = 0 then s.bell.reel0 else s.bell.reel1

/-- R296: the time that lateness is measured from: the stepped time for a deadline that a forward step skipped. -/
def lateFrom (s : State) (die t : Nat) : Nat :=
  let r := s.reelOf die
  if r.stepFrom < t ∧ t ≤ r.stepTo then r.stepTo else t

/-- R294, R296: is this the clk in which a deadline falls due, the first whose reel time reaches it? -/
def dueClk (s : State) (die t : Nat) : Bool := (s.reelOf die).prev < t && t ≤ (s.reelOf die).time

def input (s : State) (i : Nat) : Input := s.bell.inputs.getD i {}

def setInput (s : State) (i : Nat) (x : Input) : State :=
  { s with bell := { s.bell with inputs := s.bell.inputs.zipIdx.map fun e => if e.2 = i then x else e.1 } }

/-- R287: the reel time of a point, none while its frame's pulse is still to come. A frame that was passed
over without a pulse counts as the current one (log entry 60). -/
def pointReel (s : State) (i frame phase : Nat) : Option Nat :=
  let x := s.input i
  if x.state < 2 || frameAhead x.frame frame then none
  else match Table.find? frame x.times with
    | some (t, n, d) => some (t + phase * 10 ^ 9 * d / (n * 2 ^ 32))
    | none => some x.t

def dueReel (s : State) (d : Due) : Option Nat := s.pointReel d.input d.frame d.phase

end State
end Sys2Proof.Machine
end

