-- ==== Sys2Proof/Machine/DictTable.lean ====
section
/-! DEFINITION. Machine/DictTable.lean: the entries of the object dictionary (R325, R326), one row per entry of
the dictionary tables of every chapter (R18, R48, R67, R196, R218, R254, R281, R301, R374, R392, R417 among them).
Members of an index family share the rows of its first index. -/
namespace Sys2Proof.Machine

inductive AccessCode
  | ro | rw | wo | w1c
  deriving DecidableEq, Repr

/-- One entry: its key within its family, type code and length (R326), access, and default. -/
structure DictEntry where
  sub : Nat
  ty : Nat
  len : Nat
  access : AccessCode
  priv : Bool
  kept : Bool
  default : Nat
  deriving DecidableEq, Repr

def dict1000 : List DictEntry := [
  ⟨0x01, 8, 16, .ro, false, false, 474147419713⟩,
  ⟨0x02, 8, 16, .ro, false, false, 63077927566651836136120654⟩,
  ⟨0x03, 8, 16, .ro, false, false, 69122907729327532690400598⟩,
  ⟨0x04, 3, 2, .ro, false, false, 0⟩,
  ⟨0x05, 4, 4, .ro, false, false, 0⟩,
  ⟨0x06, 8, 16, .ro, false, false, 0⟩,
  ⟨0x07, 3, 2, .ro, false, false, 4⟩]

def dict1010 : List DictEntry := [
  ⟨0x01, 2, 1, .ro, false, false, 0⟩,
  ⟨0x02, 2, 1, .ro, false, false, 0⟩,
  ⟨0x03, 5, 8, .rw, true, true, 0⟩,
  ⟨0x04, 3, 2, .rw, true, false, 65535⟩,
  ⟨0x05, 5, 8, .ro, true, false, 0⟩,
  ⟨0x06, 5, 8, .ro, true, false, 0⟩,
  ⟨0x07, 4, 4, .ro, true, false, 0⟩,
  ⟨0x08, 8, 8, .ro, true, false, 0⟩,
  ⟨0x09, 4, 4, .ro, true, false, 0⟩,
  ⟨0x0A, 2, 1, .ro, false, false, 0⟩]

def dict1020 : List DictEntry := [
  ⟨0x01, 4, 4, .ro, false, false, 200000⟩,
  ⟨0x02, 4, 4, .ro, false, false, 180000⟩,
  ⟨0x03, 4, 4, .rw, true, false, 0⟩,
  ⟨0x04, 4, 4, .ro, true, false, 0⟩,
  ⟨0x05, 8, 512, .ro, true, false, 0⟩]

def dict2000 : List DictEntry := [
  ⟨0x01, 2, 1, .rw, true, true, 0⟩,
  ⟨0x02, 2, 1, .rw, true, true, 1⟩,
  ⟨0x03, 2, 1, .ro, false, false, 3⟩,
  ⟨0x04, 3, 2, .ro, false, false, 65535⟩,
  ⟨0x05, 3, 2, .ro, false, false, 0⟩,
  ⟨0x06, 3, 2, .ro, false, false, 0⟩,
  ⟨0x08, 2, 1, .ro, false, false, 0⟩,
  ⟨0x09, 5, 8, .ro, false, false, 0⟩,
  ⟨0x10, 4, 4, .wo, true, false, 0⟩,
  ⟨0x11, 4, 4, .wo, true, false, 0⟩,
  ⟨0x12, 8, 4096, .ro, false, true, 0⟩,
  ⟨0x13, 3, 2, .ro, false, true, 0⟩]

def dict2010 : List DictEntry := [
  ⟨0x01, 2, 1, .ro, false, false, 0⟩,
  ⟨0x02, 8, 16, .ro, false, false, 0⟩,
  ⟨0x03, 4, 4, .ro, false, false, 0⟩]

def dict2020 : List DictEntry := (List.range 18).map fun i => ⟨i + 1, 4, 4, .ro, false, false, 0⟩

def dict2100 : List DictEntry := [
  ⟨0x01, 3, 2, .ro, false, false, 32767⟩,
  ⟨0x02, 5, 8, .ro, true, false, 0⟩,
  ⟨0x03, 4, 4, .ro, true, false, 0⟩]

def dict2110 : List DictEntry := [
  ⟨0x01, 5, 8, .ro, true, false, 0⟩,
  ⟨0x02, 5, 8, .ro, true, false, 0⟩,
  ⟨0x03, 5, 8, .ro, true, false, 0⟩,
  ⟨0x04, 5, 8, .ro, true, false, 0⟩,
  ⟨0x05, 5, 8, .ro, true, false, 0⟩,
  ⟨0x06, 5, 8, .ro, true, false, 0⟩,
  ⟨0x07, 5, 8, .ro, true, false, 0⟩,
  ⟨0x08, 4, 4, .ro, true, false, 0⟩]

def dict2120 : List DictEntry := [
  ⟨0x01, 2, 1, .rw, true, true, 0⟩,
  ⟨0x02, 1, 1, .rw, true, true, 1⟩]

def dict2200 : List DictEntry := [
  ⟨0x01, 2, 1, .ro, false, false, 64⟩,
  ⟨0x02, 2, 1, .ro, false, false, 65⟩,
  ⟨0x03, 2, 1, .ro, false, false, 8⟩,
  ⟨0x04, 2, 1, .ro, false, false, 32⟩,
  ⟨0x05, 2, 1, .ro, false, false, 64⟩,
  ⟨0x06, 3, 2, .ro, false, false, 1⟩,
  ⟨0x07, 5, 8, .ro, true, false, 0⟩,
  ⟨0x08, 5, 8, .ro, true, false, 0⟩,
  ⟨0x09, 5, 8, .ro, true, false, 0⟩,
  ⟨0x0A, 5, 8, .ro, true, false, 0⟩,
  ⟨0x0B, 4, 4, .ro, true, false, 0⟩]

def dict2210 : List DictEntry := [
  ⟨0x01, 3, 2, .ro, false, false, 1000⟩,
  ⟨0x02, 5, 8, .ro, true, false, 0⟩,
  ⟨0x03, 5, 8, .ro, true, false, 0⟩,
  ⟨0x04, 5, 8, .ro, true, false, 0⟩,
  ⟨0x05, 5, 8, .ro, true, false, 0⟩,
  ⟨0x06, 5, 8, .ro, true, false, 0⟩,
  ⟨0x07, 4, 4, .ro, true, false, 0⟩,
  ⟨0x08, 4, 4, .rw, true, true, 20000⟩,
  ⟨0x09, 4, 4, .ro, true, false, 0⟩]

def dict2300 : List DictEntry := [
  ⟨0x01, 3, 2, .ro, false, false, 256⟩,
  ⟨0x02, 2, 1, .ro, false, false, 32⟩,
  ⟨0x03, 4, 4, .ro, false, false, 655360⟩,
  ⟨0x04, 5, 8, .ro, false, false, 1⟩,
  ⟨0x05, 1, 1, .ro, false, false, 0⟩,
  ⟨0x06, 4, 4, .ro, false, false, 16383⟩,
  ⟨0x07, 5, 8, .ro, false, false, 0⟩,
  ⟨0x08, 4, 4, .ro, true, false, 0⟩,
  ⟨0x09, 4, 4, .ro, true, false, 0⟩,
  ⟨0x0A, 5, 8, .ro, true, false, 0⟩,
  ⟨0x0B, 5, 8, .ro, true, false, 0⟩,
  ⟨0x0C, 4, 4, .ro, true, false, 0⟩,
  ⟨0x10, 4, 4, .rw, true, true, 4294967295⟩,
  ⟨0x11, 1, 1, .ro, false, false, 0⟩,
  ⟨0x12, 8, 128, .ro, false, false, 0⟩]

def dict2400 : List DictEntry := [
  ⟨0x01, 2, 1, .rw, true, true, 0⟩,
  ⟨0x02, 3, 2, .ro, false, false, 256⟩,
  ⟨0x03, 2, 1, .ro, false, false, 4⟩,
  ⟨0x04, 2, 1, .ro, false, false, 64⟩,
  ⟨0x05, 5, 8, .ro, true, false, 0⟩,
  ⟨0x06, 5, 8, .ro, true, false, 0⟩,
  ⟨0x07, 5, 8, .ro, true, false, 0⟩,
  ⟨0x08, 5, 8, .ro, true, false, 0⟩,
  ⟨0x09, 5, 8, .ro, true, false, 0⟩,
  ⟨0x0A, 5, 8, .ro, true, false, 0⟩,
  ⟨0x0B, 4, 4, .ro, true, false, 0⟩]

def dict2500 : List DictEntry := [
  ⟨0x01, 4, 4, .rw, true, true, 8388608⟩,
  ⟨0x02, 4, 4, .ro, false, false, 17563648⟩,
  ⟨0x03, 4, 4, .ro, false, false, 65536⟩,
  ⟨0x04, 4, 4, .ro, false, false, 0⟩,
  ⟨0x05, 4, 4, .ro, false, false, 0⟩,
  ⟨0x06, 4, 4, .ro, true, false, 0⟩,
  ⟨0x07, 5, 8, .ro, true, false, 0⟩,
  ⟨0x08, 5, 8, .ro, true, false, 0⟩,
  ⟨0x09, 5, 8, .ro, true, false, 0⟩,
  ⟨0x0A, 5, 8, .ro, true, false, 0⟩,
  ⟨0x0B, 4, 4, .ro, true, false, 0⟩]

def dict2600 : List DictEntry := [
  ⟨0x01, 3, 2, .ro, false, false, 3072⟩,
  ⟨0x02, 3, 2, .ro, false, false, 512⟩,
  ⟨0x03, 2, 1, .ro, false, false, 16⟩,
  ⟨0x04, 3, 2, .ro, false, false, 256⟩,
  ⟨0x05, 3, 2, .ro, false, false, 256⟩,
  ⟨0x06, 2, 1, .ro, false, false, 64⟩,
  ⟨0x07, 2, 1, .rw, true, true, 2⟩,
  ⟨0x08, 1, 1, .rw, true, true, 0⟩,
  ⟨0x09, 1, 1, .rw, true, true, 0⟩,
  ⟨0x0A, 5, 8, .ro, true, false, 0⟩,
  ⟨0x0B, 5, 8, .ro, true, false, 0⟩,
  ⟨0x0C, 5, 8, .ro, true, false, 0⟩,
  ⟨0x0D, 5, 8, .ro, true, false, 0⟩,
  ⟨0x0E, 5, 8, .ro, true, false, 0⟩,
  ⟨0x0F, 4, 4, .ro, true, false, 0⟩]

def dict2610 : List DictEntry := (List.range 64).map fun i => ⟨i + 1, 8, 16, .ro, true, false, 0⟩

def dict2700 : List DictEntry := [
  ⟨0x01, 3, 2, .ro, false, false, 384⟩,
  ⟨0x02, 2, 1, .ro, false, false, 16⟩,
  ⟨0x03, 4, 4, .ro, false, false, 65536⟩,
  ⟨0x04, 3, 2, .ro, false, false, 2048⟩,
  ⟨0x05, 3, 2, .rw, true, true, 128⟩,
  ⟨0x06, 5, 8, .ro, true, false, 0⟩,
  ⟨0x07, 5, 8, .ro, true, false, 0⟩,
  ⟨0x08, 5, 8, .ro, true, false, 0⟩,
  ⟨0x09, 5, 8, .ro, true, false, 0⟩,
  ⟨0x0A, 5, 8, .ro, true, false, 0⟩,
  ⟨0x0B, 4, 4, .ro, true, false, 0⟩,
  ⟨0x0C, 5, 8, .ro, true, false, 0⟩,
  ⟨0x0D, 5, 8, .ro, true, false, 0⟩,
  ⟨0x0E, 5, 8, .ro, true, false, 0⟩,
  ⟨0x0F, 5, 8, .ro, true, false, 0⟩]

def dict2800 : List DictEntry := [
  ⟨0x01, 2, 1, .ro, false, false, 57⟩,
  ⟨0x02, 3, 2, .ro, false, false, 256⟩,
  ⟨0x03, 3, 2, .ro, false, false, 4096⟩,
  ⟨0x04, 3, 2, .ro, false, false, 256⟩,
  ⟨0x05, 4, 4, .rw, true, true, 1000⟩,
  ⟨0x06, 2, 1, .rw, true, true, 3⟩,
  ⟨0x07, 2, 1, .ro, false, false, 0⟩,
  ⟨0x08, 5, 8, .ro, true, false, 0⟩,
  ⟨0x09, 5, 8, .ro, true, false, 0⟩,
  ⟨0x0A, 5, 8, .ro, true, false, 0⟩,
  ⟨0x0B, 5, 8, .ro, true, false, 0⟩,
  ⟨0x0C, 5, 8, .ro, true, false, 0⟩,
  ⟨0x0D, 4, 4, .ro, true, false, 0⟩]

def dict2900 : List DictEntry := [
  ⟨0x01, 4, 4, .ro, false, false, 1048576⟩,
  ⟨0x02, 2, 1, .ro, false, false, 8⟩,
  ⟨0x03, 4, 4, .ro, false, false, 0⟩,
  ⟨0x04, 3, 2, .ro, false, false, 4096⟩,
  ⟨0x05, 4, 4, .rw, true, true, 2000⟩,
  ⟨0x08, 5, 8, .ro, true, false, 0⟩,
  ⟨0x09, 4, 4, .ro, true, false, 0⟩,
  ⟨0x0A, 5, 8, .ro, true, false, 0⟩,
  ⟨0x0B, 5, 8, .ro, true, false, 0⟩,
  ⟨0x0C, 4, 4, .ro, true, false, 0⟩,
  ⟨0x0D, 5, 8, .ro, true, false, 0⟩,
  ⟨0x10, 8, 68, .wo, true, false, 0⟩,
  ⟨0x11, 4, 4, .wo, true, false, 0⟩,
  ⟨0x12, 4, 4, .wo, true, false, 0⟩,
  ⟨0x13, 4, 4, .wo, true, false, 0⟩,
  ⟨0x14, 4, 4, .rw, true, false, 0⟩,
  ⟨0x15, 8, 64, .ro, true, false, 0⟩,
  ⟨0x16, 3, 2, .ro, true, false, 0⟩]

def dict2A00 : List DictEntry := [
  ⟨0x01, 2, 1, .rw, true, true, 0⟩,
  ⟨0x02, 5, 8, .ro, false, false, 0⟩,
  ⟨0x03, 2, 1, .ro, false, false, 0⟩,
  ⟨0x04, 4, 4, .ro, true, false, 0⟩,
  ⟨0x05, 4, 4, .ro, true, false, 0⟩,
  ⟨0x06, 4, 4, .rw, true, true, 4000000⟩,
  ⟨0x07, 5, 8, .ro, false, false, 0⟩,
  ⟨0x08, 5, 8, .ro, false, false, 0⟩,
  ⟨0x09, 5, 8, .ro, false, false, 0⟩,
  ⟨0x0A, 5, 8, .ro, true, false, 0⟩,
  ⟨0x0B, 8, 16, .ro, true, false, 0⟩,
  ⟨0x0C, 5, 8, .ro, true, false, 0⟩,
  ⟨0x0D, 5, 8, .ro, true, false, 0⟩,
  ⟨0x0E, 3, 2, .rw, true, false, 0⟩,
  ⟨0x0F, 8, 16, .rw, true, false, 0⟩,
  ⟨0x10, 4, 4, .ro, true, false, 0⟩]

def dict2A10 : List DictEntry := [
  ⟨0x01, 4, 4, .rw, true, true, 50⟩,
  ⟨0x02, 4, 4, .rw, true, true, 1⟩,
  ⟨0x03, 1, 1, .rw, true, true, 0⟩,
  ⟨0x04, 5, 8, .wo, true, false, 0⟩,
  ⟨0x05, 5, 8, .ro, false, false, 0⟩,
  ⟨0x06, 5, 8, .ro, false, false, 0⟩,
  ⟨0x07, 4, 4, .ro, true, false, 0⟩,
  ⟨0x08, 4, 4, .ro, true, false, 0⟩,
  ⟨0x09, 2, 1, .ro, false, false, 0⟩]

def dict2B00 : List DictEntry := [
  ⟨0x01, 2, 1, .ro, false, false, 16⟩,
  ⟨0x02, 2, 1, .ro, false, false, 16⟩,
  ⟨0x03, 2, 1, .ro, false, false, 2⟩,
  ⟨0x04, 3, 2, .ro, false, false, 224⟩,
  ⟨0x05, 8, 64, .rw, true, true, 2 ^ 512 - 1⟩,
  ⟨0x06, 8, 64, .rw, true, true, 2 ^ 512 - 1⟩,
  ⟨0x07, 4, 4, .rw, true, true, 10000⟩,
  ⟨0x08, 4, 4, .rw, true, true, 1000⟩,
  ⟨0x09, 8, 32, .wo, false, false, 0⟩,
  ⟨0x0A, 3, 2, .wo, false, false, 0⟩,
  ⟨0x0B, 3, 2, .ro, false, false, 0⟩,
  ⟨0x0C, 3, 2, .ro, false, false, 4096⟩,
  ⟨0x0D, 4, 4, .ro, false, true, 0⟩,
  ⟨0x0E, 5, 8, .ro, true, false, 0⟩,
  ⟨0x0F, 5, 8, .ro, true, false, 0⟩,
  ⟨0x10, 5, 8, .ro, true, false, 0⟩,
  ⟨0x11, 5, 8, .ro, true, false, 0⟩,
  ⟨0x12, 4, 4, .ro, true, false, 0⟩,
  ⟨0x13, 4, 4, .ro, true, false, 0⟩,
  ⟨0x14, 5, 8, .ro, true, false, 0⟩]

def dict2B10 : List DictEntry := [
  ⟨0x01, 1, 1, .rw, true, true, 1⟩,
  ⟨0x02, 2, 1, .ro, false, false, 1⟩,
  ⟨0x03, 3, 2, .ro, false, false, 65535⟩,
  ⟨0x04, 8, 16, .ro, false, false, 20011376718272490338853433276725592320⟩,
  ⟨0x05, 4, 4, .ro, false, false, 262143⟩,
  ⟨0x06, 2, 1, .ro, false, false, 16⟩,
  ⟨0x07, 4, 4, .ro, true, false, 0⟩]

def dict2C00 : List DictEntry := [
  ⟨0x01, 4, 4, .ro, false, false, 16000⟩,
  ⟨0x02, 4, 4, .ro, false, false, 20000⟩,
  ⟨0x03, 4, 4, .ro, false, false, 8000⟩,
  ⟨0x04, 4, 4, .ro, false, false, 3200⟩,
  ⟨0x05, 2, 1, .ro, false, false, 64⟩,
  ⟨0x06, 4, 4, .wo, true, false, 0⟩,
  ⟨0x07, 4, 4, .wo, true, false, 0⟩,
  ⟨0x08, 3, 2, .rw, true, false, 65535⟩,
  ⟨0x09, 2, 1, .rw, true, true, 1⟩,
  ⟨0x0A, 4, 4, .rw, true, true, 1000⟩,
  ⟨0x0B, 8, 16, .ro, false, false, 0⟩,
  ⟨0x0C, 5, 8, .ro, true, false, 0⟩,
  ⟨0x0D, 5, 8, .ro, true, false, 0⟩,
  ⟨0x0E, 5, 8, .ro, true, false, 0⟩,
  ⟨0x0F, 5, 8, .ro, true, false, 0⟩,
  ⟨0x10, 4, 4, .ro, true, false, 0⟩]

def dict2C10 : List DictEntry := [
  ⟨0x01, 3, 2, .rw, true, false, 0⟩,
  ⟨0x02, 3, 2, .ro, false, false, 0⟩,
  ⟨0x03, 3, 2, .ro, false, false, 0⟩,
  ⟨0x04, 1, 1, .w1c, true, false, 0⟩,
  ⟨0x05, 4, 4, .ro, true, false, 0⟩,
  ⟨0x06, 2, 1, .ro, true, false, 0⟩,
  ⟨0x07, 8, 64, .ro, true, false, 0⟩,
  ⟨0x08, 1, 1, .wo, true, false, 0⟩,
  ⟨0x09, 3, 2, .rw, true, false, 0⟩,
  ⟨0x0A, 8, 64, .ro, true, false, 0⟩]

def dict2D00 : List DictEntry := [
  ⟨0x01, 2, 1, .ro, false, false, 0⟩,
  ⟨0x02, 4, 4, .ro, false, false, 0⟩,
  ⟨0x03, 2, 1, .ro, false, false, 0⟩,
  ⟨0x04, 2, 1, .ro, false, false, 0⟩,
  ⟨0x05, 2, 1, .ro, false, false, 0⟩,
  ⟨0x06, 4, 4, .ro, false, false, 0⟩,
  ⟨0x07, 8, 16, .wo, true, false, 0⟩,
  ⟨0x08, 2, 1, .ro, false, false, 0⟩,
  ⟨0x09, 3, 2, .ro, false, false, 0⟩,
  ⟨0x0A, 4, 4, .ro, false, true, 0⟩,
  ⟨0x0B, 1, 1, .rw, true, true, 0⟩,
  ⟨0x0C, 1, 1, .wo, true, false, 0⟩,
  ⟨0x0D, 2, 1, .wo, true, false, 0⟩,
  ⟨0x0E, 2, 1, .ro, false, false, 0⟩,
  ⟨0x0F, 2, 1, .wo, true, false, 0⟩,
  ⟨0x10, 2, 1, .ro, false, false, 0⟩,
  ⟨0x11, 1, 1, .wo, true, false, 0⟩,
  ⟨0x12, 8, 48, .ro, true, false, 0⟩,
  ⟨0x13, 8, 200, .wo, true, false, 0⟩,
  ⟨0x14, 8, 65, .wo, true, false, 0⟩,
  ⟨0x15, 8, 48, .wo, true, false, 0⟩,
  ⟨0x16, 1, 1, .wo, true, false, 0⟩]

def dict2E00 : List DictEntry := [
  ⟨0x01, 1, 1, .wo, true, false, 0⟩,
  ⟨0x02, 1, 1, .wo, true, false, 0⟩,
  ⟨0x03, 2, 1, .ro, false, false, 0⟩,
  ⟨0x04, 5, 8, .ro, true, false, 0⟩,
  ⟨0x05, 4, 4, .ro, true, false, 0⟩,
  ⟨0x06, 5, 8, .ro, true, false, 0⟩,
  ⟨0x07, 5, 8, .ro, true, false, 0⟩,
  ⟨0x08, 5, 8, .ro, true, false, 0⟩,
  ⟨0x09, 5, 8, .ro, true, false, 0⟩,
  ⟨0x0A, 5, 8, .ro, true, false, 0⟩,
  ⟨0x0B, 5, 8, .ro, true, false, 0⟩,
  ⟨0x0C, 1, 1, .rw, true, true, 0⟩,
  ⟨0x0D, 2, 1, .rw, true, true, 3⟩,
  ⟨0x0E, 5, 8, .ro, true, false, 0⟩,
  ⟨0x0F, 5, 8, .ro, true, false, 0⟩,
  ⟨0x10, 8, 128, .ro, false, false, 0⟩,
  ⟨0x11, 2, 1, .ro, true, false, 0⟩,
  ⟨0x12, 4, 4, .wo, true, false, 0⟩,
  ⟨0x13, 2, 1, .rw, true, false, 0⟩,
  ⟨0x14, 8, 576, .ro, true, false, 0⟩]

def dict2E10 : List DictEntry := (List.range 14).map fun i => ⟨i + 1, 5, 8, .ro, true, false, 0⟩

def dict2E11 : List DictEntry := [
  ⟨0x01, 5, 8, .ro, true, false, 0⟩,
  ⟨0x02, 5, 8, .ro, true, false, 0⟩,
  ⟨0x03, 5, 8, .ro, true, false, 0⟩,
  ⟨0x04, 5, 8, .ro, true, false, 0⟩,
  ⟨0x05, 5, 8, .ro, true, false, 0⟩,
  ⟨0x06, 5, 8, .ro, true, false, 0⟩]

def dict2E12 : List DictEntry := (List.range 15).map fun i => ⟨i + 1, 5, 8, .ro, true, false, 0⟩

def dict2E30 : List DictEntry := (List.range 47).map fun i => ⟨i + 1, 5, 8, .ro, true, false, 0⟩

def dict2E50 : List DictEntry := (List.range 16).map fun i => ⟨i + 1, 8, 32, .ro, true, false, 0⟩

def dict2E60 : List DictEntry := (List.range 8).map fun i => ⟨i + 1, 8, 16, .rw, true, false, 0⟩

def dict2F00 : List DictEntry := [
  ⟨0x01, 2, 1, .ro, false, false, 0⟩,
  ⟨0x02, 2, 1, .ro, false, false, 0⟩,
  ⟨0x03, 2, 1, .wo, true, false, 0⟩,
  ⟨0x04, 2, 1, .ro, false, false, 0⟩,
  ⟨0x05, 4, 4, .ro, false, false, 0⟩,
  ⟨0x06, 2, 1, .ro, false, false, 0⟩,
  ⟨0x07, 3, 2, .rw, true, false, 3200⟩,
  ⟨0x08, 3, 2, .ro, false, false, 3200⟩,
  ⟨0x09, 3, 2, .ro, false, false, 0⟩,
  ⟨0x0A, 1, 1, .ro, false, false, 0⟩,
  ⟨0x0B, 5, 8, .ro, true, false, 0⟩,
  ⟨0x0C, 1, 1, .ro, false, false, 0⟩,
  ⟨0x0D, 4, 4, .ro, true, false, 0⟩,
  ⟨0x0E, 4, 4, .ro, false, false, 1600000⟩,
  ⟨0x0F, 4, 4, .ro, false, false, 800000⟩]

/-- Index families: the first index and the member number of an index. -/
def dictFamily (index : Nat) : Nat × Nat :=
  if 0x2010 ≤ index ∧ index < 0x2020 then (0x2010, index - 0x2010)
  else if 0x2020 ≤ index ∧ index < 0x2030 then (0x2020, index - 0x2020)
  else if 0x2610 ≤ index ∧ index < 0x2620 then (0x2610, index - 0x2610)
  else if 0x2A10 ≤ index ∧ index < 0x2A14 then (0x2A10, index - 0x2A10)
  else if 0x2B10 ≤ index ∧ index < 0x2B20 then (0x2B10, index - 0x2B10)
  else if 0x2C10 ≤ index ∧ index < 0x2C12 then (0x2C10, index - 0x2C10)
  else if 0x2E50 ≤ index ∧ index < 0x2E60 then (0x2E50, index - 0x2E50)
  else (index, 0)

/-- Rows of an index, with the highest subindex that subindex 0x00 reports; none: no object. -/
def dictRows (index : Nat) : Option (List DictEntry × Nat) :=
  match (dictFamily index).1 with
  | 0x1000 => some (dict1000, 0x07)
  | 0x1010 => some (dict1010, 0x0A)
  | 0x1020 => some (dict1020, 0x05)
  | 0x2000 => some (dict2000, 0x13)
  | 0x2010 => some (dict2010, 0x03)
  | 0x2020 => some (dict2020, 0x12)
  | 0x2100 => some (dict2100, 0x03)
  | 0x2110 => some (dict2110, 0x08)
  | 0x2120 => some (dict2120, 0x02)
  | 0x2200 => some (dict2200, 0x0B)
  | 0x2210 => some (dict2210, 0x09)
  | 0x2300 => some (dict2300, 0x12)
  | 0x2400 => some (dict2400, 0x0B)
  | 0x2500 => some (dict2500, 0x0B)
  | 0x2600 => some (dict2600, 0x0F)
  | 0x2610 => some (dict2610, 0x40)
  | 0x2700 => some (dict2700, 0x0F)
  | 0x2800 => some (dict2800, 0x0D)
  | 0x2900 => some (dict2900, 0x16)
  | 0x2A00 => some (dict2A00, 0x10)
  | 0x2A10 => some (dict2A10, 0x09)
  | 0x2B00 => some (dict2B00, 0x14)
  | 0x2B10 => some (dict2B10, 0x07)
  | 0x2C00 => some (dict2C00, 0x10)
  | 0x2C10 => some (dict2C10, 0x0A)
  | 0x2D00 => some (dict2D00, 0x16)
  | 0x2E00 => some (dict2E00, 0x14)
  | 0x2E10 => some (dict2E10, 0x0E)
  | 0x2E11 => some (dict2E11, 0x06)
  | 0x2E12 => some (dict2E12, 0x0F)
  | 0x2E30 => some (dict2E30, 0x2F)
  | 0x2E50 => some (dict2E50, 0x10)
  | 0x2E60 => some (dict2E60, 0x08)
  | 0x2F00 => some (dict2F00, 0x0F)
  | _ => none

/-- R325: the entry at an index and subindex. Subindex 0x00 holds the highest subindex as U8, RO. -/
def dictEntry? (index sub : Nat) : Option DictEntry :=
  match dictRows index with
  | none => none
  | some (rows, top) => if sub = 0 then some ⟨0, 2, 1, .ro, false, false, top⟩ else rows.find? fun e => e.sub == sub

end Sys2Proof.Machine
end

