-- ==== Sys2Proof/Machine/Chain.lean ====
section
/-! DEFINITION. Machine/Chain.lean: chain records, stages and their arithmetic (07_fused_chains.md,
R151–R157, R438). A stage rounds into its `STORE` and the next stage reads that value (R157), so a
chain is run row by row; tiles, slots and deferral change no bit. -/
namespace Sys2Proof.Machine

/-- How a command reads task memory while it runs: address and length to bytes. -/
abbrev Reader := Nat → Nat → List Byte

/-- Bytes that a command writes at an address of its task. -/
abbrev Write := Nat × List Byte

/-- A stage word (R153). -/
structure StageWord where
  kind : Nat := 0
  arg : Nat := 0
  conv : Nat := 0
  store : Nat := 0
  operand : Nat := 0xFF
  reserved : Bool := false
  deriving DecidableEq, Repr

def StageWord.ofWord (w : Nat) : StageWord :=
  { kind := bits w 3 0, store := bits w 23 8, conv := bits w 39 24, arg := bits w 47 40, operand := bits w 55 48,
    reserved := bits w 7 4 != 0 || bits w 63 56 != 0 }

/-- An operand-table entry (R154). -/
structure OpEntry where
  addr : Nat := 0
  ty : Nat := 0
  constant : Nat := 0
  reserved : Bool := false
  deriving DecidableEq, Repr

def OpEntry.ofBytes (b : List Byte) : OpEntry :=
  { addr := field b 0 7, ty := field b 8 9, constant := field b 12 15, reserved := field b 10 11 != 0 }

def OpEntry.isZero (e : OpEntry) : Bool := e.addr == 0 && e.ty == 0 && e.constant == 0 && !e.reserved

/-- A chain record (R151, R152), read. -/
structure ChainRecord where
  pro : List StageWord := []
  epi : List StageWord := []
  keepFirst : Bool := false
  fanout : Nat := 1
  splitArea : Nat := 0
  gate : Nat := 0
  ring : Nat := 0
  table : List OpEntry := []
  /-- reserved fields, counts beyond their limit or words beyond the counts non-zero -/
  bad : Bool := false
  deriving DecidableEq, Repr

/-- R151, R152: read a 256-byte chain record. -/
def ChainRecord.ofBytes (b : List Byte) : ChainRecord :=
  let h := field b 0 7
  let np := bits h 2 0
  let ne := bits h 6 4
  let pw := (List.range 4).map fun i => field b (8 + 8 * i) (15 + 8 * i)
  let ew := (List.range 6).map fun i => field b (40 + 8 * i) (47 + 8 * i)
  { pro := (pw.take np).map StageWord.ofWord, epi := (ew.take ne).map StageWord.ofWord, keepFirst := bit h 16,
    fanout := bits h 12 8, splitArea := field b 88 95, gate := field b 96 103, ring := field b 104 111,
    table := (List.range 8).map fun i => OpEntry.ofBytes (slice b (128 + 16 * i) 16),
    bad := bits h 63 17 != 0 || bits h 15 13 != 0 || bit h 7 || bit h 3 || 4 < np || 6 < ne ||
      bits h 12 8 == 0 || 16 < bits h 12 8 || (pw.drop np).any (· != 0) || (ew.drop ne).any (· != 0) ||
      !zeroBytes b 112 127 }

/-- Where a stage stands. -/
inductive Place
  | prologue | epilogue | func | moveConvert
  deriving DecidableEq, Repr

/-- Entry `i` of a stage's operands. -/
def StageWord.entry (s : StageWord) (tab : List OpEntry) (i : Nat) : OpEntry := tab.getD (s.operand + i) {}

/-- Does a stage round its result (R155)? -/
def StageWord.rounds (s : StageWord) : Bool := s.kind != 9 && s.kind != 10

/-- Lane-clk of a stage per result element (R155). -/
def StageWord.laneClk (s : StageWord) (strict : Bool) : Nat :=
  match s.kind with
  | 2 => 2
  | 3 => if bit s.arg 0 then 1 else 2
  | 4 => if strict then 16 else 4
  | 5 => if strict then 17 else 5
  | 7 => if strict then 12 else 3
  | 9 | 10 => 0
  | _ => 1

/-- What an operand entry of a stage stands for: a tensor read in the format that its type word names, a tensor read in
the format that R438 fixes, with its innermost dimension in rows or in columns, a tensor written, or no tensor (the
constant of an entry, or a window reference). -/
inductive EntryUse
  | named
  | fixedRows
  | fixedCols
  | written
  | bare
  deriving DecidableEq, Repr

/-- Operand entries of a stage: offset, whether the stage reads or writes at its address, and its use. -/
def StageWord.uses (s : StageWord) : List (Nat × Bool × EntryUse) :=
  match s.kind with
  | 1 => [(0, true, .named), (1, true, .named)]
  | 2 => [(0, true, .named), (1, true, .fixedRows)]
  | 3 => if bit s.arg 0 then [(0, true, .named)] else [(0, true, .named), (1, true, .named)]
  | 6 => [(0, true, .named)]
  | 7 => (if bit s.arg 2 then [(0, true, .fixedCols), (1, true, .fixedCols)] else [(0, false, .bare)]) ++
      (if bit s.arg 4 then [(2, true, .written)] else [])
  | 8 => [(0, true, .written)] ++ (if bit s.arg 0 then [] else [(1, true, .fixedRows)]) ++
      (if bit s.conv 9 then [(2, true, .written)] else [])
  | 9 => [(0, true, .written)]
  | 10 => [(0, true, .bare)]
  | _ => []

/-- Operand entries that a kind spans (R155). -/
def StageWord.span (s : StageWord) : Nat :=
  match s.kind with
  | 1 | 2 => 2 | 3 => if bit s.arg 0 then 1 else 2 | 6 => 1 | 7 => 3 | 8 => 3 | 9 | 10 => 1 | _ => 0

/-- R155: does a kind stand in a place? -/
def kindAllowed (pl : Place) (s : StageWord) : Bool :=
  match pl with
  | .prologue => [1, 2, 3, 4, 7].contains s.kind || (s.kind == 8 && !bit s.arg 0)
  | .epilogue => [1, 2, 3, 4, 5, 6, 7, 8, 9, 10].contains s.kind
  | .func => [1, 2, 3, 4, 6].contains s.kind
  | .moveConvert => [0, 8, 9].contains s.kind

/-- R155, R438: is the stage argument in form for its kind? -/
def argOk (s : StageWord) : Bool :=
  match s.kind with
  | 1 | 3 | 6 | 8 | 10 => s.arg ≤ 1
  | 2 => 4 ≤ bits s.arg 7 4 && bits s.arg 7 4 ≤ 8 && bits s.arg 3 0 ≤ bits s.arg 7 4
  | 4 | 5 => s.arg < 64
  | 7 => s.arg < 32
  | _ => s.arg == 0

/-- R155: T of a `QUANTISE` is a positive finite FP32 value or +0. -/
def targetOk (c : Nat) : Bool := match fp32 c with
  | .zero s => !s
  | .fin s _ => !s
  | _ => false

/-- What surrounds a stage at its check. -/
structure StageCtx where
  place : Place := .epilogue
  defaults : ConvDefaults := {}
  bank : BankView := {}
  strict : Bool := false
  table : List OpEntry := []
  /-- the operand table has been read -/
  tabled : Bool := true
  rows : Nat := 0

/-- Width of a stage's result. -/
def StageWord.outWidth (s : StageWord) (w : Nat) : Nat := if s.kind = 5 then w / 2 else w

/-- R22: the codes of a type word whose place is no role of R23: its form, E8M0 as a result, FP64 in fast mode and the
packing groups of the innermost dimension. -/
def storeCodes (w : Nat) (inner : Nat) (strict : Bool) : List Nat :=
  let t := OpType.ofWord w
  typeFormCodes w ++ cond (t.fmt == .e8m0) 0x2103 ++ cond (t.fmt == .fp64 && !strict) 0x2104 ++
  cond (inner % t.fmt.group != 0) 0x2105

/-- R22, R154: the codes of an operand entry's type word. A scale is refused in every entry, under both rules. Where R438
fixes the format, a zero word names none (log entry 21). -/
def entryTypeCodes (u : EntryUse) (w rows cols : Nat) (strict : Bool) : List Nat :=
  let t := OpType.ofWord w
  if u ≠ .named ∧ w = 0 then []
  else
  (match u with
   | .named | .fixedCols => typeCodes w .millIn 0 cols strict
   | .fixedRows => typeCodes w .millIn 0 rows strict
   | .written => typeFormCodes w ++ cond (t.fmt == .fp64 && !strict) 0x2104 ++ cond (t.grain != 0) 0x2106
   | .bare => typeFormCodes w ++ cond (t.grain != 0) 0x2106) ++
  cond (t.grain != 0) 0x2222

/-- R22, R38, R155: the codes of a stage's `STORE` for a result of `w` columns; `prev` is the type word before it. -/
def StageWord.storeCodes (s : StageWord) (prev w : Nat) (strict : Bool) : List Nat :=
  let out := OpType.ofWord s.store
  if !s.rounds then
    if s.store = prev then []
    else Machine.storeCodes s.store w strict ++ cond (out.grain != 0) 0x2106 ++ [0x2222]
  else if s.kind = 8 then
    Machine.storeCodes s.store w strict ++
    cond (out.grain == 2 || (out.grain == 1 && (out.fmt == .e8m0 || out.fmt == .int32))) 0x2106 ++
    cond (out.fmt == .e8m0 || out.fmt == .int32 || out.grain != 1) 0x2222
  else if s.kind = 0 then
    Machine.storeCodes s.store w strict ++ cond (out.grain != 0) 0x2106 ++ cond (out.fmt == .e8m0) 0x2222
  else typeCodes s.store .product 0 w strict

/-- R154–R156, R438: the codes that one stage breaks. `prev` is the type word of the stage before it
(or of the value that enters), `inW` the width that enters. -/
def stageCodes (x : StageCtx) (s : StageWord) (prev : Nat) (inFmt : Fmt) (inScaled lastRounding : Bool) (inW : Nat) :
    List Nat :=
  let out := OpType.ofWord s.store
  let w := s.outWidth inW
  let conv := Conv.ofWord x.defaults s.conv
  let used := s.uses
  let inner := if s.kind == 1 && bit s.arg 0 then x.rows else w
  cond (s.reserved || 10 < s.kind || !kindAllowed x.place s || !argOk s) 0x2222 ++
  s.storeCodes prev w x.strict ++ cond (!s.rounds && s.conv != 0) 0x2222 ++
  (if s.rounds then
     convCodes x.defaults s.conv out.fmt x.strict ++
     cond (conv.amaxRow && s.kind != 8 && x.place != .moveConvert && x.place != .func) 0x2222 ++
     cond (conv.amaxTensor && !lastRounding) 0x2222
   else []) ++
  -- the operand entries
  cond (if s.span = 0 then s.operand != 0xFF else used.any fun u => 7 < s.operand + u.1) 0x2222 ++
  ((if x.tabled then used else []).map fun u =>
    let e := s.entry x.table u.1
    cond (e.reserved || (u.2.1 && e.addr == 0)) 0x2222 ++
    entryTypeCodes u.2.2 e.ty x.rows inner x.strict).flatten ++
  ((List.range s.span).map fun i =>
    cond (!(used.any fun u => u.1 == i) && s.operand + i ≤ 7 && !(s.entry x.table i).isZero) 0x2222).flatten ++
  -- kinds with rules of their own
  (match s.kind with
   | 2 =>
     let l := (s.entry x.table 0).constant
     cond ((x.tabled && (l == 0 || 2 ^ 31 ≤ l)) || w % 2 ^ bits s.arg 7 4 != 0) 0x2222
   | 4 | 5 => funcCodes x.bank (s.arg % 64) x.strict inFmt out.fmt inScaled conv.round ++
     cond (s.kind == 5 && inW % 128 != 0) 0x2225
   | 7 => cond (1 < bits s.arg 1 0 || inW == 0 || 2 ^ 20 < inW) 0x2315
   | 8 => cond (x.tabled && !targetOk (s.entry x.table 0).constant) 0x2222
   | _ => [])

/-- Is any later stage of a list a rounding one? -/
def laterRounds (ss : List StageWord) : Bool := ss.any StageWord.rounds

/-- The codes of a list of stages, from the type and width that enter. `PLANAR_STORE` stands last or
directly before `SEND`, and `SEND` last (R155); at most one deferred stage (R163). -/
def stagesCodes (x : StageCtx) : List StageWord → Nat → Fmt → Bool → Nat → List Nat
  | [], _, _, _, _ => []
  | s :: ss, prev, inFmt, inScaled, w =>
    let out := OpType.ofWord s.store
    stageCodes x s prev inFmt inScaled (s.rounds && !laterRounds ss) w ++
    cond (s.kind == 10 && !ss.isEmpty) 0x2222 ++
    cond (s.kind == 9 && (match ss with
      | [] => false
      | [t] => t.kind != 10
      | _ => true)) 0x2222 ++
    stagesCodes x ss s.store (if s.rounds then out.fmt else inFmt) (if s.rounds then out.grain != 0 else inScaled)
      (s.outWidth w)

/-- Width after a list of stages. -/
def stagesWidth (ss : List StageWord) (w : Nat) : Nat := ss.foldl (fun w s => s.outWidth w) w

/-- Type word after a list of stages. -/
def stagesType (ss : List StageWord) (t : Nat) : Nat := ss.foldl (fun t s => if s.rounds then s.store else t) t

/-- R163: deferred stages. -/
def StageWord.deferred (s : StageWord) : Bool := s.kind == 7 || (s.kind == 8 && bit s.arg 0)

/-! ### Running stages -/

/-- What a stage runs with. -/
structure StageEnv where
  strict : Bool := false
  defaults : ConvDefaults := {}
  bank : BankView := {}
  table : List OpEntry := []
  read : Reader := fun _ n => List.replicate n 0

/-- A row after a stage, with what the stage wrote and gathered; `badPos` is R438's position fault. -/
structure StageOut where
  row : Row := {}
  /-- exact amax of the row, where the stage gathers one (R62) -/
  amax : Val := .zero false
  writes : List Write := []
  g : Gather := {}
  badPos : Bool := false
  deriving DecidableEq, Repr

/-- Element `i` of an operand tensor packed from an address (R438). -/
def operandCode (rd : Reader) (f : Fmt) (addr i : Nat) : Nat :=
  let lo := i * f.width
  let b := rd (addr + lo / 8) ((lo % 8 + f.width + 7) / 8)
  (leNat b / 2 ^ (lo % 8)) % 2 ^ f.width

/-- R436: one operand element in the working format. -/
def operandVal (env : StageEnv) (w : Fmt) (e : OpEntry) (i : Nat) : Worked :=
  let t := OpType.ofWord e.ty
  workElem w env.strict t none (operandCode env.read t.fmt e.addr i)

/-- R436: the working format of a stage over inputs of a type: the formats of input, named operands and `STORE`. -/
def StageWord.work (env : StageEnv) (s : StageWord) (ty : OpType) : Fmt :=
  let named := s.uses.filterMap fun u => if u.2.2 = .named then some (OpType.ofWord (s.entry env.table u.1).ty).fmt else none
  workFmt env.strict (ty.fmt :: (OpType.ofWord s.store).fmt :: named)

/-- The operand elements that a stage reads over `m` rows of a result `w` wide, each once (R157): entry and index. -/
def StageWord.elements (env : StageEnv) (s : StageWord) (m w : Nat) : List (OpEntry × Nat) :=
  let e0 := s.entry env.table 0
  let e1 := s.entry env.table 1
  let all (e : OpEntry) (n : Nat) : List (OpEntry × Nat) := (List.range n).map (Prod.mk e)
  let gain (e : OpEntry) : OpEntry := { e with ty := Fmt.fp32.code }
  match s.kind with
  | 1 =>
    let n := if bit s.arg 0 then m else w
    all e0 n ++ all e1 n
  | 2 =>
    let rot := 2 ^ bits s.arg 3 0 / 2 * 2
    let ps := ((List.range m).map fun i => signed (operandCode env.read .int32 e1.addr i) 32).eraseDups
    (ps.map fun p =>
      if p < 0 || (e0.constant : Int) ≤ p then [] else (List.range rot).map fun i => (e0, p.toNat * rot + i)).flatten
  | 3 =>
    let n := (if e0.constant = 0 then 1 else ceilDiv m e0.constant) * w
    all e0 n ++ if bit s.arg 0 then [] else all e1 n
  | 6 => all e0 (m * w)
  | 7 => if bit s.arg 2 then all (gain e0) w ++ all (gain e1) w else []
  | _ => []

/-- R33, R66, R157: what reading a stage's operands gathers over a tensor of `rows`: each operand element counts once,
as it does where the stage is a command of its own. -/
def operandGather (env : StageEnv) (s : StageWord) (rows : List Row) : Gather :=
  match rows with
  | [] => {}
  | r :: _ =>
    let w := if s.kind = 7 then (if env.strict then .fp64 else .fp32) else s.work env r.ty
    let g := gatherAll ((s.elements env rows.length r.codes.length).map fun ei => (operandVal env w ei.1 ei.2).g)
    if s.kind = 7 then g.element (readElem .fp32 false env.strict (s.entry env.table 0).constant).conv {} else g

/-- Push an exact result of the last operation of a stage, with what the operation gathered. -/
def pushExact (o : RowOut) (t : OpType) (c : Conv) (strict : Bool) (x : Exact) (pre : Gather) : RowOut :=
  let o' := o.push t c strict c.gathers x Val.one pre.conv pre.ieee
  { o' with
    g := { o'.g with
           millOps := o'.g.millOps + 1 } }

/-- Round a Mill operation inside a stage to the working format (R155, R436). -/
def midRound (w : Fmt) (strict : Bool) (x : Exact) : Worked :=
  let r := roundWork w strict .rne x
  { val := r.val, g := (({} : Gather).element r.conv r.ieee) }

/-- R155, R436: the minimum-like codes-only exception does not concern any stage; every stage
element goes through the working format. One element-wise stage over a row: `f` gives the exact
value of element n from the working input, with what its intermediate roundings gathered; what the reading of operands
gathers is `operandGather`'s. -/
def mapStage (env : StageEnv) (s : StageWord) (w : Fmt) (row : Row) (f : Nat → Val → Exact × Gather) : StageOut :=
  let out := OpType.ofWord s.store
  let c := Conv.ofWord env.defaults s.conv
  let (xs, g0) := workRow w env.strict row
  let o := xs.zipIdx.foldl (fun o xi =>
    let (e, g) := f xi.2 xi.1
    pushExact o out c env.strict e g) ({} : RowOut)
  { row := { ty := out, codes := o.codes }, amax := o.amax, g := g0.merge o.g }

/-- R155 `SCALE_SHIFT`. -/
def stageScaleShift (env : StageEnv) (s : StageWord) (m : Nat) (row : Row) : StageOut :=
  let a := s.entry env.table 0
  let b := s.entry env.table 1
  let w := s.work env row.ty
  let c := Conv.ofWord env.defaults s.conv
  mapStage env s w row fun n x =>
    let i := if bit s.arg 0 then m else n
    (fmaX (c.round == .rdn) x (operandVal env w a i).val (operandVal env w b i).val, {})

/-- R155 `ROTARY`, R438: positions outside the table make `badPos`. -/
def stageRotary (env : StageEnv) (s : StageWord) (m : Nat) (row : Row) : StageOut :=
  let t := s.entry env.table 0
  let p := s.entry env.table 1
  let head := 2 ^ bits s.arg 7 4
  let rot := 2 ^ bits s.arg 3 0
  let w := s.work env row.ty
  let c := Conv.ofWord env.defaults s.conv
  let pos := signed (operandCode env.read .int32 p.addr m) 32
  let bad := pos < 0 || (t.constant : Int) ≤ pos
  let xs := (workRow w env.strict row).1
  let o := mapStage env s w row fun n x =>
    let j := n % head
    if j / 2 * 2 + 1 < rot then
      let i := j / 2
      let cv := operandVal env w t ((pos.toNat * (rot / 2) + i) * 2)
      let sv := operandVal env w t ((pos.toNat * (rot / 2) + i) * 2 + 1)
      let y := xs.getD (if j % 2 = 0 then n + 1 else n - 1) (.zero false)
      let pr := midRound w env.strict (mulX y sv.val)
      (fmaX (c.round == .rdn) x cv.val (if j % 2 = 0 && !pr.val.isNan then pr.val.negate else pr.val), pr.g)
    else ({ val := x }, {})
  { o with badPos := bad }

/-- R155 `MODULATE`. -/
def stageModulate (env : StageEnv) (s : StageWord) (m : Nat) (row : Row) : StageOut :=
  let e0 := s.entry env.table 0
  let e1 := s.entry env.table 1
  let width := row.codes.length
  let grp := if e0.constant = 0 then 0 else m / e0.constant
  let w := s.work env row.ty
  let c := Conv.ofWord env.defaults s.conv
  if bit s.arg 0 then
    mapStage env s w row fun n x => (mulX x (operandVal env w e0 (grp * width + n)).val, {})
  else
    mapStage env s w row fun n x =>
      let tv := operandVal env w e0 (grp * width + n)
      let sv := operandVal env w e1 (grp * width + n)
      let k := midRound w env.strict (addX false Val.one sv.val)
      (fmaX (c.round == .rdn) x k.val tv.val, k.g)

/-- R155 `RESIDUAL`. -/
def stageResidual (env : StageEnv) (s : StageWord) (m : Nat) (row : Row) : StageOut :=
  let e := s.entry env.table 0
  let width := row.codes.length
  let w := s.work env row.ty
  let c := Conv.ofWord env.defaults s.conv
  mapStage env s w row fun n x =>
    let r := (operandVal env w e (m * width + n)).val
    (if bit s.arg 0 then mulX x r else addX (c.round == .rdn) x r, {})

/-- The image that a function word names in the sampled bank. -/
def StageEnv.image (env : StageEnv) (w : Nat) : Image := (env.bank.image (funcSlot w)).getD (.shipped 0)

/-- R155 `ACTIVATION`. -/
def stageActivation (env : StageEnv) (s : StageWord) (row : Row) : StageOut :=
  let out := OpType.ofWord s.store
  let c := Conv.ofWord env.defaults s.conv
  let (sc, g0) := rowScale env.strict row
  let o := row.codes.foldl (fun o code => funcElem (env.image s.arg) env.strict row.ty sc out c c.gathers code o)
    ({ g := g0 } : RowOut)
  { row := { ty := out, codes := o.codes }, amax := o.amax, g := o.g }

/-- R155 `GATE_ACT`: u = f(x) rounded into `STORE`, then u × linear column. -/
def stageGateAct (env : StageEnv) (s : StageWord) (row : Row) : StageOut :=
  let out := OpType.ofWord s.store
  let c := Conv.ofWord env.defaults s.conv
  let half (off : Nat) : List Nat := (row.codes.zipIdx.filter fun ci => ci.2 % 128 / 64 == off).map Prod.fst
  let (sc, g0) := rowScale env.strict row
  let u := (half 0).foldl (fun o code => funcElem (env.image s.arg) env.strict row.ty sc out c false code o)
    ({ g := g0 } : RowOut)
  let w := workFmt env.strict [row.ty.fmt, out.fmt]
  let o := (List.zip u.codes (half 1)).foldl (fun o cc =>
    let a := workElem w env.strict out none cc.1
    let b := workElem w env.strict row.ty sc cc.2
    let o' := pushExact o out c env.strict (mulX a.val b.val) {}
    { o' with g := (o'.g.merge a.g).merge b.g }) ({} : RowOut)
  { row := { ty := out, codes := o.codes }, amax := o.amax, g := u.g.merge o.g }

/-- R155 `NORMALISE`. -/
def stageNormalise (env : StageEnv) (s : StageWord) (m : Nat) (row : Row) : StageOut :=
  let out := OpType.ofWord s.store
  let c := Conv.ofWord env.defaults s.conv
  let nc := NormControl.ofWord (s.arg * 16)
  let e0 := s.entry env.table 0
  let w : Fmt := if env.strict then .fp64 else .fp32
  let (xs, g0) := workRow w env.strict row
  let n := xs.length
  let vec (e : OpEntry) : List Val := (List.range n).map fun i =>
    (workElem w env.strict { fmt := .fp32 } none (operandCode env.read .fp32 e.addr i)).val
  let gam := if nc.affine then vec e0 else []
  let bet := if nc.affine then vec (s.entry env.table 1) else []
  let ep := readElem .fp32 false env.strict e0.constant
  let (o, st) := normRow env.strict nc ep.val gam bet out c c.gathers xs
  { row := { ty := out, codes := o.codes }, amax := o.amax, g := g0.merge o.g,
    writes := if nc.emit then [((s.entry env.table 2).addr + 8 * m, leBytes 4 st.meanCode ++ leBytes 4 st.rstdCode)] else [] }

/-- R55: the exact values of a row's elements, source scale included, each with the flags of its reading, and what the
reading of the scale gathered. Nothing is rounded here. -/
def exactRow (strict : Bool) (row : Row) : List (Exact × ConvFlags) × Gather :=
  let (sc, g) := rowScale strict row
  (row.codes.map fun code =>
    let r := readElem row.ty.fmt row.ty.uns strict code
    (applyScale r.val sc, r.conv), g)

/-- R62: the row amax over exact values. -/
def rowAmax (xs : List Exact) : Val := xs.foldl (fun a x => amaxStep a x.val) (.zero false)

/-- R64: an amax as derive_scale reads it back. -/
def amaxVal (c : Nat) : Val := fp32 c

/-- R155 `QUANTISE`: the exact values of R55 divided by the derived scale and rounded once. -/
def stageQuantise (env : StageEnv) (s : StageWord) (m : Nat) (row : Row) : StageOut :=
  let out := OpType.ofWord s.store
  let c := Conv.ofWord env.defaults s.conv
  let e0 := s.entry env.table 0
  let (xs, g0) := exactRow env.strict row
  let a := rowAmax (xs.map Prod.fst)
  let T : Val := match fp32 e0.constant with
    | .zero _ => targetOf out.fmt out.uns
    | t => t
  let (amaxIn, preC) : Val × ConvFlags :=
    if bit s.arg 0 then (amaxVal (amaxCode a), {})
    else match fp32 (operandCode env.read .fp32 (s.entry env.table 1).addr m) with
      | .nan _ => (.zero false, { amaxNan := true })
      | v => (v.abs, {})
  let sc := deriveScale (!out.scaleFp32) env.strict amaxIn T
  let sv := if out.scaleFp32 then fp32 sc.code else (decode .e8m0 false sc.code).val
  let gather := c.gathers || bit s.arg 0
  let o := xs.foldl (fun o x => o.push out c env.strict gather x.1 sv x.2 {}) ({} : RowOut)
  let wsc := if out.scaleFp32 then 4 else 1
  { row := { ty := out, codes := o.codes, scale := some sc.code }, amax := if c.gathers then a else .zero false,
    g := { ((g0.element preC {}).element sc.conv {}).merge o.g with
           millOps := xs.length },
    writes := [(e0.addr + wsc * m, leBytes wsc sc.code)] ++
      (if c.amaxRow then [((s.entry env.table 2).addr + 4 * m, leBytes 4 (amaxCode a))] else []) }

/-- R155 `CONVERT`: the source value as R55 reads it, scale included, rounded once. -/
def stageConvert (env : StageEnv) (s : StageWord) (row : Row) : StageOut :=
  let out := OpType.ofWord s.store
  let c := Conv.ofWord env.defaults s.conv
  if row.ty.fmt = out.fmt ∧ row.ty.uns = out.uns ∧ row.scale = none then
    -- R54: bits are copied, and no amax is gathered
    { row := { ty := out, codes := row.codes } }
  else
    let (xs, g0) := exactRow env.strict row
    let o := xs.foldl (fun o x => o.push out c env.strict c.gathers x.1 Val.one x.2 {}) ({} : RowOut)
    { row := { ty := out, codes := o.codes }, amax := o.amax,
      g := { g0.merge o.g with
             millOps := row.codes.length } }

/-- One stage on row m. `PLANAR_STORE` and `SEND` change no element. -/
def runStage (env : StageEnv) (s : StageWord) (m : Nat) (row : Row) : StageOut :=
  match s.kind with
  | 0 => stageConvert env s row
  | 1 => stageScaleShift env s m row
  | 2 => stageRotary env s m row
  | 3 => stageModulate env s m row
  | 4 => stageActivation env s row
  | 5 => stageGateAct env s row
  | 6 => stageResidual env s m row
  | 7 => stageNormalise env s m row
  | 8 => stageQuantise env s m row
  | _ => { row := row }

/-- Every row of a tensor through the stages. -/
structure TensorOut where
  rows : List Row := []
  /-- amax over the tensor of the stage that gathers a per-tensor one -/
  amax : Val := .zero false
  writes : List Write := []
  g : Gather := {}
  badPos : Bool := false
  deriving DecidableEq, Repr

/-- One stage on every row of a tensor. -/
def runStageRows (env : StageEnv) (s : StageWord) (rows : List Row) : TensorOut :=
  let outs := rows.zipIdx.map fun rm => runStage env s rm.2 rm.1
  { rows := outs.map StageOut.row,
    amax := if (Conv.ofWord env.defaults s.conv).amaxTensor then (outs.map StageOut.amax).foldl amaxStep (.zero false)
      else .zero false,
    writes := (outs.map StageOut.writes).flatten,
    g := (operandGather env s rows).merge (gatherAll (outs.map StageOut.g)),
    badPos := outs.any StageOut.badPos }

/-- A list of stages on every row of a tensor (R157). Only the last rounding stage may gather a per-tensor amax. -/
def runRows (env : StageEnv) (ss : List StageWord) (rows : List Row) : TensorOut :=
  ss.foldl (fun t s =>
    let o := runStageRows env s t.rows
    { rows := o.rows, amax := (maxX t.amax o.amax).val, writes := t.writes ++ o.writes, g := t.g.merge o.g,
      badPos := t.badPos || o.badPos }) ({ rows := rows } : TensorOut)

/-- Does a stage of a list gather the per-tensor amax of the completion record (R62, R155)? -/
def asksAmax (d : ConvDefaults) (ss : List StageWord) : Bool :=
  ss.any fun s => s.rounds && (Conv.ofWord d s.conv).amaxTensor

/-- Addresses that one stage reads on every row and element: operand, bytes. -/
def StageWord.reads (s : StageWord) (tab : List OpEntry) (rows width : Nat) (rd : Reader) : List (Nat × Nat) :=
  let e0 := s.entry tab 0
  let e1 := s.entry tab 1
  let ty (e : OpEntry) : Fmt := (OpType.ofWord e.ty).fmt
  let n := if bit s.arg 0 then rows else width
  let grp : Nat := (if e0.constant = 0 then 1 else ceilDiv rows e0.constant) * width
  match s.kind with
  | 1 => [(e0.addr, (ty e0).rowBytes n), (e1.addr, (ty e1).rowBytes n)]
  | 2 =>
    let rot := 2 ^ bits s.arg 3 0
    (e1.addr, 4 * rows) :: (List.range rows).filterMap fun m =>
      let p := signed (operandCode rd .int32 e1.addr m) 32
      if p < 0 || (e0.constant : Int) ≤ p then none
      else
        let lo := p.toNat * rot * (ty e0).width
        some (e0.addr + lo / 8, (lo % 8 + rot * (ty e0).width + 7) / 8)
  | 3 => (e0.addr, (ty e0).rowBytes grp) :: (if bit s.arg 0 then [] else [(e1.addr, (ty e1).rowBytes grp)])
  | 6 => [(e0.addr, (ty e0).rowBytes (rows * width))]
  | 7 => if bit s.arg 2 then [(e0.addr, 4 * width), (e1.addr, 4 * width)] else []
  | 8 => if bit s.arg 0 then [] else [(e1.addr, 4 * rows)]
  | _ => []

/-- Reads of a list of stages over rows of a width. -/
def stagesReads (tab : List OpEntry) (rows : Nat) (rd : Reader) : List StageWord → Nat → List (Nat × Nat)
  | [], _ => []
  | s :: ss, w => s.reads tab rows (s.outWidth w) rd ++ stagesReads tab rows rd ss (s.outWidth w)

/-- Codes of a PLANAR_STORE (R155): plane n holds column n of the result. -/
def planarWrites (e : OpEntry) (rows : List Row) : List Write :=
  match rows with
  | [] => []
  | r :: _ => (List.range r.codes.length).map fun n =>
      (e.addr + n * e.constant * 512, packRow r.ty.fmt (rows.map fun q => q.codes.getD n 0))

/-- R170: the tiles of 64 rows that SEND passes, with their offsets. -/
def sendTiles (planar : Bool) (rows : List Row) : List Write :=
  match rows with
  | [] => []
  | r :: _ =>
    let tileBytes := 64 * r.ty.fmt.rowBytes r.codes.length
    (List.range (ceilDiv rows.length 64)).map fun t =>
      let part := (rows.drop (64 * t)).take 64
      (t * tileBytes,
        if planar then ((List.range r.codes.length).map fun n => packRow r.ty.fmt (part.map fun q => q.codes.getD n 0)).flatten
        else (part.map fun q => packRow q.ty.fmt q.codes).flatten)

/-! ### Limits (R160, R161) -/

/-- R160: Loft bytes of stage operands. -/
def stageNeed (tab : List OpEntry) (ss : List StageWord) : Nat :=
  (ss.map fun s =>
    if s.kind = 2 ∨ s.kind = 6 then 32768 * (OpType.ofWord (s.entry tab 0).ty).fmt.byteWidth
    else if s.operand ≤ 7 then 8192 else 0).sum

/-- Σ over stages of result elements × lane-clk for one row (R161). -/
def stagesLane (strict : Bool) : List StageWord → Nat → Nat
  | [], _ => 0
  | s :: ss, w => s.outWidth w * s.laneClk strict + stagesLane strict ss (s.outWidth w)

end Sys2Proof.Machine
end

