-- ==== Sys2Proof/Machine/Attend.lean ====
section
/-! DEFINITION. Machine/Attend.lean: the arithmetic of fused attention (06_attention.md): scores on
the LNS16 grid (R130), probabilities (R131), special rows (R132), the loop (R133, R134), the final
division (R135), masks (R140–R144) and the merge of partials (R145, R146). -/
namespace Sys2Proof.Machine

/-- The attention control word (R127), read. -/
structure AttendControl where
  scaleSrc : Bool := false
  emit : Bool := false
  qPair : Bool := false
  dimCode : Nat := 0
  form : Nat := 0
  bad : Bool := false
  deriving DecidableEq, Repr

def AttendControl.ofWord (w : Nat) : AttendControl :=
  { scaleSrc := bit w 11, emit := bit w 10, qPair := bit w 9, dimCode := bits w 8 6, form := bits w 1 0,
    bad := bits w 31 12 != 0 || bits w 5 2 != 0 || 3 < bits w 8 6 }

/-- D of a `HEAD_DIM` code (R127). -/
def headDim (code : Nat) : Nat := 64 * (code % 4 + 1)

def AttendControl.dim (a : AttendControl) : Nat := headDim a.dimCode
/-- q of R136. -/
def AttendControl.q (a : AttendControl) : Nat := if a.qPair then 2 else 1
/-- R136: live-tile demand. -/
def AttendControl.demand (a : AttendControl) : Nat := a.q * (a.dim / 64 + 1)

/-- R127: the FP32 value nearest log₂e / √D. log₂e is irrational: the code for each D is stated. -/
def defaultScale : Nat → Nat
  | 64 => 0x3E38AA3B | 128 => 0x3E0293EE | 192 => 0x3DD53B95 | _ => 0x3DB8AA3B

/-- R128: formats of Q and K, V and O. -/
def qkFmt (f : Fmt) : Bool := upToFp32 f
def attendOut (f : Fmt) : Bool := f == .fp32 || f == .bf16 || f == .fp16 || f == .e4m3 || f == .e5m2

/-- R149, 0x2405: a positive, finite, normal FP32 value. -/
def scaleOk (c : Nat) : Bool := c < 2 ^ 31 && bits c 30 23 != 0 && bits c 30 23 != 255

/-! ### Scores and probabilities -/

/-- A scaled score ū in steps of 2^−8, or one of the special scores of R132. -/
inductive Score
  | step (n : Int)
  | minusInf
  | bad
  deriving DecidableEq, Repr

/-- Nearest whole number of a magnitude, ties to even. -/
def nearestNat (m : Mag) : Nat :=
  let (f, r) := m.split 0
  Round.rne.apply false f r

/-- R130: grid(c × s): the score and whether it saturated. -/
def grid (c s : Val) : Score × Bool :=
  match (mulX c s).val with
  | .nan _ | .inf false => (.bad, false)
  | .inf true => (.minusInf, false)
  | .zero _ => (.step 0, false)
  | .fin neg m =>
    let n := nearestNat (m.mul (Mag.pow2 8))
    if 2 ^ 24 - 1 < n then (.step (if neg then -(2 ^ 24 - 1) else 2 ^ 24 - 1), true)
    else (.step (if neg then -(n : Int) else n), false)

/-- R131: the LNS16 code of a probability L steps below the maximum (L ≤ 0). -/
def probability (L : Int) : Nat :=
  if L ≤ -16384 then 0x4000 else if L = -1 then 0 else unsignedOf L 15

/-- R134: F = 2^(steps / 256) as D[f] × 2^n, for a negative step count. -/
def rescaleFactor (steps : Int) : Mag := (dTable 256 (steps.emod 256).toNat).mul (Mag.pow2 (steps.fdiv 256))

/-- The maximum in force of a row (R132): −∞, a step count, or NaN. -/
inductive Mu
  | none
  | step (n : Int)
  | nan
  deriving DecidableEq, Repr

/-- μ as FP32 (R135): a step count over 256, −∞ for an empty row, the canonical NaN. -/
def Mu.code : Mu → Nat
  | .none => 0xFF800000
  | .nan => 0x7FC00000
  | .step n => exactCode .fp32 (Val.ofRatio n 256)

/-- State of one row of the loop. -/
structure RowState where
  mu : Mu := .none
  acc : List Acc := []
  l : Acc := {}
  rescales : Nat := 0
  deriving DecidableEq, Repr

/-- One key tile as it meets one row: scores of the 64 positions and whether each is unmasked, and
the V codes as LNS codes by dimension. -/
structure KeyTile where
  scores : List Score := []
  unmasked : List Bool := []
  /-- rows of V of this tile, one list of codes per key position -/
  v : List (List Nat) := []
  deriving DecidableEq, Repr

/-- Maximum of the unmasked scores of a tile with a running maximum (R132, R133). -/
def tileMax (mu : Mu) (t : KeyTile) : Mu :=
  (List.zip t.scores t.unmasked).foldl (fun mu su =>
    if !su.2 then mu else match mu, su.1 with
      | .nan, _ | _, .bad => .nan
      | m, .minusInf => m
      | .none, .step n => .step n
      | .step a, .step b => .step (if a < b then b else a)) mu

/-- Codes of the probabilities of a tile under a maximum. -/
def tileProbs (mu : Mu) (t : KeyTile) : List Nat :=
  (List.zip t.scores t.unmasked).map fun su =>
    match mu, su with
    | .step a, (.step n, true) => probability (n - a)
    | _, _ => 0x4000

/-- R134: rescale one accumulator element. -/
def rescaleAcc (strict : Bool) (F : Mag) (a : Acc) : Acc :=
  let r := roundWork .fp32 strict .rne (mulX a.val (.fin false F))
  { val := r.val, g := a.g.op r.ieee }

/-- Add the products of one tile (R129): groups of 32 over key positions, ascending. -/
def addTile (strict : Bool) (D : Nat) (s : RowState) (t : KeyTile) : RowState :=
  let ps := tileProbs s.mu t
  let col (j : Nat) : List Val := (List.zip ps t.v).map fun pv => logProduct false pv.1 (pv.2.getD j 0x4000)
  let add (a : Acc) (prods : List Val) : Acc :=
    (groups (prods.length + 1) prods).foldl (fun acc g => accAdd strict acc (groupSum g)) a
  { s with
    acc := (List.range D).map fun j => add (s.acc.getD j {}) (col j),
    l := add s.l (ps.map fun p => logProduct false p 0) }

/-- One tile of the sweep for one row (R133, R134). `single` names the single-sweep form. -/
def sweepTile (strict single : Bool) (D : Nat) (s : RowState) (t : KeyTile) : RowState :=
  if single then
    match s.mu, tileMax s.mu t with
    | .step a, .step b =>
      if a < b then
        let F := rescaleFactor (a - b)
        addTile strict D { s with
          mu := .step b, acc := s.acc.map (rescaleAcc strict F), l := rescaleAcc strict F s.l,
          rescales := s.rescales + 1 } t
      else addTile strict D s t
    | _, mu => addTile strict D { s with mu := mu } t
  else addTile strict D s t

/-- The final state of one row over its key tiles, ascending. -/
def attendRow (strict single : Bool) (D : Nat) (tiles : List KeyTile) : RowState :=
  let start : RowState := { acc := List.replicate D {} }
  let s0 := if single then start else { start with mu := tiles.foldl tileMax .none }
  tiles.foldl (sweepTile strict single D) s0

/-- The finished row: codes of O, with μ and l as FP32 codes (R132, R135). -/
structure AttendOut where
  out : RowOut := {}
  mu : Nat := 0
  l : Nat := 0
  deriving DecidableEq, Repr

/-- A row of equal values into O. -/
def constRow (t : OpType) (c : Conv) (strict amax : Bool) (D : Nat) (v : Val) (i : IeeeFlags) : RowOut :=
  (List.range D).foldl (fun o _ => o.push t c strict amax { val := v } Val.one {} i) ({} : RowOut)

/-- R132, R135: final division and special rows. -/
def finishRow (strict : Bool) (t : OpType) (c : Conv) (amax : Bool) (D : Nat) (s : RowState) : AttendOut :=
  let g0 : Gather := (s.acc.map Acc.g).foldl Gather.merge s.l.g
  match s.mu with
  | .none =>
    let o := constRow t c strict amax D (.zero false) {}
    { out := { o with
               g := { o.g with
                      emptyRows := 1 } }, mu := Mu.none.code, l := 0 }
  | .nan =>
    let o := constRow t c strict amax D (.nan NaN.canonical) { invalid := strict }
    { out := { o with
               g := { (o.g.merge g0) with
                      nanRows := 1, rescales := s.rescales } }, mu := Mu.nan.code, l := 0x7FC00000 }
  | .step n =>
    let o := s.acc.foldl (fun (o : RowOut) a =>
      o.push t c strict amax (divX a.val s.l.val) Val.one {} {}) ({} : RowOut)
    { out := { o with
               g := { (o.g.merge g0) with
                      rescales := s.rescales, millDiv := D } },
      mu := (Mu.step n).code, l := exactCode .fp32 s.l.val }

/-! ### Scores of a row against a tile -/

/-- R129: drained score of one query row against one key, with scales applied at drain (R86). -/
def scoreOf (strict : Bool) (q k : OperandRow) (scaled : Bool) (sq sk : Val) : Acc :=
  let p : Path := if strict then .strict32 else .float
  drain strict scaled sq sk (reducePart p strict .rne {} (pairs p false q k))

/-! ### Masks (R140–R144) -/

/-- A key segment entry (R141), read. -/
structure Segment where
  seq : Nat := 0
  full : Bool := false
  first : Nat := 0
  count : Nat := 0
  bad : Bool := false
  deriving DecidableEq, Repr

def Segment.ofBytes (b : List Byte) : Segment :=
  let w := leNat (slice b 0 16)
  { seq := bits w 15 0, full := bit w 16, first := bits w 55 32, count := bits w 88 64,
    bad := bits w 31 17 != 0 || bits w 63 56 != 0 || bits w 127 89 != 0 }

/-- Key tiles of a segment. -/
def Segment.tiles (s : Segment) : Nat := ceilDiv s.count 64

/-- The mask and key descriptor (R140), read. -/
structure MaskDesc where
  enable : Nat := 0
  segments : List Segment := []
  tileW : Nat := 0
  frameTokens : Nat := 0
  frameW : Nat := 0
  fLo : Int := 0
  fHi : Int := 0
  xLo : Int := 0
  xHi : Int := 0
  yLo : Int := 0
  yHi : Int := 0
  qFirst : Nat := 0
  listAddr : Nat := 0
  listCount : Nat := 0
  bad : Bool := false
  deriving DecidableEq, Repr

/-- R140, R141, R437: read a mask and key descriptor and find whether it is malformed (0x2403). DESIGN CHOICE: a
`FRAME_TOKENS` of 0 in use, by which R142 divides, is (log entry 150). -/
def MaskDesc.ofBytes (b : List Byte) : MaskDesc :=
  let w := leNat (slice b 0 64)
  let en := bits w 3 0
  let ns := bits w 10 8
  let segs := (List.range 4).map fun i => Segment.ofBytes (slice b (64 + 16 * i) 16)
  let used := segs.take ns
  let win := bit en 0
  let sp := bit en 1
  let ca := bit en 2
  let bl := bit en 3
  let tw := bits w 23 16
  let ft := bits w 55 32
  let fw := bits w 79 64
  let s8 (hi lo : Nat) : Int := signed (bits w hi lo) 8
  let useFrame := win || sp || ca
  let badSeg (s : Segment) : Bool := s.bad || s.count == 0 || 2 ^ 24 < s.count || s.first % 64 != 0
  { enable := en, segments := used, tileW := tw, frameTokens := ft, frameW := fw, fLo := s8 103 96, fHi := s8 111 104,
    xLo := s8 119 112, xHi := s8 127 120, yLo := s8 135 128, yHi := s8 143 136, qFirst := bits w 183 160,
    listAddr := bits w 255 192, listCount := bits w 279 256,
    bad :=
      bits w 7 4 != 0 || bits w 15 11 != 0 || bits w 31 24 != 0 || bits w 63 56 != 0 || bits w 95 80 != 0 ||
      bits w 159 144 != 0 || bits w 191 184 != 0 || bits w 511 280 != 0 || ns == 0 || 4 < ns ||
      used.any badSeg || !zeroBytes b (64 + 16 * ns) 127 ||
      (if useFrame then ft == 0 || ft % 64 != 0 || bits w 183 160 % 64 != 0 else ft != 0 || bits w 183 160 != 0) ||
      (if win then s8 111 104 < s8 103 96 else bits w 111 96 != 0) ||
      (if sp then
        !([1, 2, 4, 8, 16, 32, 64].contains tw) || fw == 0 || (tw != 0 && (fw % tw != 0 || ft % (fw * 64 / tw) != 0)) ||
        s8 127 120 < s8 119 112 || s8 143 136 < s8 135 128
       else tw != 0 || fw != 0 || bits w 143 112 != 0) ||
      (if bl then bits w 255 192 % 16 != 0 else bits w 279 192 != 0) }

/-- A block list entry (R143), read. -/
structure BlockEntry where
  q : Nat
  k : Nat
  partialPair : Bool
  bitmap : Nat
  bad : Bool
  deriving DecidableEq, Repr

def BlockEntry.ofBytes (b : List Byte) : BlockEntry :=
  let w := leNat (slice b 0 16)
  { q := bits w 23 0, k := bits w 55 32, partialPair := bit w 63, bitmap := bits w 127 64,
    bad := bits w 31 24 != 0 || bits w 62 56 != 0 ||
      (if bit w 63 then bits w 127 64 == 0 || bits w 127 64 % 512 != 0 else bits w 127 64 != 0) }

/-- Strictly ascending (Q_TILE, K_TILE)? -/
def blockAscending : List BlockEntry → Bool
  | a :: b :: rest => (a.q < b.q || (a.q == b.q && a.k < b.k)) && blockAscending (b :: rest)
  | _ => true

/-- R143: is a block list invalid (0x2404)? -/
def blockListBad (qTiles kTiles : Nat) (es : List BlockEntry) : Bool :=
  es.isEmpty || es.any (fun e => e.bad || qTiles ≤ e.q || kTiles ≤ e.k) || !blockAscending es

/-- R142: frame, column and row of a token, in tiles. -/
def frameOf (d : MaskDesc) (g : Nat) : Nat := g / d.frameTokens
def tileCol (d : MaskDesc) (g : Nat) : Nat := ((g % d.frameTokens) / 64) % (d.frameW / d.tileW)
def tileRow (d : MaskDesc) (g : Nat) : Nat := ((g % d.frameTokens) / 64) / (d.frameW / d.tileW)

/-- R142: the geometric conditions of a query and a key, by their geometric indices. -/
def geometryHolds (d : MaskDesc) (gq gk : Nat) : Bool :=
  let df : Int := (frameOf d gk : Int) - frameOf d gq
  let dx : Int := (tileCol d gk : Int) - tileCol d gq
  let dy : Int := (tileRow d gk : Int) - tileRow d gq
  (!bit d.enable 0 || (decide (d.fLo ≤ df) && decide (df ≤ d.fHi))) &&
  (!bit d.enable 1 || (decide (d.xLo ≤ dx) && decide (dx ≤ d.xHi) && decide (d.yLo ≤ dy) && decide (dy ≤ d.yHi))) &&
  (!bit d.enable 2 || decide (df ≤ 0))

/-- R142: is key position `p` of tile `kt` (segment `s`, tile `t` inside it) unmasked for query `i`? -/
def unmasked (d : MaskDesc) (blocks : List BlockEntry) (rd : Reader) (i : Nat) (s : Segment) (kt t p : Nat) : Bool :=
  let o := 64 * t + p
  decide (o < s.count) &&
  (s.full ||
    (geometryHolds d (d.qFirst + i) (s.first + o) &&
      (!bit d.enable 3 || blocks.any fun e =>
        e.q == i / 64 && e.k == kt &&
          (!e.partialPair || bit (leNat (rd (e.bitmap + 8 * (i % 64) + p / 8) 1)) (p % 8)))))

/-- Classes of R144 over the rows of a Q tile: empty, full, partial. -/
inductive TileClass
  | empty | full | partialTile
  deriving DecidableEq, Repr

def classOf (m : List (List Bool)) : TileClass :=
  if !(m.any fun r => r.any id) then .empty else if m.all fun r => r.all id then .full else .partialTile

/-! ### Merge (R145, R146) -/

/-- One partial of one row: μ and l as FP32 values, and the O elements. -/
structure PartialRow where
  mu : Val
  l : Val
  o : List Val
  deriving DecidableEq, Repr

/-- R146: F(a.mu − mu); the step count is rounded once to a whole number. -/
def mergeFactor (a mu : Val) : Val :=
  match a with
  | .inf true => .zero false
  | a =>
    let (n, d) := a.ratio
    let (k, e) := mu.ratio
    let num : Int := 256 * (n * e - k * d)
    if num = 0 then Val.one
    else
      let st : Int := -(nearestNat ⟨num.natAbs, d * e, 1⟩ : Nat)
      if st = 0 then Val.one
      else if st < -100000 then .fin false (Mag.pow2 (-400))
      else .fin false (rescaleFactor st)

/-- Is a row's statistic one that makes it NaN (R146)? -/
def badStat (p : PartialRow) : Bool := p.mu.isNan || p.l.isNan || p.mu == Val.inf false

/-- One fold of R146. `last` gives O's type and conversion on the final fold. -/
structure MergeAcc where
  row : PartialRow
  g : Gather := {}
  deriving DecidableEq, Repr

/-- R146: one operation of a merge, rounded as R134 rounds: a flush on the way raises no conversion flag (R78). -/
def mergeOp (strict : Bool) (x : Exact) (g : Gather) : Val × Gather :=
  let r := roundWork .fp32 strict .rne x
  (r.val, g.op r.ieee)

/-- R146: combine a and b; the O elements are left exact in `pairs` for the last fold to round. -/
def mergeStep (strict : Bool) (a : MergeAcc) (b : PartialRow) : MergeAcc × List Exact :=
  let mu := (maxX a.row.mu b.mu).val
  match mu with
  | .inf true => ({ a with row := { mu := .inf true, l := .zero false, o := a.row.o.map fun _ => .zero false } },
      a.row.o.map fun _ => { val := .zero false })
  | mu =>
    let (wa, g1) := mergeOp strict (mulX a.row.l (mergeFactor a.row.mu mu)) a.g
    let (wb, g2) := mergeOp strict (mulX b.l (mergeFactor b.mu mu)) g1
    let (l, g3) := mergeOp strict (addX false wa wb) g2
    let fold (acc : List Exact × Gather) (xy : Val × Val) : List Exact × Gather :=
      let (t, h1) := mergeOp strict (mulX wa xy.1) acc.2
      let (u, h2) := mergeOp strict (fmaX false wb xy.2 t) h1
      (acc.1 ++ [divX u l], h2)
    let (es, g4) := (List.zip a.row.o b.o).foldl fold ([], g3)
    ({ row := { mu := mu, l := l, o := [] }, g := g4 }, es)

/-- Round the O elements of an inner fold to FP32 (R146). -/
def mergeRound (strict : Bool) (m : MergeAcc) (es : List Exact) : MergeAcc :=
  let rs := es.map (roundWork .fp32 strict .rne)
  { row := { m.row with o := rs.map Rounded.val }, g := rs.foldl (fun g r => g.op r.ieee) m.g }

/-- R146: fold the partials in list order; the O elements of the last fold stay exact. -/
def mergeFold (strict : Bool) : MergeAcc → List PartialRow → MergeAcc × List Exact
  | a, [] => (a, a.row.o.map fun v => { val := v })
  | a, [b] => mergeStep strict a b
  | a, b :: c :: rest =>
    let (m, es) := mergeStep strict a b
    mergeFold strict (mergeRound strict m es) (c :: rest)

/-- R146: fold the partials of one row and deliver it. A single partial is delivered as it stands. -/
def mergeRow (strict : Bool) (t : OpType) (c : Conv) (amax : Bool) (ps : List PartialRow) : AttendOut :=
  let D := (ps.headD ⟨.zero false, .zero false, []⟩).o.length
  if ps.any badStat then
    let o := constRow t c strict amax D (.nan NaN.canonical) { invalid := strict }
    { out := { o with
               g := { o.g with
                      nanRows := 1 } }, mu := Mu.nan.code, l := 0x7FC00000 }
  else match ps with
    | [] => {}
    | p :: rest =>
      let fin := mergeFold strict { row := p } rest
      let empty : Bool := match fin.1.row.mu with
        | .inf true => true
        | _ => false
      if empty then
        let o := constRow t c strict amax D (.zero false) {}
        { out := { o with
                   g := { (o.g.merge fin.1.g) with
                          emptyRows := 1 } }, mu := 0xFF800000, l := 0 }
      else
        let o := fin.2.foldl (fun (o : RowOut) e => o.push t c strict amax e Val.one {} {}) ({} : RowOut)
        { out := { o with g := o.g.merge fin.1.g }, mu := exactCode .fp32 fin.1.row.mu, l := exactCode .fp32 fin.1.row.l }

end Sys2Proof.Machine
end

