-- ==== Sys2Proof/Machine/Ledger.lean ====
section
/-! DEFINITION. Machine/Ledger.lean: unit locators (R10) and the fault ledgers (R368–R371). -/
namespace Sys2Proof.Machine

/-! ### Unit locators -/

def locPhys (l : Nat) : Bool := bit l 31
def locPackage (l : Nat) : Nat := bits l 30 25
def locDie (l : Nat) : Nat := bits l 24 24
def locRegion (l : Nat) : Nat := bits l 23 21
def locCluster (l : Nat) : Nat := bits l 20 16
def locKind (l : Nat) : Nat := bits l 15 12
def locIndex (l : Nat) : Nat := bits l 11 8
def locSub (l : Nat) : Nat := bits l 7 0

/-- Region number 0–15 of a locator. -/
def locRegion16 (l : Nat) : Nat := 8 * locDie l + locRegion l

/-- R10: compose a locator. -/
def mkLoc (phys : Bool) (package die region cluster kind index sub : Nat) : Nat :=
  2 ^ 31 * boolNat phys + 2 ^ 25 * package + 2 ^ 24 * die + 2 ^ 21 * region + 2 ^ 16 * cluster + 2 ^ 12 * kind +
    2 ^ 8 * index + sub

/-- R10: is a locator in the ranges of its space and kind? -/
def locOk (l : Nat) : Bool :=
  let ph := locPhys l
  let c := locCluster l
  let i := locIndex l
  let sb := locSub l
  let inCluster := c < (if ph then 18 else 16)
  let subOk (n : Nat) : Bool := sb < n || sb == 0xFF
  l < 2 ^ 32 && (c != 0x1F || locRegion l == 0) &&
  match locKind l with
  | 0 => (inCluster || c == 0x1E || c == 0x1F) && i == 0 && sb == 0xFF
  | 1 => inCluster && i < (if ph then 5 else 4) && subOk (if ph then 67 else 65)
  | 2 => inCluster && i < (if ph then 3 else 2) && sb == 0xFF
  | 3 => inCluster && i == 0
  | 4 => inCluster && i == 0 && subOk (if ph then 17 else 16)
  | 5 | 6 | 7 => c == 0x1E && i == 0 && sb == 0xFF
  | 8 | 9 => c == 0x1F && i < 8 && sb == 0xFF
  | 10 => c == 0x1F && i < 8 && subOk (if ph then 18 else 16)
  | 11 | 12 => c == 0x1F && i == 0 && sb == 0xFF
  | _ => false

/-- The container at a severity (R361) that holds a locator: unit 1, cluster 2, region 3, die 4. -/
def containerAt (severity l : Nat) : Nat :=
  match severity with
  | 0 | 1 => l - locSub l + 0xFF
  | 2 => l / 2 ^ 16 * 2 ^ 16 + 0xFF
  | 3 => l / 2 ^ 21 * 2 ^ 21 + 0x1E * 2 ^ 16 + 0xFF
  | _ => l / 2 ^ 24 * 2 ^ 24 + 0x1F * 2 ^ 16 + 0xFF

/-- Does the unit or container `a` hold `b`? -/
def locHolds (a b : Nat) : Bool :=
  let sameDie := a / 2 ^ 24 == b / 2 ^ 24
  if locKind a = 0 then
    if locCluster a = 0x1F then sameDie
    else if locCluster a = 0x1E then sameDie && locRegion a == locRegion b && locCluster b != 0x1F
    else a / 2 ^ 16 == b / 2 ^ 16
  else a / 2 ^ 8 == b / 2 ^ 8

/-- R365: the severity one step up that a locator of its level can take. -/
def stepUp (severity l : Nat) : Nat :=
  let nxt := severity + 1
  if locCluster l = 0x1F then (if nxt < 4 then 4 else min nxt 5)
  else if locCluster l = 0x1E then (if nxt < 3 then 3 else min nxt 5)
  else min nxt 5

/-! ### Ledger entries -/

/-- R368: the 512-bit entry. -/
def LedgerEntry.word (e : LedgerEntry) : Nat :=
  e.code % 2 ^ 16 + 2 ^ 16 * e.severity + 2 ^ 19 * boolNat e.nested + 2 ^ 20 * e.action + 2 ^ 23 * e.state +
    2 ^ 32 * (e.seq % 2 ^ 32) + 2 ^ 64 * e.phys + 2 ^ 96 * e.log + 2 ^ 128 * (e.time % 2 ^ 64) +
    2 ^ 192 * (e.exposed % 2 ^ 64) + 2 ^ 256 * (e.root % 2 ^ 32) + 2 ^ 288 * e.pasid + 2 ^ 308 * e.queue +
    2 ^ 328 * boolNat e.valid + 2 ^ 352 * (e.index % 2 ^ 32) + 2 ^ 384 * (e.detail % 2 ^ 64)

namespace State

def ledger (s : State) (die : Nat) : Ledger := if die = 0 then s.integ.ledger0 else s.integ.ledger1

def setLedger (s : State) (die : Nat) (l : Ledger) : State :=
  { s with integ := if die = 0 then { s.integ with ledger0 := l } else { s.integ with ledger1 := l } }

/-- R369: write or drop an entry. Answers the place written. The entry's `SEQ`, time and (where not
nested) root are given here. -/
def ledgerWrite (s : State) (die : Nat) (e0 : LedgerEntry) : State × Option Nat :=
  let l := s.ledger die
  let e := { e0 with seq := l.seq, time := s.reel die, root := if e0.nested then e0.root else l.seq }
  let fits := if e.severity = 5 then l.count < 1024 else l.count < 1022
  let first := !l.overflow
  let l1 : Ledger := { l with
    seq := l.seq + 1,
    worst := if l.worst ≤ e.severity then e.severity else l.worst,
    worstEntry := if l.worst ≤ e.severity then some e else l.worstEntry,
    newest := match l.newest with
      | some (clk, x) => if clk = s.clk ∧ e.severity < x.severity then some (clk, x) else some (s.clk, e)
      | none => some (s.clk, e) }
  let vec := s.reg 0x2C00 0x08 0xFFFF
  if fits then
    let place := l.tail
    let s1 := s.setLedger die { l1 with
      places := Table.put place e l1.places, tail := (l.tail + 1) % 1024, count := l.count + 1 }
    let s2 := if s.keptReg 0x2C00 0x09 1 ≤ e.severity then s1.interrupt vec else s1
    let s3 := if 4 ≤ e.severity then s2.notify 2 e.code else s2
    (s3.dayEvent die 0 0 0 5 (e.code + 2 ^ 16 * e.severity + 2 ^ 19 * boolNat e.nested + 2 ^ 32 * e.phys), some place)
  else
    let s1 := s.setLedger die { l1 with dropped := l.dropped + 1, overflow := true }
    (if first then (s1.interrupt vec).notify 2 e.code else s1, none)

/-- `PACKAGE_ID` (R18). -/
def packageId (s : State) : Nat := s.keptReg 0x2000 0x01 0

/-- A notice entry: it opens no domain and touches no epoch (R361, R439). -/
def notice (s : State) (die code phys detail : Nat) : State :=
  (s.ledgerWrite die
    { code := code, severity := 0, nested := false, action := 0, state := 3, seq := 0, phys := phys, log := 0xFFFFFFFF,
      time := 0, exposed := s.reel die, root := 0, detail := detail }).1

/-- Locator of a die as a container. -/
def dieLoc (s : State) (die : Nat) : Nat := mkLoc true s.packageId die 0 0x1F 0 0 0xFF

/-- The die whose ledger takes engine-wide notices (R434). -/
def noticeDie (s : State) : Nat := if bit s.pins.dies 0 then 0 else 1

/-- R370: the worst-severity state is cleared; a fault of the same clk takes effect after the clear
(log entry 173). -/
def clearWorst (s : State) (die : Nat) : State :=
  let l := s.ledger die
  s.setLedger die (match l.newest with
    | some (clk, e) => if clk = s.clk then { l with worst := e.severity, worstEntry := some e } else { l with worst := 0, worstEntry := none }
    | none => { l with worst := 0, worstEntry := none })

/-- R370: retire entries below a head value; none where the value is not between head and tail. -/
def ledgerRetire (s : State) (die v : Nat) : Option State :=
  let l := s.ledger die
  let n := (v + 1024 - l.head) % 1024
  -- a full ledger has head = tail, so n = 0 may mean all or none: none are retired (log entry 15)
  if 1024 ≤ v ∨ l.count < n then none
  else some (s.setLedger die { l with
    head := v, count := l.count - n,
    places := l.places.filter fun p => !((p.1 + 1024 - l.head) % 1024 < n) })

end State
end Sys2Proof.Machine
end

