-- ==== Sys2Proof/Machine/Loft.lean ====
section
/-! DEFINITION. Machine/Loft.lean: rows, semaphores, arrival counters and partitions of the Lofts
(09_loft.md; R197–R218). A partition is an entry of its region's table; rows, semaphores and counters are kept
per region and logical cluster. -/
namespace Sys2Proof.Machine

/-- Key of a row, semaphore or counter of a logical cluster. -/
def loftKey (region cluster index : Nat) : Nat := (region * 16 + cluster) * 4096 + index

/-- A semaphore word (R208), read. -/
structure SemWord where
  amount : Nat := 0
  op : Nat := 0
  index : Nat := 0
  reserved : Bool := false
  deriving DecidableEq, Repr

def SemWord.ofWord (w : Nat) : SemWord :=
  { amount := bits w 31 16, op := bits w 15 14, index := bits w 7 0, reserved := bits w 13 8 != 0 }

/-- R208: is a word in form where only `allowed` (1 wait, 2 signal; 0 either) or none may stand? -/
def semWordOk (allowed w : Nat) : Bool :=
  let s := SemWord.ofWord w
  if s.op = 0 then w == 0 else !s.reserved && s.op != 3 && s.amount != 0 && (allowed == 0 || s.op == allowed)

/-- R215: the even-parity bit of a sector. -/
def sectorParity (b : List Byte) : Nat := popCount (b.foldl (fun x y => x ^^^ y.toNat) 0) 8 % 2

/-- R215: the eight parity bits of a row, bit n of sector n. -/
def rowParity (b : List Byte) : Nat := ((List.range 8).map fun n => 2 ^ n * sectorParity (slice b (64 * n) 64)).sum

/-- R215: a row as a write leaves it: fresh parity, no error mark. -/
def LoftRow.ofBytes (b : List Byte) : LoftRow := { data := .known b, parity := rowParity b }

/-- The bytes of a row; those of an undefined row are free. -/
def LoftRow.bytes (r : LoftRow) (k : Nat) : List Byte :=
  match r.data with
  | .known b => b
  | .undef stamp => (List.range 512).map fun i => Config.freeByte stamp (k * 512 + i)

/-- R215: some sector of a row does not agree with its parity bit. -/
def LoftRow.badSector (r : LoftRow) : Bool :=
  match r.data with
  | .known b => r.parity != rowParity b
  | .undef _ => false

/-- R215: a read of the row is a parity error. -/
def LoftRow.bad (r : LoftRow) : Bool := r.mark || r.badSector

/-- A row whose bytes stand, as a copy of it elsewhere holds them. -/
def LoftRow.fixed (r : LoftRow) (k : Nat) : LoftRow :=
  match r.data with
  | .known _ => r
  | .undef _ => { r with data := .known (r.bytes k), parity := rowParity (r.bytes k) }

namespace State

def loftRow (s : State) (k : Nat) : LoftRow := (Table.find? k s.loft.rows).getD { data := .undef s.loft.base }

def setRow (s : State) (k : Nat) (r : LoftRow) : State := { s with loft := { s.loft with rows := Table.put k r s.loft.rows } }

def sem (s : State) (k : Nat) : Nat := (Table.find? k s.loft.sems).getD 0

def setSem (s : State) (k v : Nat) : State := { s with loft := { s.loft with sems := Table.put k v s.loft.sems } }

/-- R210: an arrival counter wraps at 2^32. -/
def ctr (s : State) (k : Nat) : Nat := (Table.find? k s.loft.ctrs).getD 0

def setCtr (s : State) (k v : Nat) : State := { s with loft := { s.loft with ctrs := Table.put k (v % 2 ^ 32) s.loft.ctrs } }

/-- An entry of a region's partition table (R200). -/
def part (s : State) (region entry : Nat) : Partition := (Table.find? (region * 64 + entry) s.loft.parts).getD {}

def setPart (s : State) (region entry : Nat) (p : Partition) : State :=
  { s with loft := { s.loft with parts := Table.put (region * 64 + entry) p s.loft.parts } }

/-- The partition of a queue's record; a queue without one reads as a free entry. -/
def partOf (s : State) (q : Queue) : Partition :=
  match q.part with
  | none => {}
  | some e => s.part q.region e

/-- R214: write a row that has landed. `signalled` says that a later signal or increment covers it; a bit that an
earlier write set stays set until its own signal takes effect. -/
def landRow (s : State) (p : Partition) (region cluster row : Nat) (b : List Byte) (signalled : Bool) : State :=
  let k := loftKey region cluster (16 * p.baseUnit + row)
  s.setRow k { LoftRow.ofBytes b with pending := p.hazard && (signalled || (s.loftRow k).pending) }

/-- The pending bits of relative rows whose signal or increment takes effect. -/
def settleRows (s : State) (p : Partition) (region cluster : Nat) (rows : List Nat) : State :=
  rows.foldl (fun s i =>
    let k := loftKey region cluster (16 * p.baseUnit + i)
    match Table.find? k s.loft.rows with
    | some r => if r.pending then s.setRow k { r with pending := false } else s
    | none => s) s

/-- R213–R215: the bytes a read of a row returns, whether the read is a parity error, and whether it is a
hazard. -/
def readRow (s : State) (p : Partition) (region cluster row : Nat) : List Byte × Bool × Bool :=
  let k := loftKey region cluster (16 * p.baseUnit + row)
  let r := s.loftRow k
  (r.bytes k, r.bad, p.hazard && r.pending)

/-- R214, R402: count a hazard and emit its Daybook event, kind 4. -/
def hazardAt (s : State) (p : Partition) (region cluster row pasid q : Nat) : State :=
  (s.bump 0x2600 0x0B 1).dayEvent (dieOf region) 1 (region % 8) cluster 4
    (16 * p.baseUnit + row + 2 ^ 12 * pasid + 2 ^ 32 * q)

/-! ### Semaphores and counters -/

/-- R208: one signal on one cluster; false where it would overflow. -/
def signalOne (s : State) (p : Partition) (region cluster : Nat) (w : SemWord) : State × Bool :=
  let k := loftKey region cluster (p.semBase + w.index)
  let v := s.sem k + w.amount
  if 2 ^ 32 ≤ v then (s, false) else (s.setSem k v, true)

/-- A signal on every cluster of a mask; false where some cluster overflowed. -/
def signalMask (s : State) (p : Partition) (region mask : Nat) (w : SemWord) : State × Bool :=
  (setBits mask 16).foldl (fun (acc : State × Bool) c =>
    let (s', ok) := acc.1.signalOne p region c w
    (s', acc.2 && ok)) (s, true)

/-- R208, R209, R214: a signal that covers rows, on every cluster of a mask. Where it takes effect it clears their
pending bits; false where it overflowed on some cluster. -/
def signalRows (s : State) (p : Partition) (region mask : Nat) (w : SemWord) (rows : List Nat) : State × Bool :=
  (setBits mask 16).foldl (fun (acc : State × Bool) c =>
    let (s', ok) := acc.1.signalOne p region c w
    (if ok then s'.settleRows p region c rows else s', acc.2 && ok)) (s, true)

/-- R208: take a wait on the clusters of a mask where it is satisfied and not yet taken. Answers the
mask of clusters taken so far. -/
def waitMask (s : State) (p : Partition) (region mask got : Nat) (w : SemWord) : State × Nat :=
  (setBits mask 16).foldl (fun (acc : State × Nat) c =>
    let k := loftKey region c (p.semBase + w.index)
    let v := acc.1.sem k
    if !bit acc.2 c && w.amount ≤ v then (acc.1.setSem k (v - w.amount), acc.2 + 2 ^ c) else acc) (s, got)

/-- R210: add to an arrival counter of a cluster. -/
def countUp (s : State) (p : Partition) (region cluster index n : Nat) : State :=
  let k := loftKey region cluster (p.ctrBase + index)
  s.setCtr k (s.ctr k + n)

/-- R210, R167: (counter − base) mod 2^32 on a cluster. -/
def arrived (s : State) (p : Partition) (region cluster index base : Nat) : Nat :=
  (s.ctr (loftKey region cluster (p.ctrBase + index)) + 2 ^ 32 - base % 2 ^ 32) % 2 ^ 32

/-! ### Granting and saving (R200–R203, R275, R276) -/

/-- Entries of a region that stand on some cluster of a mask, rows granted. -/
def partsOn (s : State) (region mask : Nat) : List Partition :=
  ((List.range 64).map (s.part region)).filter fun p => p.state == 1 && (p.mask &&& mask) != 0

/-- Do two ranges overlap? -/
def meets (a n b m : Nat) : Bool := a < b + m && b < a + n

/-- Lowest start of a range of `n` units of `limit` that no granted partition on the mask holds. -/
def freeRange (used : List (Nat × Nat)) (n limit : Nat) : Option Nat :=
  if n = 0 then some 0
  else (List.range limit).find? fun a => a + n ≤ limit && !(used.any fun u => meets a n u.1 u.2)

/-- R275: units of rows not granted on the fullest cluster of a mask. -/
def freeUnits (s : State) (region cluster : Nat) : Nat :=
  192 - ((s.partsOn region (2 ^ cluster)).map Partition.units).sum

/-- Undefined contents at grant (R203): rows last held by another task are zeroed where
`LOFT_CLEAR_ON_GRANT` asks for it; otherwise rows keep what the last user left, undefined to the new
owner, with their error marks. -/
def grantRows (s : State) (region mask base units pasid : Nat) : State :=
  let clear := s.keptReg 0x2600 0x09 0 == 1
  let (stamp, s0) := s.draw
  (setBits mask 16).foldl (fun s c =>
    (List.range units).foldl (fun s u =>
      let uk := (region * 16 + c) * 256 + base + u
      let other := (match Table.find? uk s.loft.lastUser with
        | some o => o != pasid
        | none => false)
      let s1 : State := { s with loft := { s.loft with lastUser := Table.put uk pasid s.loft.lastUser } }
      (List.range 16).foldl (fun s i =>
        let k := loftKey region c (16 * (base + u) + i)
        if clear && other then s.setRow k (LoftRow.ofBytes (List.replicate 512 0))
        else s.setRow k { data := .undef stamp, mark := (s.loftRow k).mark }) s1) s) s0

/-- Semaphores and counters of a range set to 0 on the clusters of a mask (R203). -/
def clearMarks (s : State) (region mask semBase semCount ctrBase ctrCount : Nat) : State :=
  (setBits mask 16).foldl (fun s c =>
    let s1 := (List.range semCount).foldl (fun s i => s.setSem (loftKey region c (semBase + i)) 0) s
    (List.range ctrCount).foldl (fun s i => s.setCtr (loftKey region c (ctrBase + i)) 0) s1) s

/-- Rows, semaphores and counters of a partition as they are saved (R202); keys are relative, with the
cluster in front. -/
def savePart (s : State) (region : Nat) (p : Partition) : SavedPartition :=
  let cs := setBits p.mask 16
  { rows := (cs.map fun c => (List.range (16 * p.units)).map fun i =>
      let k := loftKey region c (16 * p.baseUnit + i)
      let r := s.loftRow k
      (loftKey 0 c i, r.fixed k)).flatten,
    sems := (cs.map fun c => (List.range p.semCount).map fun i =>
      (loftKey 0 c i, s.sem (loftKey region c (p.semBase + i)))).flatten,
    ctrs := (cs.map fun c => (List.range p.ctrCount).map fun i =>
      (loftKey 0 c i, s.ctr (loftKey region c (p.ctrBase + i)))).flatten }

/-- R202: restore a saved partition into its entry's ranges. -/
def restorePart (s : State) (region : Nat) (p : Partition) (v : SavedPartition) : State :=
  (setBits p.mask 16).foldl (fun s c =>
    let s1 := (List.range (16 * p.units)).foldl (fun s i =>
      match Table.find? (loftKey 0 c i) v.rows with
      | some r => s.setRow (loftKey region c (16 * p.baseUnit + i)) r
      | none => s) s
    let s2 := (List.range p.semCount).foldl (fun s i =>
      s.setSem (loftKey region c (p.semBase + i)) ((Table.find? (loftKey 0 c i) v.sems).getD 0)) s1
    (List.range p.ctrCount).foldl (fun s i =>
      s.setCtr (loftKey region c (p.ctrBase + i)) ((Table.find? (loftKey 0 c i) v.ctrs).getD 0)) s2) s

/-- Rows, semaphores and counters that granted or saved partitions hold in a region on a mask. -/
def usedRows (s : State) (region mask : Nat) : List (Nat × Nat) :=
  (s.partsOn region mask).map fun p => (p.baseUnit, p.units)

def entriesOn (s : State) (region mask : Nat) : List Partition :=
  ((List.range 64).map (s.part region)).filter fun p => p.state != 0 && (p.mask &&& mask) != 0

def usedSems (s : State) (region mask : Nat) : List (Nat × Nat) :=
  (s.entriesOn region mask).map fun p => (p.semBase, p.semCount)

def usedCtrs (s : State) (region mask : Nat) : List (Nat × Nat) :=
  (s.entriesOn region mask).map fun p => (p.ctrBase, p.ctrCount)

/-- Lowest free entry of a region's table. -/
def freeEntry (s : State) (region : Nat) : Option Nat := (List.range 64).find? fun e => (s.part region e).state == 0

/-- R276: make room by moving granted partitions down, by copy at the
memory. Rows are relative, so a move changes nothing that software sees. Moves the partitions of the
region to the lowest places in ascending order of their base. -/
def compact (s : State) (region : Nat) : State :=
  let order := ((List.range 64).filter fun e => (s.part region e).state == 1).mergeSort fun a b =>
    (s.part region a).baseUnit ≤ (s.part region b).baseUnit
  (order.foldl (fun (acc : State × List Partition) e =>
    let p := acc.1.part region e
    let used := (acc.2.filter fun o => (o.mask &&& p.mask) != 0).map fun o => (o.baseUnit, o.units)
    match freeRange used p.units 192 with
    | some b =>
      if b < p.baseUnit then
        let v := acc.1.savePart region p
        let p' := { p with baseUnit := b }
        ((acc.1.setPart region e p').restorePart region p' v, acc.2 ++ [p'])
      else (acc.1, acc.2 ++ [p])
    | none => (acc.1, acc.2 ++ [p])) (s, [])).1

/-- Change a partition to `units`, moving it where it cannot grow in place (R276). New rows are
undefined (R203). None when no room is found even after moves. -/
def resizePart (s : State) (region entry units pasid : Nat) : Option State :=
  let p := s.part region entry
  if units ≤ p.units then some (s.setPart region entry { p with units := units })
  else
    let grow (s : State) : Option State :=
      let p := s.part region entry
      let others := ((List.range 64).filter fun e => e != entry).map (s.part region)
      let used := (others.filter fun o => o.state == 1 && (o.mask &&& p.mask) != 0).map fun o => (o.baseUnit, o.units)
      match freeRange used units 192 with
      | none => none
      | some b =>
        let v := s.savePart region p
        let s1 := s.grantRows region p.mask b units pasid
        let p' := { p with baseUnit := b, units := units }
        some ((s1.setPart region entry p').restorePart region p' v)
    match grow s with
    | some s' => some s'
    | none => grow (s.compact region)

end State
end Sys2Proof.Machine
end

