-- ==== Sys2Proof/Machine/Translation.lean ====
section
/-! DEFINITION. Machine/Translation.lean: look-asides, translated accesses, page requests and parking
(11_translation.md), and the Barn that device-memory accesses pass through (R231, R232).

An accessor is numbered 0–15 for the Carter of a region (8 × die + region) and 16 + die for a die's
Drover, queue rings and Reeve. An access is 0 read, 1 write or 2 atomic (R244). -/
namespace Sys2Proof.Machine

def dieOfPort (port : Nat) : Nat := if port < 16 then port / 8 else port - 16

def Entry.covers (e : Entry) (pasid va : Nat) : Bool := e.pasid == pasid && e.va ≤ va && va < e.va + e.bytes

/-- R244: a translation asked for reading serves reads only. -/
def Entry.serves (e : Entry) (access : Nat) : Bool := access == 0 || e.asked

/-- R244: does an entry carry the rights that an access needs? -/
def Entry.allows (e : Entry) (access : Nat) : Bool :=
  match access with
  | 0 => e.read
  | 1 => e.write
  | _ => e.read && e.write && e.atomic

/-- Rights of an access as a mask: bit 0 read, bit 1 write, bit 2 atomic. -/
def rightsOf (access : Nat) : Nat := match access with
  | 0 => 1 | 1 => 2 | _ => 7

/-- What an access to one byte address meets. -/
inductive Lookup
  | hit (pa : Nat)
  | miss
  | fault
  | failed (code : Nat)
  deriving DecidableEq, Repr

/-- What a translated access over a range meets. -/
inductive Got
  | ok
  | miss (va : Nat)
  | fault (va : Nat)
  | failed (code va : Nat)
  deriving DecidableEq, Repr

/-- A range cut at 4 KiB boundaries: address and bytes of each part. -/
def pieces (va len : Nat) : List (Nat × Nat) :=
  let first := va / 4096
  let last := (va + len - 1) / 4096
  if len = 0 then []
  else (List.range (last + 1 - first)).map fun i =>
    let lo := max va ((first + i) * 4096)
    let hi := min (va + len) ((first + i + 1) * 4096)
    (lo, hi - lo)

/-- R272: faulting address and access kind. -/
def faultDetail (va access : Nat) : Nat := va % 2 ^ 57 + 2 ^ 57 * access

/-- R272: `DETAIL` of a command that an access ends: the codes that carry the faulting address. -/
def failDetail (code va access : Nat) : Nat :=
  if [0x2803, 0x2804, 0x2806, 0x2807].contains code then faultDetail va access else 0

namespace State

def carterEntries (s : State) (port : Nat) : List Entry := if port < 16 then (Table.find? port s.trans.carter).getD [] else []

def dieEntries (s : State) (die : Nat) : List Entry := if die = 0 then s.trans.die0 else s.trans.die1

def setCarterEntries (s : State) (port : Nat) (l : List Entry) : State :=
  if port < 16 then { s with trans := { s.trans with carter := Table.put port (l.take 256) s.trans.carter } } else s

def setDieEntries (s : State) (die : Nat) (l : List Entry) : State :=
  { s with trans := if die = 0 then { s.trans with die0 := l.take 4096 } else { s.trans with die1 := l.take 4096 } }

/-- R242: the entry that serves an access, Carter level first. -/
def entryFor (s : State) (port pasid va access : Nat) : Option Entry :=
  let ok (e : Entry) : Bool := e.covers pasid va && e.serves access
  match (s.carterEntries port).find? ok with
  | some e => some e
  | none => (s.dieEntries (dieOfPort port)).find? ok

/-- R241, R242, R244: one access to one part of a page. -/
def lookupVA (s : State) (port pasid va n access : Nat) : Lookup :=
  if 2 ^ 57 ≤ va then .failed 0x2801
  else match s.entryFor port pasid va access with
    | none => .miss
    | some e =>
      -- an entry at 2^64 stands for the answer that the PASID is unsupported (R248)
      if 2 ^ 64 ≤ e.pa then .failed 0x2802
      else if !e.allows access then .fault
      else
        let pa := e.pa + (va - e.va)
        if isDevice pa n || isHost pa n then .hit pa else .failed 0x2807

/-- An access over a range: the first part that does not hit. -/
def reach (s : State) (port pasid va len access : Nat) : Got :=
  (pieces va len).foldl (fun g p =>
    match g with
    | .ok => match s.lookupVA port pasid p.1 p.2 access with
      | .hit _ => .ok
      | .miss => .miss (p.1 / 4096 * 4096)
      | .fault => .fault p.1
      | .failed c => .failed c p.1
    | g => g) .ok

/-- Least recently used first (R242): the entry that served an access moves to the front of both levels. -/
def touchEntry (s : State) (port pasid va access : Nat) : State :=
  match s.entryFor port pasid va access with
  | none => s
  | some e =>
    let c := s.carterEntries port
    let d := s.dieEntries (dieOfPort port)
    let s1 := if port < 16 then s.setCarterEntries port (e :: c.filter (· != e)) else s
    if d.contains e then s1.setDieEntries (dieOfPort port) (e :: d.filter (· != e)) else s1

def physOf (s : State) (port pasid va n access : Nat) : Option Nat :=
  match s.lookupVA port pasid va n access with
  | .hit pa => some pa
  | _ => none

/-! ### The Barn -/

/-- R231: the set of a line: one of the 2,048 sets (16 MiB of 512-byte lines in 16 ways) of the slice of its stack. -/
def barnSetOf (line : Nat) : Nat := Config.stackOf (512 * line) % 16 * 2048 + Config.barnSet line % 2048

/-- R232: one line of device memory is read, or n bytes of it written, under a hint. With at most 16 lines held, no
set can be over its ways; the index function is Config's. -/
def barnLine (s : State) (line hint : Nat) (write : Bool) (n : Nat := 512) : State :=
  let hit := s.barn.find? fun l => l.line == line
  let s1 := s.bump 0x2700 (if hit.isSome then 0x0C else 0x0D) 1
  let bytes (s : State) : State :=
    if hit.isSome then if write then s else s.bump 0x2E30 0x03 512
    else if write then s else s.bump 0x2E30 0x01 512
  let rest := s1.barn.filter fun l => l.line != line
  if hint = 2 then
    -- written around the Barn: the stack takes the bytes, a cached copy is updated and stays as it is
    if write then s1.bump 0x2E30 0x02 n
    else match hit with
      | some l => bytes { s1 with barn := rest ++ [{ l with stream := true }] }
      | none => bytes s1
  else
    let dirty := write || (match hit with
      | some l => l.dirty
      | none => false)
    let keep := hint == 1 || (match hit with
      | some l => l.keep
      | none => false)
    let new : BarnLine := { line := line, keep := keep, stream := false, dirty := dirty }
    let sameSet (l : BarnLine) : Bool := barnSetOf l.line == barnSetOf line
    -- a victim when the set is full
    let (kept, out) : List BarnLine × Option BarnLine :=
      if rest.length < 16 || (rest.filter sameSet).length < 16 then (rest, none)
      else
        let set := rest.filter sameSet
        let v := match (set.filter fun l => l.stream), (set.filter fun l => !l.keep) with
          | l :: _, _ => l
          | [], ls => (ls.getLast?).getD new
        (rest.filter fun l => l.line != v.line, some v)
    let held := new :: kept
    -- more than 12 keep lines of one set: the least recent one becomes normal
    let keeps := held.filter BarnLine.keep
    let (final, demoted) : List BarnLine × Nat :=
      if keeps.length ≤ 12 || (keeps.filter sameSet).length ≤ 12 then (held, 0)
      else match (keeps.filter sameSet).getLast? with
        | some v => (held.map fun l => if l.line = v.line then { l with keep := false } else l, 1)
        | none => (held, 0)
    let s2 := bytes { s1 with barn := final }
    let s3 := if write then s2.bump 0x2E30 0x04 512 else s2
    let s4 := match out with
      | some v => if v.dirty then s3.bump 0x2E30 0x02 512 else s3
      | none => s3
    s4.bump 0x2700 0x0E demoted

/-- R229: a read request is made of whole 64-byte sectors. -/
def requestBytes (pa n : Nat) (write : Bool) : Nat := if write then n else ((pa + n + 63) / 64 - pa / 64) * 64

/-! ### Tracking entries (R229) -/

def tracks (s : State) (region : Nat) : Nat × Nat := (Table.find? region s.trans.tracking).getD (0, 0)

/-- Entries that the Carter of a region may hold: its floor, and what the others of its die leave of the pool. -/
def trackCap (s : State) (region : Nat) : Nat :=
  let borrowed := (((List.range 8).map fun i => region / 8 * 8 + i).filter (· != region)).map fun r => (s.tracks r).1 - 2048
  2048 + (16384 - borrowed.sum)

/-- n requests of a Carter each take an entry. Which of its earlier ones have ended is free; where too few entries are
left, it waits until there are enough. -/
def track (s : State) (region n : Nat) : State :=
  let (held, made) := s.tracks region
  let left := Config.outstanding region made % (held + 1)
  let s1 : State := { s with trans := { s.trans with
    tracking := Table.put region (min (s.trackCap region) (left + n), made + n) s.trans.tracking } }
  s1.bump 0x2700 0x0F (if s.trackCap region < left + n then 1 + Config.trackingWait region made else 0)

/-- R238, R397: bytes that a Carter moves, for its counters and for the task. -/
def countCarter (s : State) (port pasid pa n : Nat) (write : Bool) : State :=
  let s1 := if port < 16 then s.track port (ceilDiv ((pa + n + 63) / 64 - pa / 64) 8) else s
  (s1.bump 0x2700 (if write then 0x08 else 0x07) n).bumpTask pasid (if write then 10 else 9) n

/-- R231: an access to device memory under a hint passes through the Barn, line by line. -/
def devTouch (s : State) (port pa n hint : Nat) (write : Bool) : State :=
  let lines := (List.range ((pa + n - 1) / 512 + 1 - pa / 512)).map fun i => pa / 512 + i
  let part (l : Nat) : Nat := min (pa + n) (512 * l + 512) - max pa (512 * l)
  let s1 := lines.foldl (fun s l => s.barnLine l hint write (part l)) s
  -- R398: bytes that cross the die-to-die bridge; the die of a stack is Config's
  let far := boolNat (Config.stackOf pa / 8 % 2 != dieOfPort port % 2) * n
  s1.bump 0x2E30 (if (dieOfPort port = 0) = write then 0x09 else 0x0A) far

/-- R231: an access to package memory under a hint: device memory passes through the Barn, host memory
does not. `carter` says that a Carter makes it. -/
def memTouch (s : State) (port pasid pa n0 hint : Nat) (write carter : Bool) : State :=
  let n := requestBytes pa n0 write
  let s1 := if carter then s.countCarter port pasid pa n write else s
  if hostBase ≤ pa then s1.bump 0x2E30 (if write then 0x06 else 0x05) n else s1.devTouch port pa n hint write

/-! ### Reads and writes of task memory, after `reach` has answered -/

/-- Bytes of task memory; a part without a translation reads as zeros. -/
def readVA (s : State) (port pasid va len : Nat) : List Byte :=
  ((pieces va len).map fun p => match s.physOf port pasid p.1 p.2 0 with
    | some pa => s.physRead pa p.2
    | none => List.replicate p.2 0).flatten

/-- Write bytes to task memory, under an access kind; a part without a translation is not written. -/
def writeVA (s : State) (port pasid va access : Nat) (bs : List Byte) : State :=
  (pieces va bs.length).foldl (fun s p => match s.physOf port pasid p.1 p.2 access with
    | some pa => s.physWrite pa ((bs.drop (p.1 - va)).take p.2)
    | none => s) s

/-- Look-aside order and memory counters of an access that hit. -/
def noteVA (s : State) (port pasid va len access hint : Nat) (carter : Bool) : State :=
  (pieces va len).foldl (fun s p => match s.physOf port pasid p.1 p.2 access with
    | some pa =>
      let s1 := s.touchEntry port pasid p.1 access
      let s2 := if access = 1 then s1 else s1.memTouch port pasid pa p.2 hint false carter
      if access = 0 then s2 else s2.memTouch port pasid pa p.2 hint true carter
    | none => s) s

/-- R364: does a read meet a location marked uncorrectable? -/
def poisonAt (s : State) (port pasid va len : Nat) : Option Nat :=
  (pieces va len).findSome? fun p => match s.physOf port pasid p.1 p.2 0 with
    | some pa => (s.poisoned.find? fun l => meets (l * 512) 512 pa p.2).map fun l => l * 512
    | none => none

/-- R353: an output that is undefined: every byte that can be reached is free. -/
def scramble (s : State) (port pasid va len : Nat) : State :=
  let (f, s1) := s.draw
  (pieces va len).foldl (fun s p => match s.physOf port pasid p.1 p.2 1 with
    | some pa => s.physWrite pa ((List.range p.2).map fun i => Config.freeByte f (p.1 - va + i))
    | none => s) s1

/-! ### Requests, faults and parking -/

/-- R242, R254: an access that misses both levels sends a translation request, and is counted. `who` names what waits;
while its request is out, the same access stands and sends no other (log entry 63). -/
def askTranslation (s : State) (port pasid va access : Nat) (who : Nat × Nat × Nat) : State :=
  let r : TransReq := { die := dieOfPort port, region := port, pasid := pasid, va := va, access := access, who := who }
  if s.trans.requests.any fun x =>
    x.region == port && x.pasid == pasid && x.va == va && x.access == access && x.who == who then s
  else (({ s with trans := { s.trans with requests := s.trans.requests ++ [r] } }.bump 0x2800 0x08 1).bump 0x2800 0x09 1).send
    (.translationRequest r.die pasid va access)

/-- R280: bytes of the state area. -/
def areaBytes (k : Queue) : Nat := 4096 + k.clusters * ((k.floor + k.borrow) * 8192 + 546 * 1024)

/-- R257: base of a queue's state area. -/
def areaBase (k : Queue) : Nat := bits k.image 255 204 * 4096

/-- An issued GEMM, ATTEND or CHAIN2 that has not finished: it may have live accumulator tiles. -/
def liveTiles (c : Cmd) : Bool :=
  let cls := field c.recs.desc 0 0 % 16
  1 ≤ cls && cls ≤ 3 && c.wait != .done && !c.refused && !c.unchecked

/-- R249: the live tiles of a queue's commands are written as spill images to its state area. How many are live when its
units reach a tile boundary is free, and the area's layout is the firmware's (log entry 129). -/
def saveTiles (s : State) (q : Nat) (k : Queue) : State :=
  if !s.cmds.any fun c => c.q == q && liveTiles c then s
  else
    let (f, s0) := s.draw
    let n := Config.freeCount f % (32 * k.clusters + 1)
    ((s0.scramble k.region k.pasid (areaBase k) (areaBytes k)).bump 0x2200 0x07 n).onQueue q fun k => { k with images := n }

/-- R249: park every queue of a PASID: its live tiles are saved, and the episode is counted, once (R248). -/
def park (s : State) (pasid : Nat) : State :=
  let mine := s.queues.filter fun q => q.2.pasid == pasid
  let s1 : State := { s with queues := s.queues.map fun q => if q.2.pasid == pasid then (q.1, { q.2 with parked := true }) else q }
  if mine.any fun q => q.2.parked then s1 else mine.foldl (fun s q => s.saveTiles q.1 q.2) (s1.bump 0x2800 0x0B 1)

/-- Page requests of a die that hold a place: all, and those of one PASID (R247). -/
def pagesHeld (s : State) (die : Nat) : List PageReq := s.trans.pages.filter fun p => p.die == die && !p.queued

def pageRoom (s : State) (die pasid : Nat) : Bool :=
  (s.pagesHeld die).length < 256 && ((s.pagesHeld die).filter fun p => p.pasid == pasid).length < 32

/-- R243, R247: bytes of the page that holds an address, as its completion reported it: a range is one page, or a run of
up to 16. A page reported not present is taken as 4 KiB (DEDUCED, log entry 165). -/
def pageBytes (s : State) (port pasid va access : Nat) : Nat :=
  match s.entryFor port pasid va access with
  | some e => if e.bytes < 2 ^ 21 then 4096 else if e.bytes < 2 ^ 30 then 2 ^ 21 else 2 ^ 30
  | none => 4096

end State

/-- Does an address lie in the page of a page request? -/
def PageReq.holds (p : PageReq) (pasid va : Nat) : Bool :=
  p.pasid == pasid && (p.page == va / 4096 || p.page * 4096 / p.bytes == va / p.bytes)

/-- R247: is a fault on a page of n bytes one on the page of this request? The larger of the two pages counts. -/
def PageReq.joins (p : PageReq) (pasid va n : Nat) : Bool := { p with bytes := max n p.bytes }.holds pasid va

namespace State

/-- R247: an access faults: one page request per PASID and page, held by the die that met it first; the
task is parked. -/
def pageFault (s : State) (port pasid va access : Nat) : State :=
  let n := s.pageBytes port pasid va access
  let die := dieOfPort port
  let s1 := s.park pasid
  match s1.trans.pages.find? fun p => p.joins pasid va n with
  | some x => { s1 with trans := { s1.trans with pages := s1.trans.pages.map fun p =>
      if p == x then { p with rights := p.rights ||| rightsOf access, bytes := max n p.bytes } else p } }
  | none =>
    let room := s1.pageRoom die pasid
    let page := va / 4096
    let p : PageReq := { die := die, pasid := pasid, page := page, rights := rightsOf access, bytes := n, queued := !room }
    let s2 : State := { s1 with trans := { s1.trans with pages := s1.trans.pages ++ [p] } }
    if room then (s2.bump 0x2800 0x0A 1).send (.pageRequest die pasid page p.rights) else s2

/-- R247: waiting faults take free places, in order. -/
def pumpPages (s : State) : State :=
  s.trans.pages.foldl (fun s p =>
    if p.queued && s.pageRoom p.die p.pasid then
      let freed : List PageReq := s.trans.pages.map fun (x : PageReq) =>
        if x.pasid == p.pasid && x.page == p.page then { x with queued := false } else x
      let s1 : State := { s with trans := { s.trans with pages := freed } }
      (s1.bump 0x2800 0x0A 1).send (.pageRequest p.die p.pasid p.page p.rights)
    else s) s

/-- R245: remove the entries of a PASID that overlap a range, in every Carter and both dies. -/
def dropEntries (s : State) (pasid va bytes : Nat) : State :=
  let keep (e : Entry) : Bool := !(e.pasid == pasid && meets e.va e.bytes va bytes)
  { s with trans := { s.trans with
      carter := s.trans.carter.map fun c => (c.1, c.2.filter keep),
      die0 := s.trans.die0.filter keep, die1 := s.trans.die1.filter keep,
      requests := s.trans.requests.map fun r =>
        if r.pasid == pasid && meets r.va 4096 va bytes then { r with discard := true } else r } }

end State
end Sys2Proof.Machine
end

