-- ==== Sys2Proof/Machine/Granary.lean ====
section
/-! DEFINITION. Machine/Granary.lean: sequences, sheaves, eviction and the bytes that readers and
writers of a sequence move (08_granary.md). -/
namespace Sys2Proof.Machine

/-! ### Geometry (R173–R176) -/

/-- Plane bytes of one head and 64 tokens. -/
def planeBytes (f : Fmt) (dim : Nat) : Nat := 8 * dim * f.width

/-- w_S of R173. -/
def scaleBytes (t : OpType) : Nat := if t.grain = 0 then 0 else if t.scaleFp32 then 4 else 1

/-- H of R173. -/
def headsPerSheaf (kT vT dimCode heads : Nat) : Nat :=
  let k := OpType.ofWord kT
  let v := OpType.ofWord vT
  let d := headDim dimCode
  min heads (65536 / (planeBytes k.fmt d + planeBytes v.fmt d + 64 * scaleBytes k))

namespace Sequence

def k (q : Sequence) : OpType := OpType.ofWord q.kType
def v (q : Sequence) : OpType := OpType.ofWord q.vType
def d (q : Sequence) : Nat := headDim q.dim
def pk (q : Sequence) : Nat := planeBytes q.k.fmt q.d
def pv (q : Sequence) : Nat := planeBytes q.v.fmt q.d
def ws (q : Sequence) : Nat := scaleBytes q.k
/-- G, head groups. -/
def groups (q : Sequence) : Nat := ceilDiv q.heads q.perSheaf
/-- B, blocks of one stripe. -/
def blocks (q : Sequence) : Nat := ceilDiv q.capacity 64
def tallyCount (q : Sequence) : Nat := ceilDiv (q.layers * q.groups * q.blocks) 16384
def dirCount (q : Sequence) : Nat := ceilDiv q.tallyCount 16384
/-- Bytes of one token over all heads. -/
def kRow (q : Sequence) : Nat := q.heads * q.pk / 64
def vRow (q : Sequence) : Nat := q.heads * q.pv / 64
def length (q : Sequence) (layer : Nat) : Nat := (Table.find? layer q.lengths).getD 0
/-- Index of the tally entry of a block (R176). -/
def entry (q : Sequence) (layer group block : Nat) : Nat := (layer * q.groups + group) * q.blocks + block
def held (q : Sequence) : Nat := q.tally.length + q.tallySheaves.length + q.dirSheaves.length
/-- Rows of one tile of a Loft gather of `n` heads (R189). -/
def tileRows (q : Sequence) (n : Nat) : Nat := n * (q.pk + q.pv) / 512 + ceilDiv (64 * n * q.ws) 512

end Sequence

/-- R175, R195 (0x250A): is a geometry refused? -/
def geometryBad (kT vT dimCode heads layers capacity : Nat) : Bool :=
  let k := OpType.ofWord kT
  let v := OpType.ofWord vT
  let h := headsPerSheaf kT vT dimCode heads
  3 < dimCode || 255 < heads || 240 < layers || capacity == 0 || 2 ^ 24 < capacity ||
  !qkFmt k.fmt || !(k.grain == 0 || (k.grain == 2 && scalable k.fmt)) ||
  !(v.fmt.isLns || converterAccepts v.fmt) || v.grain != 0 || h == 0 || 4096 < layers * ceilDiv heads h

/-- R173, R189: the code bytes of `n` elements of +0. -/
def zeroBytesOf (f : Fmt) (n : Nat) : List Byte := packRow f (List.replicate n (zeroCode f false))

/-- R178: the 1,024-byte context record. -/
def Sequence.record (q : Sequence) (id : Nat) : List Byte :=
  let dir (i : Nat) : Nat := q.dirSheaves.getD i 0xFFFFFFFF
  let lo := id + 2 ^ 16 * q.state + 2 ^ 18 * boolNat q.evictable + 2 ^ 19 * q.priority + 2 ^ 21 * q.hint + 2 ^ 32 * q.pasid +
    2 ^ 64 * q.kType + 2 ^ 80 * q.vType + 2 ^ 96 * q.dim + 2 ^ 104 * q.heads + 2 ^ 112 * q.perSheaf +
    2 ^ 120 * q.layers + 2 ^ 128 * q.capacity + 2 ^ 160 * q.readers + 2 ^ 192 * (q.generation % 2 ^ 32) +
    2 ^ 224 * q.held + 2 ^ 256 * (q.lastRead % 2 ^ 64) +
    2 ^ 320 * dir 0 + 2 ^ 352 * dir 1 + 2 ^ 384 * dir 2 + 2 ^ 416 * dir 3
  leBytes 64 lo ++ ((List.range 240).map fun l => leBytes 4 (q.length l)).flatten

/-- Write a byte string into a table keyed by address. -/
def cellsPut (m : List Host.Cell) (a : Nat) (bs : List Byte) : List Host.Cell :=
  (m.filter fun c => c.1 < a) ++ (bs.zipIdx.map fun b => (a + b.2, b.1)) ++ m.filter fun c => a + bs.length ≤ c.1

namespace State

def seq? (s : State) (id : Nat) : Option Sequence := Table.find? id s.granary.seqs

/-- R188: walkers drop every held entry of a sequence. -/
def unheld (id : Nat) (w : Table (List HeldEntry)) : Table (List HeldEntry) := w.map fun e => (e.1, e.2.filter fun h => h.seq != id)

/-- A sequence's record changes; where `GENERATION` is another one now, walkers drop what they hold of it (R188). -/
def setSeq (s : State) (id : Nat) (q : Sequence) : State :=
  { s with granary := { s.granary with
      seqs := Table.put id q s.granary.seqs,
      walkers := if (s.seq? id).map Sequence.generation == some q.generation then s.granary.walkers else unheld id s.granary.walkers } }

def bumpGen (q : Sequence) : Sequence := { q with generation := q.generation + 1 }

/-! ### Sheaves -/

def sheafUsed (s : State) (i : Nat) : Bool := (Table.find? i s.granary.sheaves).isSome || s.granary.withdrawn.contains i

/-- Sheaves on the free list: those held as staging have left it (R275). -/
def freeSheaves (s : State) : Nat :=
  s.granary.pool - s.granary.sheaves.length -
    (s.granary.withdrawn.filter fun i => (Table.find? i s.granary.sheaves).isNone).length - s.granary.staged

/-- The first n unused sheaves from a number on. -/
def unusedFrom (s : State) (i n : Nat) : List Nat :=
  (((List.range (min (s.granary.pool - i) (s.granary.sheaves.length + s.granary.withdrawn.length + n))).map (i + ·)).filter
    fun j => !s.sheafUsed j).take n

/-- The first n sheaves of the free list (R179). DESIGN CHOICE: at reset it runs in ascending order, and a sheaf that
comes back goes to its head (log entry 153). Which sheaf serves a block changes no result (R180). -/
def pickSheaves (s : State) (n : Nat) : List Nat :=
  (s.granary.freed.filter (fun i => !s.sheafUsed i) ++ s.unusedFrom s.granary.fresh n).take n

/-- R179: `NEXT_FREE` of a sheaf: the next one of the free list where it is free. -/
def nextFree (s : State) (i : Nat) : Nat :=
  if s.sheafUsed i then 0xFFFFFFFF
  else match s.granary.freed.contains i, ((s.granary.freed.dropWhile (· != i)).drop 1).find? fun j => !s.sheafUsed j with
    | true, some j => j
    | true, none => (s.unusedFrom s.granary.fresh 1).headD 0xFFFFFFFF
    | false, _ => (s.unusedFrom (i + 1) 1).headD 0xFFFFFFFF

/-- R179: the 16-byte metadata record of a sheaf. -/
def sheafRecord (s : State) (i : Nat) : List Byte :=
  let h : Sheaf := (Table.find? i s.granary.sheaves).getD { refs := 0, kind := 0 }
  leBytes 16 (h.refs + 2 ^ 24 * h.kind + 2 ^ 32 * s.nextFree i + 2 ^ 64 * h.pasid)

/-- A sheaf leaves the free list, named by `refs` tables. -/
def takeSheaf (s : State) (i refs kind pasid : Nat) : State :=
  { s with granary := { s.granary with
      freed := s.granary.freed.filter (· != i),
      fresh := if s.granary.freed.contains i then s.granary.fresh else max s.granary.fresh (i + 1),
      sheaves := Table.put i { refs := refs, kind := kind, pasid := pasid } s.granary.sheaves,
      data := s.granary.data.filter fun c => !(i * 65536 ≤ c.1 && c.1 < (i + 1) * 65536) } }

def takeSheaves (s : State) (is : List Nat) (refs kind pasid : Nat) : State :=
  is.foldl (fun s i => s.takeSheaf i refs kind pasid) s

/-- One reference less; at 0 the sheaf returns to the free list, unless it is withdrawn (R364). Answers whether it was
released. -/
def dropRef (s : State) (i : Nat) : State × Nat :=
  match Table.find? i s.granary.sheaves with
  | none => (s, 0)
  | some h =>
    if h.refs ≤ 1 then
      ({ s with granary := { s.granary with
          sheaves := Table.drop i s.granary.sheaves,
          freed := if s.granary.withdrawn.contains i then s.granary.freed else i :: s.granary.freed } }, 1)
    else ({ s with granary := { s.granary with sheaves := Table.put i { h with refs := h.refs - 1 } s.granary.sheaves } }, 0)

def dropRefs (s : State) (is : List Nat) : State × Nat :=
  is.foldl (fun (a : State × Nat) i =>
    let (s', n) := a.1.dropRef i
    (s', a.2 + n)) (s, 0)

def addRef (s : State) (i : Nat) : State :=
  match Table.find? i s.granary.sheaves with
  | none => s
  | some h => { s with granary := { s.granary with sheaves := Table.put i { h with refs := h.refs + 1 } s.granary.sheaves } }

def sheafRefs (s : State) (i : Nat) : Nat := match Table.find? i s.granary.sheaves with
  | some h => h.refs
  | none => 0

/-- Bytes of a data sheaf; those never written are free. -/
def sheafBytes (s : State) (i off n : Nat) : List Byte :=
  let part := s.granary.data.filter fun c => i * 65536 + off ≤ c.1 && c.1 < i * 65536 + off + n
  (List.range n).map fun j =>
    (Table.find? (i * 65536 + off + j) part).getD (Config.freeByte 0 (i * 65536 + off + j))

/-- Where in device memory a byte of a sheaf lies (R180). -/
def sheafAddress (i off : Nat) : Nat := Config.poolBase + i * 65536 + off

def setSheafBytes (s : State) (i off : Nat) (bs : List Byte) : State :=
  let a := sheafAddress i off
  { s with
    granary := { s.granary with data := cellsPut s.granary.data (i * 65536 + off) bs },
    poisoned := s.poisoned.filter fun l => !(a ≤ l * 512 && l * 512 + 512 ≤ a + bs.length) }

/-- Copy-on-append: the whole sheaf, as written so far (R185). -/
def copySheaf (s : State) (src dst : Nat) : State :=
  let cells := (s.granary.data.filter fun c => src * 65536 ≤ c.1 && c.1 < (src + 1) * 65536).map
    fun c => (c.1 - src * 65536 + dst * 65536, c.2)
  { s with granary := { s.granary with
      data := (s.granary.data.filter fun c => c.1 < dst * 65536) ++ cells ++
        s.granary.data.filter fun c => (dst + 1) * 65536 ≤ c.1 } }

/-! ### Eviction (R187) -/

/-- R187: is a writer of a sequence pending? One is until its completion commits (R184). -/
def writerOn (s : State) (id : Nat) : Bool := s.cmds.any fun c => c.writer && !c.refused && c.seqs.contains id

/-- Sequences that may be evicted, in order. -/
def evictable (s : State) : List (Nat × Sequence) :=
  (s.granary.seqs.filter fun e => e.2.evictable && e.2.state == 1 && e.2.readers == 0 && !s.writerOn e.1).mergeSort
    fun a b => a.2.priority < b.2.priority || (a.2.priority == b.2.priority &&
      (a.2.lastRead < b.2.lastRead || (a.2.lastRead == b.2.lastRead && a.1 ≤ b.1)))

def evict (s : State) (id : Nat) (q : Sequence) : State :=
  let (s1, _) := s.dropRefs (q.tally.map Prod.snd ++ q.tallySheaves ++ q.dirSheaves)
  (s1.setSeq id (bumpGen { q with state := 3, tally := [], tallySheaves := [], dirSheaves := [] })).bump 0x2500 0x08 1

/-- Evict until the free list holds `need`; answers how many sequences went. -/
def evictFor (s : State) (need : Nat) : State × Nat :=
  s.evictable.foldl (fun (a : State × Nat) e =>
    if need ≤ a.1.freeSheaves then a else (a.1.evict e.1 e.2, a.2 + 1)) (s, 0)

/-! ### Reading -/

/-- The element bytes of one token and head: K, V and K scale; +0 at or beyond the sampled length (R190). -/
def token (s : State) (q : Sequence) (layer head pos len : Nat) : List Byte × List Byte × List Byte :=
  if len ≤ pos then
    (zeroBytesOf q.k.fmt q.d, zeroBytesOf q.v.fmt q.d, List.replicate q.ws 0)
  else
    let g := head / q.perSheaf
    let j := head % q.perSheaf
    let i := pos % 64
    let h := q.perSheaf
    match Table.find? (q.entry layer g (pos / 64)) q.tally with
    | none => (zeroBytesOf q.k.fmt q.d, zeroBytesOf q.v.fmt q.d, List.replicate q.ws 0)
    | some sh =>
      (s.sheafBytes sh (j * q.pk + i * (q.pk / 64)) (q.pk / 64),
       s.sheafBytes sh (h * q.pk + j * q.pv + i * (q.pv / 64)) (q.pv / 64),
       s.sheafBytes sh (h * (q.pk + q.pv) + j * 64 * q.ws + i * q.ws) q.ws)

/-- R189: the Loft rows of a tile of 64 tokens, for heads `h0 … h0 + n − 1`; positions from `stop` on are +0. -/
def tileOf (s : State) (q : Sequence) (layer h0 n pos0 len : Nat) : List (List Byte) :=
  let toks := (List.range n).map fun h => (List.range 64).map fun i => s.token q layer (h0 + h) (pos0 + i) len
  let ks := (toks.map fun hs => (hs.map fun t => t.1).flatten).flatten
  let vs := (toks.map fun hs => (hs.map fun t => t.2.1).flatten).flatten
  let sc := (toks.map fun hs => (hs.map fun t => t.2.2).flatten).flatten
  let rows (bs : List Byte) : List (List Byte) := (List.range (ceilDiv bs.length 512)).map fun r => slice bs (512 * r) 512
  rows (ks ++ vs) ++ rows sc

/-! ### Walkers, and what passes the Barn (R186, R188, R231) -/

/-- Bytes of n tokens of one head in a sheaf, from position i of its block: offset and length in each plane. -/
def planeRanges (q : Sequence) (head i n : Nat) : List (Nat × Nat) :=
  let j := head % q.perSheaf
  let h := q.perSheaf
  [(j * q.pk + i * (q.pk / 64), n * (q.pk / 64)), (h * q.pk + j * q.pv + i * (q.pv / 64), n * (q.pv / 64)),
   (h * (q.pk + q.pv) + j * 64 * q.ws + i * q.ws, n * q.ws)].filter fun r => r.2 != 0

end State

/-- A delivery of tokens of one head out of one block: sequence, layer, head, first position, count (R188). -/
structure KvRead where
  seq : Nat
  layer : Nat
  head : Nat
  pos : Nat
  n : Nat
  deriving DecidableEq, Repr

namespace State

/-- The sheaf of a delivery, and the bytes that are read of it. -/
def kvRanges (s : State) (r : KvRead) : List (Nat × Nat × Nat) :=
  match s.seq? r.seq with
  | none => []
  | some q => match Table.find? (q.entry r.layer (r.head / q.perSheaf) (r.pos / 64)) q.tally with
    | none => []
    | some sh => (planeRanges q r.head (r.pos % 64) r.n).map fun x => (sh, x.1, x.2)

/-- R364: the first line marked uncorrectable that deliveries meet. -/
def kvLost (s : State) (rs : List KvRead) : Option Nat :=
  rs.findSome? fun r => (s.kvRanges r).findSome? fun x =>
    (s.poisoned.find? fun l => meets (l * 512) 512 (sheafAddress x.1 x.2.1) x.2.2).map fun l => l * 512

/-- An access to sheaf bytes passes the Barn (R231). -/
def sheafTouch (s : State) (region pasid sheaf off n hint : Nat) (write carter : Bool) : State :=
  let pa := sheafAddress sheaf off
  let m := requestBytes pa n write
  (if carter then s.countCarter region pasid pa m write else s).devTouch region pa m hint write

/-- R188: a region's walker resolves a tally entry: one that it does not hold is read from memory under the hint of the
sequence, and the 1,024 most recent stay held. -/
def walk (s : State) (region id index : Nat) : State :=
  match s.seq? id with
  | none => s
  | some q =>
    let held := (Table.find? region s.granary.walkers).getD []
    let rest := held.filter fun h => !(h.seq == id && h.index == index)
    let s1 := if rest.length < held.length then s
      else (match q.tallySheaves[index / 16384]? with
        | some sh => s.sheafTouch region q.pasid sh (4 * (index % 16384)) 4 q.hint false false
        | none => s).bump 0x2500 0x0A 1
    let new : HeldEntry := { seq := id, index := index, sheaf := Table.find? index q.tally }
    { s1 with granary := { s1.granary with walkers := Table.put region ((new :: rest).take 1024) s1.granary.walkers } }

/-- R186, R188: deliveries to a command of a region: the walker resolves each block, and the Carter reads the planes with
the sequence's hint. -/
def deliverKv (s : State) (region pasid : Nat) (rs : List KvRead) : State :=
  rs.foldl (fun s r => match s.seq? r.seq with
    | none => s
    | some q =>
      (s.kvRanges r).foldl (fun s x => s.sheafTouch region pasid x.1 x.2.1 x.2.2 q.hint false true)
        (s.walk region r.seq (q.entry r.layer (r.head / q.perSheaf) (r.pos / 64)))) s

/-- The deliveries of n tokens of heads `h0 … h0 + hs − 1` from a position on, up to the sampled length (R190), block by
block. -/
def kvReads (id layer h0 hs first n len : Nat) : List KvRead :=
  let stop := min len (first + n)
  ((List.range (ceilDiv stop 64 - first / 64)).map fun b =>
    let p := max first (64 * (first / 64 + b))
    (List.range hs).map fun h =>
      ({ seq := id, layer := layer, head := h0 + h, pos := p, n := min stop (64 * (first / 64 + b + 1)) - p } : KvRead)).flatten

/-! ### Writing (R183–R185) -/

/-- The tally entries that a write of tokens AT … AT + n − 1 of a layer needs a sheaf for, with the
decision of R185 taken now. -/
def appendNeeds (s : State) (q : Sequence) (layer atPos n : Nat) : List Nat :=
  ((List.range q.groups).map fun g =>
    (List.range ((atPos + n - 1) / 64 + 1 - atPos / 64)).filterMap fun b =>
      let e := q.entry layer g (atPos / 64 + b)
      match Table.find? e q.tally with
      | none => some e
      | some sh => if s.sheafRefs sh ≤ 1 then none else some e).flatten

/-- R185: the sheaf that one block is written into: the reserved one, or the block's own. -/
def blockSheaf (q : Sequence) (reserved : List (Nat × Nat)) (e : Nat) : Option Nat :=
  match reserved.find? fun r => r.1 == e with
  | some r => some r.2
  | none => Table.find? e q.tally

/-- R231: what an append moves in device memory: the copies of R185 at the memory, then the bytes of its tokens. -/
def touchAppend (s : State) (q : Sequence) (region pasid : Nat) (reserved : List (Nat × Nat)) (layer atPos n : Nat) : State :=
  let copied := reserved.filterMap fun r => (Table.find? r.1 q.tally).map fun old => (old, r.2)
  let s1 := copied.foldl (fun s c =>
    (s.sheafTouch region pasid c.1 0 65536 q.hint false false).sheafTouch region pasid c.2 0 65536 0 true false) s
  (kvReads 0 layer 0 q.heads atPos n (atPos + n)).foldl (fun s r =>
    match blockSheaf q reserved (q.entry layer (r.head / q.perSheaf) (r.pos / 64)) with
    | none => s
    | some sh => (planeRanges q r.head (r.pos % 64) r.n).foldl (fun s x => s.sheafTouch region pasid sh x.1 x.2 0 true true) s) s1

/-- R185: before the writes, shared blocks are copied into their reserved sheaves. Answers the copies. -/
def copyBlocks (s : State) (q : Sequence) (reserved : List (Nat × Nat)) : State × Nat :=
  reserved.foldl (fun (a : State × Nat) r => match Table.find? r.1 q.tally with
    | some old => (a.1.copySheaf old r.2, a.2 + 1)
    | none => a) (s, 0)

/-- R183: write the tokens of one head. `kb`, `vb`, `sb` give the bytes of a token and head. -/
def writeTokens (s : State) (q : Sequence) (reserved : List (Nat × Nat)) (layer atPos n : Nat)
    (bytesOf : Nat → Nat → List Byte × List Byte × List Byte) : State :=
  (List.range n).foldl (fun s t =>
    (List.range q.heads).foldl (fun s h =>
      let g := h / q.perSheaf
      let j := h % q.perSheaf
      let pos := atPos + t
      let i := pos % 64
      match blockSheaf q reserved (q.entry layer g (pos / 64)) with
      | none => s
      | some sh =>
        let (k, v, sc) := bytesOf t h
        let s1 := s.setSheafBytes sh (j * q.pk + i * (q.pk / 64)) k
        let s2 := s1.setSheafBytes sh (q.perSheaf * q.pk + j * q.pv + i * (q.pv / 64)) v
        s2.setSheafBytes sh (q.perSheaf * (q.pk + q.pv) + j * 64 * q.ws + i * q.ws) sc) s) s

/-- R184, R185: commit: entries move to the reserved sheaves, one reference leaves each old sheaf, the
length and `GENERATION` change in one step. -/
def commitAppend (s : State) (id : Nat) (reserved : List (Nat × Nat)) (layer newLen : Nat) : State :=
  match s.seq? id with
  | none => s
  | some q =>
    let (s1, _) := s.dropRefs (reserved.filterMap fun r => Table.find? r.1 q.tally)
    let tally := reserved.foldl (fun t r => Table.put r.1 r.2 t) q.tally
    let s2 := reserved.foldl (fun s r => s.addRef r.2) s1
    s2.setSeq id (bumpGen { q with tally := tally, lengths := Table.put layer newLen q.lengths })

/-- R364: tally sheaves of a sequence that cannot be read: their own contents, or the directory that
names them. -/
def lostTally (q : Sequence) : List Nat :=
  (List.range q.tallySheaves.length).filter fun i => q.badTally.contains i || q.badDir.contains (i / 16384)

/-- References of a sequence's every sheaf dropped, and its record freed (R182). Sheaves that are named
only through something unreadable, and the unreadable ones themselves, are withdrawn (R364). -/
def releaseSeq (s : State) (id : Nat) (q : Sequence) : State × Nat :=
  let lost := lostTally q
  let isLost (e : Nat × Nat) : Bool := lost.contains (e.1 / 16384)
  let named := (q.tally.filter fun e => !isLost e).map Prod.snd
  let goneData := ((q.tally.filter isLost).map Prod.snd).filter fun i => !named.contains i
  let pick (l : List Nat) (bad : Nat → Bool) : List Nat := (l.zipIdx.filter fun x => bad x.2).map Prod.fst
  let goneMeta := pick q.tallySheaves lost.contains ++ pick q.dirSheaves q.badDir.contains
  let goodMeta := pick q.tallySheaves (fun i => !lost.contains i) ++ pick q.dirSheaves (fun i => !q.badDir.contains i)
  let (s1, n) := s.dropRefs (named ++ goodMeta)
  ({ s1 with granary := { s1.granary with
      seqs := Table.drop id s1.granary.seqs, walkers := unheld id s1.granary.walkers, withdrawn := s1.granary.withdrawn ++ goneData ++ goneMeta } }, n)

/-- R176, R182: a new sequence with its tally and directory sheaves; none where the pool is short after
eviction (0x2507) — the evictions stand. -/
def newSeq (s : State) (q : Sequence) : State × Nat × Option Nat :=
  let need := q.tallyCount + q.dirCount
  let (s1, ev) := s.evictFor need
  if s1.freeSheaves < need then (s1, ev, none)
  else
    let ids := s1.pickSheaves need
    let t := ids.take q.tallyCount
    let d := ids.drop q.tallyCount
    match (List.range 65536).find? fun i => (Table.find? i s1.granary.seqs).isNone with
    | none => (s1, ev, none)
    | some id =>
      let s2 := (s1.takeSheaves t 1 2 q.pasid).takeSheaves d 1 3 q.pasid
      (s2.setSeq id { q with tallySheaves := t, dirSheaves := d }, ev, some id)

/-- Shorten one layer to n: references of blocks from ⌈n/64⌉ on are dropped (R182). -/
def truncateLayer (s : State) (id layer n : Nat) : State × Nat :=
  match s.seq? id with
  | none => (s, 0)
  | some q =>
    if q.length layer ≤ n then (s, 0)
    else
      let gone := q.tally.filter fun e => e.1 / q.blocks / q.groups == layer && ceilDiv n 64 ≤ e.1 % q.blocks
      let (s1, k) := s.dropRefs (gone.map Prod.snd)
      (s1.setSeq id { q with
        tally := q.tally.filter fun e => !(gone.any fun g => g.1 == e.1), lengths := Table.put layer n q.lengths }, k)

/-! ### Readers (R192) -/

def beginRead (s : State) (id die : Nat) : State :=
  match s.seq? id with
  | none => s
  | some q => s.setSeq id { q with readers := q.readers + 1, lastRead := s.reel die }

def endRead (s : State) (id : Nat) : State :=
  match s.seq? id with
  | none => s
  | some q => s.setSeq id { q with readers := q.readers - 1 }

end State
end Sys2Proof.Machine
end

