-- ==== Sys2Proof/Machine/UnitMaps.lean ====
section
/-! DEFINITION. Machine/UnitMaps.lean: which physical units are serviceable, which host the logical slots,
and what the dictionary reports of it (01_hierarchy.md, R9, R12–R15, R18, R19). -/
namespace Sys2Proof.Machine

/-- A locator without its package. -/
def bareLoc (l : Nat) : Nat := l / 2 ^ 31 * 2 ^ 31 + l % 2 ^ 25

def samePlace (a b : Nat) : Bool := bareLoc a == bareLoc b

/-- Physical locator of a unit of a region 0–15, without package. -/
def unitLoc (region cluster kind index sub : Nat) : Nat := mkLoc true 0 (region / 8) (region % 8) cluster kind index sub

/-- Key of a physical cluster. -/
def clusterKey (region cluster : Nat) : Nat := region * 32 + cluster

namespace State

/-- Locators that either spare map lists, and units retired while the field map was full (R18). -/
def listedLocs (s : State) : List Nat := s.fuses.spare ++ s.integ.field ++ s.integ.unrecorded

/-- R15: a unit, a part or a container is listed itself or lies in a listed unit or container. -/
def listed (s : State) (l : Nat) : Bool :=
  s.listedLocs.any fun x => samePlace x l || samePlace x (containerAt 1 l) || (locKind x == 0 && locHolds (bareLoc x) (bareLoc l))

def serviceable (s : State) (region cluster kind index sub : Nat) : Bool := !s.listed (unitLoc region cluster kind index sub)

def threshersOk (s : State) (r c : Nat) : List Nat := (List.range 5).filter fun i => s.serviceable r c 1 i 0xFF
def gleanersOk (s : State) (r c : Nat) : List Nat := (List.range 3).filter fun i => s.serviceable r c 2 i 0xFF
def millOk (s : State) (r c : Nat) : Bool := s.serviceable r c 3 0 0xFF
def banksOk (s : State) (r c : Nat) : List Nat := (List.range 17).filter fun i => s.serviceable r c 4 0 i

/-- R15: a physical cluster that is not retired. -/
def clusterOk (s : State) (r c : Nat) : Bool :=
  s.serviceable r c 0 0 0xFF && 3 ≤ (s.threshersOk r c).length && 1 ≤ (s.gleanersOk r c).length && s.millOk r c &&
    16 ≤ (s.banksOk r c).length

def clustersOk (s : State) (r : Nat) : List Nat := (List.range 18).filter (s.clusterOk r)

/-- R15: a region that is not retired. -/
def regionOk (s : State) (r : Nat) : Bool :=
  s.serviceable r 0x1E 0 0 0xFF && s.serviceable r 0x1E 5 0 0xFF && s.serviceable r 0x1E 6 0 0xFF &&
    s.serviceable r 0x1E 7 0 0xFF && 12 ≤ (s.clustersOk r).length

/-- Out of service by quarantine, or inside a quarantined container (R367). -/
def quarantinedAt (s : State) (l : Nat) : Bool :=
  s.integ.quarantined.any fun x => samePlace x l || (locKind x == 0 && locHolds (bareLoc x) (bareLoc l))

/-- Units of a kind in a cluster that can take part in the rotation. -/
def rotationUnits (s : State) (r c : Nat) (gleaners : Bool) : List Nat :=
  (if gleaners then s.gleanersOk r c else s.threshersOk r c).filter fun i =>
    !s.quarantinedAt (unitLoc r c (if gleaners then 2 else 1) i 0xFF)

/-- R14, R359: the rotation of a kind is stopped: no unit beyond the slots is left. -/
def rotationStopped (s : State) (r c : Nat) (gleaners : Bool) : Bool :=
  (s.rotationUnits r c gleaners).length < (if gleaners then 3 else 5)

/-- R12: logical to physical clusters in ascending order. -/
def freshMap (s : State) (r : Nat) : List (Option Nat) :=
  let ok := if s.regionOk r then s.clustersOk r else []
  (List.range 16).map fun i => ok[i]?

def mapOf (s : State) (r : Nat) : List (Option Nat) := (Table.find? r s.integ.maps).getD ((List.range 16).map some)

def setMap (s : State) (r : Nat) (m : List (Option Nat)) : State := { s with integ := { s.integ with maps := Table.put r m s.integ.maps } }

/-- R12, R198: hosts of a physical cluster's slots in ascending order, the highest serviceable unit on sabbatical or
spare. -/
def freshHosts (s : State) (r c : Nat) : ClusterHosts :=
  let t := s.threshersOk r c
  let g := s.gleanersOk r c
  let b := s.banksOk r c
  { threshers := (List.range 4).map fun i => t[i]?, gleaners := (List.range 2).map fun i => g[i]?,
    banks := (List.range 16).map fun i => b[i]? }

def hostsOf (s : State) (r c : Nat) : ClusterHosts := (Table.find? (clusterKey r c) s.integ.hosts).getD {}

def setHosts (s : State) (r c : Nat) (h : ClusterHosts) : State :=
  { s with integ := { s.integ with hosts := Table.put (clusterKey r c) h s.integ.hosts } }

/-- R12: the maps of a cold reset. -/
def buildMaps (s : State) : State :=
  { s with integ := { s.integ with
      maps := (List.range 16).map fun r => (r, s.freshMap r),
      hosts := ((List.range 16).map fun r => (s.clustersOk r).map fun c => (clusterKey r c, s.freshHosts r c)).flatten } }

/-- Place of a physical unit among the hosts of a kind's slots. -/
def slotOf (hosts : List (Option Nat)) (i : Nat) : Option Nat := (hosts.zipIdx.find? fun x => x.1 == some i).map Prod.snd

/-- Retired columns of a Thresher. -/
def columnsOf (s : State) (l : Nat) : List Nat :=
  ((s.listedLocs.filter fun x => locHolds (bareLoc (containerAt 1 l)) (bareLoc x) && locSub x != 0xFF).map locSub).eraseDups

/-- R9: logical column of a physical one, steered columns left out: 0–63 the array, 64 the tally column. -/
def logicalColumn (s : State) (l : Nat) : Option Nat :=
  slotOf ((((List.range 67).filter fun i => !(s.columnsOf l).contains i).take 65).map some) (locSub l)

/-- R8, R9: logical lane of a physical one of a port. -/
def logicalLane (s : State) (l : Nat) : Option Nat :=
  slotOf ((s.bruora.ports.getD (8 * locDie l + locIndex l) {}).lanes.map some) (locSub l)

/-- R8: logical locator of the slot a physical unit or part fills; all ones when it fills none. -/
def logicalOf (s : State) (l : Nat) : Nat :=
  let r := locRegion16 l
  let base := locPackage l * 2 ^ 25 + locDie l * 2 ^ 24
  if locCluster l = 0x1F ∧ locKind l = 10 ∧ locSub l ≠ 0xFF then (match s.logicalLane l with
    | some n => l % 2 ^ 31 - locSub l + n
    | none => 0xFFFFFFFF)
  else if locCluster l = 0x1F ∨ locCluster l = 0x1E then l % 2 ^ 31
  else
    match (s.mapOf r).zipIdx.find? fun e => e.1 == some (locCluster l) with
    | none => 0xFFFFFFFF
    | some e =>
      let h := s.hostsOf r (locCluster l)
      let at_ (i sub : Option Nat) : Nat := match i, sub with
        | some n, some m => base + locRegion l * 2 ^ 21 + e.2 * 2 ^ 16 + locKind l * 2 ^ 12 + n * 2 ^ 8 + m
        | _, _ => 0xFFFFFFFF
      let whole := locSub l == 0xFF
      match locKind l with
      | 1 => at_ (slotOf h.threshers (locIndex l)) (if whole then some 0xFF else s.logicalColumn l)
      | 2 => at_ (slotOf h.gleaners (locIndex l)) (some 0xFF)
      | 4 => at_ (some 0) (if whole then some 0xFF else slotOf h.banks (locSub l))
      | _ => at_ (some 0) (some (locSub l))

/-- R15: does a region host some slot in turn? -/
def regionInTurn (s : State) (r : Nat) : Bool :=
  (s.mapOf r).any fun e => match e with
    | none => true
    | some c =>
      let h := s.hostsOf r c
      h.threshers.any Option.isNone || h.gleaners.any Option.isNone || h.banks.any Option.isNone

def regionState (s : State) (r : Nat) : Nat := if !s.regionOk r then 2 else if s.regionInTurn r then 1 else 0

/-- R359: degraded detection of a physical cluster that hosts a logical one. -/
def degraded (s : State) (r c : Nat) : Bool := s.rotationStopped r c false || s.rotationStopped r c true

def degradedSomewhere (s : State) : Bool :=
  (List.range 16).any fun r => (s.mapOf r).any fun e => match e with
    | none => false
    | some c => s.degraded r c

def overrunSomewhere (s : State) : Bool := s.integ.hosts.any fun h => h.2.overrunThresher || h.2.overrunGleaner

/-- `CAPACITY_STATE` (R14, R18). -/
def capacityState (s : State) : Nat :=
  if (List.range 16).any fun r => s.regionState r != 0 then 2 else if s.degradedSomewhere then 1 else 0

/-- `DETECT_INTERVAL_MAX` (R358, R359). -/
def detectMax (s : State) : Nat := if s.degradedSomewhere || s.overrunSomewhere then 20000 else 16000

/-- R298: detection is degraded now. -/
def detectDegraded (s : State) : Bool := s.detectMax == 20000

/-- R19: the cluster status word. DESIGN CHOICE: `ROTATING` is the complement of `DEGRADED_DETECT`, so it is 0 as soon as one
kind's rotation has stopped, though the other kind still rotates (log entry 155). -/
def clusterStatus (s : State) (r c : Nat) : Nat :=
  let mask (l : List Nat) : Nat := (l.map fun i => 2 ^ i).sum
  mask (s.threshersOk r c) + 2 ^ 5 * mask (s.gleanersOk r c) + 2 ^ 8 * mask (s.banksOk r c) + 2 ^ 25 * boolNat (s.millOk r c) +
    2 ^ 26 * boolNat (!s.degraded r c) + 2 ^ 27 * boolNat (s.degraded r c)

/-- Serviceable physical clusters and Threshers (R18). -/
def clusterTotal (s : State) : Nat := ((List.range 16).map fun r => (s.clustersOk r).length).sum

def thresherTotal (s : State) : Nat :=
  ((List.range 16).map fun r => ((List.range 18).map fun c => (s.threshersOk r c).length).sum).sum

/-! ### Ledger entries about units (R368) -/

/-- Reel time at which a unit last passed self-test or probation. -/
def passedAt (s : State) (l : Nat) : Nat := (Table.find? (bareLoc (containerAt 1 l)) s.integ.passed).getD 0

/-- One entry about a fault (R368). -/
def faultEntry (s : State) (code sev loc : Nat) (nested : Bool) (root act detail : Nat) (c : Option Cmd) : LedgerEntry :=
  { code := code, severity := sev, nested := nested, action := act, state := if sev = 0 then 3 else 0, seq := 0, phys := loc,
    log := s.logicalOf loc, time := 0,
    exposed := if act = 1 ∨ act = 2 then s.reel (locDie loc) else s.passedAt loc, root := root,
    pasid := match c with
      | some c => c.pasid
      | none => 0,
    queue := match c with
      | some c => c.q
      | none => 0,
    valid := c.isSome,
    index := match c with
      | some c => c.i
      | none => 0,
    detail := detail }

/-- R298, R372: a fault above notice takes part in the decision of epochs. -/
def noteFault (s : State) (loc sev exposed : Nat) : State :=
  if sev = 0 then s
  else { s with integ := { s.integ with faults := s.integ.faults ++
    [{ loc := if 4 ≤ sev then containerAt 4 loc else loc, severity := sev, exposed := exposed }] } }

end State
end Sys2Proof.Machine
end

