-- ==== Sys2Proof/Machine/DictRead.lean ====
section
/-! DEFINITION. Machine/DictRead.lean: who may access an entry (R328–R330, R338), and what a read of every
entry returns (15_object_dictionary.md and the dictionary tables of every chapter). -/
namespace Sys2Proof.Machine

/-! ### Abort codes (R338) -/

def noObject : Nat := 0x1001
def noSubindex : Nat := 0x1002
def readOnly : Nat := 0x1003
def privileged : Nat := 0x1004
def typeLength : Nat := 0x1005
def valueRange : Nat := 0x1006
def superseded : Nat := 0x1007
def pathNotAllowed : Nat := 0x1008
def malformed : Nat := 0x1009
def scopeClosed : Nat := 0x100B
def notReady : Nat := 0x100C
def keptFailure : Nat := 0x100D
/-- `OWNER_REFUSED` with the subsystem's code. -/
def ownerRefused (code : Nat) : Nat := code * 65536 + 0x100A

/-- The low 16 bits of an abort decide which of several is reported. -/
def lowestAbort (cs : List Nat) : Option Nat :=
  match lowest (cs.map fun c => c % 65536) with
  | none => none
  | some k => cs.find? fun c => c % 65536 == k

/-! ### Records that the dictionary returns -/

/-- R200: a partition table entry. -/
def Partition.word (p : Partition) : Nat :=
  p.mask + 2 ^ 16 * p.baseUnit + 2 ^ 24 * p.units + 2 ^ 32 * p.semBase + 2 ^ 40 * p.semCount + 2 ^ 56 * p.ctrBase +
    2 ^ 64 * p.ctrCount + 2 ^ 80 * p.pasid + 2 ^ 100 * boolNat p.hazard + 2 ^ 101 * boolNat p.pinned + 2 ^ 102 * p.state

namespace State

/-- R299: the engine is in cadence mode. -/
def cadence (s : State) : Bool := s.keptReg 0x2A00 0x01 0 == 1

/-- R256, R299: the record of a queue. -/
def queueRecord (s : State) (k : Queue) : Nat :=
  k.image + 2 ^ 27 * k.state + 2 ^ 30 * boolNat k.parked +
    2 ^ 31 * boolNat (k.released || (k.cadenceBound && !s.cadence)) + 2 ^ 256 * k.head + 2 ^ 288 * k.tail +
    2 ^ 320 * k.complTail + 2 ^ 352 * k.complHead + 2 ^ 456 * k.region + 2 ^ 464 * k.lastError

/-- `ENGINE_STATE` (R418). -/
def engineCode (s : State) : Nat := match s.pins.state with
  | .blank => 0
  | .absent | .unpowered | .inReset => 1
  | .booting => 2
  | .recovery => 3
  | .ready => 4
  | .decommissioned => 5

/-- Dies that serve queues. -/
def diesServing (s : State) : Nat := (setBits s.pins.dies 2).foldl (fun m d =>
  if bit s.pins.fatal d || bit s.pins.stopped d then m else m + 2 ^ d) 0

/-- R115, R112: two bits per slot: 0 empty, 1 segmented, 2 direct, 3 NE-3. -/
def slotKind (im : Image) : Nat := if im.ne3 then 3 else if im.direct then 2 else 1

/-- R415: a halt record as its 576 bytes. -/
def haltBytes (h : HaltRecord) : List Byte :=
  leBytes 4 (h.pasid + 2 ^ 20 * h.breakpoint) ++ leBytes 4 h.loc ++ leBytes 8 h.time ++ leBytes 4 h.offset ++
    List.replicate 44 0 ++ slice h.image 0 512

/-- R318–R324: `PARTNER`. -/
def Port.partnerWord (p : Port) : Nat := match p.partner with
  | none => 0xFFFF
  | some (pkg, n) => 256 * pkg + n

/-- Values that other fields of the state hold; none for entries kept in the dictionary's own store. -/
def liveField (s : State) (base m sub : Nat) (pasid : Nat) : Option Nat :=
  match base with
  | 0x1000 => (match sub with
    | 4 => some Config.siliconStep | 5 => some Config.vendorEnterprise | 6 => some Config.serialNumber
    | _ => none)
  | 0x1010 => (match sub with
    | 0x0A => some (boolNat s.dict.busy + 2 * boolNat s.dict.done)
    | _ => none)
  | 0x1020 => (match sub with
    | 4 =>
      let k := s.reg 0x1020 0x03 0 % 2 ^ 24
      if k = key 0x2B00 0x0D then some s.bruora.incarnationWrites
      else some (match Table.find? k s.dict.kept with
        | some e => e.writes
        | none => 0)
    | 5 =>
      let recs := (s.dict.wearList.take 128).map fun k =>
        let st := if k = key 0x2B00 0x0D then 1 + boolNat s.bruora.incarnationWorn else match Table.find? k s.dict.kept with
          | some e => e.wear
          | none => 0
        leBytes 2 (k / 256) ++ leBytes 1 (k % 256) ++ leBytes 1 st
      some (leNat recs.flatten)
    | _ => none)
  | 0x2000 => (match sub with
    | 3 => some s.diesServing
    | 4 => some (((List.range 16).filter fun r => s.regionState r != 2).map (2 ^ ·)).sum
    | 5 => some s.clusterTotal | 6 => some s.thresherTotal | 8 => some s.capacityState | 9 => some s.integ.remaps
    | 0x12 => some (leNat (s.integ.field.map (leBytes 4)).flatten)
    | 0x13 => some s.integ.field.length
    | _ => none)
  | 0x2010 => (match sub with
    | 1 => some (s.regionState m)
    | 2 => some (leNat ((s.mapOf m).map fun e => BitVec.ofNat 8 (e.getD 0xFF)))
    | 3 => some ((s.clustersOk m).map (2 ^ ·)).sum
    | _ => none)
  | 0x2020 => some (s.clusterStatus m (sub - 1))
  | 0x2300 => (match sub with
    | 4 => some s.mills.generation
    | 5 => some (boolNat (s.cmds.any fun c => c.wait == .shadow))
    | 6 => some (s.mills.active.map fun e => 2 ^ e.1).sum
    | 7 => some (s.mills.active.map fun e => slotKind e.2 * 4 ^ e.1).sum
    | 0x11 => some (boolNat (bit s.fuses.features 18))
    | 0x12 => some (s.mills.active.map fun e => e.2.u32 12 * 2 ^ (32 * e.1)).sum
    | _ => none)
  | 0x2500 => (match sub with
    | 4 => some s.freeSheaves
    | 5 => some s.granary.seqs.length
    | 6 => some (s.granary.sheaves.filter fun h => 1 < h.2.refs).length
    | _ => none)
  | 0x2610 => some (s.part m (sub - 1)).word
  | 0x2800 => (match sub with
    | 7 => some s.trans.priState
    | _ => none)
  | 0x2900 => (match sub with
    | 3 => some s.queues.length
    | 0x15 => some (match s.queue? (s.reg 0x2900 0x14 0) with
      | some k => s.queueRecord k
      | none => 0)
    | _ => none)
  | 0x2A00 => (match sub with
    | 2 => some (s.reel 0)
    | 3 => some (s.bell.reel0.state + 16 * s.bell.reel1.state)
    | 7 => some s.bell.epoch
    | 8 => some (s.bell.confirmed.getD (2 ^ 64 - 1))
    | 9 => some (s.bell.denied.getD (2 ^ 64 - 1))
    | 0x0F => some ((Table.find? (s.reg 0x2A00 0x0E 0) s.bell.schedule).getD 0)
    | _ => none)
  | 0x2A10 =>
    let i := s.bell.inputs.getD m {}
    (match sub with
    | 5 => some i.frame | 6 => some i.t | 9 => some i.state
    | _ => none)
  | 0x2B00 => (match sub with
    | 0x0B => some s.bruora.windows.length
    | 0x0D => some s.bruora.incarnation
    | _ => none)
  | 0x2B10 =>
    let p := s.bruora.ports.getD m {}
    (match sub with
    | 2 => some p.state | 3 => some (Port.partnerWord p)
    | 4 => some (leNat ((List.range 16).map fun i => BitVec.ofNat 8 ((p.lanes.take p.width).getD i 0xFF)))
    | 5 => some p.lanesOk | 6 => some p.width
    | _ => none)
  | 0x2C00 => (match sub with
    | 1 => some s.detectMax
    | 0x0B => some (s.bell.outcomeBase + 2 ^ 64 * s.bell.outcomeMap)
    | _ => none)
  | 0x2C10 =>
    let l := s.ledger m
    (match sub with
    | 1 => some l.head | 2 => some l.tail | 3 => some l.count | 4 => some (boolNat l.overflow) | 5 => some l.dropped
    | 6 => some l.worst
    | 7 => some (match l.worstEntry with
      | some e => e.word
      | none => 0)
    | 0x0A => some (match Table.find? (s.reg (0x2C10 + m) 0x09 0) l.places with
      | some e => e.word
      | none => 0)
    | _ => none)
  | 0x2D00 => (match sub with
    | 1 => some s.fuses.lifecycle | 2 => some s.fuses.features
    | 3 => some (s.fuses.keysProgrammed + 16 * s.fuses.keysRevoked)
    | 4 => some s.fuses.rollback | 5 => some s.fw.runningSvn | 6 => some s.fw.runningVersion
    | 8 => some s.fw.updateState | 9 => some s.fw.updateCode | 0x0E => some s.fuses.debugLock | 0x10 => some s.fw.scopes
    | _ => none)
  | 0x2E00 => (match sub with
    | 3 => some (boolNat s.obs.frozen) | 4 => some s.obs.freezeTime | 0x0E => some s.obs.sent
    | 0x10 => some (leNat (((if s.obs.frozen then Table.find? pasid s.obs.snapshotTasks
        else Table.find? pasid s.obs.tasks).getD []).map fun v => leBytes 8 v).flatten)
    | 0x11 => some s.obs.captures.length
    | 0x14 => some (match s.obs.halts[s.reg 0x2E00 0x13 0]? with
      | some h => leNat (haltBytes h)
      | none => 0)
    | _ => none)
  | 0x2E50 =>
    let k (i : Nat) : Nat := s.reg (0x2E50 + m + 65536 * i) sub 0 % 2 ^ 64
    some (k 0 + 2 ^ 64 * k 1 + 2 ^ 128 * k 2 + 2 ^ 192 * k 3)
  | 0x2E60 => some ((Table.find? sub s.obs.breakpoints).getD 0)
  | 0x2F00 => (match sub with
    | 1 => some s.engineCode | 2 => some s.diesServing | 4 => some s.pins.cause | 5 => some s.pins.startupUs
    | 6 => some s.pins.startupStep | 8 => some s.pins.capEffective | 9 => some (Config.powerNow s.clk)
    | 0x0A => some (boolNat s.pins.capUnmet) | 0x0C => some (boolNat s.pins.throttleLow)
    | _ => none)
  | _ => none

/-- The live value of an entry, as a number of its length. -/
def liveValue (s : State) (index sub pasid : Nat) (e : DictEntry) : Nat :=
  let (base, m) := dictFamily index
  let v :=
    if sub = 0 then e.default
    else match s.liveField base m sub pasid with
      | some v => v
      | none => match e.access with
        | .wo => 0
        | _ => if e.kept then s.keptReg index sub e.default else s.reg index sub e.default
  v % 2 ^ (8 * e.len)

/-- R393: a counter entry. DEDUCED: the privileged read-only U32 and U64 entries but for the three that
count nothing (log entry 40). -/
def isCounter (index sub : Nat) (e : DictEntry) : Bool :=
  sub != 0 && e.access == .ro && e.priv &&
    ((e.ty == 4 || e.ty == 5) && !(index == 0x2500 && sub == 6) && !(index == 0x2E00 && sub == 4) &&
      !(index == 0x1020 && sub == 4) || (dictFamily index).1 == 0x2E50)

/-- R399: what a read returns: the snapshot while counters are frozen. -/
def entryValue (s : State) (index sub pasid : Nat) (e : DictEntry) : Nat :=
  if s.obs.frozen && isCounter index sub e then (Table.find? (key index sub) s.obs.snapshot).getD 0
  else s.liveValue index sub pasid e

/-- Every index of the dictionary. -/
def dictIndices : List Nat :=
  [0x1000, 0x1010, 0x1020, 0x2000] ++ (List.range 16).map (0x2010 + ·) ++ (List.range 16).map (0x2020 + ·) ++
  [0x2100, 0x2110, 0x2120, 0x2200, 0x2210, 0x2300, 0x2400, 0x2500, 0x2600] ++ (List.range 16).map (0x2610 + ·) ++
  [0x2700, 0x2800, 0x2900, 0x2A00] ++ (List.range 4).map (0x2A10 + ·) ++ [0x2B00] ++ (List.range 16).map (0x2B10 + ·) ++
  [0x2C00, 0x2C10, 0x2C11, 0x2D00, 0x2E00, 0x2E10, 0x2E11, 0x2E12, 0x2E30] ++ (List.range 16).map (0x2E50 + ·) ++
  [0x2E60, 0x2F00]

/-- R399: every counter entry copied. -/
def snapshotAll (s : State) : Table Nat :=
  (dictIndices.map fun i => match dictRows i with
    | some (rows, _) => rows.filterMap fun e => if isCounter i e.sub e then some (key i e.sub, s.liveValue i e.sub 0 e) else none
    | none => []).flatten

/-! ### Access (R329, R330, R338, R386) -/

/-- R329: is a path admitted for privileged access? -/
def admitted (s : State) : DictPath → Bool
  | .management | .mailbox | .hostMctp => true
  | .dictCommand _ => false
  | .peer p => bit (s.keptReg 0x1010 0x03 0) p

/-- Path number 1–5. -/
def pathNumber : DictPath → Nat
  | .management => 1
  | .mailbox => 2
  | .hostMctp => 3
  | .dictCommand _ => 4
  | .peer _ => 5

/-- R386, R393, R412: the scope that an entry lies in. -/
def entryScope (index sub : Nat) : Option Nat :=
  if sub = 0 then none
  else match (dictFamily index).1 with
    | 0x2E10 | 0x2E11 | 0x2E12 | 0x2E30 | 0x2E50 => some 0
    | 0x2E60 => some 3
    | 0x2E00 => if sub = 0x01 then some 0 else if sub = 0x12 ∨ sub = 0x14 then some 3 else none
    | _ => none

/-- Entries marked "DICT command only". -/
def dictOnly (index sub : Nat) : Bool :=
  (index == 0x2B00 && (sub == 0x09 || sub == 0x0A)) || (index == 0x2E00 && sub == 0x10)

/-- R328: is the dictionary loaded, or is this one of the reads answered before? -/
def dictReady (s : State) (index sub : Nat) (read : Bool) : Bool :=
  s.pins.state == .ready ||
    (read && (index == 0x1000 || (index == 0x2F00 && (sub == 1 || sub == 4 || sub == 5 || sub == 6))))

/-- R338: aborts that a request meets whatever it asks for. -/
def headerAborts (s : State) (r : Request) (read : Bool) : List Nat :=
  cond (!s.dictReady r.index r.sub read) notReady ++ cond (r.reserved || r.badOp.isSome) malformed ++
  match dictRows r.index with
  | none => [noObject]
  | some _ => cond (dictEntry? r.index r.sub).isNone noSubindex

/-- Aborts of an access, apart from those about the value. -/
def accessAborts (s : State) (r : Request) (write : Bool) : List Nat :=
  s.headerAborts r (!write) ++
  match dictEntry? r.index r.sub with
    | none => []
    | some e =>
      let adm := s.admitted r.path
      let only := dictOnly r.index r.sub
      let isDict : Bool := match r.path with
        | .dictCommand _ => true
        | _ => false
      let peer : Bool := match r.path with
        | .peer _ => true
        | _ => false
      cond (write && (e.access == .ro || (e.kept && ((Table.find? (key r.index r.sub) s.dict.kept).map Kept.wear) == some 2))) readOnly ++
      cond ((e.priv && !adm) || (write && peer && !adm)) privileged ++
      cond (only && !isDict) pathNotAllowed ++
      cond (write && r.index == 0x2D00 && r.sub == 0x07 && peer) pathNotAllowed ++
      (match entryScope r.index r.sub with
        | some n => cond (!bit s.fw.scopes n) scopeClosed
        | none => []) ++
      (if write then cond (r.data.length != e.len || r.length != e.len || r.offset != 0) typeLength
       else match r.path with
        | .dictCommand _ => cond (r.length < e.len) typeLength
        | _ => cond (e.len ≤ r.offset || 1024 < r.length) typeLength)

/-- The task that a path acts for; only a DICT command acts for one (R330, R331). -/
def pasidOf (s : State) (p : DictPath) : Nat := match p with
  | .dictCommand q => (match s.queue? q with
    | some k => k.pasid
    | none => 0)
  | _ => 0

/-- R327, R344: what a read in this clk returns: of an entry written in it, the value before the write. -/
def seenValue (s : State) (index sub pasid : Nat) (e : DictEntry) : Nat :=
  match if s.dict.prior.1 = s.clk then s.dict.prior.2.find? fun x => x.1 == key index sub else none with
  | some x => x.2
  | none => s.entryValue index sub pasid e

/-- R327, R344: an entry is written; what a read in the same clk returns is kept. -/
def notePrior (s t : State) (index sub : Nat) (e : DictEntry) : State :=
  let old := if t.dict.prior.1 = t.clk then t.dict.prior.2 else []
  if s.entryValue index sub 0 e = t.entryValue index sub 0 e ∨ old.any fun x => x.1 == key index sub then t
  else { t with dict := { t.dict with prior := (t.clk, old ++ [(key index sub, s.entryValue index sub 0 e)]) } }

/-- R333, R335: the bytes that a read returns. -/
def readBytes (s : State) (r : Request) (e : DictEntry) : List Byte :=
  let all := leBytes e.len (s.seenValue r.index r.sub (s.pasidOf r.path) e)
  match r.path with
  | .dictCommand _ => all
  | _ => (all.drop r.offset).take r.length

/-- R338, R351: count an abort and record it. -/
def countAbort (s : State) (r : Request) (abort : Nat) : State :=
  (s.bump 0x1010 0x06 1).setReg 0x1010 0x08
    (r.index % 65536 + 2 ^ 16 * (r.sub % 256) + 2 ^ 24 * pathNumber r.path + 2 ^ 32 * abort)

end State
end Sys2Proof.Machine
end

