-- ==== Sys2Proof/Machine/Recs.lean ====
section
/-! DEFINITION. Machine/Recs.lean: the command descriptor (R263, R266), its argument record (R264) and the
records it names, read once at issue (R151, R154, R143, R145). -/
namespace Sys2Proof.Machine

namespace Recs

/-- The little-endian number in descriptor bytes `lo` to `hi` (R266). -/
def b (r : Recs) (lo hi : Nat) : Nat := field r.desc lo hi
/-- Slot i of the argument record (R264). -/
def slot (r : Recs) (i : Nat) : Nat := field r.args (8 * i) (8 * i + 7)
def cls (r : Recs) : Nat := r.b 0 0 % 16
def strict (r : Recs) : Bool := bit (r.b 0 0) 4
def irq (r : Recs) : Bool := bit (r.b 0 0) 5
def sealed (r : Recs) : Bool := bit (r.b 0 0) 6
def tag (r : Recs) : Nat := r.b 4 7
def argAddr (r : Recs) : Nat := r.b 8 15
/-- `FORM`, `SCOPE` and the like at byte 16. -/
def form (r : Recs) : Nat := r.b 16 16
def isAttend (r : Recs) : Bool := r.cls == 1

/-- R264, R266: does the class use an argument record? -/
def needsArgs (r : Recs) : Bool :=
  match r.cls with
  | 1 | 2 | 4 | 5 | 7 => true
  | 6 => r.form == 3
  | 8 => !bit (r.b 16 19) 4
  | _ => false

/-- A descriptor of `form` class MOVE convert. -/
def isConvert (r : Recs) : Bool := r.cls == 6 && r.form == 3

/-- The attention control word (R127); the product control word (R74); the KV control word (R181). -/
def attend (r : Recs) : AttendControl := AttendControl.ofWord (r.b 28 31)
def control (r : Recs) : ProductControl := ProductControl.ofWord (r.b 28 31)
def kv (r : Recs) : Nat := r.b 16 19
def merge? (r : Recs) : Bool := r.isAttend && r.attend.form == 2

def chainRec (r : Recs) : ChainRecord := ChainRecord.ofBytes r.chain
def hasChain (r : Recs) : Bool := r.slot 7 != 0
def maskDesc (r : Recs) : MaskDesc := MaskDesc.ofBytes r.mask
def blockList (r : Recs) : List BlockEntry := (List.range r.maskDesc.listCount).map fun i => BlockEntry.ofBytes (slice r.blocks (16 * i) 16)
/-- Stages before and after the product. -/
def pro (r : Recs) : List StageWord := if r.hasChain then r.chainRec.pro else []
def epi (r : Recs) : List StageWord := if r.hasChain then r.chainRec.epi else []
/-- Gate word: step, base, counter (R166); ring word: slots, first row, release (R168). -/
def gate (r : Recs) : Nat := if r.hasChain then r.chainRec.gate else 0
def gateStep (r : Recs) : Nat := bits r.gate 31 16
def gateBase (r : Recs) : Nat := bits r.gate 63 32
def gateCounter (r : Recs) : Nat := bits r.gate 15 0
def ring (r : Recs) : Nat := if r.hasChain then r.chainRec.ring else 0
def ringSlots (r : Recs) : Nat := bits r.ring 20 16
def ringFirst (r : Recs) : Nat := bits r.ring 11 0
def ringRelease (r : Recs) : Nat := bits r.ring 63 32
/-- The last segment, or the left operand, is read from a Loft ring (R167). -/
def ringed (r : Recs) : Bool := r.gateStep != 0 && r.ringSlots != 0

/-- The stage of a FUNC or of a MOVE convert (R266). -/
def stage (r : Recs) : StageWord := StageWord.ofWord (if r.cls = 5 then r.b 16 23 else r.b 24 31)
def stageTable (r : Recs) : List OpEntry := (List.range 8).map fun i => OpEntry.ofBytes (slice r.tab (16 * i) 16)

/-- Merge list (R145): partial and statistics addresses. -/
def mergeCount (r : Recs) : Nat := bits (field r.merge 0 0) 6 0
def mergeEntries (r : Recs) : List (Nat × Nat) :=
  (List.range r.mergeCount).map fun i => (field r.merge (16 + 16 * i) (23 + 16 * i), field r.merge (24 + 16 * i) (31 + 16 * i))

end Recs

/-- R241: a virtual address of 57 bits. -/
def vaOk (a : Nat) : Bool := a < 2 ^ 57

/-- An address that a record is read from: it is in form, so that the read is made. -/
def readable (align a : Nat) : Bool := a != 0 && a % align == 0 && vaOk a

/-! ### Reading the records -/

/-- Is the argument record read? -/
def Recs.argsRead (r : Recs) : Bool := r.needsArgs && readable 64 r.argAddr

/-- A record read at an address, or nothing where it is not read. -/
def readIf (rd : Reader) (ok : Bool) (a n : Nat) : List Byte := if ok then rd a n else []

/-! What the check knows: a record that it could not read holds no bytes. -/

def Recs.argsKnown (r : Recs) : Bool := !r.needsArgs || !r.args.isEmpty
/-- The chain record, where one is named. -/
def Recs.chainKnown (r : Recs) : Bool := r.argsKnown && (!readable 64 (r.slot 7) || !r.chain.isEmpty)
def Recs.maskKnown (r : Recs) : Bool := r.argsKnown && !r.mask.isEmpty
def Recs.tabKnown (r : Recs) : Bool := !r.tab.isEmpty

/-- R140, R143: is the block list read? `BLOCK_LIST_ADDR` is any 16-byte aligned address, 0 too. -/
def MaskDesc.listed (m : MaskDesc) : Bool := bit m.enable 3 && !m.bad && vaOk m.listAddr

/-- Addresses and lengths of the records one descriptor names, argument record first, each after the
record that names it. -/
def Recs.reads (rd : Reader) (desc : List Byte) : List (Nat × Nat) :=
  let r0 : Recs := { desc := desc }
  if !r0.argsRead then []
  else
    let r1 : Recs := { r0 with args := rd r0.argAddr 128 }
    let one (use : Bool) (align i n : Nat) : List (Nat × Nat) := if use && readable align (r1.slot i) then [(r1.slot i, n)] else []
    let head := [(r0.argAddr, 128)]
    match r0.cls with
    | 1 =>
      let m := MaskDesc.ofBytes (rd (r1.slot 2) 128)
      head ++ one true 64 7 256 ++
      (if r1.merge? then
        one true 1 5 16 ++
        (let p := bits (field (rd (r1.slot 5) 16) 0 0) 6 0
         if r1.slot 5 != 0 && vaOk (r1.slot 5) && p != 0 then [(r1.slot 5 + 16, 16 * p)] else [])
       else
        one r0.attend.scaleSrc 1 3 4 ++ one true 64 2 128 ++
        (if readable 64 (r1.slot 2) && m.listed && m.listCount != 0 then
          [(m.listAddr, 16 * m.listCount)] else []))
    | 2 => head ++ one true 64 7 256
    | 5 => head ++ one ((StageWord.ofWord (r0.b 16 23)).span != 0) 1 2 128
    | 6 => head ++ one ((StageWord.ofWord (r0.b 24 31)).span != 0) 1 2 128
    | _ => head

/-- The records of one descriptor, as read. -/
def Recs.load (rd : Reader) (desc : List Byte) : Recs :=
  let r0 : Recs := { desc := desc }
  if !r0.argsRead then r0
  else
    let r1 : Recs := { r0 with args := rd r0.argAddr 128 }
    match r0.cls with
    | 1 =>
      let r2 : Recs := { r1 with chain := readIf rd (readable 64 (r1.slot 7)) (r1.slot 7) 256 }
      if r1.merge? then
        let ok := readable 1 (r1.slot 5)
        let h := readIf rd ok (r1.slot 5) 16
        { r2 with merge := h ++ readIf rd ok (r1.slot 5 + 16) (16 * bits (field h 0 0) 6 0) }
      else
        let mk := readIf rd (readable 64 (r1.slot 2)) (r1.slot 2) 128
        let m := MaskDesc.ofBytes mk
        { r2 with
          mask := mk, scale := readIf rd (r0.attend.scaleSrc && readable 1 (r1.slot 3)) (r1.slot 3) 4,
          blocks := readIf rd m.listed m.listAddr (16 * m.listCount) }
    | 2 => { r1 with chain := readIf rd (readable 64 (r1.slot 7)) (r1.slot 7) 256 }
    | 5 => { r1 with tab := readIf rd (r1.stage.span != 0 && readable 1 (r1.slot 2)) (r1.slot 2) 128 }
    | 6 => { r1 with tab := readIf rd (r1.stage.span != 0 && readable 1 (r1.slot 2)) (r1.slot 2) 128 }
    | _ => r1

/-- R267: addresses of the product descriptors of a CHAIN2. -/
def Recs.products (r : Recs) : List Nat := if r.cls = 3 then [r.b 16 23, r.b 24 31] else []

/-- Every read of the issue check, in order. -/
def issueReads (rd : Reader) (desc : List Byte) : List (Nat × Nat) :=
  let r : Recs := { desc := desc }
  Recs.reads rd desc ++
    (r.products.map fun a => if readable 1 a then (a, 64) :: Recs.reads rd (rd a 64) else []).flatten

def loadProducts (rd : Reader) (desc : List Byte) : List Recs :=
  let r : Recs := { desc := desc }
  r.products.map fun a => if readable 1 a then Recs.load rd (rd a 64) else {}

/-! ### Form of the record -/

/-- R271: are the bytes 16–63 outside the listed ranges zero? -/
def Recs.onlyBytes (r : Recs) (used : List (Nat × Nat)) : Bool :=
  (List.range 48).all fun i => (used.any fun u => u.1 ≤ 16 + i && 16 + i ≤ u.2) || r.b (16 + i) (16 + i) == 0

/-- How a command uses an argument slot (R264). -/
inductive SlotUse
  | address | value | unused
  deriving DecidableEq, Repr

def used (b : Bool) : SlotUse := if b then .address else .unused

/-- R264: slots in order, those beyond the list unassigned. -/
def Recs.slotCodes (r : Recs) (us : List SlotUse) : List Nat :=
  let bad (i : Nat) : Bool := match us.getD i .unused with
    | .address => r.slot i == 0
    | .unused => r.slot i != 0
    | .value => false
  cond ((List.range 16).any bad) 0x2901

/-- R241: slots that hold addresses of 57 bits. -/
def Recs.slotVa (r : Recs) (is : List Nat) : List Nat := cond (is.any fun i => !vaOk (r.slot i)) 0x2801

/-- R241: addresses that a chain record or operand table carries. A `SEND` entry holds a window reference. -/
def stageVa (tab : List OpEntry) (ss : List StageWord) : List Nat :=
  cond (ss.any fun s => s.kind != 10 && s.operand ≤ 7 && (List.range s.span).any fun i => !vaOk (s.entry tab i).addr) 0x2801

end Sys2Proof.Machine
end

