-- ==== Sys2Proof/Machine/CheckProduct.lean ====
section
/-! DEFINITION. Machine/CheckProduct.lean: what a GEMM, an ATTEND and a CHAIN2 need, and the codes that
refuse them at issue (R95, R149, R158–R168, R171, R276). A check answers every code that holds; the
engine reports the lowest (R270). -/
namespace Sys2Proof.Machine

/-- What the issue check knows of the engine: the command's mode, the defaults and the bank it samples
(R52, R116, R127), the partition at `FLOOR_UNITS` + `BORROW_UNITS` (R276), and the Granary. -/
structure CheckEnv where
  strict : Bool := false
  defaults : ConvDefaults := {}
  bank : BankView := {}
  defForm : Nat := 0
  units : Nat := 0
  ctrs : Nat := 0
  sems : Nat := 0
  clusters : Nat := 0
  pasid : Nat := 0
  seq : Nat → Option Sequence := fun _ => none

/-- R195: is a sequence resident for the task? -/
def seqCodes (env : CheckEnv) (id : Nat) : List Nat :=
  match env.seq id with
  | none => [0x2502]
  | some q => if q.pasid != env.pasid || q.state == 2 then [0x2502] else cond (q.state == 3) 0x2503

/-! ### Loft space -/

/-- R90: the spill checks, over rows of spill area, bytes of operand buffers and rows that the command names. A queue
without Loft has a partition of no rows. -/
def spillCodes (env : CheckEnv) (spill bytes named : Nat) : List Nat :=
  let buf := ceilDiv bytes 512
  if spill != 0 && 3072 < spill + buf + named then [0x2211]
  else cond (env.units * 16 < spill + buf + named) 0x2212

/-- R276: units of 16 rows that a layout of some bytes and a named range of rows need. -/
def unitsFor (bytes named last : Nat) : Nat := max (ceilDiv last 16) (ceilDiv (ceilDiv bytes 8192 * 16 + named) 16)

/-- A semaphore word of a command (R208) and its index (R201). `allowed` 1 wait, 2 signal, 0 either. -/
def semCodes (env : CheckEnv) (allowed w : Nat) : List Nat :=
  cond (!semWordOk allowed w) 0x2601 ++ cond (env.units != 0 && (SemWord.ofWord w).op != 0 && env.sems ≤ (SemWord.ofWord w).index) 0x2601

/-- R201: a cluster mask. -/
def maskCodes (env : CheckEnv) (mask : Nat) : List Nat :=
  cond (env.units != 0 && (mask &&& env.clusters) != mask) 0x2604

/-- R271: the command needs Loft rows. -/
def loftCodes (env : CheckEnv) : List Nat := cond (env.units == 0) 0x2902

/-! ### GEMM -/

namespace Recs

def tyA (r : Recs) : Nat := r.b 16 17
def tyB (r : Recs) : Nat := r.b 18 19
def tyC (r : Recs) : Nat := r.b 20 21
def tyD (r : Recs) : Nat := r.b 22 23
def conv (r : Recs) : Nat := r.b 24 25
/-- M, N, K of a GEMM; N_q of an ATTEND. -/
def mRows (r : Recs) : Nat := r.b 32 35
def nCols (r : Recs) : Nat := r.b 36 39
def kDim (r : Recs) : Nat := r.b 40 43
def fmtOf (w : Nat) : Fmt := (OpType.ofWord w).fmt

/-- The left operand's type as the Thresher streams it: after the prologue (R158). -/
def leftType (r : Recs) : Nat := stagesType r.pro r.tyA

/-- Path of a GEMM; the float path where the pair is refused. -/
def path (r : Recs) (strict : Bool) : Path := match pairPath (fmtOf r.leftType) (fmtOf r.tyB) strict with
  | .ok p => p
  | .error _ => .float

/-- The epilogue rounds, so that type D follows it (R267). -/
def epiRounds (r : Recs) : Bool := laterRounds r.epi

/-- Type word and width that enter the epilogue. -/
def entryType (r : Recs) (strict : Bool) : Nat :=
  if r.isAttend then r.tyD else if r.epiRounds then (r.path strict).accFmt.code else r.tyD
def productWidth (r : Recs) : Nat := if r.isAttend then r.attend.dim else r.nCols
/-- Type word and width of the result after its last stage. -/
def resultType (r : Recs) : Nat := stagesType r.epi r.tyD
def resultWidth (r : Recs) : Nat := stagesWidth r.epi r.productWidth

/-- Width that enters the deferred stage of a GEMM epilogue (R163), none without one. -/
def deferredWidth (r : Recs) : Option Nat :=
  let before := r.epi.takeWhile fun s => !s.deferred
  if r.isAttend || before.length == r.epi.length then none else some (stagesWidth before r.nCols)

/-- Type that a deferred stage's tiles are held in (R163). -/
def deferredType (r : Recs) (strict : Bool) : Nat := stagesType (r.epi.takeWhile fun s => !s.deferred) (r.path strict).accFmt.code

/-- R164: the deferral demand exceeds the slots. -/
def splits (r : Recs) (strict : Bool) : Bool :=
  match r.deferredWidth with
  | none => false
  | some w => slotCapacity (r.path strict == .strict64) < liveTiles r.control * ceilDiv w 64

/-- R160: b of a GEMM's operand buffers. -/
def gemmBytes (r : Recs) : Nat := 65536 * max (fmtOf r.tyA).byteWidth (fmtOf r.tyB).byteWidth

/-- A SEND that suppresses the local store, or planes: the result is not stored at the output slot. -/
def localStore (r : Recs) : Bool :=
  !(r.epi.any fun s => s.kind == 9 || (s.kind == 10 && bit s.arg 0))

end Recs

/-- R155: only the last rounding stage of a command asks for a per-tensor amax. -/
def lateAmax (after : Bool) (ss : List StageWord) : List Nat :=
  cond (after && ss.any fun s => s.rounds && bit s.conv 8) 0x2222

/-- R166, R168: gate and ring words. `gated` says that the product has an operand that a gate may hold;
`slotRows` is the slot size. -/
def gateCodes (env : CheckEnv) (r : Recs) (gated : Bool) (slotRows : Nat) : List Nat :=
  let w := r.ring
  let rel := r.ringRelease
  if r.gateStep = 0 then cond (w != 0) 0x2226
  else
    cond (!gated || bits w 31 21 != 0 || bits w 15 12 != 0 || 16 < r.ringSlots || bits rel 15 14 % 2 == 1) 0x2226 ++
    cond (r.ringSlots != 0 && env.units * 16 < r.ringFirst + r.ringSlots * slotRows) 0x2226 ++
    cond (!r.isAttend && r.control.leftMajor && r.ringSlots != 0) 0x2226 ++
    cond (env.units != 0 && env.ctrs ≤ r.gateCounter) 0x2601 ++
    (if bits rel 15 14 % 2 = 1 then [] else semCodes env 2 rel)

/-- R151–R171: the codes of a chain record. `first` and `second` place the product in a CHAIN2; `after`
says that a rounding stage of the command follows this record's. -/
def chainCodes (env : CheckEnv) (r : Recs) (first second after : Bool) : List Nat :=
  if !r.hasChain then []
  else if !readable 64 (r.slot 7) then cond (r.slot 7 % 64 != 0) 0x2222
  else
    let c := r.chainRec
    let x (pl : Place) : StageCtx :=
      { place := pl, defaults := env.defaults, bank := env.bank, strict := env.strict, table := c.table, rows := r.mRows }
    let lt := OpType.ofWord r.tyA
    let lw := if r.isAttend then r.attend.dim else r.kDim
    let et := OpType.ofWord (r.entryType env.strict)
    cond (c.bad || (c.keepFirst && !first) || (!c.pro.isEmpty && (second || r.merge?))) 0x2222 ++
    stagesCodes (x .prologue) c.pro r.tyA lt.fmt (lt.grain != 0) lw ++ lateAmax (after || laterRounds c.epi) c.pro ++
    stagesCodes (x .epilogue) c.epi (r.entryType env.strict) et.fmt false r.productWidth ++ lateAmax after c.epi ++
    cond (!r.isAttend && 1 < (c.epi.filter StageWord.deferred).length) 0x2223 ++
    cond (r.splits env.strict && !first && c.splitArea == 0) 0x2224 ++
    cond (first && c.epi.any fun s => s.kind == 9 || s.kind == 10) 0x2225 ++
    cond (!vaOk c.splitArea) 0x2801 ++ stageVa c.table (c.pro ++ c.epi)

/-- R38, R71: may a type word be the left operand beside another? -/
def leftScaleOk (w : Nat) : Bool :=
  let t := OpType.ofWord w
  t.grain == 0 || (t.grain == 1 && scalable t.fmt)

/-- Rows of one ring slot of a GEMM (R168). -/
def gemmSlotRows (r : Recs) : Nat := 64 * ceilDiv ((Recs.fmtOf r.tyA).rowBytes r.kDim) 512

/-- R75: `ACC_FORMAT`, `LOG_PATH` and the accumulate-into tensor against the path of the pair. A log-domain pair that the
converter refuses (R71) has the log-domain path. -/
def accCodes (pc : ProductControl) (p : Path) (tC : OpType) : List Nat :=
  cond (pc.accFormat != p.acc || pc.logPath != (p == .log)) 0x2201 ++ cond (pc.accInit && !accIntoAllowed p tC) 0x2201

/-- R95, R267: codes of a GEMM that its descriptor alone gives. -/
def gemmWords (env : CheckEnv) (r : Recs) : List Nat :=
  let pc := r.control
  let tC := OpType.ofWord r.tyC
  typeCodes r.tyB .operand 2 r.nCols env.strict ++
  (if pc.accInit then
     typeFormCodes r.tyC ++ cond (tC.fmt == .fp64 && !env.strict) 0x2104 ++ cond (r.nCols % tC.fmt.group != 0) 0x2105 ++
     cond (tC.grain != 0) 0x2106
   else cond (r.tyC != 0) 0x2901) ++
  cond (pc.reserved || pc.accFormat == 3) 0x2203 ++
  cond (pc.splitK == 3 || ceilDiv r.kDim 64 < pc.parts || (pc.blockM != 0 && !pc.loopOrder)) 0x2204 ++
  cond (r.mRows == 0 || r.nCols == 0 || !r.onlyBytes [(16, 25), (28, 43)]) 0x2901

/-- R95, R267: the codes of a GEMM. `hand` gives the type word of the hand-over where it is a second product. -/
def gemmCodes (env : CheckEnv) (r : Recs) (first after : Bool) (hand : Option Nat) : List Nat :=
  let pc := r.control
  let second := hand.isSome
  let tB := OpType.ofWord r.tyB
  let tC := OpType.ofWord r.tyC
  let tD := OpType.ofWord r.tyD
  let lt := r.leftType
  let lf := Recs.fmtOf lt
  let badLeft := if second then 0x2225 else 0x2222
  let made := second || !r.pro.isEmpty
  let conv := Conv.ofWord env.defaults r.conv
  let rowAmaxes := !r.epiRounds && conv.amaxRow
  let named := if r.ringed then r.ringSlots * gemmSlotRows r else 0
  let stores := if first then r.hasChain && r.chainRec.keepFirst else r.localStore
  gemmWords env r ++
  if !r.chainKnown then r.slotVa (List.range 8)
  else
    (match hand with
     | some h => cond (r.tyA != h) 0x2225
     | none => typeCodes r.tyA (if made then .millIn else .operand) 1 (if pc.leftMajor then r.mRows else r.kDim) env.strict) ++
    (if r.epiRounds then
       (if r.tyD = r.resultType then [] else storeCodes r.tyD r.resultWidth env.strict ++ cond (tD.grain != 0) 0x2106 ++ [0x2901]) ++
       cond (r.conv != 0) 0x2901
     else typeCodes r.tyD .product 0 r.nCols env.strict ++ convCodes env.defaults r.conv (Recs.fmtOf r.tyD) env.strict) ++
    (match pairPath lf tB.fmt env.strict with
     | .error c => [if made then badLeft else c] ++ if c = 0x2202 then accCodes pc .log tC else []
     | .ok p => accCodes pc p tC ++ spillCodes env (spillRows (liveTiles pc) (p == .strict64)) r.gemmBytes named) ++
    cond (made && !leftScaleOk lt) badLeft ++
    r.slotCodes [used !second, .address, used pc.accInit, used stores, used (!second && (OpType.ofWord r.tyA).grain != 0),
      used (tB.grain != 0), used rowAmaxes, .value, .value, .value, .value, .value] ++
    r.slotVa (List.range 8) ++ chainCodes env r first second after ++ gateCodes env r (!second) (gemmSlotRows r)

/-! ### ATTEND -/

/-- R127: the form that a command runs: 0 single-sweep, 1 two-pass, 2 merge. -/
def Recs.resolvedForm (env : CheckEnv) (r : Recs) : Nat := if r.attend.form = 3 then env.defForm else r.attend.form

/-- Layer and head (R266). -/
def Recs.layer (r : Recs) : Nat := if r.isAttend then r.b 36 36 else r.b 22 22
def Recs.head (r : Recs) : Nat := r.b 37 37

/-- The segments whose sequences the command reads (R191), with whether the segment is the ring's. -/
def Recs.segs (r : Recs) : List (Segment × Bool) :=
  if r.merge? then []
  else
    let l := r.maskDesc.segments
    l.zipIdx.map fun si => (si.1, r.ringed && si.2 + 1 == l.length)

/-- R128, R141, R190: the codes of one segment. -/
def segmentCodes (env : CheckEnv) (r : Recs) (s : Segment × Bool) : List Nat :=
  let g := s.1
  seqCodes env g.seq ++
  match env.seq g.seq with
  | none => []
  | some q =>
    if q.pasid != env.pasid || q.state != 1 then []
    else
      cond (q.kType != r.tyB || q.vType != r.tyC || q.dim != r.attend.dimCode) 0x2401 ++
      cond (q.layers ≤ r.layer || q.heads ≤ r.head) 0x2504 ++
      (if s.2 then []
       else cond (q.length r.layer ≤ g.first) 0x2504 ++ cond (q.capacity < g.first + g.count) 0x2506)

/-- Key tiles of a command. -/
def Recs.keyTiles (r : Recs) : Nat := (r.maskDesc.segments.map Segment.tiles).sum

/-- R168: rows of one ring slot of an ATTEND: one head of the last segment's sequence. -/
def attendSlotRows (env : CheckEnv) (r : Recs) : Nat :=
  match r.maskDesc.segments.getLast? with
  | none => 0
  | some g => match env.seq g.seq with
    | none => 0
    | some q => q.tileRows 1

/-- R136: operand buffers of an ATTEND. DESIGN CHOICE: the merge form has no Q and no key tiles, so its w_Q is 0 and it
counts no tiles of K and V (log entry 151). -/
def attendBuffers (env : CheckEnv) (r : Recs) : Nat :=
  let a := r.attend
  let w := (if r.merge? then 0 else (Recs.fmtOf r.tyA).byteWidth) + (Recs.fmtOf r.tyD).byteWidth
  let tile (s : Segment × Bool) : Nat := match env.seq s.1.seq with
    | some q => q.pk + q.pv + 64 * q.ws
    | none => 0
  4 * a.q * 64 * a.dim * w + (if r.ringed then 0 else 2 * (r.segs.map tile).foldl max 0) + 8192

/-- R126–R149: codes of an ATTEND that its descriptor alone gives. -/
def attendWords (env : CheckEnv) (r : Recs) : List Nat :=
  let a := r.attend
  let tK := OpType.ofWord r.tyB
  let tV := OpType.ofWord r.tyC
  let tO := OpType.ofWord r.tyD
  (if r.merge? then cond (r.tyA != 0 || r.tyB != 0 || r.tyC != 0) 0x2402
   else
     typeCodes r.tyB .operand 2 a.dim env.strict ++ typeCodes r.tyC .operand 2 a.dim env.strict ++
     cond (!qkFmt tK.fmt || !(tV.fmt.isLns || converterAccepts tV.fmt) || tV.grain != 0) 0x2401) ++
  typeCodes r.tyD .product 0 a.dim env.strict ++ cond (!attendOut tO.fmt) 0x2401 ++
  convCodes env.defaults r.conv tO.fmt env.strict ++ cond a.bad 0x2402 ++
  cond (r.mRows == 0 || 2 ^ 24 < r.mRows) 0x2407 ++
  cond (!r.onlyBytes ([(16, 25), (28, 35)] ++ if r.merge? then [] else [(36, 37)])) 0x2901

/-- R140–R143, R149: the codes of a mask and key descriptor, of its segments and of its block list. -/
def maskCodesOf (env : CheckEnv) (r : Recs) : List Nat :=
  let d := r.maskDesc
  cond (d.bad || (bit d.enable 3 && !vaOk d.listAddr)) (if d.bad then 0x2403 else 0x2801) ++
  if d.bad then []
  else
    (r.segs.map (segmentCodes env r)).flatten ++
    if bit d.enable 3 && vaOk d.listAddr && (d.listCount == 0 || !r.blocks.isEmpty) then
      cond (blockListBad (ceilDiv r.mRows 64) r.keyTiles r.blockList) 0x2404 ++
      cond (r.blockList.any fun e => !vaOk e.bitmap) 0x2801
    else []

/-- R145, R149: the codes of a merge list: of its header, and of its entries where they have been read. -/
def mergeCodes (r : Recs) : List Nat :=
  let entries := if r.merge.length < 16 + 16 * r.mergeCount then [] else r.mergeEntries
  cond (r.mergeCount == 0 || 64 < r.mergeCount || bit (field r.merge 0 0) 7 || !zeroBytes r.merge 1 15 ||
    entries.any fun e => e.1 == 0 || e.2 == 0) 0x2406 ++
  cond (entries.any fun e => !vaOk e.1 || !vaOk e.2) 0x2801

/-- R126–R149: the codes of an ATTEND. -/
def attendCodes (env : CheckEnv) (r : Recs) (first after : Bool) : List Nat :=
  let a := r.attend
  let m := r.merge?
  let tQ := OpType.ofWord r.tyA
  let lq := OpType.ofWord r.leftType
  let conv := Conv.ofWord env.defaults r.conv
  let slotRows := attendSlotRows env r
  let named := if r.ringed then r.ringSlots * slotRows else 0
  let stores := if first then r.hasChain && r.chainRec.keepFirst else r.localStore
  let maskAddr := r.slot 2
  let maskRead := m || !readable 64 maskAddr || r.maskKnown
  attendWords env r ++
  (if m then cond (maskAddr != 0) 0x2402
   else
     cond (maskAddr % 64 != 0) 0x2403 ++
     (if readable 64 maskAddr && r.maskKnown && r.chainKnown then maskCodesOf env r else []) ++
     if a.scaleSrc && readable 1 (r.slot 3) && !r.scale.isEmpty then cond (!scaleOk (leNat r.scale)) 0x2405 else []) ++
  (if m && readable 1 (r.slot 5) && !r.merge.isEmpty then mergeCodes r else []) ++
  r.slotVa (List.range 9) ++
  if !r.chainKnown then []
  else
    (if m then []
     else
       typeCodes r.tyA (if r.pro.isEmpty then .operand else .millIn) 1 a.dim env.strict ++
       cond (r.pro.isEmpty && !qkFmt tQ.fmt) 0x2401 ++
       cond (!r.pro.isEmpty && (!qkFmt lq.fmt || !leftScaleOk r.leftType)) 0x2222) ++
    r.slotCodes [used !m, used stores, used !m, used (a.scaleSrc && !m), used a.emit, used m, used conv.amaxRow, .value,
      used (!m && tQ.grain != 0), .value, .value] ++
    chainCodes env r first false after ++
    if maskRead then spillCodes env (spillRows a.demand false) (attendBuffers env r) named ++ gateCodes env r (!m) slotRows else []

/-! ### Loft need of chained commands (R160) -/

/-- Spill bytes of a product. -/
def Recs.spillBytes (env : CheckEnv) (r : Recs) : Nat :=
  512 * (if r.isAttend then spillRows r.attend.demand false
    else spillRows (liveTiles r.control) (r.path env.strict == .strict64))

/-- Rows that a product names itself: its ring. -/
def Recs.namedRows (env : CheckEnv) (r : Recs) : Nat :=
  if r.ringed then r.ringSlots * (if r.isAttend then attendSlotRows env r else gemmSlotRows r) else 0

/-- Operand buffers of a product; a second product's left operand has the hand-over's width. -/
def Recs.buffers (env : CheckEnv) (r : Recs) : Nat :=
  if r.isAttend then attendBuffers env r else r.gemmBytes

def Recs.stageBytes (r : Recs) : Nat := if r.hasChain then stageNeed r.chainRec.table (r.pro ++ r.epi) else 0

/-- Hand-over width of a first product: the width that enters its deferred stage, if it has one (R165). -/
def Recs.handWidth (r : Recs) : Nat := r.deferredWidth.getD r.resultWidth

/-- R160: need of a chain at m_b, in bytes. -/
def chainNeed (env : CheckEnv) (p : Recs) (second : Option Recs) (mb : Nat) : Nat :=
  p.buffers env + p.stageBytes + p.spillBytes env +
  match second with
  | none => 0
  | some q => q.buffers env + q.stageBytes + q.spillBytes env +
      2 * mb * p.handWidth * (Recs.fmtOf p.resultType).byteWidth

/-- R160: the largest m_b that fits. -/
def chooseMb (env : CheckEnv) (p : Recs) (second : Option Recs) : Option Nat :=
  (((List.range 64).map fun i => 4096 - 64 * i).find? fun mb =>
    chainNeed env p second mb + 512 * p.namedRows env ≤ env.units * 8192)

/-- R160, R171: no m_b fits. -/
def mbCodes (env : CheckEnv) (p : Recs) (second : Option Recs) : List Nat :=
  cond (chooseMb env p second).isNone 0x2221

/-! ### CHAIN2 (R159, R267) -/

/-- R267: header of a product descriptor. -/
def productHeader (r : Recs) : List Nat :=
  cond (r.b 0 3 / 16 != 0 || r.tag != 0 || !(r.cls == 1 || r.cls == 2) || r.argAddr == 0 || (vaOk r.argAddr && r.argAddr % 64 != 0)) 0x2901 ++
  cond (!vaOk r.argAddr) 0x2801

/-- Has everything been read that the need of a product depends on? -/
def Recs.needKnown (r : Recs) : Bool :=
  r.argsKnown && r.chainKnown && (r.cls == 2 || r.merge? || !readable 64 (r.slot 2) || r.maskKnown)

/-- R159, R267: the codes of a CHAIN2. A product descriptor that could not be read gives none. -/
def chain2Codes (env : CheckEnv) (r : Recs) (prods : List Recs) : List Nat :=
  let p := prods.getD 0 {}
  let q := prods.getD 1 {}
  let has (x : Recs) : Bool := !x.desc.isEmpty
  let ok (x : Recs) : Bool := x.cls == 1 || x.cls == 2
  let addrs := r.products
  let both := ok p && has q && q.cls == 2
  cond (!r.onlyBytes [(16, 31)] || addrs.any (· == 0)) 0x2901 ++ cond (addrs.any fun a => !vaOk a) 0x2801 ++
  (if has p then productHeader p else []) ++ (if has q then productHeader q ++ cond (q.cls != 2) 0x2225 else []) ++
  (if !ok p then [] else if p.isAttend then attendCodes env p true q.epiRounds else gemmCodes env p true q.epiRounds none) ++
  (if !(has q && q.cls == 2) then []
   else if ok p && p.chainKnown then gemmCodes env q false false (some p.resultType)
   else gemmWords env q) ++
  cond (both && p.mRows != q.mRows) 0x2225 ++
  cond (both && p.chainKnown && (p.resultWidth != q.kDim || p.resultWidth % 64 != 0)) 0x2225 ++
  if both && p.needKnown && q.needKnown then mbCodes env p (some q) else []

/-! ### The binding limit (R161) -/

/-- R71: multiply-accumulates per clk and Thresher. -/
def macRate (p : Path) (a b : Fmt) : Nat :=
  let w := max a.byteWidth b.byteWidth
  match p with
  | .strict64 => 32
  | .strict32 => 128
  | .int => 4096
  | .log => if a == .lns8 && b == .lns8 then 4096 else 2048
  | .float => if w = 4 then 256 else if w = 2 then 2048 else 4096

/-- r_s: clk per streaming row of the scores (R136). -/
def rowClk (strict : Bool) (a b : Fmt) : Nat :=
  if strict then 32 else match max a.byteWidth b.byteWidth with
    | 4 => 16 | 2 => 2 | _ => 1

/-- T_thr of m_b rows, in clk times 16,384 (every rate divides 4 × 4,096). -/
def Recs.threshTime (env : CheckEnv) (r : Recs) (mb : Nat) : Nat :=
  if r.isAttend then
    let rs := rowClk env.strict (Recs.fmtOf r.leftType) (Recs.fmtOf r.tyB)
    let pair := r.attend.dim * ((if r.resolvedForm env = 1 then 2 * rs else rs) + 2)
    mb / 64 * r.keyTiles * pair * 16384
  else mb * r.nCols * r.kDim * (4096 / macRate (r.path env.strict) (Recs.fmtOf r.leftType) (Recs.fmtOf r.tyB))

/-- T_mill of m_b rows, in clk times 256. -/
def Recs.millTime (env : CheckEnv) (r : Recs) (mb : Nat) : Nat :=
  mb * (stagesLane env.strict r.pro (if r.isAttend then r.attend.dim else r.kDim) +
    stagesLane env.strict r.epi r.productWidth + if r.isAttend then 4 * r.attend.dim else 0)

/-- Bytes per row of the `RESIDUAL` and `ROTARY` tensors of a product. -/
def Recs.operandRow (r : Recs) : Nat :=
  let tab := r.chainRec.table
  let go (acc : Nat × Nat) (s : StageWord) : Nat × Nat :=
    let w := s.outWidth acc.1
    let f := Recs.fmtOf (s.entry tab 0).ty
    (w, acc.2 + if s.kind = 6 then f.rowBytes w else if s.kind = 2 then f.rowBytes (2 ^ bits s.arg 3 0) else 0)
  (r.epi.foldl go (r.productWidth, 0)).2 + (r.pro.foldl go (if r.isAttend then r.attend.dim else r.kDim, 0)).2

/-- Bytes of a product's right operand. For an ATTEND these are the K and V of its key tiles. -/
def Recs.rightBytes (r : Recs) : Nat :=
  if r.isAttend then
    r.keyTiles * 64 * ((Recs.fmtOf r.tyB).rowBytes r.attend.dim + (Recs.fmtOf r.tyC).rowBytes r.attend.dim)
  else r.kDim * (Recs.fmtOf r.tyB).rowBytes r.nCols

/-- T_feed of a CHAIN2, in clk times 125 × `FANOUT`. -/
def feedTime (p q : Recs) (mb : Nat) : Nat :=
  let fan := if p.hasChain then max p.chainRec.fanout 1 else 1
  let row := (Recs.fmtOf p.tyA).rowBytes (if p.isAttend then p.attend.dim else p.kDim) + p.operandRow + q.operandRow +
    (if q.localStore then (Recs.fmtOf q.resultType).rowBytes q.resultWidth else 0)
  2 * (p.rightBytes + q.rightBytes) + 2 * fan * mb * row

/-- R161: the limit that binds (0 Thresher, 1 Mill rate, 2 Loft space) and the largest time over T_thr
in 1/256, rounded down and held at its field's largest value. -/
def limitOf (env : CheckEnv) (p : Recs) (second : Option Recs) (mb : Nat) : Nat × Nat :=
  let fan := if p.hasChain then max p.chainRec.fanout 1 else 1
  let scale := 16384 * 125 * fan
  let thr := (p.threshTime env mb + match second with
    | some q => q.threshTime env mb
    | none => 0) * 125 * fan
  let mill := (p.millTime env mb + match second with
    | some q => q.millTime env mb
    | none => 0) * (scale / 256)
  let feed := match second with
    | some q => feedTime p q mb * 16384
    | none => 0
  let best := if mill ≤ thr && feed ≤ thr then (0, thr) else if feed ≤ mill then (1, mill) else (2, feed)
  (best.1, if thr = 0 then 65535 else min 65535 (256 * best.2 / thr))

end Sys2Proof.Machine
end

