-- ==== Sys2Proof/Machine/CheckOther.lean ====
section
/-! DEFINITION. Machine/CheckOther.lean: the issue checks of the other classes, the header check and the
whole check (R263–R271). -/
namespace Sys2Proof.Machine

/-! ### NORM, FUNC, MOVE convert -/

namespace Recs

/-- Input type, result type, rows and columns of a NORM, FUNC or MOVE convert. -/
def inType (r : Recs) : Nat := match r.cls with
  | 4 => r.b 16 17 | 5 => r.b 24 25 | _ => r.b 32 33
def outType (r : Recs) : Nat := if r.cls = 4 then r.b 18 19 else r.stage.store
def rows (r : Recs) : Nat := match r.cls with
  | 4 => r.b 28 31 | 5 => r.b 32 35 | _ => r.b 36 39
def cols (r : Recs) : Nat := match r.cls with
  | 4 => r.b 32 35 | 5 => r.b 36 39 | _ => r.b 40 43
def funcWord (r : Recs) : Nat := r.b 28 31
def norm (r : Recs) : NormControl := NormControl.ofWord (r.b 24 27)

/-- R276: layout of a NORM, FUNC or MOVE convert. -/
def rowBuffers (r : Recs) : Nat :=
  65536 * max (fmtOf r.inType).byteWidth (fmtOf r.outType).byteWidth +
    if r.cls = 4 then 0 else stageNeed r.stageTable [r.stage]

end Recs

/-- R276: a layout beyond the partition. DESIGN CHOICE: refused like a row beyond it, 0x2601 (log entry 30). -/
def layoutCodes (env : CheckEnv) (bytes : Nat) : List Nat :=
  cond (env.units != 0 && env.units < unitsFor bytes 0 0) 0x2601

/-- R120–R124. -/
def normCodes (env : CheckEnv) (r : Recs) : List Nat :=
  let nc := r.norm
  let n := r.cols
  let t := OpType.ofWord r.inType
  let c := Conv.ofWord env.defaults (r.b 20 21)
  typeCodes r.inType .millIn 1 n env.strict ++ typeCodes r.outType .millOut 0 n env.strict ++
  convCodes env.defaults (r.b 20 21) (Recs.fmtOf r.outType) env.strict ++
  cond (nc.bad || n == 0 || 2 ^ 20 < n) 0x2315 ++
  cond (r.rows == 0 || !r.onlyBytes [(16, 21), (24, 39)]) 0x2901 ++
  r.slotCodes [.address, .address, used nc.affine, used nc.affine, used nc.emit, used c.amaxRow, used (t.grain != 0),
    .value, .value] ++
  r.slotVa (List.range 7) ++ loftCodes env ++ layoutCodes env r.rowBuffers

/-- The context of a stage that is a command of its own. -/
def aloneCtx (env : CheckEnv) (r : Recs) (pl : Place) : StageCtx :=
  { place := pl, defaults := env.defaults, bank := env.bank, strict := env.strict, table := r.stageTable,
    tabled := r.tabKnown, rows := r.rows }

/-- R155, R438, R124: FUNC. -/
def funcCmdCodes (env : CheckEnv) (r : Recs) : List Nat :=
  let s := r.stage
  let t := OpType.ofWord r.inType
  let c := Conv.ofWord env.defaults s.conv
  typeCodes r.inType .millIn 1 r.cols env.strict ++
  stageCodes (aloneCtx env r .func) s r.inType t.fmt (t.grain != 0) true r.cols ++
  (if s.kind = 4 then cond (r.funcWord / 64 != 0) 0x2316 ++ cond (r.funcWord % 64 != s.arg) 0x2222
   else cond (r.funcWord != 0) 0x2901) ++
  cond (r.rows == 0 || r.cols == 0 || !r.onlyBytes [(16, 25), (28, 39)]) 0x2901 ++
  r.slotCodes [.address, .address, used (s.span != 0), used c.amaxRow, used (t.grain != 0), .value, .value] ++
  r.slotVa (List.range 5) ++ stageVa r.stageTable [s] ++ loftCodes env ++ layoutCodes env r.rowBuffers

/-- R54, R55, R155: MOVE convert. -/
def convertCodes (env : CheckEnv) (r : Recs) : List Nat :=
  let s := r.stage
  let t := OpType.ofWord r.inType
  let c := Conv.ofWord env.defaults s.conv
  typeFormCodes r.inType ++ cond (t.fmt == .fp64 && !env.strict) 0x2104 ++ cond (r.cols % t.fmt.group != 0) 0x2105 ++
  cond (t.grain != 0 && (t.grain != 1 || !scalable t.fmt)) 0x2106 ++
  stageCodes (aloneCtx env r .moveConvert) s r.inType t.fmt (t.grain != 0) true r.cols ++
  cond (r.rows == 0 || r.cols == 0 || !r.onlyBytes [(16, 16), (24, 33), (36, 43)]) 0x2901 ++
  r.slotCodes [.address, used (s.kind != 9), used (s.span != 0), used (s.rounds && c.amaxRow), used (t.grain != 0), .value, .value] ++
  r.slotVa (List.range 5) ++ stageVa r.stageTable [s] ++ loftCodes env ++ layoutCodes env r.rowBuffers

/-! ### The other MOVE forms -/

/-- R207: rows first … first + n − 1 against the partition. -/
def rangeCodes (env : CheckEnv) (first n : Nat) : List Nat :=
  if env.units = 0 then []
  else cond (env.units * 16 ≤ first) 0x2601 ++ cond (env.units * 16 < first + n) 0x2603

def fillCodes (env : CheckEnv) (r : Recs) : List Nat :=
  let mask := r.b 20 21
  cond (mask == 0 || r.b 28 31 == 0 || !r.onlyBytes [(16, 16), (20, 21), (24, 39)]) 0x2901 ++
  rangeCodes env (r.b 24 27) (r.b 28 31) ++ maskCodes env mask ++ semCodes env 2 (r.b 36 39) ++ loftCodes env

def copyCodes (env : CheckEnv) (r : Recs) : List Nat :=
  let mask := r.b 20 21
  let n := r.b 32 35
  cond (mask == 0 || n == 0 || !r.onlyBytes [(16, 16), (20, 21), (24, 39)]) 0x2901 ++
  rangeCodes env (r.b 24 27) n ++ rangeCodes env (r.b 28 31) n ++
  cond (env.units != 0 && State.meets (r.b 24 27) n (r.b 28 31) n) 0x2603 ++
  maskCodes env mask ++ semCodes env 2 (r.b 36 39) ++ loftCodes env

/-- R219, R237: a MOVE in transfer form. -/
def transferCodes (r : Recs) : List Nat :=
  let k := r.b 32 32
  let count := r.b 40 43
  cond (!r.onlyBytes [(16, 16), (24, 32), (36, 43)]) 0x2901 ++ cond (!vaOk (r.b 24 31)) 0x2801 ++
  cond (k < 4 || 16 < k || r.b 24 31 % 128 != 0 || count == 0 || 2 ^ k < count) 0x2703

/-! ### Granary commands (R181–R195) -/

/-- A sequence that a command reads or writes as resident. -/
def resident? (env : CheckEnv) (id : Nat) : Option Sequence :=
  match env.seq id with
  | none => none
  | some q => if q.pasid = env.pasid ∧ q.state = 1 then some q else none

/-- Slots of a KV_APPEND, or of a KV_GATHER to memory (R264, R195). -/
def kvSlots (r : Recs) (q : Option Sequence) : List Nat :=
  r.slotVa [0, 1, 2] ++
  match q with
  | none => cond (r.slot 0 == 0 || r.slot 1 == 0) 0x2901
  | some q =>
    r.slotCodes [.address, .address, used (q.ws != 0), .value, .value] ++ cond (q.ws == 0 && r.slot 2 != 0) 0x2501

def kvAppendCodes (env : CheckEnv) (r : Recs) : List Nat :=
  let w := r.kv
  let ow := bit w 3
  let id := r.b 20 21
  let atPos := r.b 24 27
  let n := r.b 28 31
  let q := resident? env id
  typeFormCodes (r.b 32 33) ++ typeFormCodes (r.b 34 35) ++
  cond (clearBit w 3 != 0 || n == 0 || 2 ^ 24 < n) 0x2501 ++ seqCodes env id ++
  (match q with
   | none => []
   | some q =>
     cond (r.b 32 33 != q.kType || r.b 34 35 != q.vType) 0x2505 ++
     (if q.layers ≤ r.layer then [0x2504]
      else if ow then cond (q.length r.layer < atPos + n) 0x2504
      else cond (atPos != q.length r.layer) 0x2504) ++
     cond (!ow && q.capacity < atPos + n) 0x2506) ++
  cond (!r.onlyBytes [(16, 22), (24, 35)]) 0x2901 ++ kvSlots r q

def kvGatherCodes (env : CheckEnv) (r : Recs) : List Nat :=
  let w := r.kv
  let loft := bit w 4
  let id := r.b 20 21
  let first := r.b 24 27
  let count := r.b 28 31
  let h0 := r.b 23 23
  let hs := r.b 32 32
  let mask := r.b 34 35
  let row := r.b 36 39
  let q := resident? env id
  cond (clearBit w 4 != 0 || count == 0 || hs == 0 || (!loft && !zeroBytes r.desc 33 39)) 0x2501 ++ seqCodes env id ++
  (match q with
   | none => []
   | some q =>
     cond (q.layers ≤ r.layer || q.heads < h0 + hs || q.length r.layer ≤ first) 0x2504 ++
     cond (first < q.length r.layer && q.length r.layer < first + count && q.capacity < first + count) 0x2506 ++
     cond (loft && env.units * 16 < row + ceilDiv count 64 * q.tileRows hs) 0x250B) ++
  (if loft then
     cond (first % 64 != 0 || mask == 0 || (env.units != 0 && (mask &&& env.clusters) != mask)) 0x250B ++
     cond (env.units != 0 && env.ctrs ≤ r.b 33 33) 0x2601 ++ loftCodes env
   else kvSlots r q) ++
  cond (!r.onlyBytes [(16, 39)]) 0x2901

/-- `OP` of a KV_SHARE (R181). -/
def Recs.kvOp (r : Recs) : Nat := bits r.kv 11 8

/-- R182, R195: KV_SHARE. Items that do not apply to the operation count as malformed (0x2501). The pool,
the identities and the reference limits are checked when the operation is carried out. -/
def kvShareCodes (env : CheckEnv) (r : Recs) : List Nat :=
  let w := r.kv
  let op := r.kvOp
  let id := r.b 20 21
  let items (z : List (Nat × Nat)) : Bool := z.any fun p => !zeroBytes r.desc p.1 p.2
  let all := bit w 12
  -- control bits that the operation may carry
  let other := w - bits w 11 8 * 256 - (if op = 3 then boolNat all * 4096 else 0) -
    (if op = 4 then bits w 17 13 * 8192 else 0)
  let inapplicable : List (Nat × Nat) := match op with
    | 0 => [(20, 22), (24, 27), (40, 47)]
    | 1 => [(22, 23), (32, 37), (40, 47)]
    | 2 | 4 => [(22, 37), (40, 47)]
    | 3 => [(23, 23), (28, 37), (40, 47)] ++ (if all then [(22, 22)] else [])
    | _ => [(22, 37)]
  let q := resident? env id
  cond (other != 0 || 5 < op || bits w 17 16 == 3 || items inapplicable) 0x2501 ++
  cond (!r.onlyBytes [(16, 37), (40, 47)]) 0x2901 ++
  match op with
  | 0 =>
    typeFormCodes (r.b 32 33) ++ typeFormCodes (r.b 34 35) ++ cond (r.b 23 23 == 0 || r.b 36 36 == 0) 0x2501 ++
    cond (geometryBad (r.b 32 33) (r.b 34 35) (r.b 37 37) (r.b 23 23) (r.b 36 36) (r.b 28 31)) 0x250A
  | 1 =>
    seqCodes env id ++ cond (r.b 28 31 < r.b 24 27) 0x2506 ++
    (match q with
     | none => []
     | some q => cond (geometryBad q.kType q.vType q.dim q.heads q.layers (r.b 28 31)) 0x250A)
  | 3 =>
    seqCodes env id ++
    (match q with
     | none => []
     | some q => if all then [] else if q.layers ≤ r.layer then [0x2504] else cond (q.length r.layer < r.b 24 27) 0x2504)
  | 4 => seqCodes env id
  | 2 => (seqCodes env id).filter (· != 0x2503)
  | 5 => (seqCodes env id).filter (· != 0x2503) ++ cond (r.b 40 47 % 64 != 0) 0x2501 ++ cond (!vaOk (r.b 40 47)) 0x2801
  | _ => []

/-! ### SYNC, TABLE, DUMP, TIMED, FENCE, DICT -/

/-- R269, R271. -/
def syncCodes (env : CheckEnv) (r : Recs) : List Nat :=
  let mask := r.b 20 21
  match r.form with
  | 0 => cond (mask == 0 || !r.onlyBytes [(16, 16), (20, 21), (24, 27)]) 0x2901 ++ semCodes env 0 (r.b 24 27) ++
      maskCodes env mask ++ loftCodes env
  | 1 => cond (mask == 0 || !r.onlyBytes [(16, 16), (20, 21), (24, 24), (28, 35)]) 0x2901 ++
      cond (env.units != 0 && env.ctrs ≤ r.b 24 24) 0x2601 ++ maskCodes env mask ++ loftCodes env
  | 2 | 3 | 4 =>
    cond (!r.onlyBytes [(16, 16), (32, 47)] || (vaOk (r.b 40 47) && r.b 40 47 % 8 != 0)) 0x2901 ++ cond (!vaOk (r.b 40 47)) 0x2801
  | _ => [0x2901]

/-- What the checks of TABLE, DUMP, TIMED and SEAL ask of the rest of the engine. -/
structure EngineFacts where
  tablePasid : Nat := 0xFFFFFFFF
  sealOk : Bool := true
  dumpScope : Bool := false
  /-- cadence inputs enabled (mask) -/
  inputs : Nat := 0

/-- R117, R266. -/
def tableCodes (f : EngineFacts) (env : CheckEnv) (r : Recs) : List Nat :=
  cond (f.tablePasid != env.pasid) 0x2306 ++ cond (31 < r.form || !r.onlyBytes [(16, 16), (24, 31)]) 0x2901 ++
  cond (!vaOk (r.b 24 31)) 0x2801

/-- R407: the record's own checks are made when the record has been read. -/
def dumpCodes (f : EngineFacts) (r : Recs) : List Nat :=
  cond (!r.onlyBytes [(16, 23)]) 0x2901 ++ cond (!vaOk (r.b 16 23)) 0x2801 ++ cond (!f.dumpScope) 0x2D22 ++
  cond (vaOk (r.b 16 23) && r.b 16 23 % 64 != 0) 0x2E01

/-- R266, R271, R293, R300: a reserved byte of the body, or a listed one that the enables leave unused, holds 0x2901, which is
lower than R300's 0x2A01; a reserved bit of byte 16 holds 0x2A01 alone (log entry 31). -/
def timedCodes (f : EngineFacts) (r : Recs) : List Nat :=
  let w := r.form
  let rel := bit w 2
  let dl := bit w 3
  let unused := !r.onlyBytes [(16, 16), (24, 39)] || (!rel && !zeroBytes r.desc 24 31) || (!dl && !zeroBytes r.desc 32 39)
  cond unused 0x2901 ++ cond (unused || bits w 7 5 != 0 || (!rel && !dl)) 0x2A01 ++
  cond (((rel && !bit w 4) || dl) && !bit f.inputs (bits w 1 0)) 0x2A02

def dictCodes (r : Recs) : List Nat :=
  cond (1 < r.b 19 19 || !r.onlyBytes [(16, 31)]) 0x2901 ++ cond (!vaOk (r.b 24 31)) 0x2801

/-! ### The whole check (R270) -/

/-- R263, R264, R271: header and argument address. -/
def headerCodes (f : EngineFacts) (r : Recs) : List Nat :=
  let a := r.argAddr
  cond (bits (r.b 0 3) 31 7 != 0 || r.cls == 0 || (r.strict && (6 < r.cls || (r.cls == 6 && r.form != 3))) ||
    (vaOk a && (r.needsArgs != (a != 0) || a % 64 != 0))) 0x2901 ++
  cond (!vaOk a) 0x2801 ++ cond (r.sealed && !f.sealOk) 0x2D20

/-- R270: the codes of a class. A record that could not be read gives none of its own. -/
def bodyCodes (f : EngineFacts) (env : CheckEnv) (r : Recs) (prods : List Recs) : List Nat :=
  let alone (r : Recs) : List Nat := loftCodes env ++ if r.hasChain && r.needKnown then mbCodes env r none else []
  match r.cls with
  | 1 => attendCodes env r false false ++ alone r
  | 2 => gemmCodes env r false false none ++ alone r
  | 3 => chain2Codes env r prods ++ loftCodes env
  | 4 => normCodes env r
  | 5 => funcCmdCodes env r
  | 6 => (match r.form with
    | 0 => transferCodes r
    | 1 => fillCodes env r
    | 2 => copyCodes env r
    | 3 => convertCodes env r
    | _ => [0x2901])
  | 7 => kvAppendCodes env r
  | 8 => kvGatherCodes env r
  | 9 => kvShareCodes env r
  | 10 => syncCodes env r
  | 11 => tableCodes f env r
  | 12 => dumpCodes f r
  | 13 => timedCodes f r
  | 14 => cond (1 < r.form || !r.onlyBytes [(16, 16)]) 0x2901
  | 15 => dictCodes r
  | _ => []

/-- R271: on a queue with no Loft, 0x2902 takes the place of 0x2601–0x2604. -/
def noLoft (env : CheckEnv) (cs : List Nat) : List Nat :=
  if env.units = 0 then cs.filter fun c => !(0x2601 ≤ c && c ≤ 0x2604) else cs

/-- R270: every code that refuses a command. -/
def checkCodes (f : EngineFacts) (env : CheckEnv) (r : Recs) (prods : List Recs) : List Nat :=
  headerCodes f r ++ noLoft env (bodyCodes f env r prods)

/-! ### Loft need (R276) -/

/-- Units that a command needs. DESIGN CHOICE: a SYNC on semaphores or counters names no row and needs one unit, so that its
queue has a partition to hold them (log entry 169). -/
def needUnits (env : CheckEnv) (r : Recs) (prods : List Recs) : Nat :=
  let prod (p : Recs) : Nat :=
    let named := p.namedRows env
    let last := if named = 0 then 0 else p.ringFirst + named
    let bytes := if p.hasChain then chainNeed env p none ((chooseMb env p none).getD 64) else p.buffers env + p.spillBytes env
    unitsFor bytes named last
  match r.cls with
  | 1 | 2 => prod r
  | 3 =>
    let p := prods.getD 0 {}
    let q := prods.getD 1 {}
    let named := p.namedRows env
    unitsFor (chainNeed env p (some q) ((chooseMb env p (some q)).getD 64)) named (if named = 0 then 0 else p.ringFirst + named)
  | 4 | 5 => unitsFor r.rowBuffers 0 0
  | 6 => (match r.form with
    | 1 => unitsFor 0 0 (r.b 24 27 + r.b 28 31)
    | 2 => unitsFor 0 0 (max (r.b 24 27) (r.b 28 31) + r.b 32 35)
    | 3 => unitsFor r.rowBuffers 0 0
    | _ => 0)
  | 8 => if bit r.kv 4 then (match env.seq (r.b 20 21) with
      | some q => unitsFor 0 0 (r.b 36 39 + ceilDiv (r.b 28 31) 64 * q.tileRows (r.b 32 32))
      | none => 0) else 0
  -- a semaphore or counter stands in a partition, so that the queue has one
  | 10 => if r.form ≤ 1 then 1 else 0
  | _ => 0

end Sys2Proof.Machine
end

