-- ==== Sys2Proof/Machine/Tiles.lean ====
section
/-! DEFINITION. Machine/Tiles.lean: a Thresher at work on output tiles (04_thresher.md, R68–R70, R87–R92): stationary banks,
the Loft port, accumulator slots, loop orders and spill. By R16 and R89 none of it changes a result bit. DESIGN CHOICE: a
command's tiles are all taken in turn by one logical Thresher (R14; log entry 145). -/
namespace Sys2Proof.Machine

/-! ### Stationary banks and the Loft port -/

namespace Thresher

/-- R69: a load writes the idle bank, never the active one. -/
def load (u : Thresher) (tile : List (List Nat)) : Thresher :=
  if u.active = 0 then { u with bank1 := tile } else { u with bank0 := tile }

/-- R69: the banks swap at a tile boundary. -/
def swap (u : Thresher) : Thresher := { u with active := 1 - u.active }

/-- The tile that the array streams against. -/
def stationaryTile (u : Thresher) : List (List Nat) := if u.active = 0 then u.bank0 else u.bank1

/-- R70: priority at the port, the smallest first. -/
def portRank : PortUse → Nat
  | .stationary => 0 | .stream => 1 | .accInit => 2 | .spill => 3 | .restore => 4

def request (u : Thresher) (p : PortUse) (rows : Nat) : Thresher :=
  if rows = 0 then u else { u with port := u.port ++ [(p, rows)] }

/-- R70: the port serves the first waiting transfer of the highest priority. -/
def serve (u : Thresher) : Thresher :=
  match [PortUse.stationary, .stream, .accInit, .spill, .restore].find? fun p => u.port.any fun t => t.1 == p with
  | none => u
  | some p => { u with port := u.port.eraseP fun t => t.1 == p }

/-- The port carries everything that waits. -/
def serveAll (u : Thresher) : Thresher := u.port.foldl (fun u _ => u.serve) u

/-- Load a stationary tile of some Loft rows and swap to it. -/
def loadSwap (u : Thresher) (tile : List (List Nat)) (rows : Nat) : Thresher :=
  (((u.request .stationary rows).serveAll).load tile).swap

/-! ### Slots -/

def slot (u : Thresher) (i : Nat) : AccSlot := u.slots.getD i {}

def setSlot (u : Thresher) (i : Nat) (a : AccSlot) : Thresher := { u with slots := u.slots.set i a }

/-- Slots that a tile occupies: one, or a pair for FP64 (R87). -/
def taken (fp64 : Bool) (i : Nat) : List Nat := if fp64 then [i, i + 1] else [i]

/-- R88: the lowest-numbered free slot, or pair. -/
def freeSlot (u : Thresher) (fp64 : Bool) : Option Nat :=
  (if fp64 then [0, 2, 4, 6] else List.range 8).find? fun i => (taken fp64 i).all fun j => (u.slot j).state == .free

/-- Put a slot, with the other of its pair, into a state. -/
def mark (u : Thresher) (fp64 : Bool) (i : Nat) (st : SlotState) : Thresher :=
  (taken fp64 i).foldl (fun u j => u.setSlot j { u.slot j with state := st }) u

end Thresher

/-! ### Spill images (R91) -/

/-- A spill image: Loft rows as bytes. DESIGN CHOICE: R91 puts the tally column and the flags of an FP64 tile into one
row, which the tally column fills; `aside` holds those flags (log entry 146). -/
structure SpillImage where
  bytes : List Byte
  aside : Nat × Nat × Nat := (0, 0, 0)
  deriving DecidableEq, Repr

/-- The first `n` elements of a list, completed with a value. -/
def fillTo {α : Type} (n : Nat) (z : α) (l : List α) : List α := (l ++ List.replicate n z).take n

/-- R91: the image of a slot, each row of the tile 64 codes wide. -/
def spillImage (fp64 : Bool) (a : AccSlot) : SpillImage :=
  let w := if fp64 then 8 else 4
  let codes (l : List Nat) : List Byte := (fillTo 64 0 l).flatMap (leBytes w)
  let tile := (fillTo 64 [] a.tile).flatMap codes
  let side := (fillTo 64 (0, 0) a.side).flatMap fun p => leBytes 4 p.1 ++ leBytes 4 p.2
  if fp64 then { bytes := tile ++ codes a.tally ++ side, aside := (a.ieee, a.conv, a.groups) }
  else { bytes := tile ++ codes a.tally ++ leBytes 1 a.ieee ++ leBytes 1 a.conv ++ leBytes 6 a.groups ++
           List.replicate 248 0 ++ side }

/-- R91: the slot that an image restores. -/
def restoreImage (fp64 : Bool) (m : SpillImage) (st : SlotState) : AccSlot :=
  let w := if fp64 then 8 else 4
  let code (off i : Nat) : Nat := field m.bytes (off + w * i) (off + w * i + w - 1)
  let tallyAt := 4096 * w
  let sideAt := tallyAt + 512
  { state := st, tile := (List.range 64).map fun i => (List.range 64).map fun j => code (64 * w * i) j,
    tally := (List.range 64).map (code tallyAt),
    side := (List.range 64).map fun i => (field m.bytes (sideAt + 8 * i) (sideAt + 8 * i + 3),
      field m.bytes (sideAt + 8 * i + 4) (sideAt + 8 * i + 7)),
    ieee := if fp64 then m.aside.1 else field m.bytes (tallyAt + 256) (tallyAt + 256),
    conv := if fp64 then m.aside.2.1 else field m.bytes (tallyAt + 257) (tallyAt + 257),
    groups := if fp64 then m.aside.2.2 else field m.bytes (tallyAt + 258) (tallyAt + 263) }

/-! ### A product, tile by tile -/

/-- What the tiles of one product are computed from: the operands as the array takes them, the stationary codes by
reduction element, initial accumulator values, and the tally column's products of a left row. -/
structure TileWork where
  path : Path
  strict : Bool
  round : Round
  both8 : Bool
  tally : Bool
  left : List OperandRow
  right : List OperandRow
  /-- products of each left row with the ones of the tally column (R84) -/
  ones : List (List (Val × Val))
  start : Nat → Nat → Acc
  /-- stationary codes: reduction element, columns -/
  codes : List (List Nat)
  /-- element bits of the streaming and the stationary operand -/
  leftBits : Nat
  rightBits : Nat

namespace TileWork

def fp64 (w : TileWork) : Bool := w.path == .strict64
def m (w : TileWork) : Nat := w.left.length
def n (w : TileWork) : Nat := w.right.length
def k (w : TileWork) : Nat := w.codes.length
/-- Indices of tile `t` of a dimension. -/
def span (t size : Nat) : List Nat := ((List.range 64).map (64 * t + ·)).filter (· < size)

def codeOf (w : TileWork) (v : Val) : Nat := exactCode w.path.accFmt v
def valueOf (w : TileWork) (c : Nat) : Val :=
  if w.path = .int then Val.ofInt (signed c 32) else decodeFloat w.path.accFmt c

/-- The part of a row of operands at reduction elements `k0` to `k0` + 63. -/
def cut (k0 : Nat) (o : OperandRow) : OperandRow := { codes := (o.codes.drop k0).take 64, vals := (o.vals.drop k0).take 64 }

/-- A fresh tile of output tile (mt, nt): the initial values in part 0, else +0 (R75, R92). -/
def fresh (w : TileWork) (first : Bool) (mt nt : Nat) : AccSlot :=
  let rows := span mt w.m
  { tile := rows.map fun i => (span nt w.n).map fun j => w.codeOf (if first then (w.start i j).val else .zero false),
    tally := rows.map fun _ => w.codeOf (.zero false), side := rows.map fun _ => (0, 0) }

/-- R68, R79, R81, R83: stream the left rows of tile row `mt` against the stationary tile (kt, nt) into a slot. -/
def stream (w : TileWork) (mt nt kt : Nat) (a : AccSlot) : AccSlot :=
  let k0 := 64 * kt
  let add (c : Nat) (ps : List (Val × Val)) : Acc := reducePart w.path w.strict w.round { val := w.valueOf c } ps
  let rows := span mt w.m
  let cols := (span nt w.n).map fun j => cut k0 (w.right.getD j {})
  let out := rows.zipIdx.map fun ir =>
    let l := cut k0 (w.left.getD ir.1 {})
    (List.zip cols (a.tile.getD ir.2 [])).map fun rc => add rc.2 (pairs w.path w.both8 l rc.1)
  let tal := rows.zipIdx.map fun ir =>
    if w.tally then add (a.tally.getD ir.2 0) (((w.ones.getD ir.1 []).drop k0).take 64) else {}
  let g := gatherAll ((out.flatten ++ tal).map Acc.g)
  { a with
    tile := out.map fun r => r.map fun c => w.codeOf c.val, tally := tal.map fun c => w.codeOf c.val,
    ieee := a.ieee ||| g.ieee.word, conv := a.conv ||| g.conv.word,
    groups := a.groups + ceilDiv (min 64 (w.k - k0)) 32 }

/-- Codes of the stationary tile (kt, nt), and its Loft rows. -/
def stationary (w : TileWork) (kt nt : Nat) : List (List Nat) :=
  (span kt w.k).map fun i => ((w.codes.getD i []).drop (64 * nt)).take 64
def stationaryRows (w : TileWork) : Nat := ceilDiv (64 * 64 * w.rightBits) 4096
/-- Loft rows of 64 streaming rows. -/
def streamRows (w : TileWork) : Nat := ceilDiv (64 * 64 * w.leftBits) 4096

end TileWork

/-- A Thresher running a block: its spill area, one image per tile of the block that does not stay resident, and the
images written so far. -/
structure BlockRun where
  u : Thresher
  images : Table SpillImage := []
  written : Nat := 0
  deriving DecidableEq, Repr

/-- R91: the first C − 1 tiles of a block that spills stay resident, every tile of one that does not. -/
def residentTiles (fp64 : Bool) (live : Nat) : Nat := if live ≤ slotCapacity fp64 then live else slotCapacity fp64 - 1

/-- R88: a tile begins in the lowest-numbered free slot. -/
def BlockRun.begin (w : TileWork) (b : BlockRun) (a : AccSlot) (initRows : Nat) : BlockRun :=
  match b.u.freeSlot w.fp64 with
  | none => b
  | some i =>
    let u := ((b.u.request .accInit initRows).serveAll).mark w.fp64 i .accumulating
    { b with u := u.setSlot i { a with state := .accumulating } }

/-- R88, R91: the tile at place `t` of the block takes its turn in the swap slot `i`: restored from its image unless it
is fresh, streamed, and written out again. -/
def BlockRun.turn (w : TileWork) (b : BlockRun) (i t mt nt kt : Nat) (freshTile : AccSlot) : BlockRun :=
  let rows := if w.fp64 then 66 else 34
  let a := match Table.find? t b.images with
    | some m => restoreImage w.fp64 m .swap
    | none => { freshTile with state := .swap }
  let u1 := if (Table.find? t b.images).isSome then b.u.request .restore rows else b.u
  let a1 := w.stream mt nt kt a
  let u2 := ((((u1.request .stream w.streamRows).request .spill rows).serveAll).mark w.fp64 i .swap).setSlot i a1
  { u := u2, images := Table.put t (spillImage w.fp64 a1) b.images, written := b.written + 1 }

/-- R88: a slot drains and is free once its last row has been drained; what it held stays until a tile begins in it. -/
def BlockRun.drainSlot (w : TileWork) (b : BlockRun) (i : Nat) : BlockRun :=
  { b with u := (b.u.mark w.fp64 i .draining).mark w.fp64 i .free }

/-- One block: tile rows `mts` of column tile `nt` over the reduction tiles `kts` of a part (R89, R91). The slot of the
tile at place `t` is `t`, or the pair from 2t, since a block begins with every slot free. -/
def BlockRun.block (w : TileWork) (first : Bool) (kts : List Nat) (nt initRows : Nat) (b : BlockRun) (mts : List Nat) :
    BlockRun :=
  let res := residentTiles w.fp64 mts.length
  let at_ (t : Nat) : Nat := if w.fp64 then 2 * t else t
  let ir := if first then initRows else 0
  let b1 := (mts.take res).foldl (fun b mt => b.begin w (w.fresh first mt nt) ir) { b with images := [] }
  let b2 := kts.foldl (fun b kt =>
    let b0 : BlockRun := { b with u := b.u.loadSwap (w.stationary kt nt) w.stationaryRows }
    mts.zipIdx.foldl (fun b mt =>
      if mt.2 < res then
        let u := (b.u.request .stream w.streamRows).serveAll
        { b with u := u.setSlot (at_ mt.2) (w.stream mt.1 nt kt (u.slot (at_ mt.2))) }
      else b.turn w (at_ res) mt.2 mt.1 nt kt (w.fresh first mt.1 nt)) b0) b1
  let b3 := (List.range res).foldl (fun b t => b.drainSlot w (at_ t)) b2
  (mts.drop res).zipIdx.foldl (fun b mt =>
    let a := match Table.find? (res + mt.2) b.images with
      | some m => restoreImage w.fp64 m .draining
      | none => w.fresh first mt.1 nt
    { b with u := b.u.setSlot (at_ res) a }.drainSlot w (at_ res)) b3

/-- Blocks of tile rows under a product control word. -/
def tileBlocks (pc : ProductControl) (m : Nat) : List (List Nat) :=
  let tiles := ceilDiv m 64
  let size := liveTiles pc
  (List.range (ceilDiv tiles size)).map fun b => ((List.range size).map (b * size + ·)).filter (· < tiles)

/-- R89–R92: a product on one Thresher: part by part, block by block, column tile by column tile. The answer is the
Thresher afterwards and the spill images written. -/
def tileRun (w : TileWork) (pc : ProductControl) (initRows : Nat) (u : Thresher) : Thresher × Nat :=
  let c := ceilDiv (ceilDiv w.k 64) pc.parts
  let b := (List.range pc.parts).foldl (fun b p =>
    let kts := ((List.range c).map (p * c + ·)).filter (· < ceilDiv w.k 64)
    (tileBlocks pc w.m).foldl (fun b mts =>
      (List.range (ceilDiv w.n 64)).foldl (fun b nt => b.block w (p == 0) kts nt initRows mts) b) b)
    ({ u := u } : BlockRun)
  (b.u, b.written)

/-! ### ATTEND (R129, R136) -/

/-- Row state of one Q tile as its output slots hold it: accumulators, l and the FP32 code of μ. -/
structure OutputRow where
  acc : List Nat
  l : Nat
  mu : Nat
  deriving DecidableEq, Repr

/-- R136: the D/64 output slots of a Q tile; the first carries l and μ. -/
def outputSlots (d : Nat) (rows : List OutputRow) : List AccSlot :=
  (List.range (d / 64)).map fun j =>
    { tile := rows.map fun r => (r.acc.drop (64 * j)).take 64,
      tally := rows.map fun r => if j = 0 then r.l else 0,
      side := rows.map fun r => if j = 0 then (r.mu, 0) else (0, 0) }

/-- The Thresher after an ATTEND: the stationary tiles of its key tiles loaded in turn, the output slots of its last group
of Q tiles as they drained, each Q tile's score slot before its output slots (R136). -/
def attendUnit (d : Nat) (stationary : List (List (List Nat))) (rowsOf : Nat) (group : List (List OutputRow)) (u : Thresher) :
    Thresher :=
  let u1 := stationary.foldl (fun u t => u.loadSwap t rowsOf) u
  let tiles := (group.map fun g => ({} : AccSlot) :: outputSlots d g).flatten
  (tiles.zipIdx.filter fun t => t.2 < 8).foldl (fun u t => u.setSlot t.2 { t.1 with state := .free }) u1

end Sys2Proof.Machine
end

