-- ==== Sys2Proof/Machine/Product.lean ====
section
/-! DEFINITION. Machine/Product.lean: the whole work of a GEMM, an ATTEND and a CHAIN2 as a function of
what the command reads (04_thresher.md, 06_attention.md, 07_fused_chains.md). Nothing here depends on
placement or order (R16). -/
namespace Sys2Proof.Machine

/-- What a command runs with: its mode, the samples of its issue (R52, R116, R127, R192), task memory and
the sequences and sheaves it reads. -/
structure WorkEnv where
  strict : Bool := false
  defaults : ConvDefaults := {}
  bank : BankView := {}
  form : Nat := 0
  read : Reader := fun _ n => List.replicate n 0
  seq : Nat → Option Sequence := fun _ => none
  /-- bytes of K, V and K scale of a token: sequence, layer, head, position, sampled length -/
  token : Sequence → Nat → Nat → Nat → Nat → List Byte × List Byte × List Byte := fun _ _ _ _ _ => ([], [], [])
  /-- sampled committed lengths, by segment -/
  lengths : List Nat := []
  /-- tiles of a gated ring, in order, as their Loft rows' bytes (R168) -/
  ring : List (List Byte) := []
  /-- the logical Thresher that the tiles are taken on -/
  unit : Thresher := {}

def WorkEnv.stages (x : WorkEnv) (tab : List OpEntry) : StageEnv :=
  { strict := x.strict, defaults := x.defaults, bank := x.bank, table := tab, read := x.read }

/-- What a command writes and reports. -/
structure Plan where
  writes : List Write := []
  /-- tiles of a `SEND` (R170): offset in the window and bytes -/
  sends : List Write := []
  g : Gather := {}
  /-- the amax of the completion record (R62), and whether a conversion of the command gathers one for it -/
  amax : Nat := 0
  gathers : Bool := false
  /-- R438: a `ROTARY` position outside its table -/
  badPos : Bool := false
  /-- result rows, for a hand-over -/
  rows : List Row := []
  /-- the Thresher after the products -/
  unit : Thresher := {}
  /-- deliveries of keys and values out of the Granary -/
  kv : List KvRead := []
  deriving DecidableEq, Repr

/-! ### Tensors in task memory -/

/-- Addresses and lengths of the rows of a tensor; a stride of 0 packs them (R264). -/
def rowRanges (f : Fmt) (addr stride rows n : Nat) : List (Nat × Nat) :=
  let len := f.rowBytes n
  (List.range rows).map fun i => (addr + i * (if stride = 0 then len else stride), len)

def rowCodes (f : Fmt) (n : Nat) (b : List Byte) : List Nat := (List.range n).map (elementCode f b)

def tensorRows (rd : Reader) (f : Fmt) (addr stride rows n : Nat) : List (List Nat) :=
  (rowRanges f addr stride rows n).map fun a => rowCodes f n (rd a.1 a.2)

/-- Scale bytes of a vector of `n` scales. -/
def scaleRange (t : OpType) (addr n : Nat) : List (Nat × Nat) := if t.grain = 0 then [] else [(addr, n * scaleBytes t)]

def scaleCodes (rd : Reader) (t : OpType) (addr n : Nat) : List Nat :=
  if t.grain = 0 then [] else (List.range n).map fun i => leNat (rd (addr + i * scaleBytes t) (scaleBytes t))

def transpose (n : Nat) (rows : List (List Nat)) : List (List Nat) := (List.range n).map fun j => column rows j

/-- Result rows at an address (R264). -/
def storeRows (addr stride : Nat) (rows : List Row) : List Write :=
  rows.zipIdx.map fun ri =>
    let len := ri.1.ty.fmt.rowBytes ri.1.codes.length
    (addr + ri.2 * (if stride = 0 then len else stride), packRow ri.1.ty.fmt ri.1.codes)

/-! ### The left operand -/

namespace Recs

/-- Reads of the streaming operand from memory. -/
def leftReads (r : Recs) (second : Bool) : List (Nat × Nat) :=
  if second || r.merge? then []
  else if r.isAttend then
    rowRanges (fmtOf r.tyA) (r.slot 0) (r.slot 9) r.mRows r.attend.dim ++ scaleRange (OpType.ofWord r.tyA) (r.slot 8) r.mRows
  else
    (if r.ringed then []
     else if r.control.leftMajor then rowRanges (fmtOf r.tyA) (r.slot 0) (r.slot 8) r.kDim r.mRows
     else rowRanges (fmtOf r.tyA) (r.slot 0) (r.slot 8) r.mRows r.kDim) ++
    scaleRange (OpType.ofWord r.tyA) (r.slot 4) r.mRows

/-- Rows of the streaming operand, before the prologue. -/
def leftRows (r : Recs) (x : WorkEnv) : List Row :=
  let t := OpType.ofWord r.tyA
  let m := r.mRows
  let n := if r.isAttend then r.attend.dim else r.kDim
  let codes :=
    if r.isAttend then tensorRows x.read t.fmt (r.slot 0) (r.slot 9) m n
    else if r.ringed then
      -- R168: 64 rows to a tile, each in whole Loft rows
      let per := 512 * ceilDiv (t.fmt.rowBytes n) 512
      (List.range m).map fun i => rowCodes t.fmt n (slice (x.ring.getD (i / 64) []) (i % 64 * per) per)
    else if r.control.leftMajor then transpose m (tensorRows x.read t.fmt (r.slot 0) (r.slot 8) n m)
    else tensorRows x.read t.fmt (r.slot 0) (r.slot 8) m n
  let sc := scaleCodes x.read t (if r.isAttend then r.slot 8 else r.slot 4) m
  codes.zipIdx.map fun ci => { ty := t, codes := ci.1, scale := sc[ci.2]? }

/-- The operand as the Thresher streams it (R158). -/
def streamed (r : Recs) (x : WorkEnv) (rows : List Row) : TensorOut := runRows (x.stages r.chainRec.table) r.pro rows

end Recs

def toTensor (w : Nat) (rows : List Row) : Tensor :=
  { ty := OpType.ofWord w, rows := rows.map Row.codes, scales := rows.filterMap Row.scale }

/-! ### Epilogues and results -/

/-- R170: epilogue stages as they store: a `SEND` with `ARG`[0] set leaves out the store of planes before it. -/
def Recs.storing (r : Recs) : List StageWord :=
  if r.epi.any fun s => s.kind == 10 && bit s.arg 0 then r.epi.filter fun s => s.kind != 9 else r.epi

/-- The stages after a product, the result's destination and its window tiles. `entered` are the rows that
enter the epilogue; `out` and `stride` place the result, `stored` says whether it is stored there. -/
def finishProduct (r : Recs) (x : WorkEnv) (entered : List Row) (out stride : Nat) (stored : Bool) : Plan :=
  let t := runRows (x.stages r.chainRec.table) r.epi entered
  let planar := r.epi.find? fun s => s.kind == 9
  let send := r.epi.find? fun s => s.kind == 10
  { writes := t.writes ++ (if stored then storeRows out stride t.rows else []) ++
      (match r.storing.find? fun s => s.kind == 9 with
       | some s => planarWrites (s.entry r.chainRec.table 0) t.rows
       | none => []),
    sends := (match send with
      | some _ => sendTiles planar.isSome t.rows
      | none => []),
    g := t.g, amax := amaxCode t.amax, gathers := asksAmax x.defaults r.epi, badPos := t.badPos, rows := t.rows }

/-! ### GEMM -/

/-- Reads of a GEMM, its stages included. -/
def gemmReads (rd : Reader) (r : Recs) (second : Bool) : List (Nat × Nat) :=
  let tB := OpType.ofWord r.tyB
  r.leftReads second ++ rowRanges tB.fmt (r.slot 1) (r.slot 9) r.kDim r.nCols ++ scaleRange tB (r.slot 5) r.nCols ++
  (if r.control.accInit then rowRanges (Recs.fmtOf r.tyC) (r.slot 2) (r.slot 10) r.mRows r.nCols else []) ++
  stagesReads r.chainRec.table r.mRows rd r.pro r.kDim ++ stagesReads r.chainRec.table r.mRows rd r.epi r.nCols

/-- R75: initial accumulator values. -/
def accStart (x : WorkEnv) (r : Recs) : Nat → Nat → Acc :=
  if r.control.accInit then
    let t := OpType.ofWord r.tyC
    let rows := tensorRows x.read t.fmt (r.slot 2) (r.slot 10) r.mRows r.nCols
    fun m n =>
      let v := readElem t.fmt t.uns x.strict ((rows.getD m []).getD n 0)
      { val := v.val, g := ({} : Gather).element v.conv {} }
  else fun _ _ => {}

/-- One row of drained values delivered into D (R54, R55), and its amax. -/
def deliverRow (x : WorkEnv) (t : OpType) (c : Conv) (vs : List Val) : RowOut :=
  vs.foldl (fun o v => o.push t c x.strict c.gathers { val := v } Val.one {} {}) ({} : RowOut)

/-- R62: a per-row amax vector. -/
def rowAmaxWrites (use : Bool) (addr : Nat) (amaxes : List Val) : List Write :=
  if use then amaxes.zipIdx.map fun ai => (addr + 4 * ai.2, leBytes 4 (amaxCode ai.1)) else []

/-- R62: the amax of the completion record. DESIGN CHOICE: where two conversions of a command gather a per-tensor amax,
the later one's is reported (log entry 144); a plan that gathers none takes the earlier `other`. -/
def Plan.orAmax (p : Plan) (gathers : Bool) (other : Val) : Plan :=
  if p.gathers then p else { p with amax := if gathers then amaxCode other else 0, gathers := gathers }

/-- R80: the conversion word that governs a GEMM's result: its own, or the last rounding epilogue stage's, whose `STORE`
type D repeats (R267). DEDUCED: log entry 148. -/
def Recs.governing (r : Recs) : Nat :=
  match (r.epi.filter StageWord.rounds).getLast? with
  | some s => s.conv
  | none => r.conv

/-- R163: words 0 and 1 of the side store of column tile 0, where a deferred stage runs on the held codes of a row: S1
and S2 of `NORMALISE`, or the amax of `QUANTISE`. `entered` are the rows that enter the epilogue. -/
def deferredSide (x : WorkEnv) (r : Recs) (entered : List Row) : List (Nat × Nat) :=
  match r.epi.find? StageWord.deferred with
  | none => []
  | some s =>
    let env := x.stages r.chainRec.table
    let rows := (runRows env (r.epi.takeWhile fun s => !s.deferred) entered).rows
    rows.map fun row =>
      if s.kind = 7 then
        let nc := NormControl.ofWord (s.arg * 16)
        let xs := (workRow (if x.strict then .fp64 else .fp32) x.strict row).1
        let p : Val := if nc.pilot && !nc.rms then xs.headD (.zero false) else .zero false
        let sums := rowSums x.strict p xs
        (exactCode .fp32 sums.1, exactCode .fp32 sums.2.1)
      else (amaxCode (rowAmax ((exactRow x.strict row).1.map Prod.fst)), 0)

/-- The side store of the slot that held column tile 0 of the last block. -/
def withSide (u : Thresher) (side : List (Nat × Nat)) : Thresher :=
  if side.isEmpty then u else u.setSlot 0 { u.slot 0 with side := side }

/-- The tiles of a GEMM's product (R68–R70, R87–R92). -/
def gemmTiles (cfg : ProductCfg) (A B : Tensor) (cols : Nat) (start : Nat → Nat → Acc) : TileWork :=
  let ops := readOperands cfg A B cols
  let codes := if cfg.path = .log then transpose B.rows.length (ops.right.map OperandRow.codes) else B.rows
  { path := cfg.path, strict := cfg.strict, round := cfg.round, both8 := ops.both8, tally := cfg.tally, left := ops.left,
    right := ops.right, ones := ops.left.map (tallyProducts cfg.path ops.both8 cfg.strict A.ty), start := start,
    codes := codes, leftBits := 8 * A.ty.fmt.byteWidth, rightBits := 8 * B.ty.fmt.byteWidth }

/-- R68–R94, R151–R157: one GEMM. `hand` gives the hand-over rows of a second product; `stored` says
whether the result is stored at D. -/
def gemmPlan (x : WorkEnv) (r : Recs) (hand : Option (List Row)) (stored : Bool) : Plan :=
  let left : TensorOut := match hand with
    | some rows => { rows := rows }
    | none => r.streamed x (r.leftRows x)
  let pc := r.control
  let tB := OpType.ofWord r.tyB
  let B : Tensor := { ty := tB, rows := tensorRows x.read tB.fmt (r.slot 1) (r.slot 9) r.kDim r.nCols,
                      scales := scaleCodes x.read tB (r.slot 5) r.nCols }
  let p := r.path x.strict
  let c := Conv.ofWord x.defaults r.conv
  let cfg : ProductCfg :=
    { path := p, strict := x.strict, round := (Conv.ofWord x.defaults r.governing).round, parts := pc.parts, tally := pc.tally }
  let A := toTensor (match hand with
    | some _ => r.tyA
    | none => r.leftType) left.rows
  let d := product cfg A B r.nCols (accStart x r)
  let initRows := if pc.accInit then ceilDiv (64 * (Recs.fmtOf r.tyC).rowBytes (min 64 r.nCols)) 512 else 0
  let run := tileRun (gemmTiles cfg A B r.nCols (accStart x r)) pc initRows x.unit
  let held := d.rows.map fun vs => ({ ty := { fmt := d.fmt }, codes := vs.map (exactCode d.fmt) } : Row)
  let unit := if r.splits x.strict then run.1 else withSide run.1 (deferredSide x r held)
  let done : Plan :=
    if r.epiRounds then
      finishProduct r x held (r.slot 3) (r.slot 11) stored
    else
      let t := OpType.ofWord r.tyD
      let outs := d.rows.map (deliverRow x t c)
      let f := finishProduct r x (outs.map fun o => { ty := t, codes := o.codes }) (r.slot 3) (r.slot 11) stored
      { f with
        g := f.g.merge (gatherAll (outs.map RowOut.g)),
        amax := if c.amaxTensor then amaxCode ((outs.map RowOut.amax).foldl amaxStep (.zero false)) else 0,
        gathers := c.amaxTensor,
        writes := f.writes ++ rowAmaxWrites c.amaxRow (r.slot 6) (outs.map RowOut.amax) }
  { done.orAmax (asksAmax x.defaults r.pro) left.amax with
    writes := left.writes ++ done.writes, g := { (left.g.merge d.g).merge done.g with spillImages := run.2 },
    badPos := left.badPos || done.badPos, unit := unit }

/-! ### ATTEND -/

/-- One key tile of the command: its segment, index inside the segment, command-wide index. -/
structure TileRef where
  seg : Segment
  segIndex : Nat
  t : Nat
  kt : Nat
  ringed : Bool
  deriving DecidableEq, Repr

/-- Key tiles in order (R141). -/
def Recs.tileRefs (r : Recs) : List TileRef :=
  (r.segs.zipIdx.foldl (fun (acc : List TileRef × Nat) si =>
    let n := si.1.1.tiles
    (acc.1 ++ (List.range n).map fun t => { seg := si.1.1, segIndex := si.2, t := t, kt := acc.2 + t, ringed := si.1.2 },
     acc.2 + n)) ([], 0)).1

/-- The delivery of a key tile out of the Granary; a ring's tile is delivered by others (R167). -/
def Recs.tileReads (r : Recs) (x : WorkEnv) (tr : TileRef) : List KvRead :=
  if tr.ringed then []
  else State.kvReads tr.seg.seq r.layer r.head 1 (tr.seg.first + 64 * tr.t) (min 64 (tr.seg.count - 64 * tr.t))
    (x.lengths.getD tr.segIndex 0)

/-- K codes, V codes and K scale of the 64 positions of a tile (R189, R190). Positions past `TOKEN_COUNT`
are +0. -/
def tileTokens (x : WorkEnv) (r : Recs) (tr : TileRef) : List (List Nat × List Nat × Option Nat) :=
  match x.seq tr.seg.seq with
  | none => []
  | some q =>
    let len := x.lengths.getD tr.segIndex 0
    let b := x.ring.getD tr.t []
    (List.range 64).map fun i =>
      let o := 64 * tr.t + i
      let pos := tr.seg.first + o
      let (kb, vb, sb) : List Byte × List Byte × List Byte :=
        if tr.seg.count ≤ o then
          (zeroBytesOf q.k.fmt q.d, zeroBytesOf q.v.fmt q.d, List.replicate q.ws 0)
        else if tr.ringed then
          (slice b (i * (q.pk / 64)) (q.pk / 64), slice b (q.pk + i * (q.pv / 64)) (q.pv / 64),
           slice b (q.pk + q.pv + i * q.ws) q.ws)
        else x.token q r.layer r.head pos len
      (rowCodes q.k.fmt q.d kb, rowCodes q.v.fmt q.d vb, if q.ws = 0 then none else some (leNat sb))

/-- R144: masks of a Q tile's rows against a key tile. -/
def tileMask (x : WorkEnv) (r : Recs) (rows : List Nat) (tr : TileRef) : List (List Bool) :=
  rows.map fun i => (List.range 64).map fun p => unmasked r.maskDesc r.blockList x.read i tr.seg tr.kt tr.t p

/-- One key tile as the log path and the scores read it. -/
structure LoadedTile where
  k : List OperandRow := []
  sk : List Val := []
  v : List (List Nat) := []
  g : Gather := {}
  deriving DecidableEq, Repr

def loadTile (x : WorkEnv) (r : Recs) (tr : TileRef) : LoadedTile :=
  let tK := OpType.ofWord r.tyB
  let tV := OpType.ofWord r.tyC
  let path : Path := if x.strict then .strict32 else .float
  (tileTokens x r tr).foldl (fun (l : LoadedTile) tok =>
    let kr := readOperandRow path false x.strict tK tok.1
    let vs := tok.2.1.map (convertOnLoad tV x.strict)
    let sc := tok.2.2.map (readScale tK.scaleFp32 x.strict)
    let g := vs.foldl (fun g cf => g.element cf.2 {}) (l.g.merge kr.g)
    { k := l.k ++ [kr], v := l.v ++ [vs.map Prod.fst],
      sk := l.sk ++ [match sc with
        | some s => s.val
        | none => Val.one],
      g := match sc with
        | some s => g.element s.conv {}
        | none => g }) {}

/-- What the rows of an ATTEND deliver. -/
structure AttendRows where
  outs : List AttendOut := []
  /-- what the output slots hold at the end -/
  slots : List OutputRow := []
  unit : Thresher := {}
  kv : List KvRead := []
  g : Gather := {}
  deriving DecidableEq, Repr

/-- R127: the scale c. -/
def attendScale (r : Recs) : Val := fp32 (if r.attend.scaleSrc then leNat r.scale else defaultScale r.attend.dim)

/-- R129–R135: one Q tile of at most 64 rows. `loaded` holds the key tiles. -/
def attendTile (x : WorkEnv) (r : Recs) (i0 : Nat) (rows : List (OperandRow × Option Val)) (loaded : List (TileRef × LoadedTile)) :
    AttendRows :=
  let a := r.attend
  let t := OpType.ofWord r.tyD
  let c := Conv.ofWord x.defaults r.conv
  let scaled := (OpType.ofWord r.leftType).grain != 0 || (OpType.ofWord r.tyB).grain != 0
  let idx := (List.range rows.length).map (i0 + ·)
  let masks := loaded.map fun tl => (tl, tileMask x r idx tl.1)
  let live := masks.filter fun m => classOf m.2 != .empty
  let cs := attendScale r
  let sweeps := if x.form = 1 then 2 else 1
  let gTiles : Gather := {
    tilesSkipped := masks.length - live.length, tilesComputed := sweeps * live.length,
    tilesPartial := (live.filter fun m => classOf m.2 == .partialTile).length,
    macCount := sweeps * rows.length * 64 * a.dim * live.length }
  let outs := rows.zipIdx.map fun qi =>
    let tiles := live.map fun m =>
      let scs := (List.zip m.1.2.k m.1.2.sk).map fun ks =>
        scoreOf x.strict qi.1.1 ks.1 scaled (qi.1.2.getD Val.one) ks.2
      let mk := m.2.getD qi.2 []
      let gr := scs.map fun s => grid s.val cs
      let g := (List.zip gr mk).foldl (fun (g : Gather) su =>
        if su.2 && su.1.2 then g.element { saturated := true } {} else g) (gatherAll (scs.map Acc.g))
      (({ scores := gr.map Prod.fst, unmasked := mk, v := m.1.2.v } : KeyTile), g)
    let st := attendRow x.strict (x.form == 0) a.dim (tiles.map Prod.fst)
    let slot : OutputRow := { acc := st.acc.map fun v => exactCode .fp32 v.val, l := exactCode .fp32 st.l.val, mu := st.mu.code }
    (finishRow x.strict t c c.gathers a.dim st, slot, gatherAll (tiles.map Prod.snd))
  { outs := outs.map Prod.fst, slots := outs.map fun o => o.2.1, g := (gatherAll (outs.map fun o => o.2.2)).merge gTiles }

/-- A list cut into pieces of 64. -/
def chunks64 {α : Type} : Nat → List α → List (List α)
  | 0, _ => []
  | _, [] => []
  | n + 1, l => l.take 64 :: chunks64 n (l.drop 64)

/-- R129: the stationary tiles of one key tile: 64 reduction elements of K by its 64 keys, then V's keys by 64 dimensions. -/
def keyStationary (x : WorkEnv) (r : Recs) (tl : TileRef × LoadedTile) : List (List (List Nat)) :=
  let ks := (tileTokens x r tl.1).map Prod.fst
  ((List.range (r.attend.dim / 64)).map fun p => (List.range 64).map fun d => ks.map fun k => k.getD (64 * p + d) 0) ++
  ((List.range (r.attend.dim / 64)).map fun p => tl.2.v.map fun v => (v.drop (64 * p)).take 64)

/-- R91, R136: spill images of an ATTEND: of the live tiles of a group of Q tiles, those that do not stay resident are
written out once for each key tile that the group visits. `groups` gives, by Q tile, its key tiles that are not empty. -/
def attendSpills (a : AttendControl) (live : List (List Nat)) : Nat :=
  let group (g : List (List Nat)) : Nat :=
    let demand := g.length * (a.dim / 64 + 1)
    (demand - residentTiles false demand) * g.flatten.eraseDups.length
  let rec go : Nat → List (List Nat) → Nat
    | 0, _ => 0
    | _, [] => 0
    | n + 1, l => group (l.take a.q) + go n (l.drop a.q)
  go (live.length + 1) live

/-- Reads of an ATTEND, its stages included; sheaves are read beside. -/
def attendReads (rd : Reader) (r : Recs) : List (Nat × Nat) :=
  r.leftReads false ++
  (if r.merge? then
     (r.mergeEntries.map fun e => [(e.1, 4 * r.mRows * r.attend.dim), (e.2, 8 * r.mRows)]).flatten
   else r.blockList.filterMap fun e => if e.partialPair then some (e.bitmap, 512) else none) ++
  stagesReads r.chainRec.table r.mRows rd r.pro r.attend.dim ++ stagesReads r.chainRec.table r.mRows rd r.epi r.attend.dim

/-- Merge partials of one row (R145). -/
def partialsOf (x : WorkEnv) (r : Recs) (i : Nat) : List PartialRow :=
  let d := r.attend.dim
  let rd (a : Nat) : Val := (readElem .fp32 false x.strict (leNat (x.read a 4))).val
  r.mergeEntries.map fun e =>
    { mu := rd (e.2 + 8 * i), l := rd (e.2 + 8 * i + 4), o := (List.range d).map fun j => rd (e.1 + 4 * (i * d + j)) }

/-- R59: flags of reading the partials. -/
def mergeReads (x : WorkEnv) (r : Recs) : Gather :=
  let g1 (g : Gather) (a : Nat) : Gather := g.element (readElem .fp32 false x.strict (leNat (x.read a 4))).conv {}
  r.mergeEntries.foldl (fun g e =>
    (List.range (2 * r.mRows)).foldl (fun g i => g1 g (e.2 + 4 * i))
      ((List.range (r.mRows * r.attend.dim)).foldl (fun g i => g1 g (e.1 + 4 * i)) g)) {}

/-- R126–R147, R157: one ATTEND. -/
def attendPlan (x : WorkEnv) (r : Recs) (stored : Bool) : Plan :=
  let a := r.attend
  let t := OpType.ofWord r.tyD
  let c := Conv.ofWord x.defaults r.conv
  let left : TensorOut := if r.merge? then {} else r.streamed x (r.leftRows x)
  let got : AttendRows :=
    if r.merge? then
      { outs := (List.range r.mRows).map fun i => mergeRow x.strict t c c.gathers (partialsOf x r i),
        unit := x.unit, g := mergeReads x r }
    else
      let lt := OpType.ofWord r.leftType
      let path : Path := if x.strict then .strict32 else .float
      let qs := left.rows.map fun row =>
        let o := readOperandRow path false x.strict lt row.codes
        let s := row.scale.map (readScale lt.scaleFp32 x.strict)
        ((o, s.map Read.val), match s with
          | some v => o.g.element v.conv {}
          | none => o.g)
      let loaded := r.tileRefs.map fun tr => (tr, loadTile x r tr)
      let parts := (chunks64 (qs.length + 1) (qs.map Prod.fst)).zipIdx.map fun ci => attendTile x r (64 * ci.2) ci.1 loaded
      -- a key tile that is empty for every Q tile is never loaded
      let seen := loaded.filter fun tl => (List.range (ceilDiv r.mRows 64)).any fun b =>
        classOf (tileMask x r (((List.range 64).map (64 * b + ·)).filter (· < r.mRows)) tl.1) != .empty
      let tileRows (b : Nat) : List Nat := ((List.range 64).map (64 * b + ·)).filter (· < r.mRows)
      let visits := (List.range (ceilDiv r.mRows 64)).map fun b =>
        (loaded.filter fun tl => classOf (tileMask x r (tileRows b) tl.1) != .empty).map fun tl => tl.1.kt
      let last := parts.drop ((parts.length - 1) / a.q * a.q)
      { outs := (parts.map AttendRows.outs).flatten,
        unit := attendUnit a.dim (seen.map (keyStationary x r)).flatten (8 * (Recs.fmtOf r.tyB).byteWidth)
          (last.map AttendRows.slots) x.unit,
        kv := (seen.map fun tl => r.tileReads x tl.1).flatten,
        g := { (gatherAll (qs.map Prod.snd)).merge
          ((gatherAll (seen.map fun tl => tl.2.g)).merge (gatherAll (parts.map AttendRows.g))) with
          spillImages := attendSpills a visits } }
  let rows := got.outs.map fun o => ({ ty := t, codes := o.out.codes } : Row)
  let stats := if a.emit then
      got.outs.zipIdx.map fun oi => (r.slot 4 + 8 * oi.2, leBytes 4 oi.1.mu ++ leBytes 4 oi.1.l)
    else []
  let f := finishProduct r x rows (r.slot 1) (r.slot 10) stored
  let own := f.orAmax c.amaxTensor ((got.outs.map fun o => o.out.amax).foldl amaxStep (.zero false))
  { own.orAmax (asksAmax x.defaults r.pro) left.amax with
    writes := left.writes ++ stats ++ f.writes ++ rowAmaxWrites c.amaxRow (r.slot 6) (got.outs.map fun o => o.out.amax),
    g := (left.g.merge got.g).merge ((gatherAll (got.outs.map fun o => o.out.g)).merge f.g),
    badPos := left.badPos || f.badPos, unit := got.unit, kv := got.kv }

/-! ### CHAIN2 (R159) -/

def productPlan (x : WorkEnv) (r : Recs) (stored : Bool) : Plan :=
  if r.isAttend then attendPlan x r stored else gemmPlan x r none stored

def productReads (rd : Reader) (r : Recs) : List (Nat × Nat) :=
  if r.isAttend then attendReads rd r else gemmReads rd r false

/-- The hand-over is stored too where `KEEP_FIRST` asks for it (R159). -/
def Recs.keepFirst (r : Recs) : Bool := r.hasChain && r.chainRec.keepFirst

def chain2Plan (x : WorkEnv) (p q : Recs) : Plan :=
  let a := productPlan x p p.keepFirst
  let b := gemmPlan { x with ring := [], unit := a.unit } q (some a.rows) q.localStore
  { b with
    writes := a.writes ++ b.writes, g := a.g.merge b.g, badPos := a.badPos || b.badPos,
    amax := if b.gathers then b.amax else a.amax, gathers := b.gathers || a.gathers, kv := a.kv }

/-! ### Outputs, as ranges (R363, R353) -/

/-- Memory that the stages of a record write. -/
def stageOutputs (d : ConvDefaults) (tab : List OpEntry) (rows : Nat) : List StageWord → Nat → List (Nat × Nat)
  | [], _ => []
  | s :: ss, w =>
    let e (i : Nat) : Nat := (s.entry tab i).addr
    (match s.kind with
     | 7 => if bit s.arg 4 then [(e 2, 8 * rows)] else []
     | 8 => (e 0, rows * scaleBytes (OpType.ofWord s.store)) :: if (Conv.ofWord d s.conv).amaxRow then [(e 2, 4 * rows)] else []
     | 9 => (List.range w).map fun n => (e 0 + n * (s.entry tab 0).constant * 512, (OpType.ofWord s.store).fmt.rowBytes rows)
     | _ => []) ++ stageOutputs d tab rows ss (s.outWidth w)

/-- Every range that a product writes in memory, its split area apart. -/
def productOutputs (d : ConvDefaults) (r : Recs) (stored : Bool) : List (Nat × Nat) :=
  let c := Conv.ofWord d r.conv
  let tab := r.chainRec.table
  stageOutputs d tab r.mRows r.pro (if r.isAttend then r.attend.dim else r.kDim) ++
  stageOutputs d tab r.mRows r.storing r.productWidth ++
  (if stored then rowRanges (Recs.fmtOf r.resultType) (if r.isAttend then r.slot 1 else r.slot 3)
      (if r.isAttend then r.slot 10 else r.slot 11) r.mRows r.resultWidth else []) ++
  (if r.isAttend && r.attend.emit then [(r.slot 4, 8 * r.mRows)] else []) ++
  (if c.amaxRow && (r.isAttend || !r.epiRounds) then [(r.slot 6, 4 * r.mRows)] else [])

/-- R165: the split area of a GEMM. -/
def splitRange (strict : Bool) (r : Recs) : List (Nat × Nat) :=
  if r.isAttend || !r.splits strict then []
  else [(r.chainRec.splitArea, r.mRows * (Recs.fmtOf (r.deferredType strict)).rowBytes (r.deferredWidth.getD 0))]

end Sys2Proof.Machine
end

