-- ==== Sys2Proof/Machine/Rows.lean ====
section
/-! DEFINITION. Machine/Rows.lean: the work of NORM, FUNC and MOVE convert (05_mill.md, R155, R54, R55). -/
namespace Sys2Proof.Machine

namespace Recs

/-- Slots of input scales and strides: NORM 6, 7, 8; FUNC and MOVE convert 4, 5, 6. -/
def inScale (r : Recs) : Nat := if r.cls = 4 then r.slot 6 else r.slot 4
def inStride (r : Recs) : Nat := if r.cls = 4 then r.slot 7 else r.slot 5
def outStride (r : Recs) : Nat := if r.cls = 4 then r.slot 8 else r.slot 6
/-- Per-row amax vector: NORM 5, others 3. -/
def amaxSlot (r : Recs) : Nat := if r.cls = 4 then r.slot 5 else r.slot 3
def rowConv (r : Recs) : Nat := if r.cls = 4 then r.b 20 21 else r.stage.conv

/-- Input rows. -/
def inRows (r : Recs) (rd : Reader) : List Row :=
  let t := OpType.ofWord r.inType
  let sc := scaleCodes rd t r.inScale r.rows
  (tensorRows rd t.fmt (r.slot 0) r.inStride r.rows r.cols).zipIdx.map fun ci =>
    { ty := t, codes := ci.1, scale := sc[ci.2]? }

end Recs

/-- Reads of a NORM, FUNC or MOVE convert. -/
def rowReads (rd : Reader) (r : Recs) : List (Nat × Nat) :=
  let t := OpType.ofWord r.inType
  rowRanges t.fmt (r.slot 0) r.inStride r.rows r.cols ++ scaleRange t r.inScale r.rows ++
  (if r.cls = 4 then if r.norm.affine then [(r.slot 2, 4 * r.cols), (r.slot 3, 4 * r.cols)] else []
   else stagesReads r.stageTable r.rows rd [r.stage] r.cols)

/-- Ranges that a NORM, FUNC or MOVE convert writes. -/
def rowOutputs (d : ConvDefaults) (r : Recs) : List (Nat × Nat) :=
  let c := Conv.ofWord d r.rowConv
  (if r.cls = 6 && r.stage.kind == 9 then [] else rowRanges (Recs.fmtOf r.outType) (r.slot 1) r.outStride r.rows r.cols) ++
  (if r.cls = 4 then if r.norm.emit then [(r.slot 4, 8 * r.rows)] else []
   else stageOutputs d r.stageTable r.rows [r.stage] r.cols) ++
  (if c.amaxRow && (r.cls == 4 || r.stage.rounds) then [(r.amaxSlot, 4 * r.rows)] else [])

/-- R120–R122. DESIGN CHOICE: R436 gives a strict NORM that names no FP64 the working format FP32 and R122 gives FP64;
the inputs enter FP64 directly, so that an INT32 or LNS input is rounded into FP64 and not first into FP32 (log entry
143). -/
def normPlan (x : WorkEnv) (r : Recs) : Plan :=
  let t := OpType.ofWord r.outType
  let c := Conv.ofWord x.defaults (r.b 20 21)
  let w : Fmt := if x.strict then .fp64 else .fp32
  let nc := r.norm
  let ep := readElem .fp32 false x.strict (r.b 36 39)
  let vec (a : Nat) : List Worked := if nc.affine then
      (List.range r.cols).map fun i => workElem w x.strict { fmt := .fp32 } none (leNat (x.read (a + 4 * i) 4))
    else []
  let gam := vec (r.slot 2)
  let bet := vec (r.slot 3)
  let g0 := (gatherAll ((gam ++ bet).map Worked.g)).element ep.conv {}
  let outs := (r.inRows x.read).map fun row =>
    let (xs, g) := workRow w x.strict row
    let (o, st) := normRow x.strict nc ep.val (gam.map Worked.val) (bet.map Worked.val) t c c.gathers xs
    (o, st, g.merge o.g)
  let rows := outs.map fun o => ({ ty := t, codes := o.1.codes } : Row)
  { writes := storeRows (r.slot 1) r.outStride rows ++
      (if nc.emit then outs.zipIdx.map fun oi =>
          (r.slot 4 + 8 * oi.2, leBytes 4 oi.1.2.1.meanCode ++ leBytes 4 oi.1.2.1.rstdCode)
        else []) ++
      rowAmaxWrites c.amaxRow (r.slot 5) (outs.map fun o => o.1.amax),
    g := g0.merge (gatherAll (outs.map fun o => o.2.2)),
    amax := if c.amaxTensor then amaxCode ((outs.map fun o => o.1.amax).foldl amaxStep (.zero false)) else 0,
    rows := rows }

/-- R155: a stage as a command of its own, on every row. -/
def stagePlan (x : WorkEnv) (r : Recs) : Plan :=
  let s := r.stage
  let c := Conv.ofWord x.defaults s.conv
  let env := x.stages r.stageTable
  let inRows := r.inRows x.read
  let outs := inRows.zipIdx.map fun rm => runStage env s rm.2 rm.1
  let rows := outs.map StageOut.row
  let amaxes := outs.map StageOut.amax
  let planar := s.kind == 9
  let t := OpType.ofWord r.inType
  let o := OpType.ofWord s.store
  -- R54: bits copied unchanged gather no amax
  let copy := s.kind == 0 && t.fmt == o.fmt && t.uns == o.uns && t.grain == 0
  { writes := (outs.map StageOut.writes).flatten ++
      (if planar then planarWrites (s.entry r.stageTable 0) rows else storeRows (r.slot 1) r.outStride rows) ++
      rowAmaxWrites (c.amaxRow && s.rounds && !copy) (r.slot 3) amaxes,
    g := (operandGather env s inRows).merge (gatherAll (outs.map StageOut.g)),
    amax := if c.amaxTensor && s.rounds then amaxCode (amaxes.foldl amaxStep (.zero false)) else 0,
    gathers := c.amaxTensor && s.rounds,
    badPos := outs.any StageOut.badPos, rows := rows }

end Sys2Proof.Machine
end

