-- ==== Sys2Proof/Machine/Window.lean ====
section
/-! DEFINITION. Machine/Window.lean: window references, routes, message numbers, and what the target of a
message does (14_bruora_links.md, R312–R319). -/
namespace Sys2Proof.Machine

/-- R222: package, window id and offset of a window reference. -/
def refPackage (w : Nat) : Nat := bits w 63 58
def refWindow (w : Nat) : Nat := bits w 57 42
def refOffset (w : Nat) : Nat := bits w 41 0

/-- A 42-bit window offset from base and displacement. -/
def windowOffset (i : Int) : Nat := unsignedOf i 42

/-- R312, R313: where messages to a package leave. -/
inductive Route
  | port (p : Nat)
  /-- both ports are down, or messages on the other port are not yet acknowledged -/
  | wait
  | noRoute
  deriving DecidableEq, Repr

def Port.up (p : Port) : Bool := p.state == 3 || p.state == 4

/-- R315: is message number `a` at or below `b`, counted modulo 2^32? -/
def seqAtOrBelow (a b : Nat) : Bool := (b + 2 ^ 32 - a % 2 ^ 32) % 2 ^ 32 < 2 ^ 31

namespace State

def port (s : State) (p : Nat) : Port := s.bruora.ports.getD p {}

def setPort (s : State) (p : Nat) (x : Port) : State :=
  { s with bruora := { s.bruora with ports := s.bruora.ports.zipIdx.map fun e => if e.2 = p then x else e.1 } }

/-- `ROUTE_PRIMARY` and `ROUTE_ALTERNATE` byte of a package; 0xFF: none. -/
def routeByte (s : State) (alternate : Bool) (pkg : Nat) : Nat :=
  s.keptReg 0x2B00 (if alternate then 0x06 else 0x05) (2 ^ 512 - 1) / 256 ^ pkg % 256

def route (s : State) (pkg : Nat) : Route :=
  let a := s.routeByte false pkg
  let b := s.routeByte true pkg
  let ok (p : Nat) : Bool := p < 16 && (s.port p).up
  let go (p : Nat) : Route :=
    if s.bruora.sent.any fun m => m.msg.dst == pkg && m.port != p then .wait else .port p
  -- R321: a destination whose link was lost waits until what was sent to it has been sent again
  if 16 ≤ a ∧ 16 ≤ b then .noRoute else if s.bruora.lost.contains pkg then .wait
  else if ok a then go a else if ok b then go b else .wait

/-- R314: the segments of a message, each behind its 16-byte header. -/
def segmentBytes (m : Message) : List Byte :=
  let parts := (m.segs.map fun g =>
    (List.range (ceilDiv g.2.length 4096)).map fun i => (g.1 + 4096 * i, slice g.2 (4096 * i) (min 4096 (g.2.length - 4096 * i)))).flatten
  let all := if parts.isEmpty then [(m.offset, [])] else parts
  (all.zipIdx.map fun e =>
    leBytes 16 (m.kind + 2 ^ 4 * m.src + 2 ^ 10 * m.dst + 2 ^ 16 * m.window + 2 ^ 32 * (m.seq % 2 ^ 32) + 2 ^ 64 * (e.1.1 % 2 ^ 42) +
      2 ^ 106 * boolNat (e.2 + 1 == all.length) + 2 ^ 107 * boolNat m.transit + 2 ^ 112 * e.1.2.length) ++ e.1.2).flatten

/-- R307: the channel of a message: 0 data, 1 response, 2 management. Transit takes the response channel's buffers
(R312). -/
def channelOf (m : Message) : Nat := if m.transit then 1 else if m.kind = 6 then 2 else if m.kind ≤ 2 then 0 else 1

/-- R304, R307: payloads of the flits that carry a message. How segments fill flits is not stated: they are packed one
after another, the last payload padded with zeros (log entry 71). -/
def payloadsOf (m : Message) : List (List Byte) :=
  let b := segmentBytes m
  (List.range (ceilDiv b.length 248)).map fun i => slice b (248 * i) 248

/-- The flits that a message becomes: the last one ends it. -/
def unsentOf (m : Message) : List Unsent :=
  let ps := payloadsOf m
  ps.zipIdx.map fun e => { channel := channelOf m, payload := e.1, last := if e.2 + 1 = ps.length then some m else none }

end State

/-! ### Flits of a port (R303–R307) -/

namespace Port

/-- One of three values by channel. -/
def pick (t : Nat × Nat × Nat) (ch : Nat) : Nat := match ch with
  | 0 => t.1 | 1 => t.2.1 | 2 => t.2.2 | _ => 0

def onChannel (t : Nat × Nat × Nat) (ch : Nat) (f : Nat → Nat) : Nat × Nat × Nat := match ch with
  | 0 => (f t.1, t.2.1, t.2.2) | 1 => (t.1, f t.2.1, t.2.2) | 2 => (t.1, t.2.1, f t.2.2) | _ => t

/-- R304: a flit of a sequence number. -/
def flit (n ch : Nat) (payload : List Byte) : List Byte :=
  let body := leBytes 4 (n + 2 ^ 12 * ch) ++ payload
  body ++ leBytes 4 (crcBytes body)

/-- R305: a flit leaves; the last 2,048 are kept. The count of replays is that of the flit at the front. -/
def sendFlit (x : Port) (ch : Nat) (payload : List Byte) : Port :=
  let kept := x.kept ++ [(x.tx, flit x.tx ch payload)]
  { x with
    tx := (x.tx + 1) % 4096, kept := kept.drop (kept.length - 2048), replays := if 2048 < kept.length then 0 else x.replays }

/-- R303: every 64th flit is a link control flit: it acknowledges every flit below the next one expected, and returns the
credits of the flits that the receive buffers have passed on. -/
def control (x : Port) : Port :=
  if x.tx % 64 = 63 then
    { x.sendFlit 3 ((List.range 248).map (Config.controlPayload x.rx x.owed)) with owed := (0, 0, 0) }
  else x

/-- R307: send the flits that have credits, in order; a channel without credits holds back its own flits only. Answers
the messages that have left whole. -/
def pump (x : Port) : Port × List Message :=
  x.unsent.foldl (fun a u =>
    let y := a.1
    if pick y.credits u.channel = 0 || y.unsent.any fun v => v.channel == u.channel then ({ y with unsent := y.unsent ++ [u] }, a.2)
    else
      let z := y.control.sendFlit u.channel u.payload
      ({ z with credits := onChannel z.credits u.channel (· - 1) }.control, a.2 ++ u.last.toList)) ({ x with unsent := [] }, [])

/-- A port whose link has gone or begins: nothing stands between the two ends, and every buffer is free. -/
def cleared (x : Port) : Port :=
  { x with rx := 0, tx := 0, kept := [], replays := 0, credits := (1024, 1024, 1024), owed := (0, 0, 0), unsent := [] }

/-- R305: an acknowledgement releases the flits before its sequence number. -/
def release (x : Port) (seq : Nat) : Port :=
  if seq = x.tx then { x with kept := [], replays := 0 }
  else if x.kept.any fun f => f.1 == seq then
    let rest := x.kept.dropWhile fun f => f.1 != seq
    { x with kept := rest, replays := if rest.length = x.kept.length then x.replays else 0 }
  else x

/-- R303: what a link control flit says is taken: its acknowledgement and its credits, up to the receive buffers' size. -/
def takeControl (x : Port) (payload : List Byte) : Port :=
  let more (ch n : Nat) : Nat := min 1024 (n + Config.controlCredits payload ch)
  let y := x.release (Config.controlAck payload % 4096)
  { y with credits := (more 0 y.credits.1, more 1 y.credits.2.1, more 2 y.credits.2.2) }

end Port

namespace State

/-- Send what a port can send; the data bytes of each message that has left are counted as transmitted (R398). -/
def pumpPort (s : State) (p : Nat) : State :=
  let (x, left) := (s.port p).pump
  left.foldl (fun s m => (s.bump 0x2E30 (0x10 + 2 * p) m.bytes).send (.message p m)) (s.setPort p x)

/-- Put a message on a port. -/
def emit (s : State) (p : Nat) (m : Message) : State :=
  let x := s.port p
  (s.setPort p { x with unsent := x.unsent ++ unsentOf m }).pumpPort p

/-- R312, R313: an answer leaves by the route of its package; it waits while the route is not available, and is lost where
there is none (log entry 72). -/
def answer (s : State) (m : Message) : State :=
  match s.route m.dst with
  | .port p => s.emit p m
  | .wait => { s with bruora := { s.bruora with held := s.bruora.held ++ [m] } }
  | .noRoute => s

/-- An acknowledge, a NACK or read data for a message. -/
def reply (s : State) (m : Message) (kind code : Nat) (data : List Byte) : Message :=
  { kind := kind, src := s.packageId, dst := m.src, window := m.window, seq := m.seq,
    offset := if kind = 5 then code else m.offset, transit := false, length := data.length,
    incarnation := s.bruora.incarnation, segs := if data.isEmpty then [] else [(m.offset, data)] }

/-! ### Bad Loft rows (R215) -/

/-- R198: locator of the physical bank behind a Loft row. -/
def bankLoc (s : State) (region cluster absRow : Nat) : Nat :=
  let phys := ((s.mapOf region).getD cluster none).getD 0
  mkLoc true s.packageId (region / 8) (region % 8) phys 4 0
    ((((s.hostsOf region phys).banks).getD (absRow % 16) none).getD (absRow % 16))

/-- R215: a read met a bad row. A bad sector that it is the first to find marks the row and is entered in the
ledger. -/
def noteBadRow (s : State) (region cluster absRow : Nat) (c : Option Cmd) : State :=
  let k := loftKey region cluster absRow
  let s1 := s.bump 0x2600 0x0C 1
  if (s.loftRow k).mark then s1
  else
    let loc := s.bankLoc region cluster absRow
    let e := s.faultEntry 0x2C09 1 loc false 0 0 absRow c
    ((s1.setRow k { s.loftRow k with mark := true }).ledgerWrite (locDie loc) { e with state := 3 }).1.noteFault loc 1 e.exposed

/-! ### The window table -/

def window? (s : State) (id : Nat) : Option Window := s.bruora.windows.find? fun w => w.id == id

/-- R319: the code that refuses a message at its window; 0 when it is accepted. -/
def windowCode (s : State) (m : Message) (write : Bool) : Nat :=
  match s.window? m.window with
  | none => 0x2B03
  | some w =>
    let spans := if write then m.segs.map fun g => (g.1, g.2.length) else [(m.offset, m.length)]
    if !bit w.peers m.src || (if write then !w.write else !w.read) then 0x2B04
    else if spans.any fun p => w.size < p.1 + p.2 ||
      (if w.memory then p.1 % max 1 m.elem != 0 else p.1 % 512 != 0 || p.2 % 512 != 0) then 0x2B05
    else if w.faulted then 0x2B07
    else 0

/-- Physical address of a byte of a memory window, by the translations it holds (R317). -/
def heldPhys (w : Window) (va : Nat) : Option Nat :=
  (w.held.find? fun e => e.va ≤ va && va < e.va + e.bytes).map fun e => e.pa + (va - e.va)

/-- R318: bytes written to a memory window. -/
def writeHeld (s : State) (w : Window) (va : Nat) (bs : List Byte) : State :=
  (pieces va bs.length).foldl (fun s p =>
    match heldPhys w p.1 with
    | some pa =>
      let s1 := s.physWrite pa ((bs.drop (p.1 - va)).take p.2)
      s1.memTouch w.region w.pasid pa p.2 0 true true
    | none => s) s

/-- R231, R318: bytes read from a memory window, through the Barn. -/
def readHeld (s : State) (w : Window) (va n : Nat) : List Byte × State :=
  (((pieces va n).map fun p => match heldPhys w p.1 with
    | some pa => s.physRead pa p.2
    | none => List.replicate p.2 0).flatten,
   (pieces va n).foldl (fun s p => match heldPhys w p.1 with
    | some pa => s.memTouch w.region w.pasid pa p.2 0 false true
    | none => s) s)

/-- R238, R398, R397: rows landed by a Carter-class write, each receiver counted. -/
def countRows (s : State) (pasid rows receivers : Nat) : State :=
  ((s.bump 0x2700 0x06 (rows * receivers)).bump 0x2E30 0x07 (512 * rows * receivers)).bumpTask pasid 11 (rows * receivers)

/-- R318, R211: land a write message and count it on every cluster of the partition. -/
def landWindow (s : State) (w : Window) (m : Message) : State :=
  let p := s.part w.region w.part
  let cs := setBits p.mask 16
  let s1 :=
    if w.memory then
      (m.segs.foldl (fun s g => s.writeHeld w (w.base + g.1) g.2) s).bump 0x2700 0x06 (m.segs.map fun g => ceilDiv g.2.length 512).sum
    else m.segs.foldl (fun s g =>
      let n := g.2.length / 512
      let s0 := (List.range n).foldl (fun s i =>
        cs.foldl (fun s c => s.landRow p w.region c (w.base + g.1 / 512 + i) (slice g.2 (512 * i) 512) false) s) s
      s0.countRows w.pasid n cs.length) s
  cs.foldl (fun s c => s.countUp p w.region c w.counter 1) s1

/-- R214, R318: rows that a read of a Loft window takes from the lowest cluster: relative row and what its read
returns. -/
def windowRows (s : State) (w : Window) (m : Message) : Nat × List (Nat × List Byte × Bool × Bool) :=
  let p := s.part w.region w.part
  let c := (setBits p.mask 16).headD 0
  (c, (List.range (m.length / 512)).map fun i =>
    let row := w.base + m.offset / 512 + i
    (row, s.readRow p w.region c row))

/-- R318: bytes that a read of a window returns: of the lowest cluster, at Carter rank. Hazards are those of the
window's owner (R214). -/
def readWindow (s : State) (w : Window) (m : Message) : List Byte × State :=
  let p := s.part w.region w.part
  if w.memory then s.readHeld w (w.base + m.offset) m.length
  else
    let (c, rows) := s.windowRows w m
    let s1 := (rows.filter fun r => r.2.2.2).foldl (fun s r => s.hazardAt p w.region c r.1 w.pasid w.q) s
    ((rows.map fun r => r.2.1).flatten, s1.bump 0x2E30 0x08 m.length)

/-- R315: has this message landed already? State of an old incarnation is discarded. -/
def landedBefore (s : State) (m : Message) : Bool :=
  match Table.find? m.src s.bruora.landed with
  | some (n, inc) => inc == m.incarnation && seqAtOrBelow m.seq n
  | none => false

def markLanded (s : State) (m : Message) : State :=
  { s with bruora := { s.bruora with landed := Table.put m.src (m.seq, m.incarnation) s.bruora.landed } }

/-- R315, R318, R319: a write or read request at its target: the code, the data that a read returns, and
the state after it. -/
def serveWindow (s : State) (m : Message) (write : Bool) : Nat × List Byte × State :=
  if s.landedBefore m then (0, [], s)
  else
    let c := s.windowCode m write
    if c != 0 then (c, [], s.bump 0x2B00 0x14 1)
    else match s.window? m.window with
      | none => (0x2B03, [], s)
      | some w =>
        if write then (0, [], (s.landWindow w m).markLanded m)
        else match if w.memory then none else (s.windowRows w m).2.find? fun r => r.2.2.1 with
        | some r =>
          -- R215: the data is unusable; which code of R216 the sender is told is not stated (log entry 157)
          let (n, s1) := s.draw
          (0x2605 + Config.freeCount n % 3, [],
            (s1.noteBadRow w.region (s.windowRows w m).1 (16 * (s.part w.region w.part).baseUnit + r.1) none).bump 0x2B00 0x14 1)
        | none =>
          let (b, s1) := s.readWindow w m
          (0, b, s1.markLanded m)

/-! ### Sending -/

/-- How a message left. -/
inductive SendResult
  /-- on a link: its number -/
  | sent (seq : Nat)
  /-- to this package: the target's code and the data of a read -/
  | done (code : Nat) (data : List Byte)
  /-- its route is not available now -/
  | wait
  | failed (code : Nat)
  deriving DecidableEq, Repr

/-- R312–R315: send a write or read request for descriptor `d` of command (q, i) to the window that a reference names.
Offsets are those of the window; `elem` is the element size of the transfer. -/
def sendTo (s : State) (q i d ref : Nat) (write : Bool) (off len : Nat) (segs : List (Nat × List Byte)) (elem : Nat) :
    SendResult × State :=
  let dst := refPackage ref
  let n := (Table.find? dst s.bruora.sequence).getD 0
  let m : Message := {
    kind := if write then 1 else 2, src := s.packageId, dst := dst, window := refWindow ref, seq := n,
    offset := off, transit := false, length := len, incarnation := s.bruora.incarnation, segs := segs, elem := elem }
  let numbered (s : State) : State :=
    { s with bruora := { s.bruora with sequence := Table.put dst ((n + 1) % 2 ^ 32) s.bruora.sequence } }
  if s.keptReg 0x2000 0x02 1 ≤ dst then (.failed 0x2B01, s)
  else if dst = s.packageId then
    let (c, b, s1) := (numbered s).serveWindow m write
    (.done c b, s1)
  else match s.route dst with
    | .noRoute => (.failed 0x2B02, s)
    | .wait => (.wait, s)
    | .port p =>
      let s1 := numbered s
      let s2 : State := { s1 with bruora := { s1.bruora with
        sent := s1.bruora.sent ++ [{ msg := m, q := q, i := i, d := d, port := p }] } }
      (.sent n, s2.emit p m)

end State
end Sys2Proof.Machine
end

