-- ==== Sys2Proof/Machine/Complete.lean ====
section
/-! DEFINITION. Machine/Complete.lean: what every command shares after its check: its accesses, its failure,
its counters and its completion record (R253, R260, R270, R272, R273, R353). -/
namespace Sys2Proof.Machine

/-! ### Counters of codes -/

/-- The refusal counter of a code. -/
def refusalCounter (code : Nat) : Option (Nat × Nat) :=
  let rows : List (Nat × Nat × Nat × Nat) :=
    [(0x2101, 0x2106, 0x2100, 0x03), (0x2107, 0x2109, 0x2110, 0x08), (0x2201, 0x2212, 0x2200, 0x0B),
     (0x2221, 0x2226, 0x2210, 0x09), (0x2301, 0x2306, 0x2300, 0x09), (0x2311, 0x2316, 0x2300, 0x0C),
     (0x2401, 0x2407, 0x2400, 0x0B), (0x2501, 0x250B, 0x2500, 0x0B), (0x2601, 0x2604, 0x2600, 0x0F),
     (0x2701, 0x2704, 0x2700, 0x0B), (0x2801, 0x2807, 0x2800, 0x0D), (0x2A01, 0x2A02, 0x2A00, 0x10)]
  (rows.find? fun r => r.1 ≤ code && code ≤ r.2.1).map fun r => (r.2.2.1, r.2.2.2)

/-- Codes whose counter also counts commands that fail with them: TABLE rejections, MOVEs, translation, and a
bank conflict found at a burst check (R205). -/
def failureCounted (code : Nat) : Bool :=
  (0x2301 ≤ code && code ≤ 0x2306) || (0x2701 ≤ code && code ≤ 0x2704) || (0x2801 ≤ code && code ≤ 0x2807) || code == 0x2602

namespace State

def countCode (s : State) (code : Nat) (refused : Bool) : State :=
  match refusalCounter code with
  | some (i, sub) => if refused || failureCounted code then s.bump i sub 1 else s
  | none => s

/-! ### Queues -/

/-- R259, R260: a queue enters error, and always signals. -/
def queueError (s : State) (q code : Nat) : State :=
  match s.queue? q with
  | none => s
  | some k => (s.setQueue q { k with state := 3, lastError := code, issueWait := none }).interrupt k.vector

/-- R260: signal after every `INT_COALESCE` records with `IRQ`. -/
def irqRecord (s : State) (q : Nat) : State :=
  match s.queue? q with
  | none => s
  | some k =>
    if max 1 k.coalesce ≤ k.irqCount + 1 then (s.setQueue q { k with irqCount := 0 }).interrupt k.vector
    else s.setQueue q { k with irqCount := k.irqCount + 1 }

/-! ### Trace (R403) -/

/-- Commands whose work lies on clusters. -/
def onClusters (r : Recs) : Bool := (1 ≤ r.cls && r.cls ≤ 5) || (r.cls == 6 && r.form != 0)

/-- R403: transfers and Granary deliveries are traced at the Carter. -/
def onCarter (r : Recs) : Bool := (r.cls == 6 && r.form == 0) || r.cls == 7 || r.cls == 8

def endPayload (c : Cmd) : Nat := c.q + 2 ^ 20 * (c.i % 2 ^ 16) + 2 ^ 36 * c.recs.cls + 2 ^ 40 * c.status

def traceBegin (s : State) (c : Cmd) : State :=
  let p := c.q + 2 ^ 20 * c.pasid + 2 ^ 40 * (c.i % 2 ^ 16) + 2 ^ 56 * c.recs.cls
  if onClusters c.recs then (setBits c.clusters 16).foldl (fun s n => s.dayEvent c.die 1 (c.region % 8) n 2 p) s
  else s.dayEvent c.die (if onCarter c.recs then 2 else 0) (if onCarter c.recs then c.region % 8 else 0) 0 2 p

def traceEnd (s : State) (c : Cmd) : State :=
  if c.refused || c.unchecked then s.dayEvent c.die 0 0 0 3 (endPayload c)
  else if onClusters c.recs then (setBits c.clusters 16).foldl (fun s n => s.dayEvent c.die 1 (c.region % 8) n 3 (endPayload c)) s
  else s.dayEvent c.die (if onCarter c.recs then 2 else 0) (if onCarter c.recs then c.region % 8 else 0) 0 3 (endPayload c)

/-! ### The environment of a command in flight -/

/-- R116: the bank tagged with a generation. -/
def bankView (s : State) (gen : Nat) : BankView :=
  { image := fun n => Table.find? n (if gen = s.mills.generation then s.mills.active else s.mills.shadow),
    ne3Allowed := bit s.fuses.features 18 }

def cmdReader (s : State) (c : Cmd) : Reader := fun a n => s.readVA c.region c.pasid a n

/-- R276: the check environment that a command ran with. -/
def cmdEnv (s : State) (c : Cmd) (r : Recs) : CheckEnv :=
  let k? := s.queue? c.q
  { strict := c.recs.strict, defaults := { round := c.defRound, sat := c.defSat }, bank := s.bankView c.gen,
    defForm := c.form,
    units := match k? with
      | some k => k.floor + k.borrow
      | none => 0,
    ctrs := match k? with
      | some k => k.ctrCount
      | none => 0,
    sems := match k? with
      | some k => k.semCount
      | none => 0,
    clusters := c.clusters, pasid := c.pasid, seq := fun i => if r.cls = 0 then none else s.seq? i }

/-- The logical Thresher that takes the tiles of a command: the first of its lowest cluster (log entry 145). -/
def thresherOf (c : Cmd) : Nat := (c.region * 16 + ((setBits c.clusters 16).headD 0)) * 4

def thresher (s : State) (k : Nat) : Thresher := (Table.find? k s.threshers).getD {}

def workEnv (s : State) (c : Cmd) : WorkEnv :=
  { strict := c.recs.strict, defaults := { round := c.defRound, sat := c.defSat }, bank := s.bankView c.gen, form := c.form,
    read := s.cmdReader c, seq := s.seq?, token := s.token, lengths := c.lengths, ring := c.ringData,
    unit := s.thresher (thresherOf c) }

/-! ### Accesses -/

end State

/-- One access of a command: address, bytes, kind (0 read, 1 write, 2 atomic), Barn hint. -/
structure Access where
  va : Nat
  len : Nat
  kind : Nat
  hint : Nat := 0
  deriving DecidableEq, Repr

/-- The products of a command. -/
def products (c : Cmd) : List Recs :=
  match c.recs.cls with
  | 1 | 2 => [c.recs]
  | 3 => [c.prods.getD 0 {}, c.prods.getD 1 {}]
  | _ => []

/-- Does a command run with at least one stage, or as CHAIN2 (R172)? -/
def chained (c : Cmd) : Bool :=
  c.recs.cls == 3 || (products c).any fun r => !r.pro.isEmpty || !r.epi.isEmpty

/-- R165: split areas of a command in task memory. The first product of a CHAIN2 has none: its hand-over buffer serves. -/
def splitRanges (c : Cmd) : List (Nat × Nat) :=
  match c.recs.cls with
  | 1 | 2 => splitRange c.recs.strict c.recs
  | 3 => splitRange c.recs.strict (c.prods.getD 1 {})
  | _ => []

def readsOf (l : List (Nat × Nat)) : List Access := l.map fun a => { va := a.1, len := a.2, kind := 0 }
def writesOf (l : List (Nat × Nat)) : List Access := l.map fun a => { va := a.1, len := a.2, kind := 1 }

namespace State

/-- The first access that does not hit, with its kind. -/
def reachAll (s : State) (port pasid : Nat) : List Access → Option (Got × Nat)
  | [] => none
  | a :: as => match s.reach port pasid a.va a.len a.kind with
    | .ok => s.reachAll port pasid as
    | g => some (g, a.kind)

/-- R364: the first uncorrectable location that the reads meet. -/
def poisonIn (s : State) (port pasid : Nat) (as : List Access) : Option Nat :=
  as.findSome? fun a => if a.kind = 1 then none else s.poisonAt port pasid a.va a.len

/-- Look-aside order and counters of accesses that hit. -/
def noteAll (s : State) (port pasid : Nat) (as : List Access) : State :=
  as.foldl (fun s a => s.noteVA port pasid a.va a.len a.kind a.hint true) s

/-! ### Failure (R253, R353) -/

/-- Memory ranges that a command delivers into. -/
def outputsOf (s : State) (c : Cmd) : List (Nat × Nat) :=
  let d : ConvDefaults := { round := c.defRound, sat := c.defSat }
  let r := c.recs
  (match r.cls with
  | 1 | 2 => productOutputs d r r.localStore
  | 3 =>
    let p := c.prods.getD 0 {}
    let q := c.prods.getD 1 {}
    productOutputs d p p.keepFirst ++ productOutputs d q q.localStore
  | 4 | 5 => rowOutputs d r
  | 6 => if r.form = 3 then rowOutputs d r else []
  | 8 =>
    if bit r.kv 4 then []
    else match s.seq? (r.b 20 21) with
      | none => []
      | some q =>
        let n := r.b 28 31
        let h := r.b 32 32
        rowRanges q.k.fmt (r.slot 0) (r.slot 3) n (h * q.d) ++ rowRanges q.v.fmt (r.slot 1) (r.slot 4) n (h * q.d) ++
          (if q.ws = 0 then [] else [(r.slot 2, n * h * q.ws)])
  | _ => []) ++ splitRanges c

/-- R276: rows of the command's partition that it does not name hold the engine's layout: undefined. The
ring of a gated command is named. Which of them the layout writes is not stated: a mark stands or has gone with its
row's old bytes, freely. -/
def layoutUndef (s : State) (c : Cmd) (firstNamed named : Nat) : State :=
  match s.queue? c.q with
  | none => s
  | some k =>
    let p := s.partOf k
    let (stamp, s0) := s.draw
    (setBits p.mask 16).foldl (fun s n =>
      (List.range (16 * p.units)).foldl (fun s i =>
        if firstNamed ≤ i && i < firstNamed + named then s
        else
          let key := loftKey k.region n (16 * p.baseUnit + i)
          let r := s.loftRow key
          s.setRow key { data := .undef stamp, mark := r.mark && (Config.freeCount (stamp + key)) % 2 == 1, pending := r.pending }) s) s0

/-- A command ends with a code: its outputs are undefined, its record waits to be written. -/
def failCmd (s : State) (c : Cmd) (code detail : Nat) : State :=
  let s1 := (s.outputsOf c).foldl (fun s o => s.scramble c.region c.pasid o.1 o.2) s
  let c1 : Cmd := { c with status := code, detail := detail, wait := .done }
  let s1b : State := { s1 with
    bruora := { s1.bruora with sent := s1.bruora.sent.filter fun m => !(m.q == c.q && m.i == c.i) },
    obs := { s1.obs with captures := s1.obs.captures.filter fun k => !(k.q == c.q && k.i == c.i) } }
  let s2 := ((s1b.countCode code false).setCmd c1)
  if onClusters c.recs || onCarter c.recs then s2.traceEnd c1 else s2

/-- R364: a read met data that device memory lost: the command fails and the stack controller is named. -/
def poisonFail (s : State) (c : Cmd) (line : Nat) : State :=
  let st := Config.stackOf line % 16
  let phys := mkLoc true s.packageId (st / 8) 0 0x1F 9 (st % 8) 0xFF
  let s1 := (s.ledgerWrite (st / 8) {
    code := 0x2C0F, severity := 1, nested := false, action := 2, state := 3, seq := 0, phys := phys, log := phys % 2 ^ 31, time := 0,
    exposed := s.reel (st / 8), root := 0, pasid := c.pasid, queue := c.q, valid := true, index := c.i, detail := line }).1
  s1.failCmd c 0x2C24 0

/-- R247: an access of a command faults. -/
def faultCmd (s : State) (c : Cmd) (va kind : Nat) : State :=
  if s.trans.priState = 1 then s.failCmd c 0x2805 0
  else (s.pageFault c.region c.pasid va kind).setCmd { c with wait := .page va kind }

/-- A command waits for, faults on or fails by its first access that does not hit. -/
def stall (s : State) (c : Cmd) (g : Got) (kind : Nat) : State :=
  match g with
  | .ok => s
  | .miss va => (s.askTranslation c.region c.pasid va kind (c.q, c.i, 0)).setCmd { c with wait := .translation va kind }
  | .fault va => s.faultCmd c va kind
  | .failed code va => s.failCmd c code (failDetail code va kind)

/-- Run the work of a command when every access hits and no read is lost. -/
def withAccess (s : State) (c : Cmd) (as : List Access) (work : State → State) : State :=
  match s.reachAll c.region c.pasid as with
  | some (g, kind) => s.stall c g kind
  | none => match s.poisonIn c.region c.pasid as with
    | some line => s.poisonFail c line
    | none => work (s.noteAll c.region c.pasid as)

/-! ### Counters of finished arithmetic (R66, R124, R150, R396) -/

def countGather (s : State) (g : Gather) : State :=
  let l : List (Nat × Nat × Nat) :=
    [(0x2100, 0x02, g.nInvalidCode), (0x2110, 0x01, g.nSaturated), (0x2110, 0x02, g.nOverflow), (0x2110, 0x03, g.nInvalid),
     (0x2110, 0x04, g.nUnderflow), (0x2110, 0x05, g.nFlushed), (0x2110, 0x06, g.nNanSubst), (0x2110, 0x07, g.nAmaxNan),
     (0x2300, 0x0A, g.clampEvents), (0x2300, 0x0B, g.negVariance), (0x2400, 0x05, g.tilesComputed),
     (0x2400, 0x06, g.tilesSkipped), (0x2400, 0x07, g.tilesPartial), (0x2400, 0x08, g.rescales), (0x2400, 0x09, g.emptyRows),
     (0x2400, 0x0A, g.nanRows), (0x2E11, 0x01, g.millOps), (0x2E11, 0x02, g.millDiv), (0x2E11, 0x03, g.millFast),
     (0x2E11, 0x04, g.millStrict), (0x2E11, 0x05, g.millStat), (0x2E11, 0x06, g.millNorm)]
  l.foldl (fun s e => s.bump e.1 e.2.1 e.2.2) s

/-- R395, R397: busy and stall time of a command that ran on the clusters is not stated: it grows by free
amounts, a Thresher's stalls (R69, R70, R88) only where the command drives one. -/
def countBusy (s : State) (c : Cmd) : State :=
  let thr : List (Nat × Nat) := if c.recs.cls ≤ 3 then [(0x2200, 0x08), (0x2200, 0x09), (0x2200, 0x0A)] else []
  let s1 := ([(0x2E00, 0x06), (0x2E00, 0x07), (0x2E00, 0x08), (0x2E00, 0x09), (0x2600, 0x0E), (0x2700, 0x06),
    (0x2E30, 0x07)] ++ thr).foldl (fun (s : State) (e : Nat × Nat) => s.bumpFree e.1 e.2) s
  let s2 := (setBits c.clusters 16).foldl (fun s n =>
    [0, 1, 2, 3].foldl (fun s j => s.bumpFree (0x2E50 + c.region + 65536 * j) (n + 1)) s) s1
  let (f, s3) := s2.draw
  ((s3.bumpTask c.pasid 3 (Config.freeCount f)).bumpTask c.pasid 8 (Config.freeCount (f + 1))).draw.2

/-- R396, R397: multiply-accumulates of one product under its wider format and its rate. -/
def countMacs (s : State) (c : Cmd) (r : Recs) (macs : Nat) : State :=
  let a := Recs.fmtOf r.tyA
  let b := Recs.fmtOf r.tyB
  let wide := if a.width < b.width then b else a
  let rate := macRate (r.path c.recs.strict) (Recs.fmtOf r.leftType) b
  (s.bump 0x2E10 (wide.code + 1) macs).bumpTask c.pasid
    (if rate = 4096 then 4 else if rate = 2048 then 5 else if rate = 32 then 7 else 6) macs

/-! ### The completion record (R272) -/

/-- R295, R296: has the deadline of a command passed? A record written in the clk in which it falls due is on time. -/
def missedDue (s : State) (c : Cmd) : Option Nat := c.missedAt.bind fun t => if s.dueClk c.die t then none else some t

/-- R295, R236: lateness of a command: now minus its deadline, or what the last row of a transfer gave, whichever is
more. -/
def latenessOf (s : State) (c : Cmd) : Nat :=
  min (2 ^ 32 - 1) (max c.lateness (match s.missedDue c with
    | none => 0
    | some t => s.reel c.die - t))

def recordNat (s : State) (k : Queue) (c : Cmd) (isSealed : Bool) : Nat :=
  let r := c.recs
  let nibs := ((List.range 24).map fun i => (c.resolved.getD i 0) * 16 ^ i).sum
  r.tag + 2 ^ 32 * (c.i % 2 ^ 32) + 2 ^ 64 * (c.status % 2 ^ 16) + 2 ^ 80 * r.cls + 2 ^ 84 * boolNat r.strict +
    2 ^ 85 * boolNat isSealed + 2 ^ 86 * boolNat (c.late || (s.missedDue c).isSome) + 2 ^ 87 * boolNat c.split + 2 ^ 88 * c.ieee +
    2 ^ 93 * min 7 c.reruns + 2 ^ 96 * c.conv + 2 ^ 104 * (if r.isAttend && !c.refused then c.form else 0) + 2 ^ 106 * c.limit +
    2 ^ 111 * (1 - k.complTail / 2 ^ k.complLog2 % 2) + 2 ^ 112 * min 65535 c.ratio + 2 ^ 128 * c.amax +
    2 ^ 160 * (if !c.refused && (r.cls ≤ 5 || r.isConvert) then c.gen % 2 ^ 32 else 0) + 2 ^ 192 * nibs +
    2 ^ 288 * min 65535 c.mb + 2 ^ 304 * min 65535 c.spill + 2 ^ 320 * (s.reel c.die % 2 ^ 64) + 2 ^ 384 * s.latenessOf c +
    2 ^ 416 * min 255 c.collisions + 2 ^ 424 * min 255 c.hazards + 2 ^ 432 * min 65535 c.resumes + 2 ^ 448 * (c.detail % 2 ^ 64)

/-- R172: counters of chains, of every command that issued; its record reports the limit and the split (log entry 152). -/
def countChain (s : State) (c : Cmd) : State :=
  let s1 := if chained c then s.bump 0x2210 0x02 1 else s
  let s2 := if c.split then s1.bump 0x2210 0x03 1 else s1
  if c.limit = 1 then s2.bump 0x2210 0x04 1 else if c.limit = 2 then s2.bump 0x2210 0x05 1 else s2

/-- R276: with nothing pending or in flight the queue shrinks to its floor. -/
def shrinkQueue (s : State) (q : Nat) : State :=
  match s.queue? q with
  | none => s
  | some k =>
    if k.borrowed = 0 || k.head != k.tail || (s.cmds.any fun c => c.q == q) then s
    else match k.part with
      | none => s
      | some e =>
        let p := s.part k.region e
        if p.pinned then s
        else if k.floor = 0 then
          (s.setPart k.region e {}).setQueue q { k with part := none, borrowed := 0 }
        else (s.setPart k.region e { p with units := k.floor }).setQueue q { k with borrowed := 0 }

/-- Physical units that do the work of a logical cluster: its slots' hosts, Mill and Loft; where some slot is hosted in
turn, the in-service units of the kind that may have done it (R14). -/
def clusterWork (s : State) (region logical : Nat) : List Nat :=
  let all (r c kind : Nat) (hosts : List (Option Nat)) (ok : List Nat) : List Nat :=
    (if hosts.contains none then ok else hosts.filterMap id).map fun i => unitLoc r c kind i 0xFF
  let phys (r c : Nat) : List Nat :=
    all r c 1 (s.hostsOf r c).threshers (s.threshersOk r c) ++ all r c 2 (s.hostsOf r c).gleaners (s.gleanersOk r c) ++
      [unitLoc r c 3 0 0xFF, unitLoc r c 4 0 0xFF]
  match (s.mapOf region).getD logical none with
  | some c => phys region c
  | none =>
    let rs := if (s.mapOf region).all Option.isNone then (List.range 8).map (region / 8 * 8 + ·) else [region]
    (rs.map fun r => ((s.clustersOk r).map (phys r)).flatten).flatten

/-- Die-level units whose work on a command can not be told apart: Barn slices, stack controllers and bridge halves of
both dies, and the ports for a MOVE (log entry 83). -/
def sharedUnits (c : Cmd) : List Nat :=
  let of_ (d k n : Nat) : List Nat := (List.range n).map fun i => mkLoc true 0 d 0 0x1F k i 0xFF
  [0, 1].flatMap fun d => of_ d 8 8 ++ of_ d 9 8 ++ of_ d 12 1 ++ (if c.recs.cls == 6 && c.recs.form == 0 then of_ d 10 8 else [])

/-- R372: a command that completes sealed worked in its epoch on these units. -/
def noteSealed (s : State) (c : Cmd) : State :=
  let units := sharedUnits c ++ [5, 6, 7].map (fun k => unitLoc c.region 0x1E k 0 0xFF) ++
    (if onClusters c.recs then ((setBits c.clusters 16).map (s.clusterWork c.region)).flatten else [])
  let w : SealedWork := { epoch := s.bell.epoch, units := units, time := s.reel c.die }
  { s with bell := { s.bell with work := s.bell.work ++ [w] } }.bump 0x2C00 0x0C 1

/-- R184, R275. DEDUCED (log 88): the sheaves that a failed append drew from its queue's staging go back there. -/
def returnStaging (s : State) (q n : Nat) : State :=
  match s.queue? q with
  | none => s
  | some k => ({ s with granary := { s.granary with staged := s.granary.staged + n } }).setQueue q { k with stagingLeft := k.stagingLeft + n }

/-- R182–R184, R192: what a Granary command does at its completion: an append commits or releases what it
reserved, an overwrite that failed sets the length to AT, and readers leave. -/
def settleGranary (s : State) (c : Cmd) : State :=
  let r := c.recs
  let s1 : State :=
    if r.cls = 7 ∧ !c.refused ∧ !c.unchecked then
      let id := r.b 20 21
      let s0 : State := if c.status = 0 then
          match s.seq? id with
          | none => s
          | some q => s.commitAppend id c.reserved r.layer (if bit r.kv 3 then q.length r.layer else r.b 24 27 + r.b 28 31)
        else
          let t := (s.dropRefs (c.reserved.map Prod.snd)).1.returnStaging c.q c.drawn
          if bit r.kv 3 then match t.seq? id with
            | none => t
            | some q => t.setSeq id (bumpGen { q with lengths := Table.put r.layer (r.b 24 27) q.lengths })
          else t
      s0
    else s
  if c.writer || c.refused || c.unchecked then s1 else c.seqs.foldl (fun s id => s.endRead id) s1

/-- The record of a finished command is written at `COMPL_TAIL`; the command leaves the engine. -/
def putRecord (s : State) (k : Queue) (c : Cmd) : State :=
  let port := 16 + c.die
  let va := k.complBase + 64 * (k.complTail % 2 ^ k.complLog2)
  let isSealed := c.recs.sealed && c.status == 0 && !c.refused
  let s0 := s.settleGranary c
  let s1 := if isSealed then s0.noteSealed c else s0
  let s2 := s1.writeVA port c.pasid va 1 (leBytes 64 (s1.recordNat k c isSealed))
  let s3 := s2.noteVA port c.pasid va 64 1 0 false
  let s4 := s3.onQueue c.q fun k => { k with complTail := (k.complTail + 1) % 2 ^ 32 }
  let s5 := if c.recs.irq then s4.irqRecord c.q else s4
  let s6 :=
    if c.refused then s5
    else
      let t := (if c.unchecked then s5 else s5.countChain c).bump 0x2E12 c.recs.cls 1
      if c.status = 0 then (t.bump 0x2E00 0x0A 1).bumpTask c.pasid 0 1 else (t.bump 0x2E00 0x0B 1).bumpTask c.pasid 1 1
  let s7 := if c.refused || c.unchecked || !(onClusters c.recs || onCarter c.recs) then s6.traceEnd c else s6
  (s7.dropCmd c.q c.i).shrinkQueue c.q

/-- R260: write the record of a finished command, or wait for its ring's translation. A record that can not
be written at all puts its queue in error (log entry 50). -/
def tryRecord (s : State) (c : Cmd) : State :=
  match s.queue? c.q with
  | none => s.dropCmd c.q c.i
  | some k =>
    let port := 16 + c.die
    let va := k.complBase + 64 * (k.complTail % 2 ^ k.complLog2)
    match s.reach port c.pasid va 64 1 with
    | .ok => s.putRecord k c
    | .miss v => (s.askTranslation port c.pasid v 1 (c.q, c.i, 0)).setCmd { c with wait := .recordWrite v false }
    | .fault v =>
      if s.trans.priState = 1 then ((s.settleGranary c).dropCmd c.q c.i).queueError c.q 0x2805
      else (s.pageFault port c.pasid v 1).setCmd { c with wait := .recordWrite v true }
    | .failed code _ => ((s.settleGranary c).dropCmd c.q c.i).queueError c.q code

/-- R270: a refused command completes at once with its code. -/
def refuse (s : State) (c : Cmd) (code : Nat) : State :=
  let c1 : Cmd := { c with refused := true, status := code, wait := .done, order := s.issued }
  let s1 := ((s.countCode code true).bump 0x2900 0x09 1).bumpTask c.pasid 2 1
  { s1 with cmds := s1.cmds ++ [c1] }.tryRecord c1

/-- R253, R364: a command that a failed read of its check ends: it completes with the code as a failed one, and has not
issued (log entry 167). -/
def failUnissued (s : State) (c : Cmd) (code : Nat) : State :=
  let c1 : Cmd := { c with unchecked := true, status := code, wait := .done, order := s.issued }
  let s1 := s.countCode code false
  { s1 with cmds := s1.cmds ++ [c1] }.tryRecord c1

/-! ### May a command work now? -/

/-- R249, R251, R278, R414: its queue is not parked or halted, and its partition is not saved. -/
def mayRun (s : State) (c : Cmd) : Bool :=
  match s.queue? c.q with
  | none => false
  | some k => !k.parked && !k.halted && k.saved.isNone

end State
end Sys2Proof.Machine
end

