-- ==== Sys2Proof/Machine/Faults.lean ====
section
/-! DEFINITION. Machine/Faults.lean: how a detected fault is handled: rerun or failure of commands (R216,
R362), severities and containment domains (R361), nesting and escalation (R365, R366), their
closing. Faults of one clk are FAULT_DETECTED rows in ascending physical locator (R366). -/
namespace Sys2Proof.Machine
namespace State

/-! ### Rerun or failure of a command (R216, R362) -/

/-- The code a command fails with, none where it is run again. -/
def rerunCode (s : State) (c : Cmd) (parity : Bool) : Option Nat :=
  let at_ (n : Nat) : Nat := (if parity then 0x2605 else 0x2C20) + n
  if c.nonRerunnable then some (at_ 0)
  else if c.released then some (at_ 1)
  else if s.keptReg 0x2600 0x07 2 ≤ c.reruns then some (at_ 2)
  else none

/-- A command that a fault can still affect: its outcome is not yet a failure. -/
def openCmd (c : Cmd) : Bool := !c.refused && c.status == 0

/-- R207: a Loft copy, to which R216 does not apply: a bad row is copied with its mark. -/
def isCopy (c : Cmd) : Bool := c.recs.cls == 6 && c.recs.form == 2

/-- Apply the table of R216 to a command: it fails, or waits to be run again at its tile boundary. Answers
whether the limit was reached. -/
def faultOn (s : State) (c : Cmd) (parity : Bool) (loc : Nat) : State × Bool :=
  if !openCmd c || (parity && isCopy c) then (s, false)
  else
    let c1 : Cmd := { c with lastFault := some loc }
    match s.rerunCode c parity with
    | some code => (s.failCmd c1 code 0, code % 16 == (if parity then 7 else 2))
    | none => (s.setCmd { c1 with wait := .rerun parity }, false)

/-! ### Where commands work -/

/-- Physical locators of the units that a command works on: its clusters, and its region's Carter. -/
def unitsOf (s : State) (region clusters : Nat) : List Nat :=
  unitLoc region 0x1E 5 0 0xFF ::
    (setBits clusters 16).filterMap fun n => ((s.mapOf region).getD n none).map fun p => unitLoc region p 0 0 0xFF

/-- Does work on a region's clusters lie in a unit or container, or around it? -/
def worksOn (s : State) (region clusters loc : Nat) : Bool :=
  (s.unitsOf region clusters).any fun u => locHolds (bareLoc loc) u || locHolds u (bareLoc loc)

/-! ### Units that stop -/

/-- Units of a serviceable cluster, by locator. -/
def clusterUnits (s : State) (r c : Nat) : List Nat :=
  (s.threshersOk r c).map (fun i => unitLoc r c 1 i 0xFF) ++ (s.gleanersOk r c).map (fun i => unitLoc r c 2 i 0xFF) ++
    [unitLoc r c 3 0 0xFF, unitLoc r c 4 0 0xFF]

def setPhase (s : State) (l : Nat) (p : UnitPhase) : State :=
  { s with integ := { s.integ with phases := Table.put (bareLoc l) p s.integ.phases } }

/-- A unit begins its self-test, and comes back only by passing it and its probation. -/
def sendToTest (s : State) (l : Nat) : State :=
  let s1 := s.setPhase l .selfTest
  { s1 with integ := { s1.integ with out := if s1.integ.out.contains (bareLoc l) then s1.integ.out else s1.integ.out ++ [bareLoc l] } }

def phase? (s : State) (l : Nat) : Option UnitPhase := Table.find? (bareLoc l) s.integ.phases

/-- R368: remember the slot that a unit holds. -/
def noteSlot (s : State) (l : Nat) : State :=
  let u := s.logicalOf l
  if u = 0xFFFFFFFF then s
  else { s with integ := { s.integ with lastSlot := Table.put (bareLoc l) u s.integ.lastSlot } }

/-- R14, R198: the slot that a Thresher, a Gleaner or a Loft bank hosts has no host. -/
def vacate (s0 : State) (l : Nat) : State :=
  let r := locRegion16 l
  let c := locCluster l
  let s := if locKind l = 1 ∨ locKind l = 2 then s0.noteSlot (containerAt 1 l) else s0
  let h := s.hostsOf r c
  let free (xs : List (Option Nat)) : List (Option Nat) := xs.map fun x => if x == some (locIndex l) then none else x
  match locKind l with
  | 1 => s.setHosts r c { h with threshers := free h.threshers }
  | 2 => s.setHosts r c { h with gleaners := free h.gleaners }
  | 4 => if locSub l = 0xFF then s
    else s.setHosts r c { h with banks := h.banks.map fun x => if x == some (locSub l) then none else x }
  | _ => s

/-- A unit stops and begins its self-test; a retired or quarantined one only stays out. A Loft bank counts as a
unit (R361). -/
def benchUnit (s : State) (l : Nat) : State :=
  let u := unitLoc (locRegion16 l) (locCluster l) (locKind l) (locIndex l) (if locKind l = 4 then locSub l else 0xFF)
  let s1 := s.vacate l
  if s1.listed u then s1 else s1.sendToTest u

/-- R14: the logical cluster of a physical one is hosted in turn. -/
def hostInTurn (s : State) (r c : Nat) : State :=
  match (s.mapOf r).zipIdx.find? fun e => e.1 == some c with
  | none => s
  | some e =>
    let s1 := s.setMap r ((s.mapOf r).zipIdx.map fun x => if x.2 = e.2 then none else x.1)
    { s1 with integ := { s1.integ with away := s1.integ.away ++ [(r, e.2, c)] } }

def benchCluster (s : State) (r c : Nat) : State :=
  (s.clusterUnits r c).foldl benchUnit (s.hostInTurn r c)

/-! ### Severity (R354, R361) -/

/-- R354: the severity of a ledger code at a unit. `atUse` tells an uncorrectable read of device memory from
the loss of a stack or its controller. -/
def severityOf (code loc : Nat) (atUse : Bool) : Nat :=
  match code with
  | 0x2C0E => if locKind loc = 5 ∨ locKind loc = 6 then 3 else 4
  | 0x2C0F => if atUse then 1 else 4
  | 0x2C10 | 0x2C11 | 0x2C12 => 4
  | 0x2C13 => 5
  | 0x2C15 => 0
  | _ => 1

/-- A severity that the level of a locator can take: no cluster domain about a region-level unit. -/
def liftSeverity (sev loc : Nat) : Nat := if sev ≤ 1 then sev else max sev (stepUp (sev - 1) loc)

/-- R382: a write of the slot stops part-way. -/
def slotStopped (s : State) : State :=
  if s.fw.updateState = 3 then { s with fw := { s.fw with updateState := 5, slot := .mixed, fetched := [] } } else s

/-- R361: a die stops: its commands fail with 0x2C23 and its queues enter error. -/
def stopDie (s : State) (die : Nat) (fatal : Bool) : State :=
  let s1 := (s.cmds.filter fun c => c.die == die && openCmd c).foldl (fun s c => s.failCmd c 0x2C23 0) s
  let s2 := (s1.queues.filter fun q => q.2.region / 8 == die && q.2.state != 3).foldl (fun s q => s.queueError q.1 0x2C23) s1
  { (if fatal then s2.slotStopped else s2) with pins :=
      if fatal then { s2.pins with fatal := setBit s2.pins.fatal die } else { s2.pins with stopped := setBit s2.pins.stopped die } }

/-- The open command that a detection names. -/
def affectedCmd (s : State) (affected : Option (Nat × Nat)) : Option Cmd :=
  match affected with
  | none => none
  | some (q, i) => (s.cmd? q i).bind fun c => if openCmd c then some c else none

/-- R361: act on a fault at a severity; `loc` is the domain's locator. Answers `ACTION` and whether a
command reached its rerun limit. -/
def actOn (s : State) (sev loc : Nat) (parity : Bool) (affected : Option (Nat × Nat)) (atUse : Bool) : State × Nat × Bool :=
  let one (s : State) : State × Nat × Bool := match s.affectedCmd affected with
    | none => (s, 0, false)
    | some c =>
      let (s1, lim) := s.faultOn c parity loc
      (s1, if parity && isCopy c then 0 else if (s.rerunCode c parity).isSome then 2 else 1, lim)
  -- R361: the commands with work on the unit or container; those of a unit that holds no slot are none
  let works (c : Cmd) : Bool :=
    s.worksOn c.region c.clusters loc && (sev != 1 || (c.begun && c.wait != .done && (s.phase? (containerAt 1 loc)).isNone))
  let all (s : State) : State × Bool :=
    (s.cmds.filter fun c => openCmd c && (works c || affected == some (c.q, c.i))).foldl
      (fun (a : State × Bool) c =>
        let (s1, l) := a.1.faultOn c parity loc
        (s1, a.2 || l)) (s, false)
  match sev with
  | 0 => (s, 0, false)
  | 1 =>
    if atUse then one s
    else
      let (s1, lim) := all s
      (s1.benchUnit loc, 3, lim)
  | 2 =>
    let (s1, lim) := all s
    (s1.benchCluster (locRegion16 loc) (locCluster loc), 4, lim)
  | 3 =>
    let (s1, lim) := all s
    let r := locRegion16 loc
    let s2 := (s1.clustersOk r).foldl (fun s c => s.benchCluster r c) s1
    ([5, 6, 7].foldl (fun s k => s.sendToTest (unitLoc r 0x1E k 0 0xFF)) s2, 4, lim)
  | 4 => (s.stopDie (locDie loc) false, 5, false)
  | _ => (s.stopDie (locDie loc) true, 5, false)

/-! ### Domains (R361, R365) -/

/-- The open domain that holds a locator, the narrowest one. -/
def domainOf (s : State) (loc : Nat) : Option Domain :=
  [1, 2, 3, 4, 5].findSome? fun v => s.integ.domains.find? fun d => d.severity == v && locHolds d.loc loc

def setDomain (s : State) (root die : Nat) (d : Domain) : State :=
  { s with integ := { s.integ with domains := s.integ.domains.map fun x => if x.root = root ∧ locDie x.loc = die then d else x } }

/-- R365: raise a domain one step, or to the severity of a higher mechanism, with a nested entry. With
`fuel`, a command that reaches its limit there raises it again (R362). -/
def raiseDomain (fuel : Nat) (s : State) (d : Domain) (code loc least detail : Nat) (parity : Bool)
    (affected : Option (Nat × Nat)) (atUse : Bool) : State :=
  match fuel with
  | 0 => s
  | fuel + 1 =>
    let die := locDie d.loc
    let sev := max least (stepUp d.severity d.loc)
    let box := containerAt sev d.loc
    let c := s.affectedCmd affected
    let (s1, act, lim) := s.actOn sev box parity affected atUse
    let e := s.faultEntry code sev loc true d.root act detail c
    let q := (s1.ledger die).seq
    let s2 := (s1.ledgerWrite die e).1.noteFault loc sev e.exposed
    let d1 : Domain := { d with loc := box, severity := sev, entries := d.entries ++ [(die, q)], cmd := none }
    let s3 := s2.setDomain d.root die d1
    if lim then raiseDomain fuel s3 d1 code loc 0 detail parity none atUse else s3

/-- R366: a domain that closed in this clk and holds a locator counts as open: it and its entries open again
(log entry 173). -/
def reopen (s : State) (loc : Nat) : State :=
  match s.integ.shut.find? fun x => x.1 == s.clk && locHolds x.2.loc loc with
  | none => s
  | some x =>
    let es := x.2.entries
    let s1 := [0, 1].foldl (fun s die =>
      let l := s.ledger die
      s.setLedger die { l with places := l.places.map fun p =>
        if (es.any fun e => e.1 == die && e.2 == p.2.seq) then (p.1, { p.2 with state := 0 }) else p }) s
    { s1 with integ := { s1.integ with domains := s1.integ.domains ++ [x.2], shut := s1.integ.shut.filter (· != x) } }

/-- R361, R365: a detected fault. -/
def raiseFault (s0 : State) (code loc detail : Nat) (affected : Option (Nat × Nat)) (atUse : Bool) : State :=
  let parity := code == 0x2C09
  let sev0 := liftSeverity (severityOf code loc atUse) loc
  let s := if sev0 = 0 || (s0.domainOf (bareLoc loc)).isSome then s0 else s0.reopen (bareLoc loc)
  match if sev0 = 0 then none else s.domainOf (bareLoc loc) with
  | some d => raiseDomain 6 s d code loc sev0 detail parity affected atUse
  | none =>
    let die := locDie loc
    let box := bareLoc (containerAt sev0 loc)
    let c := s.affectedCmd affected
    let (s1, act, lim) := s.actOn sev0 box parity affected atUse
    let e := s.faultEntry code sev0 loc false 0 act detail c
    let root := (s1.ledger die).seq
    -- R361: an at-use detection without a command in flight closes at once
    let tied := sev0 = 1 && atUse
    let shut := sev0 = 0 || (tied && c.isNone)
    let s2 := (s1.ledgerWrite die { e with state := if shut then 3 else 0 }).1.noteFault loc sev0 e.exposed
    if shut then s2
    else
      let d : Domain := { loc := box, severity := sev0, root := root, entries := [(die, root)],
                          cmd := if tied then affected else none }
      let s3 : State := { s2 with integ := { s2.integ with domains := s2.integ.domains ++ [d] } }
      if lim then raiseDomain 6 s3 d code loc 0 detail parity none atUse else s3

/-- R216, R362: a command that has reached its limit escalates the domain of its last fault, or opens one
above the unit where none is open. -/
def escalate (s : State) (code loc : Nat) (parity : Bool) : State :=
  match s.domainOf (bareLoc loc) with
  | some d => raiseDomain 6 s d code loc 0 0 parity none true
  | none =>
    let die := locDie loc
    let root := (s.ledger die).seq
    raiseDomain 6 s { loc := bareLoc (containerAt 1 loc), severity := 1, root := root, entries := [] } code loc 0 0 parity none true

/-! ### Parity errors of Loft reads (R215, R216) -/

/-- R216: a read of a command met a bad row: the command fails, or starts again. `again` is the command as it
starts. -/
def parityRead (s : State) (c again : Cmd) (region cluster absRow : Nat) : State :=
  let loc := s.bankLoc region cluster absRow
  let s0 := s.noteBadRow region cluster absRow (some c)
  match s0.rerunCode c true with
  | some code =>
    let s1 := s0.failCmd { c with lastFault := some (bareLoc loc) } code 0
    if code = 0x2607 then s1.escalate 0x2C09 loc true else s1
  | none =>
    -- R403: a rerun forms a further begin and end
    let s1 := if c.begun then s0.traceEnd c else s0
    let s2 := if again.begun then s1.traceBegin again else s1
    ((s2.bump 0x2600 0x0D 1).bumpTask c.pasid 13 1).setCmd
      { again with reruns := c.reruns + 1, resumes := c.resumes, hazards := c.hazards, lastFault := some (bareLoc loc) }

/-! ### Closing -/

/-- R368: the entries of a domain take their last state; nothing else of them changes. -/
def closeEntries (s : State) (es : List (Nat × Nat)) (st : Nat) : State :=
  [0, 1].foldl (fun s die =>
    let l := s.ledger die
    s.setLedger die { l with places := l.places.map fun p =>
      if (es.any fun e => e.1 == die && e.2 == p.2.seq) && p.2.state == 0 then (p.1, { p.2 with state := st }) else p }) s

def closeDomain (s : State) (d : Domain) (st : Nat) : State :=
  let s1 := s.closeEntries d.entries st
  { s1 with integ := { s1.integ with
      domains := s1.integ.domains.filter (· != d), shut := (s1.integ.shut.filter fun x => x.1 == s.clk) ++ [(s.clk, d)] } }

/-- R361: an at-use domain closes when the rerun or failure of its command completes. -/
def closeTied (s : State) (q i : Nat) : State :=
  (s.integ.domains.filter fun d => d.cmd == some (q, i)).foldl (fun s d => s.closeDomain d 3) s

/-- R13: no command that has begun works on a logical cluster. -/
def slotFree (s : State) (r n : Nat) : Bool :=
  !s.cmds.any fun c => c.begun && c.wait != .done && c.region == r && bit c.clusters n

/-- R13, R14: the logical clusters of a region come back to their physical clusters once every unit is back, each at a
command boundary. -/
def comeBack (s : State) : State :=
  s.integ.away.foldl (fun s a =>
    let busy := (s.integ.out.any fun u =>
        locHolds (unitLoc a.1 a.2.2 0 0 0xFF) u || (locCluster u == 0x1E && locRegion16 u == a.1)) ||
      s.quarantinedAt (unitLoc a.1 a.2.2 3 0 0xFF) || s.quarantinedAt (unitLoc a.1 a.2.2 4 0 0xFF) ||
      [5, 6, 7].any fun k => s.quarantinedAt (unitLoc a.1 0x1E k 0 0xFF)
    let m := s.mapOf a.1
    if busy || !s.slotFree a.1 a.2.1 then s
    else
      let s1 : State := { s with integ := { s.integ with away := s.integ.away.filter (· != a) } }
      if s.clusterOk a.1 a.2.2 && (m.getD a.2.1 none).isNone && !m.contains (some a.2.2) then
        s1.setMap a.1 (m.zipIdx.map fun x => if x.2 = a.2.1 then some a.2.2 else x.1)
      else s1) s

/-- R361: unit, cluster and region domains close when every unit of theirs is back or retired. -/
def settleDomains (s : State) : State :=
  let s1 := (s.integ.domains.filter fun d => d.severity ≤ 3 && d.cmd.isNone).foldl (fun s d =>
    if s.integ.out.any (locHolds d.loc) then s
    else s.closeDomain d (if d.severity = 1 ∧ s.listed d.loc then 2 else 1)) s
  s1.comeBack

end State
end Sys2Proof.Machine
end

