-- ==== Sys2Proof/Machine/Capture.lean ====
section
/-! DEFINITION. Machine/Capture.lean: captures of a tensor by DUMP (R407–R411): matching, what is copied, and
the writing of the buffer. -/
namespace Sys2Proof.Machine

/-! ### The dump record (R408) -/

/-- A dump record, read. -/
structure DumpRecord where
  queue : Nat
  target : Nat
  which : Nat
  tag : Nat
  mask : Nat
  skip : Nat
  expire : Nat
  dest : Nat
  bytes : Nat
  seq : Nat
  reserved : Bool
  deriving DecidableEq, Repr

def DumpRecord.ofBytes (b : List Byte) : DumpRecord :=
  let w := field b 0 3
  { queue := bits w 19 0, target := bits w 23 20, which := bits w 31 24, tag := field b 4 7, mask := field b 8 11,
    skip := field b 12 13, expire := field b 14 15, dest := field b 16 23, bytes := field b 24 31, seq := field b 32 33,
    reserved := !zeroBytes b 34 63 }

/-- R407: malformed. `WHICH` is 0 where the target does not use it. -/
def DumpRecord.malformed (r : DumpRecord) : Bool :=
  r.reserved || 4 < r.target || r.expire == 0 || (vaOk r.dest && r.dest % 4096 != 0) ||
    match r.target with
    | 0 => 15 < r.which
    | 1 => bits r.which 5 3 != 0
    | 3 => false
    | _ => r.which != 0

/-- Codes that a dump record adds to the check of its DUMP. -/
def State.dumpRecordCodes (s : State) (pasid : Nat) (b : List Byte) : List Nat :=
  let r := DumpRecord.ofBytes b
  cond (!vaOk r.dest) 0x2801 ++ cond r.malformed 0x2E01 ++
  cond (match s.queue? r.queue with
    | some k => k.pasid != pasid
    | none => true) 0x2E02 ++
  cond (16 ≤ s.obs.captures.length) 0x2E06

def Capture.rec_ (k : Capture) : DumpRecord := DumpRecord.ofBytes k.record

/-! ### What an argument slot holds -/

/-- A tensor in task memory as a capture copies it. -/
structure View where
  type : Nat
  rows : Nat
  columns : Nat
  ranges : List (Nat × Nat)
  written : Bool
  deriving DecidableEq, Repr

def tensorView (ty addr stride rows n : Nat) (written : Bool) : View :=
  { type := ty, rows := rows, columns := n, ranges := rowRanges (Recs.fmtOf ty) addr stride rows n, written := written }

/-- Bytes that are no tensor: type word 0, one row (log entry 62). -/
def rawView (addr n : Nat) : View := { type := 0, rows := 1, columns := n, ranges := [(addr, n)], written := false }

def scaleView (ty addr rows cols : Nat) (written : Bool) : View :=
  tensorView (OpType.ofWord ty).scaleFmt.code addr 0 rows cols written

def statView (addr rows cols : Nat) (written : Bool) : View := tensorView Fmt.fp32.code addr 0 rows cols written

/-- The tensor that an argument slot names, none where the slot holds no tensor. -/
def slotView (seq : Nat → Option Sequence) (r : Recs) (i : Nat) : Option View :=
  let a := r.slot i
  let m := r.mRows
  if a = 0 then none
  else match r.cls with
    | 1 =>
      let d := r.attend.dim
      (match i with
      | 0 => some (tensorView r.tyA a (r.slot 9) m d false)
      | 1 => if r.localStore then some (tensorView r.resultType a (r.slot 10) m r.resultWidth true) else none
      | 2 => some (rawView a 128)
      | 3 => some (statView a 1 1 false)
      | 4 => some (statView a m 2 true)
      | 5 => some (rawView a (16 + 16 * r.mergeCount))
      | 6 => some (statView a m 1 true)
      | 7 => some (rawView a 256)
      | 8 => some (scaleView r.tyA a m 1 false)
      | _ => none)
    | 2 => (match i with
      | 0 => if r.control.leftMajor then some (tensorView r.tyA a (r.slot 8) r.kDim m false)
        else some (tensorView r.tyA a (r.slot 8) m r.kDim false)
      | 1 => some (tensorView r.tyB a (r.slot 9) r.kDim r.nCols false)
      | 2 => some (tensorView r.tyC a (r.slot 10) m r.nCols false)
      | 3 => if r.localStore then some (tensorView r.resultType a (r.slot 11) m r.resultWidth true) else none
      | 4 => some (scaleView r.tyA a m 1 false)
      | 5 => some (scaleView r.tyB a r.nCols 1 false)
      | 6 => some (statView a m 1 true)
      | 7 => some (rawView a 256)
      | _ => none)
    | 4 => (match i with
      | 0 => some (tensorView r.inType a r.inStride r.rows r.cols false)
      | 1 => some (tensorView r.outType a r.outStride r.rows r.cols true)
      | 2 | 3 => some (statView a 1 r.cols false)
      | 4 => some (statView a r.rows 2 true)
      | 5 => some (statView a r.rows 1 true)
      | 6 => some (scaleView r.inType a r.rows 1 false)
      | _ => none)
    | 5 | 6 => (match if r.cls = 6 ∧ r.form ≠ 3 then 16 else i with
      | 0 => some (tensorView r.inType a r.inStride r.rows r.cols false)
      | 1 => some (tensorView r.outType a r.outStride r.rows r.cols true)
      | 2 => some (rawView a 128)
      | 3 => some (statView a r.rows 1 true)
      | 4 => some (scaleView r.inType a r.rows 1 false)
      | _ => none)
    | 7 | 8 => (match seq (r.b 20 21) with
      | none => none
      | some q =>
        let gather := r.cls == 8
        let h := if gather then r.b 32 32 else q.heads
        let n := r.b 28 31
        match i with
        | 0 => some (tensorView q.kType a (r.slot 3) n (h * q.d) gather)
        | 1 => some (tensorView q.vType a (r.slot 4) n (h * q.d) gather)
        | 2 => some (scaleView q.kType a n h gather)
        | _ => none)
    | _ => none

/-! ### The copies (R409) -/

def rowsCaptured (c : Cmd) (now : Nat) (rows : List Row) : Option Captured :=
  match rows with
  | [] => none
  | r :: _ =>
    some { index := c.i, tag := c.recs.tag, time := now, type := r.ty.word, rows := rows.length,
           columns := r.codes.length, data := (rows.map fun x => packRow x.ty.fmt x.codes).flatten }

/-- A record with its epilogue cut after n stages. -/
def Recs.cutEpilogue (r : Recs) (n : Nat) : Recs :=
  let h := field r.chain 0 7
  { r with chain := leBytes 8 (h - bits h 6 4 * 16 + n * 16) ++ r.chain.drop 8 }

/-- The stage at a number, where it rounds a result. -/
def roundingStage (ss : List StageWord) (n : Nat) : Bool := match ss[n]? with
  | some s => s.rounds
  | none => false

/-- Rows that a stage of a product delivers; `hand` are the hand-over rows of a second product. -/
def stageResult (x : WorkEnv) (r : Recs) (hand : Option (List Row)) (epilogue : Bool) (n : Nat) : Option (List Row) :=
  if epilogue then
    if roundingStage r.epi n then
      let r1 := r.cutEpilogue (n + 1)
      some (if r.isAttend then (attendPlan x r1 false).rows else (gemmPlan x r1 hand false).rows)
    else none
  else if roundingStage r.pro n && hand.isNone then
    some (runRows (x.stages r.chainRec.table) (r.pro.take (n + 1)) (r.leftRows x)).rows
  else none

/-- Target 1. -/
def stageCapture (x : WorkEnv) (c : Cmd) (which : Nat) : Option (List Row) :=
  let epi := bit which 6
  let n := bits which 2 0
  let r := c.recs
  match r.cls with
  | 1 | 2 => if bit which 7 then none else stageResult x r none epi n
  | 3 =>
    let p := c.prods.getD 0 {}
    let q := c.prods.getD 1 {}
    if bit which 7 then stageResult { x with ring := [] } q (some (productPlan x p false).rows) epi n
    else stageResult x p none epi n
  | _ => none

namespace State

/-- R409: the bytes of a slot's tensor, packed. -/
def viewBytes (s : State) (c : Cmd) (v : View) : List Byte := (v.ranges.map fun a => s.readVA c.region c.pasid a.1 a.2).flatten

/-- R409, R179: a Granary layer: context record, tally entries, each named sheaf and its metadata. -/
def layerCapture (s : State) (c : Cmd) (id layer : Nat) : Option Captured :=
  match s.seq? id with
  | none => none
  | some q =>
    if q.pasid != c.pasid || q.layers ≤ layer then none
    else
      let per := q.groups * q.blocks
      let es := (List.range per).map fun i => Table.find? (layer * per + i) q.tally
      let sheaves := es.filterMap fun e => e
      let tally := (es.map fun e => leBytes 4 (match e with
        | some sh => 2 ^ 31 + sh
        | none => 0)).flatten
      let one (sh : Nat) : List Byte := s.sheafBytes sh 0 65536 ++ s.sheafRecord sh
      some { index := c.i, tag := c.recs.tag, time := s.reel c.die, type := 0, rows := sheaves.length, columns := 65536,
             data := q.record id ++ tally ++ (sheaves.map one).flatten }

/-- The rows of a command's partition, cluster by cluster: cluster, relative row, and what a read of it returns. -/
def partRows (s : State) (c : Cmd) : List (Nat × Nat × List Byte × Bool × Bool) :=
  match s.queue? c.q with
  | none => []
  | some k =>
    let p := s.partOf k
    ((setBits p.mask 16).map fun n => (List.range (16 * p.units)).map fun i => (n, i, s.readRow p k.region n i)).flatten

/-- R409: a Loft partition, cluster by cluster. -/
def partCapture (s : State) (c : Cmd) : Option Captured :=
  if ((s.queue? c.q).bind Queue.part).isNone then none
  else
    let rows := s.partRows c
    some { index := c.i, tag := c.recs.tag, time := s.reel c.die, type := 0, rows := rows.length, columns := 512,
           data := (rows.map fun r => r.2.2.1).flatten }

/-! ### Matching and copying -/

/-- R407–R409: a command issues: captures that watch its queue count it and match it. -/
def captureIssue (s : State) (c : Cmd) : State :=
  let one (k : Capture) : Capture :=
    let r := k.rec_
    if r.queue != c.q || k.matched.isSome || r.expire ≤ k.issued then k
    else
      let k1 : Capture := { k with issued := k.issued + 1 }
      if (c.recs.tag &&& r.mask) != (r.tag &&& r.mask) then k1
      else if k.skipped < r.skip then { k1 with skipped := k.skipped + 1 }
      else { k1 with matched := some c.i, got := if r.target = 3 then s.layerCapture c r.seq r.which else none }
  { s with obs := { s.obs with captures := s.obs.captures.map one } }

/-- Does a capture wait for this command? -/
def captures (k : Capture) (c : Cmd) : Bool := k.rec_.queue == c.q && k.matched == some c.i

/-- R409: a command has run, from `pre` to s: its captures take their copies, again after a rerun. -/
def captureRun (s pre : State) (c : Cmd) : State :=
  let now := s.reel c.die
  let x := pre.workEnv c
  let one (k : Capture) : Capture :=
    let r := k.rec_
    if !captures k c || 2 < r.target then k
    else
      { k with got := match r.target with
        | 0 => (match slotView pre.seq? c.recs r.which with
          | none => none
          | some v => some { index := c.i, tag := c.recs.tag, time := now, type := v.type, rows := v.rows, columns := v.columns,
                             data := (if v.written then s else pre).viewBytes c v })
        | 1 => (stageCapture x c r.which).bind (rowsCaptured c now)
        | _ => if c.recs.cls = 3 then rowsCaptured c now (productPlan x (c.prods.getD 0 {}) false).rows else none }
  { s with obs := { s.obs with captures := s.obs.captures.map one } }

/-- R410: the header of a capture. -/
def captureHeader (g : Captured) : List Byte :=
  leBytes 64 (g.index % 2 ^ 32 + 2 ^ 32 * g.tag + 2 ^ 64 * (g.time % 2 ^ 64) + 2 ^ 128 * g.type + 2 ^ 160 * g.rows +
    2 ^ 192 * g.columns + 2 ^ 224 * g.data.length)

def dropCapture (s : State) (q i : Nat) : State :=
  { s with obs := { s.obs with captures := s.obs.captures.filter fun k => !(k.q == q && k.i == i) } }

/-- A DUMP ends without writing (R411). -/
def endDump (s : State) (q i status detail : Nat) : State :=
  match s.cmd? q i with
  | none => s.dropCapture q i
  | some c => (s.failCmd c status detail).dropCapture q i

/-- R410, R411: a DUMP whose matched command has completed writes its buffer. -/
def attemptDump (s : State) (c : Cmd) : State :=
  match s.obs.captures.find? fun k => k.q == c.q && k.i == c.i with
  | none => s
  | some k => match k.got with
    | none => s.endDump c.q c.i 0x2E04 0
    | some g =>
      if !s.mayRun c then s.setCmd { c with wait := .parked }
      else
        let r := k.rec_
        let fits := 64 + g.data.length ≤ r.bytes
        let out := captureHeader g ++ (if fits then g.data else [])
        s.withAccess c [{ va := r.dest, len := out.length, kind := 1 }] fun t =>
          let t1 := (t.writeVA c.region c.pasid r.dest 1 out).dropCapture c.q c.i
          if fits then t1.setCmd { c with wait := .done } else t1.failCmd c 0x2E05 0

/-- R214–R216, R409: the DUMP of a capture reads the partition of the command it matched. Hazards are its own. A bad row
is a parity error of the DUMP: each rerun of it meets the mark again, until its limit. -/
def capturePart (s : State) (k : Capture) (c : Cmd) : State :=
  let rows := s.partRows c
  let p := (s.queue? c.q).elim {} s.partOf
  match rows.find? fun r => r.2.2.2.1 with
  | some r => (List.range (s.keptReg 0x2600 0x07 2 + 1)).foldl (fun s _ => match s.cmd? k.q k.i with
    | some d => if openCmd d then s.parityRead d d c.region r.1 (16 * p.baseUnit + r.2.1) else s
    | none => s) s
  | none =>
    let hz := rows.filter fun r => r.2.2.2.2
    let s1 := hz.foldl (fun s r => s.hazardAt p c.region r.1 r.2.1 c.pasid k.q) s
    let s2 := match s1.cmd? k.q k.i with
      | some d => s1.setCmd { d with hazards := d.hazards + hz.length }
      | none => s1
    { s2 with obs := { s2.obs with captures := s2.obs.captures.map fun x => if x = k then { x with got := s.partCapture c } else x } }

/-- R411: a matched command completes: its captures are written, or end. -/
def captureEnd (s : State) (c : Cmd) : State :=
  (s.obs.captures.filter fun k => captures k c).foldl (fun s k =>
    if c.status != 0 then s.endDump k.q k.i 0x2E04 c.status
    else
      let s1 : State := if k.rec_.target = 4 then s.capturePart k c else s
      match s1.cmd? k.q k.i with
      | some d => s1.attemptDump d
      | none => s1) s

/-- R411: the dump scope is closed: every armed capture ends. -/
def captureClosed (s : State) : State := s.obs.captures.foldl (fun s k => s.endDump k.q k.i 0x2D22 0) s

end State
end Sys2Proof.Machine
end

