-- ==== Sys2Proof/Machine/Descriptor.lean ====
section
/-! DEFINITION. Machine/Descriptor.lean: the transfer descriptor (R221–R223), its addresses (R224, R225) and its
checks (R237). -/
namespace Sys2Proof.Machine

/-- R223: a dimension word. -/
structure Dim where
  stride : Int
  step : Int
  axis : Nat
  count : Nat
  deriving DecidableEq, Repr

/-- R223: an axis word. -/
structure Axis where
  stride : Int
  pad : Nat
  extent : Nat
  deriving DecidableEq, Repr

def Dim.ofWord (w : Nat) : Dim :=
  { stride := signed (bits w 79 40) 40, step := signed (bits w 39 26) 14, axis := bits w 25 24, count := bits w 23 0 }

def Axis.ofWord (w : Nat) : Axis := { stride := signed (bits w 79 40) 40, pad := bits w 39 24, extent := bits w 23 0 }

/-- R221. -/
structure Xfer where
  ctl : Nat
  wait : Nat
  signal : Nat
  src : Nat
  dst : Nat
  pad : Nat
  start : Nat
  deadline : Nat
  dims : List Dim
  axes : List Axis
  deriving DecidableEq, Repr

def Xfer.ofBytes (b : List Byte) : Xfer :=
  { ctl := field b 0 7, wait := field b 8 11, signal := field b 12 15, src := field b 16 23, dst := field b 24 31,
    pad := field b 32 35, start := field b 36 39, deadline := field b 40 47,
    dims := (List.range 5).map fun k => Dim.ofWord (field b (48 + 10 * k) (57 + 10 * k)),
    axes := (List.range 3).map fun k => Axis.ofWord (field b (98 + 10 * k) (107 + 10 * k)) }

namespace Xfer

def srcKind (x : Xfer) : Nat := bits x.ctl 3 0
def dstKind (x : Xfer) : Nat := bits x.ctl 7 4
/-- E, bytes of an element. -/
def elem (x : Xfer) : Nat := 2 ^ bits x.ctl 9 8
def arrival (x : Xfer) : Nat := bits x.ctl 12 10
def hint (x : Xfer) : Nat := bits x.ctl 14 13
def fence (x : Xfer) : Bool := bit x.ctl 15
def cadence (x : Xfer) : Nat := bits x.ctl 17 16
def deadlineEn (x : Xfer) : Bool := bit x.ctl 18
def mask (x : Xfer) : Nat := bits x.ctl 47 32
def counter (x : Xfer) : Nat := bits x.ctl 55 48
def counterEn (x : Xfer) : Bool := bit x.ctl 56
def loftSide (x : Xfer) : Bool := x.srcKind == 1 || x.dstKind == 1
def signals (x : Xfer) : Bool := (SemWord.ofWord x.signal).op == 2

def dim (x : Xfer) (k : Nat) : Dim := x.dims.getD k { stride := 0, step := 0, axis := 0, count := 0 }
def n (x : Xfer) (k : Nat) : Nat := (x.dim k).count

/-- Rows: n1 × n2 × n3 × n4. -/
def rows (x : Xfer) : Nat := x.n 1 * x.n 2 * x.n 3 * x.n 4
def rowBytes (x : Xfer) : Nat := x.n 0 * x.elem

/-- R233: i1 … i4 of a linear row number. -/
def index (x : Xfer) (r : Nat) : List Nat :=
  [r % x.n 1, r / x.n 1 % x.n 2, r / (x.n 1 * x.n 2) % x.n 3, r / (x.n 1 * x.n 2 * x.n 3)]

/-- R224: source displacement of element i0 of row r, none for padding. -/
def element (x : Xfer) (r i0 : Nat) : Option Int :=
  let is := i0 :: x.index r
  let c (a : Nat) : Int :=
    ((x.dims.zip is).map fun di => if di.1.axis = a then di.1.step * (di.2 : Int) else 0).sum -
      (((x.axes.map Axis.pad).getD a 0 : Nat) : Int)
  let cs := x.axes.zipIdx.map fun ai => (ai.1, c ai.2)
  if x.srcKind = 3 || cs.any fun ac => ac.1.extent != 0 && (ac.2 < 0 || (ac.1.extent : Int) ≤ ac.2) then none
  else some (cs.map fun ac => ac.2 * ac.1.stride).sum

def elements (x : Xfer) (r : Nat) : List (Option Int) := (List.range (x.n 0)).map (x.element r)

/-- R224: destination displacement of row r. -/
def place (x : Xfer) (r : Nat) : Int := (((x.dims.drop 1).zip (x.index r)).map fun di => di.1.stride * (di.2 : Int)).sum

/-- R224: a padding element: the low E bytes, repeated twice when E = 8. -/
def padBytes (x : Xfer) : List Byte := (leBytes 4 x.pad ++ leBytes 4 x.pad).take x.elem

/-- R227: rows of an arrival group; 0 none. A window destination without one sends the whole transfer. -/
def groupRows (x : Xfer) : Nat :=
  match if x.dstKind = 2 ∧ x.arrival = 0 then 5 else x.arrival with
  | 1 => 1
  | 2 => x.n 1
  | 3 => x.n 1 * x.n 2
  | 4 => x.n 1 * x.n 2 * x.n 3
  | 5 => x.rows
  | _ => 0

/-- The row after the last of the group that holds row r. -/
def groupEnd (x : Xfer) (r : Nat) : Nat := if x.groupRows = 0 then r + 1 else min x.rows ((r / x.groupRows + 1) * x.groupRows)

/-- First row of the group of row r that is delivered (R235). -/
def groupStart (x : Xfer) (r : Nat) : Nat := if x.groupRows = 0 then r else max x.start (r / x.groupRows * x.groupRows)

/-- Base that displacements of the source are added to: an address, a byte of the partition, a window offset. -/
def srcBase (x : Xfer) : Int := if x.srcKind = 2 then refOffset x.src else x.src
def dstBase (x : Xfer) : Int := if x.dstKind = 2 then refOffset x.dst else x.dst

/-- Source bytes of all rows, from the lowest to the byte after the highest; none where nothing is read. -/
def srcSpan (x : Xfer) : Option (Int × Int) :=
  (List.range x.rows).foldl (fun acc r => (x.elements r).foldl (fun acc e => match e, acc with
    | none, a => a
    | some o, none => some (x.srcBase + o, x.srcBase + o + x.elem)
    | some o, some (a, b) => some (min a (x.srcBase + o), max b (x.srcBase + o + x.elem))) acc) none

/-- Destination bytes of all rows, from the lowest to the byte after the highest. -/
def dstSpan (x : Xfer) : Int × Int :=
  let far := (x.dims.drop 1).map fun d => d.stride * ((d.count - 1 : Nat) : Int)
  (x.dstBase + (far.map (min 0)).sum, x.dstBase + (far.map (max 0)).sum + (if x.dstKind = 1 then 512 else x.rowBytes))

/-- R226: do the source and destination address ranges overlap? -/
def overlaps (x : Xfer) : Bool :=
  x.srcKind == x.dstKind && (x.srcKind != 2 || x.src / 2 ^ 42 == x.dst / 2 ^ 42) &&
    match x.srcSpan with
    | none => false
    | some (a, b) => a < x.dstSpan.2 && x.dstSpan.1 < b

/-! ### Checks (R237) -/

/-- R225: the lowest dimension above 0 with a count above 1 steps an even number of rows. DEDUCED: a source
step that is not a whole number of rows is no row stride (log entry 61). -/
def evenStep (steps : List (Nat × Int)) : Bool :=
  match steps.find? fun s => 1 < s.1 with
  | none => false
  | some s => s.2 % 512 == 0 && (s.2 / 512) % 2 == 0

/-- Source byte step of dimension k. -/
def srcStep (x : Xfer) (k : Nat) : Int :=
  let d := x.dim k
  d.step * (match x.axes[d.axis]? with
    | some a => a.stride
    | none => 0)

/-- Relative Loft rows that a side touches, lowest and highest. -/
def loftRows (x : Xfer) : List (Int × Int) :=
  (if x.dstKind = 1 then [(x.dstSpan.1 / 512, (x.dstSpan.2 - 1) / 512)] else []) ++
  (if x.srcKind = 1 then (match x.srcSpan with
    | some (a, b) => [(a / 512, (b - 1) / 512)]
    | none => []) else [])

/-- Malformed (0x2701). -/
def malformed (x : Xfer) : Bool :=
  let e : Int := x.elem
  let counts := [0, 1, 2, 3, 4].map x.n
  bits x.ctl 63 57 != 0 || bits x.ctl 31 19 != 0 || 3 < x.srcKind || 2 < x.dstKind || x.hint == 3 || 5 < x.arrival ||
    counts.contains 0 || 512 < x.rowBytes || (x.dim 0).stride != e ||
    (x.dims.any fun d => d.stride % e != 0) || (x.axes.any fun a => a.stride % e != 0 || (a.pad != 0 && a.extent == 0)) ||
    (if x.srcKind = 3 then x.src != 0 else x.srcBase % e != 0) || x.dstBase % e != 0 ||
    (x.srcKind == 1 && 2 ^ 21 ≤ x.src) ||
    (x.dstKind == 1 && (2 ^ 21 ≤ x.dst || x.dst % 512 != 0 || (x.dims.drop 1).any fun d => d.stride % 512 != 0)) ||
    (if x.loftSide then x.mask == 0 else x.mask != 0 || x.counter != 0 || x.wait != 0 || x.signal != 0) ||
    (x.counterEn && (x.dstKind != 1 || x.arrival == 0)) || (x.dstKind != 1 && x.counter != 0)

/-- Every code that fails a descriptor at its burst's check. -/
def codes (x : Xfer) (env : CheckEnv) (systemSize : Nat) : List Nat :=
  let none_ := env.units = 0
  let top : Int := 16 * env.units
  let small := x.rows < 2 ^ 32 && x.rows != 0
  cond x.malformed 0x2701 ++ cond (2 ^ 32 - 1 < x.rows || x.rows ≤ x.start) 0x2702 ++
  cond ((x.srcKind == 0 && !vaOk x.src) || (x.dstKind == 0 && !vaOk x.dst)) 0x2801 ++
  cond ((x.srcKind == 2 && systemSize ≤ refPackage x.src) || (x.dstKind == 2 && systemSize ≤ refPackage x.dst)) 0x2B01 ++
  (if !x.loftSide then []
   else
    cond ((x.dstKind == 1 && evenStep ([1, 2, 3, 4].map fun k => (x.n k, (x.dim k).stride))) ||
      (x.srcKind == 1 && evenStep ([1, 2, 3, 4].map fun k => (x.n k, x.srcStep k)))) 0x2602 ++
    (if none_ then [0x2902]
     else
      semCodes env 1 x.wait ++ semCodes env 2 x.signal ++ cond (x.counterEn && env.ctrs ≤ x.counter) 0x2601 ++
      cond (x.rows != 0 && x.loftRows.any fun r => r.1 < 0 || top ≤ r.2) 0x2601 ++ maskCodes env x.mask) ++
    cond (small && x.srcKind == 1 && (List.range x.rows).any fun r =>
      match (x.elements r).filterMap id with
      | [] => false
      | o :: os =>
        let row (v : Int) : Int := (x.srcBase + v) / 512
        (o :: os).any fun v => row v != row o || (x.srcBase + v + x.elem - 1) / 512 != row o) 0x2704)

/-- R276: units that the descriptor's rows need. -/
def needUnits (x : Xfer) : Nat := (x.loftRows.map fun r => ceilDiv (r.2 + 1).toNat 16).foldl max 0

end Xfer
end Sys2Proof.Machine
end

