-- ==== Sys2Proof/Machine/Carter.lean ====
section
/-! DEFINITION. Machine/Carter.lean: a MOVE in transfer form: its bursts, the start, rows, groups and
completion of its descriptors, its failure and resume (R219–R238). -/
namespace Sys2Proof.Machine

/-- What stops a row. -/
inductive Block
  /-- an access that misses, faults or fails, and its kind -/
  | access (g : Got) (kind : Nat)
  /-- a location that device memory lost -/
  | poison (line : Nat)
  /-- a Loft row with an error mark: region, cluster, row -/
  | parity (region cluster row : Nat)
  /-- it waits for read data or for a link -/
  | remote (stalled : Bool)
  /-- a window refused it -/
  | code (n : Nat)
  deriving DecidableEq, Repr

/-- A row as formed: its bytes, or what stops it. -/
structure Formed where
  s : State
  slot : Slot
  /-- sectors that the gather buffer holds (R230) -/
  buffer : List Nat
  bytes : Except Block (List Byte)
  hazards : Nat := 0

/-- Runs of adjacent elements: first displacement and bytes. -/
def runsOf (e : Nat) (os : List (Option Int)) : List (Int × Nat) :=
  (os.foldl (fun (acc : List (Int × Nat)) o => match o, acc with
    | none, a => a
    | some v, (b, n) :: t => if b + n = v then (b, n + e) :: t else (v, e) :: (b, n) :: t
    | some v, [] => [(v, e)]) []).reverse

/-- A 64-bit address from base and displacement. -/
def vaOf (i : Int) : Nat := unsignedOf i 64

namespace State

/-! ### Forming one row -/

/-- R229, R230: count the requests of a row. A gather reads 64-byte sectors that its buffer does not hold. -/
def noteRow (s : State) (c : Cmd) (x : Xfer) (runs : List (Nat × Nat)) (buffer : List Nat) : State × List Nat :=
  if (x.srcStep 0) = (x.elem : Int) && (x.dim 0).axis != 3 || x.n 0 = 1 then
    (runs.foldl (fun s a => s.noteVA c.region c.pasid a.1 a.2 0 x.hint true) s, buffer)
  else
    ((runs.map fun a => (List.range ((a.1 + a.2 + 63) / 64 - a.1 / 64)).map fun i => a.1 / 64 + i).flatten).foldl
      (fun (sb : State × List Nat) sec =>
        if sb.2.contains sec then sb
        else (sb.1.noteVA c.region c.pasid (64 * sec) 64 0 x.hint true, (sec :: sb.2).take 64)) (s, buffer)

/-- The bytes of a row from its runs: padding elements take `PAD_VALUE`. -/
def assemble (x : Xfer) (r : Nat) (rd : Int → List Byte) : List Byte :=
  ((x.elements r).map fun e => match e with
    | none => x.padBytes
    | some o => rd o).flatten

/-- Send the read requests of a row from a window, or take the data of a local one. -/
def askWindow (s : State) (c : Cmd) (slot : Slot) (x : Xfer) : List (Int × Nat) → State × Slot × Option Block
  | [] => (s, slot, none)
  | a :: as =>
    let off := windowOffset (x.srcBase + a.1)
    if slot.got.any (fun g => g.1 == off) then s.askWindow c slot x as
    else
      let (res, s1) := s.sendTo c.q c.i slot.d x.src false off a.2 [] x.elem
      match res with
      | .sent n => s1.askWindow c { slot with reads := slot.reads ++ [(n, off)] } x as
      | .done 0 b => s1.askWindow c { slot with got := slot.got ++ [(off, b)] } x as
      | .done k _ => (s1, slot, some (.code k))
      | .wait => (s1, slot, some (.remote true))
      | .failed k => (s1, slot, some (.code k))

def lowestCluster (mask : Nat) : Nat := (setBits mask 16).headD 0

/-- R224: read the elements of row r. -/
def formRow (s : State) (c : Cmd) (p : Partition) (x : Xfer) (slot : Slot) (buffer : List Nat) (r : Nat) : Formed :=
  let runs := runsOf x.elem (x.elements r)
  match x.srcKind with
  | 0 =>
    let rs := runs.map fun a => (vaOf (x.srcBase + a.1), a.2)
    match s.reachAll c.region c.pasid (readsOf rs) with
    | some (g, k) => { s := s, slot := slot, buffer := buffer, bytes := .error (.access g k) }
    | none => match s.poisonIn c.region c.pasid (readsOf rs) with
      | some l => { s := s, slot := slot, buffer := buffer, bytes := .error (.poison l) }
      | none =>
        let (s1, b1) := s.noteRow c x rs buffer
        { s := s1, slot := slot, buffer := b1,
          bytes := .ok (assemble x r fun o => s.readVA c.region c.pasid (vaOf (x.srcBase + o)) x.elem) }
  | 1 =>
    let n := lowestCluster x.mask
    let row (o : Int) : Nat := ((x.srcBase + o) / 512).toNat
    let used := (runs.map fun a => row a.1).eraseDups
    let got := used.map fun q => (q, s.readRow p c.region n q)
    match got.find? fun g => g.2.2.1 with
    | some g => { s := s, slot := slot, buffer := buffer, bytes := .error (.parity c.region n g.1) }
    | none =>
      let hz := got.filter fun g => g.2.2.2
      let s1 := hz.foldl (fun s g => s.hazardAt p c.region n g.1 c.pasid c.q) s
      let at_ (o : Int) : List Byte :=
        slice ((got.find? fun g => g.1 == row o).map (fun g => g.2.1) |>.getD []) ((x.srcBase + o) % 512).toNat x.elem
      { s := s1.bump 0x2E30 0x08 (512 * used.length), slot := slot, buffer := buffer, bytes := .ok (assemble x r at_),
        hazards := hz.length }
  | 2 =>
    if !slot.reads.isEmpty then { s := s, slot := slot, buffer := buffer, bytes := .error (.remote false) }
    else
      let (s1, slot1, stop) := s.askWindow c slot x runs
      match stop with
      | some b => { s := s1, slot := slot1, buffer := buffer, bytes := .error b }
      | none =>
        if !slot1.reads.isEmpty then { s := s1, slot := slot1, buffer := buffer, bytes := .error (.remote false) }
        else
          let at_ (o : Int) : List Byte :=
            let past (g : Nat × List Byte) : Nat := windowOffset (x.srcBase + o - g.1)
            match slot1.got.find? fun g => past g < g.2.length with
            | some g => slice g.2 (past g) x.elem
            | none => List.replicate x.elem 0
          { s := s1, slot := { slot1 with got := [] }, buffer := buffer, bytes := .ok (assemble x r at_) }
  | _ => { s := s, slot := slot, buffer := buffer, bytes := .ok (assemble x r fun _ => x.padBytes) }

/-! ### Landing one row -/

/-- R226: bytes that an earlier descriptor of the MOVE has written without a fence between are free. -/
def unfenced (s : State) (t : Transfer) (slot : Slot) (space address : Nat) (b : List Byte) : List Byte :=
  let clash := t.wrote.filter fun w => w.fences == slot.fences && w.d != slot.d && w.space == space && meets w.address w.bytes address b.length
  if clash.isEmpty then b
  else b.zipIdx.map fun bi =>
    if clash.any fun w => w.address ≤ address + bi.2 && address + bi.2 < w.address + w.bytes then Config.freeByte s.free bi.2 else bi.1

/-- Keep what row a descriptor wrote, for the descriptors after it. -/
def noteWrote (t : Transfer) (slot : Slot) (space address bytes : Nat) : Transfer :=
  { t with wrote := t.wrote ++ [{ fences := slot.fences, d := slot.d, space := space, address := address, bytes := bytes }] }

/-- Relative row of row r of a descriptor with a Loft destination. -/
def dstRow (x : Xfer) (r : Nat) : Nat := ((x.dstBase + x.place r) / 512).toNat

/-- R210, R214, R227: a completed arrival group counts on every cluster, and its rows are covered. -/
def countGroup (s : State) (c : Cmd) (p : Partition) (x : Xfer) (r : Nat) : State :=
  (setBits x.mask 16).foldl (fun s n =>
    let s1 := s.settleRows p c.region n ((List.range (r + 1 - x.groupStart r)).map fun i => dstRow x (x.groupStart r + i))
    s1.countUp p c.region n x.counter 1) s

/-- R209, R227: the signal of a descriptor on every cluster; false where it overflowed. -/
def signalSlot (s : State) (c : Cmd) (p : Partition) (x : Xfer) : State × Bool :=
  if !x.signals then (s, true)
  else s.signalRows p c.region x.mask (SemWord.ofWord x.signal)
    (if x.dstKind != 1 then [] else (List.range (x.rows - x.start)).map fun i => dstRow x (x.start + i))

/-- R314: the bytes of a group's rows as runs in ascending offset; where rows meet, the later stands. -/
def groupRuns (rows : List (Nat × List Byte)) : List (Nat × List Byte) :=
  let cells := rows.foldl (fun m r => cellsPut m r.1 r.2) []
  ((cells.foldl (fun (acc : List (Nat × List Byte)) c => match acc with
    | (a, b) :: t => if a + b.length = c.1 then (a, c.2 :: b) :: t else (c.1, [c.2]) :: (a, b) :: t
    | [] => [(c.1, [c.2])]) []).map fun r => (r.1, r.2.reverse)).reverse

end State

/-- A descriptor while it runs. -/
structure Running where
  s : State
  c : Cmd
  t : Transfer
  slot : Slot
  buffer : List Nat := []
  /-- none while it can go on -/
  stop : Option Block := none

namespace State

/-- First row not landed at every destination. -/
def cursorOf (slot : Slot) (next : Nat) : Nat := match slot.unacked with
  | u :: _ => u.2.1
  | [] => next

/-- Put one formed row where it belongs. -/
def landRowAt (w : Running) (p : Partition) (x : Xfer) (r : Nat) (b0 : List Byte) : Running :=
  let s0 := w.s
  let b : List Byte := match w.slot.stamp with
    | some f => (List.range b0.length).map fun j => Config.freeByte f (r * 512 + j)
    | none => b0
  match x.dstKind with
  | 0 =>
    let va := vaOf (x.dstBase + x.place r)
    match s0.reachAll w.c.region w.c.pasid [{ va := va, len := b.length, kind := 1 }] with
    | some (g, k) => { w with stop := some (.access g k) }
    | none =>
      let s1 := s0.noteVA w.c.region w.c.pasid va b.length 1 x.hint true
      let s2 := (s1.writeVA w.c.region w.c.pasid va 1 (unfenced s1 w.t w.slot 0 va b)).draw.2
      { w with
        s := s2.bump 0x2700 0x06 1, t := noteWrote w.t w.slot 0 va b.length,
        slot := { w.slot with formed := r + 1, cursor := r + 1 } }
  | 1 =>
    let row := dstRow x r
    let cs := setBits x.mask 16
    let signalled := x.counterEn || x.signals
    let (s1, t1) := cs.foldl (fun (st : State × Transfer) n =>
      let a := (n * 4096 + row) * 512
      let bytes := unfenced st.1 w.t w.slot 1 a (slice b 0 512)
      (st.1.landRow p w.c.region n row bytes signalled, noteWrote st.2 w.slot 1 a 512)) (s0, w.t)
    let s2 := (s1.countRows w.c.pasid 1 cs.length).draw.2
    let last := x.groupEnd r == r + 1
    let count := x.counterEn && last
    { w with
      s := if count then s2.countGroup w.c p x r else s2, t := t1,
      c := if count then { w.c with released := true } else w.c,
      slot := { w.slot with formed := r + 1, cursor := r + 1 } }
  | _ =>
    let off := windowOffset (x.dstBase + x.place r)
    let t1 := noteWrote w.t w.slot 2 (x.dst / 2 ^ 42 * 2 ^ 42 + off) b.length
    let g := w.slot.group ++ [(off, unfenced s0 w.t w.slot 2 (x.dst / 2 ^ 42 * 2 ^ 42 + off) b)]
    { w with s := s0.draw.2, t := t1, slot := { w.slot with formed := r + 1, group := g } }

/-- R227, R314: send the group that row r − 1 completed, as one message. -/
def sendGroup (w : Running) (x : Xfer) : Running :=
  let r := w.slot.formed
  let first := x.groupStart (r - 1)
  let (res, s1) := w.s.sendTo w.c.q w.c.i w.slot.d x.dst true 0 0 (groupRuns w.slot.group) x.elem
  let out : Cmd := { w.c with released := true }
  match res with
  | .sent n =>
    let u := w.slot.unacked ++ [(n, first, r)]
    { w with s := s1, c := out, slot := { w.slot with group := [], unacked := u, cursor := cursorOf { w.slot with unacked := u } r } }
  | .done 0 _ => { w with s := s1, c := out, slot := { w.slot with group := [], cursor := cursorOf w.slot r } }
  | .done k _ => { w with s := s1, stop := some (.code k) }
  | .wait => { w with s := s1, slot := { w.slot with stopped := true }, stop := some (.remote true) }
  | .failed k => { w with s := s1, stop := some (.code k) }

/-- A descriptor whose rows are all formed and acknowledged has landed: its signal takes effect (R209, R220). -/
def endSlot (w : Running) (p : Partition) (x : Xfer) : Running :=
  if w.slot.unacked.isEmpty then
    let (s1, ok) := w.s.signalSlot w.c p x
    { w with
      s := s1, c := if x.signals then { w.c with released := true } else w.c,
      slot := { w.slot with cursor := x.rows, landed := some (w.s.reel w.c.die) }, stop := if ok then none else some (.code 0x2608) }
  else { w with stop := some (.remote false) }

/-- Run a descriptor row by row until it stops. -/
def runRows_ (p : Partition) (x : Xfer) : Nat → Running → Running
  | 0, w => w
  | fuel + 1, w =>
    if w.stop.isSome || w.slot.landed.isSome then w
    else
      let r := w.slot.formed
      if x.dstKind = 2 && !w.slot.group.isEmpty && x.groupEnd (r - 1) == r then runRows_ p x fuel (sendGroup w x)
      else if x.rows ≤ r then endSlot w p x
      else
        let f := w.s.formRow w.c p x w.slot w.buffer r
        let w1 : Running := { w with
          s := f.s, slot := f.slot, buffer := f.buffer, c := { w.c with hazards := w.c.hazards + f.hazards } }
        match f.bytes with
        | .error b => { w1 with stop := some b }
        | .ok b =>
          let w2 := landRowAt w1 p x r b
          -- a row whose destination cannot be reached is read again later: its reading leaves no trace
          match w2.stop with
          | some k => { w with stop := some k }
          | none => runRows_ p x fuel w2

/-- Two turns for each row, and the end. -/
def rowFuel (x : Xfer) : Nat := 2 * x.rows + 3

/-! ### What a stop does -/

/-- R234, R237: the MOVE fails at a descriptor; the lowest one stands. -/
def failAt (t : Transfer) (d code cursor : Nat) : Transfer :=
  match t.failure with
  | some f => if f.d ≤ d then t else { t with failure := some { d := d, code := code, cursor := cursor } }
  | none => { t with failure := some { d := d, code := code, cursor := cursor } }

def putSlot (t : Transfer) (slot : Slot) : Transfer := { t with slots := t.slots.map fun x => if x.d = slot.d then slot else x }

def setDetail (c : Cmd) (t0 t1 : Transfer) (detail : Nat) : Cmd := if t0.failure = t1.failure then c else { c with detail := detail }

/-- Put a stopped descriptor back, and act on its stop. -/
def settleSlot (w : Running) : State × Cmd × Transfer :=
  let keep := putSlot w.t w.slot
  let failed (code detail : Nat) (s : State) : State × Cmd × Transfer :=
    let t1 := failAt (putSlot w.t { w.slot with failed := true }) w.slot.d code w.slot.cursor
    (s, setDetail w.c w.t t1 detail, t1)
  match w.stop with
  | none => (w.s, w.c, keep)
  | some (.access .ok _) => (w.s, w.c, keep)
  | some (.access (.miss va) k) => (w.s.askTranslation w.c.region w.c.pasid va k (w.c.q, w.c.i, w.slot.d + 1), w.c, keep)
  | some (.access (.fault va) k) =>
    if w.s.trans.priState = 1 then failed 0x2805 0 w.s
    else
      (w.s.pageFault w.c.region w.c.pasid va k, w.c, putSlot w.t { w.slot with faulted := some (va, k), stopped := true })
  | some (.access (.failed code va) k) => failed code (failDetail code va k) w.s
  | some (.poison line) =>
    let st := Config.stackOf line % 16
    let phys := mkLoc true w.s.packageId (st / 8) 0 0x1F 9 (st % 8) 0xFF
    let e := w.s.faultEntry 0x2C0F 1 phys false 0 2 line (some w.c)
    failed 0x2C24 0 (w.s.ledgerWrite (st / 8) { e with state := 3 }).1
  | some (.parity ..) => (w.s, w.c, keep)
  | some (.remote _) => (w.s, w.c, keep)
  | some (.code n) => failed n 0 w.s

/-- A MOVE at its start. -/
def freshTransfer (c : Cmd) : Cmd :=
  let r := c.recs
  { c with
    wait := .transfer,
    transfer := some { base := r.b 24 31, log2 := r.b 32 32, first := r.b 36 39, count := r.b 40 43 } }

/-! ### Advancing a MOVE -/

/-- R226, R227: may a descriptor start now? Its semaphore wait is taken where it is satisfied. -/
def startSlot (s : State) (c : Cmd) (p : Partition) (t : Transfer) (slot : Slot) : State × Slot :=
  let x := Xfer.ofBytes slot.bytes
  let w := SemWord.ofWord x.wait
  let earlier := t.slots.filter fun y => y.d < slot.d
  if slot.started || slot.failed || (earlier.any fun y => !y.started) || (x.fence && !earlier.isEmpty) ||
      (match t.failure with
       | some f => f.d ≤ slot.d
       | none => false) then (s, slot)
  else if w.op != 1 then (s, { slot with started := true, cursor := x.start, formed := x.start })
  else
    let (s1, got) := s.waitMask p c.region x.mask slot.semGot w
    (s1, { slot with semGot := got, started := got == x.mask, cursor := x.start, formed := x.start })

/-- A descriptor that runs now: it has started and nothing stops it. -/
def runnable (slot : Slot) : Bool := slot.started && !slot.failed && slot.landed.isNone && slot.faulted.isNone

/-- Start and run the slots of a MOVE, in order. Nothing runs once its task is parked: what is in flight
stops at its cursor (R249). -/
def runSlots : List Nat → State → Cmd → Transfer → State × Cmd × Transfer × Option (Nat × Nat × Nat)
  | [], s, c, t => (s, c, t, none)
  | d :: ds, s, c, t =>
    match t.slots.find? fun x => x.d == d with
    | none => runSlots ds s c t
    | some slot0 =>
      if !s.mayRun c then
        runSlots ds s c (if runnable slot0 then putSlot t { slot0 with stopped := true } else t)
      else
        let p := match s.queue? c.q with
          | some k => s.partOf k
          | none => {}
        let (s1, slot1) := s.startSlot c p t slot0
        if !runnable slot1 then runSlots ds s1 c (putSlot t slot1)
        else
          let x := Xfer.ofBytes slot1.bytes
          let w := runRows_ p x (rowFuel x) { s := s1, c := c, t := t, slot := slot1 }
          match w.stop with
          | some (.parity g n row) => (w.s, w.c, putSlot w.t w.slot, some (g, n, 16 * p.baseUnit + row))
          | _ =>
            let (s2, c2, t2) := settleSlot w
            runSlots ds s2 c2 t2

/-- R220, R234: has the MOVE come to its end? -/
def transferEnd (s : State) (c : Cmd) (t : Transfer) : State :=
  match t.failure with
  | none =>
    let done := t.completed = t.count
    let s1 := s.setCmd { c with transfer := some t, wait := if done then .done else .transfer }
    if done && c.wait != .done then s1.traceEnd c else s1
  | some f =>
    if t.slots.any fun x => !x.failed && (x.started || x.d < f.d) then s.setCmd { c with transfer := some t }
    else
      s.failCmd { c with
        transfer := some { t with slots := [] }, ratio := (t.first + f.d) % 2 ^ t.log2, mb := f.cursor % 65536,
        spill := f.cursor / 65536 } f.code c.detail

/-- Carry a MOVE on as far as it goes. One that has failed, or that a fault has ordered to run again, goes no
further (R216). -/
def advanceMove (s : State) (c : Cmd) : State :=
  match if c.wait == .transfer then c.transfer else none with
  | none => s
  | some t =>
    let (s1, c1, t1, hit) := runSlots (t.slots.map Slot.d) s c t
    match hit with
    | some (g, n, row) => s1.parityRead { c1 with transfer := some t1 } (freshTransfer c1) g n row
    | none => s1.transferEnd c1 t1

/-! ### Bursts (R219, R220) -/

/-- R295, R236: the deadline-miss event of a queue, once for each deadline: lateness in ticks, and the deadline. `carter`
says that a transfer is late. A gate may time out in a command without a deadline, which has no point. -/
def missDeadline (s : State) (q : Nat) (point : Option (Nat × Nat × Nat)) (deadline die : Nat) (carter : Bool) : State :=
  match s.queue? q with
  | none => s
  | some k =>
    if point.any k.missed.contains then s
    else
      let late := min (2 ^ 32 - 1) (s.reel die - s.lateFrom die deadline)
      let s1 := (s.bump 0x2A00 0x0A 1).setReg 0x2A00 0x0B (q + 2 ^ 32 * late + 2 ^ 64 * (deadline % 2 ^ 64))
      let s2 := if carter then s1.bump 0x2700 0x0A 1 else s1
      (((s2.setQueue q { k with missed := k.missed ++ point.toList }).bumpTask k.pasid 14 1).interrupt k.vector).dayEvent
        die 0 0 0 6 (q + 2 ^ 32 * (deadline % 2 ^ 32))

/-- R288: the point of a descriptor's deadline. -/
def slotPoint (s : State) (x : Xfer) : Nat × Nat × Nat :=
  (x.cadence, frameNear (s.input x.cadence).frame (x.deadline / 2 ^ 32), x.deadline % 2 ^ 32)

/-- The reel time of a descriptor's deadline, in cadence mode (R236, R288). -/
def slotDeadline (s : State) (x : Xfer) : Option Nat :=
  if !x.deadlineEn || !s.cadence then none
  else s.pointReel (s.slotPoint x).1 (s.slotPoint x).2.1 (s.slotPoint x).2.2

/-- R236: a deadline of a descriptor has passed before it completed. -/
def missSlot (s : State) (c : Cmd) (t : Transfer) (slot : Slot) (deadline : Nat) : State × Cmd × Transfer :=
  (s.missDeadline c.q (some (s.slotPoint (Xfer.ofBytes slot.bytes))) deadline c.die true, { c with late := true },
   putSlot t { slot with missed := some (s.lateFrom c.die deadline) })

/-- Ranges of the next n descriptors of the ring. -/
def burstRanges (t : Transfer) (n : Nat) : List Access :=
  (List.range n).map fun j => { va := t.base + 128 * ((t.first + t.fetched + j) % 2 ^ t.log2), len := 128, kind := 0 }

/-- R276: the environment of a descriptor's check. -/
def burstEnv (s : State) (c : Cmd) : CheckEnv := s.cmdEnv c c.recs

/-- Take the descriptors of a burst in order, up to one that breaks a rule. -/
def takeBurst : List (List Byte) → State → Cmd → Transfer → State × Cmd × Transfer
  | [], s, c, t => (s, c, t)
  | b :: bs, s, c, t =>
    let x := Xfer.ofBytes b
    let d := t.fetched
    match lowest (x.codes (s.burstEnv c) (s.keptReg 0x2000 0x02 1)) with
    | some code => (s, c, failAt { t with fetched := d + 1 } d code 0)
    | none =>
      let bad := x.overlaps
      let s1 := if bad && !c.nonRerunnable then s.bump 0x2C00 0x0F 1 else s
      let (f, s2) := s1.draw
      let c1 : Cmd := { c with nonRerunnable := c.nonRerunnable || bad }
      let fences := t.fences + boolNat x.fence
      let slot : Slot := { d := d, bytes := b, fences := fences, stamp := if bad then some f else none }
      let t1 : Transfer := { t with fetched := d + 1, fences := fences, slots := t.slots ++ [slot] }
      match s2.slotDeadline x with
      | some dl =>
        if dl < s2.reel c.die then
          let (s3, c3, t3) := s2.missSlot c1 t1 slot dl
          takeBurst bs s3 c3 t3
        else takeBurst bs s2 c1 t1
      | none => takeBurst bs s2 c1 t1

/-- Slots in use in a region's Carter. -/
def slotsUsed (s : State) (region : Nat) : Nat :=
  ((s.cmds.filter fun c => c.region == region).map fun c => match c.transfer with
    | some t => t.slots.length
    | none => 0).sum

/-- R220: descriptors of the next burst; none when no fetch is due. -/
def burstSize (s : State) (c : Cmd) (t : Transfer) : Option Nat :=
  let n := min 16 (t.count - t.fetched)
  if t.failure.isSome || n = 0 || s.keptReg 0x2700 0x05 128 - 16 < t.slots.length || 384 < s.slotsUsed c.region + n then none
  else some n

/-- Units that the descriptors of a burst need beyond the queue's partition. -/
def burstNeed (bs : List (List Byte)) (env : CheckEnv) (size : Nat) : Nat :=
  ((bs.map Xfer.ofBytes).filter fun x => x.loftSide && (x.codes env size).isEmpty).map Xfer.needUnits |>.foldl max 0

/-- R276: a queue waits for space. -/
def wantSpace (s : State) (q need : Nat) : State :=
  match s.queue? q with
  | none => s
  | some k => ({ s with issued := s.issued + 1 }.bumpFree 0x2900 0x0A).setQueue q
      { k with wants := some need, wantsSince := match k.wants with
        | some _ => k.wantsSince
        | none => s.issued }

/-- Fetch and check the next burst. -/
def fetchBurst (s : State) (c : Cmd) : State :=
  match c.transfer, s.queue? c.q with
  | some t, some k =>
    match s.burstSize c t with
    | none => s
    | some n =>
      let as := burstRanges t n
      let failed (s : State) (code detail : Nat) : State :=
        s.advanceMove { c with transfer := some (failAt { t with burst := false } t.fetched code 0), detail := detail }
      match s.reachAll c.region c.pasid as with
      | some (.miss va, kind) =>
        (s.askTranslation c.region c.pasid va kind (c.q, c.i, 0)).setCmd { c with transfer := some { t with burst := true } }
      | some (.fault va, kind) =>
        if s.trans.priState = 1 then failed s 0x2805 0
        else (s.pageFault c.region c.pasid va kind).setCmd
          { c with transfer := some { t with burst := true, burstPage := some va } }
      | some (.failed code va, kind) => failed s code (failDetail code va kind)
      | some (.ok, _) => s
      | none => match s.poisonIn c.region c.pasid as with
        | some _ => failed s 0x2C24 0
        | none =>
          let bs := as.map fun a => s.readVA c.region c.pasid a.va 128
          let need := burstNeed bs (s.burstEnv c) (s.keptReg 0x2000 0x02 1)
          if (s.partOf k).units < need then
            (s.wantSpace c.q need).setCmd { c with transfer := some { t with burst := true } }
          else
            let (s1, c1, t1) := takeBurst bs (s.noteAll c.region c.pasid as) c { t with burst := false, burstPage := none }
            s1.advanceMove { c1 with transfer := some t1 }
  | _, _ => s

/-! ### Resuming and failing -/

/-- R234: transfers of a MOVE resume at their cursors. -/
def resumeMove (s : State) (c : Cmd) : State :=
  match c.transfer with
  | none => s
  | some t =>
    let n := (t.slots.filter Slot.stopped).length
    let t1 : Transfer := { t with
      burstPage := none,
      slots := t.slots.map fun (x : Slot) => { x with stopped := false, faulted := none } }
    let c1 : Cmd := { c with transfer := some t1, resumes := c.resumes + n }
    let s1 := (s.bump 0x2700 0x09 n).advanceMove c1
    if t1.burst then match s1.cmd? c.q c.i with
      | some c2 => if c2.wait = .transfer then s1.fetchBurst c2 else s1
      | none => s1
    else s1

/-- R234: addresses (`bad`) whose pages a MOVE waits on are refused: its lowest descriptor stopped there fails it, or the first
of a burst that was to be fetched. -/
def refusePage (s : State) (c : Cmd) (bad : Nat → Bool) (code : Nat) : State :=
  match c.transfer with
  | none => s
  | some t =>
    let detail (va k : Nat) : Nat := failDetail code va k
    let one (ct : Cmd × Transfer) (x : Slot) : Cmd × Transfer := match x.faulted with
      | none => ct
      | some (va, k) =>
        if !bad va then ct
        else
          let t1 := failAt (putSlot ct.2 { x with failed := true, faulted := none }) x.d code x.cursor
          (setDetail ct.1 ct.2 t1 (detail va k), t1)
    let (c1, t1) := t.slots.foldl one (c, t)
    let (c2, t2) : Cmd × Transfer := match t1.burstPage with
      | none => (c1, t1)
      | some va =>
        if !bad va then (c1, t1)
        else
          let u := failAt { t1 with burst := false, burstPage := none } t1.fetched code 0
          (setDetail c1 t1 u (detail va 0), u)
    if t2 = t then s else s.transferEnd c2 t2

end State
end Sys2Proof.Machine
end

