-- ==== Sys2Proof/Machine/Run.lean ====
section
/-! DEFINITION. Machine/Run.lean: the work of every class of command once it has issued (R270): products, rows,
Granary and Loft operations, SYNC, TABLE, TIMED, FENCE and DICT. `attempt` runs a command as far as it
goes; what it waits for then stands in its `wait`. -/
namespace Sys2Proof.Machine

/-! ### Gates (R166–R168) -/

/-- The record whose gate holds a command. -/
def gateRec (c : Cmd) : Recs := if c.recs.cls = 3 then c.prods.getD 0 {} else c.recs

/-- Gated tiles of a command; 0 without a gate. -/
def gateTiles (r : Recs) : Nat :=
  if r.gateStep = 0 then 0
  else if r.isAttend then (match r.maskDesc.segments.getLast? with
    | some g => g.tiles
    | none => 0)
  else ceilDiv r.mRows 64

/-! ### What a product or a row command does -/

/-- Reads of an arithmetic command. -/
def planReads (rd : Reader) (c : Cmd) : List (Nat × Nat) :=
  match c.recs.cls with
  | 1 | 2 => productReads rd c.recs
  | 3 => productReads rd (c.prods.getD 0 {}) ++ gemmReads rd (c.prods.getD 1 {}) true
  | _ => rowReads rd c.recs

/-- Its work. -/
def planOf (x : WorkEnv) (c : Cmd) : Plan :=
  match c.recs.cls with
  | 1 | 2 => productPlan x c.recs c.recs.localStore
  | 3 => chain2Plan x (c.prods.getD 0 {}) (c.prods.getD 1 {})
  | 4 => normPlan x c.recs
  | _ => stagePlan x c.recs

/-- R273: `CONV_RESOLVED` of one record. -/
def resolvedOf (d : ConvDefaults) (r : Recs) : List Nat :=
  let nib (w : Nat) : Nat := (Conv.ofWord d w).nibble
  let stages (ss : List StageWord) : List Nat := (ss.filter StageWord.rounds).map fun s => nib s.conv
  match r.cls with
  | 1 => stages r.pro ++ [nib r.conv] ++ stages r.epi
  | 2 => stages r.pro ++ (if r.epiRounds then [] else [nib r.conv]) ++ stages r.epi
  | 4 => [nib (r.b 20 21)]
  | _ => stages [r.stage]

/-- The `SEND` stage of a command, with its record (R170). -/
def sendStage (c : Cmd) : Option (Recs × StageWord) :=
  (products c).getLast?.bind fun r => (r.epi.find? fun s => s.kind == 10).map fun s => (r, s)

namespace State

def beginTrace (s : State) (c : Cmd) : State × Cmd := if c.begun then (s, c) else (s.traceBegin c, { c with begun := true })

/-- R161: binding limit, ratio and m_b of a chained command. -/
def limitFields (s : State) (c : Cmd) : Nat × Nat × Nat :=
  let r := gateRec c
  let second := if c.recs.cls = 3 then c.prods[1]? else none
  if c.recs.cls = 3 ∨ (c.recs.cls ≤ 2 ∧ r.hasChain) then
    let env := s.cmdEnv c r
    let mb := (chooseMb env r second).getD 64
    let l := limitOf env r second mb
    (l.1, l.2, mb)
  else (0, 0, 0)

/-- R90: rows of spill area that the products of a command use. -/
def spillOf (s : State) (c : Cmd) : Nat := ((products c).map fun r => r.spillBytes (s.cmdEnv c r) / 512).sum

/-- R91, R96: the spill images written. -/
def countSpill (s : State) (c : Cmd) (images : Nat) : State := (s.bump 0x2200 0x07 images).bumpTask c.pasid 12 images

/-- R161, R164: what the issue check of a command enters for its record: binding limit, ratio, m_b and split form. -/
def withLimits (s : State) (c : Cmd) : Cmd :=
  let l := s.limitFields c
  { c with
    limit := l.1, ratio := l.2.1, mb := l.2.2,
    split := c.recs.cls != 3 && (products c).any (Recs.splits · c.recs.strict) ||
      (c.recs.cls == 3 && (c.prods.getD 1 {}).splits c.recs.strict) }

/-- What the record of an arithmetic command carries. -/
def planFields (s : State) (c : Cmd) (p : Plan) : Cmd :=
  let d : ConvDefaults := { round := c.defRound, sat := c.defSat }
  { c with
    ieee := if c.recs.strict then p.g.ieee.word else 0, conv := p.g.conv.word, amax := p.amax,
    resolved := if c.recs.cls = 3 then ((products c).map (resolvedOf d)).flatten else resolvedOf d c.recs,
    spill := s.spillOf c, sends := p.sends }

/-- Rows that a gated command names: its ring. -/
def ringNamed (s : State) (c : Cmd) : Nat × Nat :=
  let r := gateRec c
  if gateTiles r = 0 then (0, 0) else (r.ringFirst, r.namedRows (s.cmdEnv c r))

/-- R165: a split area is undefined after the command. -/
def scrambleSplit (s : State) (c : Cmd) : State :=
  (splitRanges c).foldl (fun s o => s.scramble c.region c.pasid o.1 o.2) s

/-- R170: send the tiles that have not left. -/
def trySends (s : State) (c : Cmd) (ref : Nat) : List (Nat × List Byte) → State
  | [] =>
    if s.bruora.sent.any fun m => m.q == c.q && m.i == c.i then s.setCmd { c with sends := [], wait := .link (refPackage ref) }
    else (s.setCmd { c with sends := [], wait := .done }).traceEnd c
  | t :: ts =>
    let elem := ((sendStage c).map fun r => (Recs.fmtOf r.1.resultType).byteWidth).getD 1
    match s.sendTo c.q c.i t.1 ref true 0 0 [(windowOffset (refOffset ref + t.1), t.2)] elem with
    | (.sent _, s1) => s1.trySends { c with released := true } ref ts
    | (.done 0 _, s1) => s1.trySends { c with released := true } ref ts
    | (.done k _, s1) => s1.failCmd { c with sends := [] } k 0
    | (.failed k, s1) => s1.failCmd { c with sends := [] } k 0
    | (.wait, s1) => s1.setCmd { c with sends := t :: ts, wait := .link (refPackage ref) }

/-- Send on, or finish. -/
def sendOn (s : State) (c : Cmd) : State :=
  match sendStage c with
  | none => s.setCmd { c with sends := [], wait := .done }
  | some (r, w) => s.trySends c (w.entry r.chainRec.table 0).addr c.sends

/-- The end of an arithmetic command's work: its counters, its bytes, its fields (R66, R165, R276). -/
def finishPlan (s pre : State) (c0 : Cmd) (p : Plan) : State :=
  let c := pre.planFields c0 p
  let s0 := if (products c).isEmpty then s else { s with threshers := Table.put (thresherOf c) p.unit s.threshers }
  let s1 := ((s0.countGather p.g).countBusy c).countSpill c p.g.spillImages
  let s2 := (products c).foldl (fun s r =>
    s.countMacs c r (if r.isAttend then p.g.macCount else r.mRows * r.nCols * r.kDim)) s1
  if p.badPos then s2.failCmd c 0x2228 0
  else
    let s3 := p.writes.foldl (fun s w => s.writeVA c.region c.pasid w.1 1 w.2) s2
    let nm := pre.ringNamed c
    let s4 := (s3.scrambleSplit c).layoutUndef c nm.1 nm.2
    let s5 := s4.captureRun pre c
    if c.sends.isEmpty then (s5.setCmd { c with wait := .done }).traceEnd c else s5.sendOn c

/-- R188, R364: take the deliveries of a reader out of the Granary, or fail by data that is lost. -/
def withSheaves (s : State) (c : Cmd) (rs : List KvRead) (work : State → State) : State :=
  match s.kvLost rs with
  | some line => s.poisonFail c line
  | none => work (s.deliverKv c.region c.pasid rs)

/-- Run an arithmetic command whose gate has opened. -/
def runPlan (s : State) (c : Cmd) : State :=
  let rd := s.cmdReader c
  s.withAccess c (readsOf (planReads rd c ++ splitRanges c) ++ writesOf (s.outputsOf c)) fun t =>
    let p := planOf (s.workEnv c) c
    t.withSheaves c p.kv fun t =>
      let (t1, c1) := t.beginTrace c
      t1.finishPlan s c1 p

/-- GEMM, ATTEND, CHAIN2, NORM, FUNC and MOVE convert. -/
def attemptPlan (s : State) (c : Cmd) : State :=
  if !c.sends.isEmpty then s.sendOn c
  else if c.tiles < gateTiles (gateRec c) then s.setCmd { c with wait := .gate c.tiles }
  else s.runPlan c

/-! ### Fill and copy (R207) -/

/-- The partition of a command. -/
def cmdPart (s : State) (c : Cmd) : Partition := match s.queue? c.q with
  | some k => s.partOf k
  | none => {}

/-- R209, R214: the completion signal of a fill or copy, which covers the rows that it wrote. -/
def signalEnd (s : State) (c : Cmd) (mask word : Nat) (rows : List Nat) : State :=
  let w := SemWord.ofWord word
  if w.op != 2 then (s.setCmd { c with wait := .done }).traceEnd c
  else
    let (s1, ok) := s.signalRows (s.cmdPart c) c.region mask w rows
    let c1 : Cmd := { c with released := true }
    if ok then (s1.setCmd { c1 with wait := .done }).traceEnd c1 else s1.failCmd c1 0x2608 0

def attemptFill (s0 : State) (c0 : Cmd) : State :=
  let (s, c) := s0.beginTrace c0
  let r := c.recs
  let p := s.cmdPart c
  let row := (List.replicate 128 (leBytes 4 (r.b 32 35))).flatten
  let rows := (List.range (r.b 28 31)).map (r.b 24 27 + ·)
  let signals := (SemWord.ofWord (r.b 36 39)).op == 2
  let s1 := (setBits (r.b 20 21) 16).foldl (fun s n => rows.foldl (fun s i => s.landRow p c.region n i row signals) s) s
  s1.signalEnd c (r.b 20 21) (r.b 36 39) rows

/-- R207, R214: a copied row carries its error mark, and takes fresh parity; a bad sector that the copy's read finds
marks the source row and is entered in the ledger. Reading a row may be a hazard. -/
def attemptCopy (s0 : State) (c0 : Cmd) : State :=
  let (s, c) := s0.beginTrace c0
  let r := c.recs
  let p := s.cmdPart c
  let cells := ((setBits (r.b 20 21) 16).map fun n => (List.range (r.b 32 35)).map fun i => (n, i)).flatten
  let got := cells.map fun ni => (ni, s.readRow p c.region ni.1 (r.b 24 27 + ni.2))
  let hz := got.filter fun g => g.2.2.2
  let s1 := hz.foldl (fun s g => s.hazardAt p c.region g.1.1 (r.b 24 27 + g.1.2) c.pasid c.q) s
  let src (g : Nat × Nat) : Nat := 16 * p.baseUnit + r.b 24 27 + g.2
  let found := got.filter fun g => g.2.2.1 && !(s.loftRow (loftKey c.region g.1.1 (src g.1))).mark
  let s1b := found.foldl (fun s g => s.noteBadRow c.region g.1.1 (src g.1) (some c)) s1
  let signals := (SemWord.ofWord (r.b 36 39)).op == 2
  let s2 := got.foldl (fun s g =>
    let t := s.landRow p c.region g.1.1 (r.b 28 31 + g.1.2) g.2.1 signals
    let k := loftKey c.region g.1.1 (16 * p.baseUnit + (r.b 28 31 + g.1.2))
    if g.2.2.1 then t.setRow k { t.loftRow k with mark := true } else t) s1b
  s2.signalEnd { c with hazards := c.hazards + hz.length } (r.b 20 21) (r.b 36 39) ((List.range (r.b 32 35)).map (r.b 28 31 + ·))

/-! ### Granary commands (R183–R190) -/

/-- R183: source bytes of an append. -/
def appendReads (r : Recs) (q : Sequence) : List (Nat × Nat) :=
  let n := r.b 28 31
  rowRanges q.k.fmt (r.slot 0) (r.slot 3) n (q.heads * q.d) ++ rowRanges q.v.fmt (r.slot 1) (r.slot 4) n (q.heads * q.d) ++
    (if q.ws = 0 then [] else [(r.slot 2, n * q.heads * q.ws)])

/-- `DETAIL` of a KV_APPEND: copies and evictions (R272). -/
def appendDetail (copies evicted : Nat) : Nat := min (2 ^ 32 - 1) copies + 2 ^ 32 * min 65535 evicted

/-- R183–R185: write the tokens; the commit comes with the completion. -/
def attemptAppend (s0 : State) (c0 : Cmd) : State :=
  let r := c0.recs
  match s0.seq? (r.b 20 21) with
  | none => s0.failCmd c0 0x2502 0
  | some q =>
    s0.withAccess c0 (readsOf (appendReads r q)) fun t =>
      let (s, c) := t.beginTrace c0
      let n := r.b 28 31
      let rd := s0.cmdReader c
      let ks := if r.slot 3 = 0 then q.kRow else r.slot 3
      let vs := if r.slot 4 = 0 then q.vRow else r.slot 4
      let (s1, copies) := (s.touchAppend q c.region c.pasid c.reserved r.layer (r.b 24 27) n).copyBlocks q c.reserved
      let s2 := s1.writeTokens q c.reserved r.layer (r.b 24 27) n fun i h =>
        (rd (r.slot 0 + i * ks + h * (q.pk / 64)) (q.pk / 64), rd (r.slot 1 + i * vs + h * (q.pv / 64)) (q.pv / 64),
         if q.ws = 0 then [] else rd (r.slot 2 + (i * q.heads + h) * q.ws) q.ws)
      let c1 : Cmd := { c with wait := .done, detail := appendDetail copies c.evicted }
      (((s2.bump 0x2500 0x07 copies).captureRun s0 c).setCmd c1).traceEnd c1

/-- The deliveries of a gather. -/
def gatherReads (c : Cmd) (q : Sequence) : List KvRead :=
  let r := c.recs
  if q.perSheaf = 0 then []
  else kvReads (r.b 20 21) r.layer (r.b 23 23) (r.b 32 32) (r.b 24 27) (r.b 28 31) (c.lengths.getD 0 0)

/-- R189: a gather into memory. -/
def gatherMemory (s0 : State) (c0 : Cmd) (q : Sequence) : State :=
  let r := c0.recs
  let n := r.b 28 31
  let hs := r.b 32 32
  let len := c0.lengths.getD 0 0
  s0.withAccess c0 (writesOf (s0.outputsOf c0)) fun t => t.withSheaves c0 (gatherReads c0 q) fun t =>
    let (s, c) := t.beginTrace c0
    let ks := if r.slot 3 = 0 then hs * (q.pk / 64) else r.slot 3
    let vs := if r.slot 4 = 0 then hs * (q.pv / 64) else r.slot 4
    let put (s : State) (i h : Nat) : State :=
      let (k, v, sc) := s0.token q r.layer (r.b 23 23 + h) (r.b 24 27 + i) len
      let s1 := s.writeVA c.region c.pasid (r.slot 0 + i * ks + h * (q.pk / 64)) 1 k
      let s2 := s1.writeVA c.region c.pasid (r.slot 1 + i * vs + h * (q.pv / 64)) 1 v
      if q.ws = 0 then s2 else s2.writeVA c.region c.pasid (r.slot 2 + (i * hs + h) * q.ws) 1 sc
    let s1 := (List.range n).foldl (fun s i => (List.range hs).foldl (fun s h => put s i h) s) s
    let c1 : Cmd := { c with wait := .done }
    ((s1.captureRun s0 c).setCmd c1).traceEnd c1

/-- R189: a gather into Loft rows; each tile counts when it has landed. -/
def gatherLoft (s0 : State) (c0 : Cmd) (q : Sequence) : State := s0.withSheaves c0 (gatherReads c0 q) fun t =>
  let (s, c) := t.beginTrace c0
  let r := c.recs
  let p := s.cmdPart c
  let n := r.b 28 31
  let first := r.b 24 27
  let hs := r.b 32 32
  let per := q.tileRows hs
  let len := min (c.lengths.getD 0 0) (first + n)
  let cs := setBits (r.b 34 35) 16
  let s1 := (List.range (ceilDiv n 64)).foldl (fun s t =>
    let rows := s0.tileOf q r.layer (r.b 23 23) hs (first + 64 * t) len
    let s1 := cs.foldl (fun s k => rows.zipIdx.foldl (fun s b =>
      s.landRow p c.region k (r.b 36 39 + t * per + b.2) b.1 false) s) s
    cs.foldl (fun s k => s.countUp p c.region k (r.b 33 33) 1) (s1.countRows c.pasid rows.length cs.length)) s
  let c1 : Cmd := { c with wait := .done, released := true }
  (s1.setCmd c1).traceEnd c1

def attemptGather (s : State) (c : Cmd) : State :=
  match s.seq? (c.recs.b 20 21) with
  | none => s.failCmd c 0x2503 0
  | some q => if bit c.recs.kv 4 then s.gatherLoft c q else s.gatherMemory c q

/-- R182: QUERY. -/
def attemptQuery (s : State) (c : Cmd) : State :=
  let id := c.recs.b 20 21
  match s.seq? id with
  | none => s.failCmd c 0x2502 0
  | some q =>
    s.withAccess c [{ va := c.recs.b 40 47, len := 1024, kind := 1 }] fun t =>
      (t.writeVA c.region c.pasid (c.recs.b 40 47) 1 (q.record id)).setCmd { c with wait := .done }

/-- R182: FREE once no reader is in flight. -/
def attemptFree (s : State) (c : Cmd) : State :=
  let id := c.recs.b 20 21
  match s.seq? id with
  | none => s.setCmd { c with wait := .done }
  | some q =>
    if q.readers != 0 then (s.bumpFree 0x2500 0x09).setCmd { c with wait := .granary }
    else
      let (s1, n) := s.releaseSeq id q
      s1.setCmd { c with wait := .done, detail := min (2 ^ 32 - 1) n }

/-! ### SYNC (R269) -/

/-- Has every earlier command of its queue written its record? -/
def firstOfQueue (s : State) (c : Cmd) : Bool :=
  !(s.cmds.takeWhile fun x => !(x.q == c.q && x.i == c.i)).any fun x => x.q == c.q

def attemptSemaphore (s : State) (c : Cmd) : State :=
  let w := SemWord.ofWord (c.recs.b 24 27)
  let mask := c.recs.b 20 21
  let p := s.cmdPart c
  match w.op with
  | 1 =>
    let (s1, got) := s.waitMask p c.region mask c.semGot w
    s1.setCmd { c with semGot := got, wait := if got = mask then .done else .semaphore }
  | 2 =>
    if !s.firstOfQueue c then s.setCmd { c with wait := .fence }
    else
      let (s1, ok) := s.signalMask p c.region mask w
      let c1 : Cmd := { c with released := true, wait := .done }
      if ok then s1.setCmd c1 else s1.failCmd c1 0x2608 0
  | _ => s.setCmd { c with wait := .done }

/-- Has an arrival counter reached its target on every cluster of the mask? -/
def counterReached (s : State) (c : Cmd) : Bool :=
  let r := c.recs
  let p := s.cmdPart c
  (setBits (r.b 20 21) 16).all fun n => r.b 32 35 ≤ s.arrived p c.region n (r.b 24 24) (r.b 28 31)

def attemptCounter (s : State) (c : Cmd) : State :=
  s.setCmd { c with wait := if s.counterReached c then .done else .counter }

/-- One read of a memory wait, through the Barn. -/
def pollMemory (s : State) (c : Cmd) : State :=
  let va := c.recs.b 40 47
  s.withAccess c [{ va := va, len := 8, kind := 0 }] fun t =>
    let v := leNat (s.readVA c.region c.pasid va 8)
    t.setCmd { c with wait := if c.recs.b 32 39 ≤ v then .done else .memory }

/-- Memory add (form 3) and store (form 4). -/
def attemptStore (s : State) (c : Cmd) (add : Bool) : State :=
  let va := c.recs.b 40 47
  let op := c.recs.b 32 39
  let kind := if add then 2 else 1
  if !s.firstOfQueue c then s.setCmd { c with wait := .fence }
  else s.withAccess c [{ va := va, len := 8, kind := kind }] fun t =>
    let old := leNat (s.readVA c.region c.pasid va 8)
    (t.writeVA c.region c.pasid va kind (leBytes 8 (if add then (old + op) % 2 ^ 64 else op))).setCmd
      { c with wait := .done }

def attemptSync (s : State) (c : Cmd) : State :=
  match c.recs.form with
  | 0 => s.attemptSemaphore c
  | 1 => s.attemptCounter c
  | 2 => s.setCmd { c with wait := .memory }
  | 3 => s.attemptStore c true
  | _ => s.attemptStore c false

/-! ### TABLE (R117) -/

/-- A command that samples a generation and has not finished. -/
def onMill (c : Cmd) : Bool :=
  (c.recs.cls ≤ 5 || c.recs.isConvert) && !c.refused && !c.unchecked && c.wait != .done

/-- R117 step 1, and the order of TABLE commands. -/
def shadowBusy (s : State) (c : Cmd) : Bool :=
  ((s.cmds.takeWhile fun x => !(x.q == c.q && x.i == c.i)).any fun x => x.recs.cls == 11 && x.wait != .done) ||
  s.cmds.any fun x => onMill x && x.gen == s.mills.shadowGeneration

/-- R114, R115, R117, R118: the codes that reject an image for a slot. -/
def loadCodes (s : State) (slot : Nat) (b : List Byte) : List Nat :=
  let bank := Table.put slot (Image.loaded b) s.mills.active
  imageCodes (bit s.fuses.features 18) b ++ cond (655360 < (bank.map fun e => e.2.size).sum) 0x2304

/-- R117 steps 2–5. -/
def loadImage (s : State) (c : Cmd) (b : List Byte) : State :=
  let slot := c.recs.form
  match lowest (s.loadCodes slot b) with
  | some 0x2303 =>
    let (f, s1) := s.draw
    s1.failCmd c 0x2303 (match monotoneFailure (.loaded b) with
      | some (some r) => r
      | _ => Config.freeCount f % 2 ^ 32)
  | some code => s.failCmd c code 0
  | none =>
    ({ s with mills := {
        generation := s.mills.generation + 1, active := Table.put slot (Image.loaded b) s.mills.active,
        shadow := s.mills.active, shadowGeneration := s.mills.generation } }.bump 0x2300 0x08 1).setCmd { c with wait := .done }

/-- The image: its header names its bytes. -/
def attemptTable (s : State) (c : Cmd) : State :=
  let va := c.recs.b 24 31
  if s.shadowBusy c then s.setCmd { c with wait := .shadow }
  else s.withAccess c [{ va := va, len := 64, kind := 0 }] fun t =>
    let h := s.readVA c.region c.pasid va 64
    let n := if field h 8 11 ≤ 163904 then max 64 (field h 8 11) else 64
    t.withAccess c [{ va := va + 64, len := n - 64, kind := 0 }] fun t1 =>
      t1.loadImage c (h ++ s.readVA c.region c.pasid (va + 64) (n - 64))

/-! ### TIMED and FENCE (R292–R294, R299, R268) -/

/-- A point that a TIMED gives: frame and phase on its input (R288). -/
def timedPoint (s : State) (r : Recs) (w : Nat) : Due :=
  let i := bits r.form 1 0
  { input := i, frame := frameNear (s.input i).frame (w / 2 ^ 32), phase := w % 2 ^ 32, check := none }

/-- R292: a TIMED closes the work of its queue's release. -/
def closeRelease (s : State) (q : Nat) : State :=
  match s.queue? q with
  | none => s
  | some k =>
    let rel := match k.releaseFrame with
      | none => s.bell.releases
      | some (f, e) => s.bell.releases.map fun (x : Release) =>
          if x.entry == e && x.frame == f then { x with queues := x.queues.filter (· != q) } else x
    { s with bell := { s.bell with releases := rel } }.setQueue q { k with released := false, releaseFrame := none, boosted := false }

/-- Has the release point of a TIMED passed? -/
def pointPassed (s : State) (c : Cmd) : Bool :=
  match c.releaseReel, c.releaseAt with
  | some t, _ => t ≤ s.reel c.die
  | none, some d => (match s.dueReel d with
    | some t => t ≤ s.reel c.die
    | none => false)
  | none, none => true

/-- A TIMED takes effect at its issue. -/
def startTimed (s : State) (c : Cmd) : State :=
  let r := c.recs
  let w := r.form
  let on := s.cadence
  let s1 := s.closeRelease c.q
  let due := if on && bit w 3 then some (s1.timedPoint r (r.b 32 39)) else none
  let s2 := s1.onQueue c.q fun k => { k with timedDeadline := due }
  let c1 : Cmd := { c with
    releaseReel := if on && bit w 2 && bit w 4 then some (r.b 24 31) else none,
    releaseAt := if on && bit w 2 && !bit w 4 then some (s1.timedPoint r (r.b 24 31)) else none }
  s2.setCmd { c1 with wait := if s2.pointPassed c1 then .done else .release }

/-- R268: may a FENCE release? Every earlier command of its queue, or every one of its task that issued before
it, has written its record. -/
def fenceOpen (s : State) (c : Cmd) : Bool :=
  s.firstOfQueue c && (c.recs.form != 1 || !s.cmds.any fun x => x.pasid == c.pasid && !x.unchecked && x.order < c.order)

/-! ### DICT (R330, R339) and windows (R316, R317, R320) -/

/-- A window record (R316), read. -/
structure WindowRecord where
  id : Nat
  memory : Bool
  read : Bool
  write : Bool
  counter : Nat
  base : Nat
  size : Nat
  peers : Nat
  reserved : Bool
  deriving DecidableEq, Repr

def WindowRecord.ofBytes (b : List Byte) : WindowRecord :=
  let w := field b 0 7
  { id := bits w 15 0, memory := bit w 16, read := bit w 17, write := bit w 18, counter := bits w 39 32,
    base := field b 8 15, size := field b 16 23, peers := field b 24 31, reserved := bits w 31 19 != 0 || bits w 63 40 != 0 }

/-- R320: 0x2B13, against the partition as it stands. -/
def windowMalformed (k : Queue) (p : Partition) (w : WindowRecord) : Bool :=
  w.reserved || (!w.read && !w.write) || w.size == 0 || 2 ^ 42 < w.size || k.part.isNone || p.ctrCount ≤ w.counter ||
    (if w.memory then w.base % 4096 != 0
     else 4096 ≤ w.base || w.size % 512 != 0 || 512 * 16 * p.units < 512 * w.base + w.size)

def windowOpenCodes (s : State) (k : Queue) (w : WindowRecord) : List Nat :=
  cond (s.window? w.id).isSome 0x2B11 ++ cond (4096 ≤ s.bruora.windows.length) 0x2B12 ++
  cond (windowMalformed k (s.partOf k) w) 0x2B13

/-- R339: a DICT command aborts. -/
def dictAbort (s : State) (c : Cmd) (r : Request) (abort : Nat) : State :=
  (s.countAbort r abort).failCmd c (if abort % 65536 = 0x100A then abort / 65536 else abort % 65536) abort

/-- Translations that a memory window of a queue's task holds. -/
def heldEntries (s : State) (k : Queue) (w : WindowRecord) : List Entry :=
  if w.memory then
    ((pieces w.base w.size).filterMap fun p => s.entryFor k.region k.pasid p.1 (if w.write then 1 else 0)).eraseDups
  else []

/-- R317: the accesses that opening a memory window translates; it moves no data. -/
def windowAccesses (w : WindowRecord) : List Access :=
  if !w.memory then []
  else (if w.read then [{ va := w.base, len := w.size, kind := 0 }] else []) ++
    (if w.write then [{ va := w.base, len := w.size, kind := 1 }] else [])

/-- R316, R317: queue q's window opens, and pins its partition. -/
def addWindow (s : State) (q : Nat) (k : Queue) (w : WindowRecord) : State :=
  let e := k.part.getD 0
  let new : Window := {
    id := w.id, pasid := k.pasid, q := q, memory := w.memory, read := w.read, write := w.write, counter := w.counter,
    base := w.base, size := w.size, peers := w.peers, region := k.region, part := e, held := s.heldEntries k w }
  let s1 := s.setPart k.region e { s.part k.region e with pinned := true }
  { s1 with bruora := { s1.bruora with windows := s1.bruora.windows ++ [new] } }

/-- R319, R320: a task's window closes; its partition is unpinned once no window is open on it. None where the task has
no such window. -/
def dropWindow (s : State) (pasid id : Nat) : Option State :=
  (s.bruora.windows.find? fun w => w.id == id && w.pasid == pasid).map fun w =>
    let rest := s.bruora.windows.filter fun x => x.id != id
    let s1 : State := { s with bruora := { s.bruora with windows := rest } }
    if rest.any fun x => x.region == w.region && x.part == w.part then s1
    else s1.setPart w.region w.part { s1.part w.region w.part with pinned := false }

/-- R316, R317, R336: a DICT command opens a window; it completes once every page is present. -/
def openWindow (s : State) (c : Cmd) (req : Request) (b : List Byte) : State :=
  let w := WindowRecord.ofBytes b
  match s.queue? c.q with
  | none => s
  | some k =>
    match lowest (s.windowOpenCodes k w) with
    | some code => s.dictAbort c req (ownerRefused code)
    | none => match s.reachAll c.region c.pasid (windowAccesses w) with
      | some (g, kind) => s.stall c g kind
      | none => (s.addWindow c.q k w).setCmd { c with wait := .done, detail := 32 }

/-- R319, R320: a DICT command closes a window. -/
def closeWindow (s : State) (c : Cmd) (req : Request) (id : Nat) : State :=
  match s.dropWindow c.pasid id with
  | none => s.dictAbort c req (ownerRefused 0x2B14)
  | some s1 => s1.setCmd { c with wait := .done, detail := 2 }

/-- The entry that a DICT command names. -/
def entryOf (c : Cmd) : Nat × Nat := (c.recs.b 16 17, c.recs.b 18 18)

/-- R336: DICT commands in flight whose requests to an entry the arbiter has not completed. -/
def entryUsers (s : State) (index sub : Nat) : List Cmd :=
  s.cmds.filter fun c => c.recs.cls == 15 && !c.refused && !c.unchecked && entryOf c == (index, sub)

/-- R336: has every earlier request to its entry been completed? -/
def dictTurn (s : State) (c : Cmd) : Bool := (s.entryUsers (entryOf c).1 (entryOf c).2).all fun x => c.order ≤ x.order

/-- The request that a DICT command makes. -/
def dictRequest (c : Cmd) : Request :=
  let r := c.recs
  { path := .dictCommand c.q, tag := 0, index := (entryOf c).1, sub := (entryOf c).2, length := r.b 20 23, offset := 0,
    reserved := false, data := if r.b 19 19 = 1 then List.replicate (min 2048 (r.b 20 23)) 0 else [] }

def attemptDict (s : State) (c : Cmd) : State :=
  let req := dictRequest c
  let write := c.recs.b 19 19 == 1
  let buf := c.recs.b 24 31
  let s0 := s.bump 0x1010 0x05 1
  match lowestAbort (s.accessAborts req write), dictEntry? req.index req.sub with
  | some a, _ => s0.dictAbort c req a
  | none, none => s
  | none, some e =>
    if write then
      s.withAccess c [{ va := buf, len := e.len, kind := 0 }] fun t =>
        let b := s.readVA c.region c.pasid buf e.len
        let t1 := t.bump 0x1010 0x05 1
        if req.sub = 0x09 then t1.openWindow c req b else t1.closeWindow c req (leNat b)
    else
      let b := s.readBytes req e
      s.withAccess c [{ va := buf, len := b.length, kind := 1 }] fun t =>
        ((t.bump 0x1010 0x05 1).writeVA c.region c.pasid buf 1 b).setCmd { c with wait := .done, detail := b.length }

/-! ### Attempt -/

/-- R412, R413: a breakpoint of kind 2 holds the command before its first tile, until its hit has been taken
and the task resumes. -/
def breakHolds (s : State) (c : Cmd) : Bool :=
  !c.hit && bit s.fw.scopes 3 && s.obs.breakpoints.any fun b =>
    bits b.2 21 20 == 2 && bits b.2 19 0 == c.pasid && bits b.2 63 32 == c.recs.tag && bits b.2 83 64 == c.q

/-- Run a command as far as it goes now. -/
def attempt (s : State) (c : Cmd) : State :=
  if c.recs.cls = 12 then s.setCmd { c with wait := .capture }
  else if !s.mayRun c || s.breakHolds c then s.setCmd { c with wait := .parked }
  else match c.recs.cls with
    | 1 | 2 | 3 | 4 | 5 => s.attemptPlan c
    | 6 => (match c.recs.form with
      | 0 =>
        let (s1, c1) := s.beginTrace c
        s1.setCmd (if c1.transfer.isSome then { c1 with wait := .transfer } else freshTransfer c1)
      | 1 => s.attemptFill c
      | 2 => s.attemptCopy c
      | _ => s.attemptPlan c)
    | 7 => s.attemptAppend c
    | 8 => s.attemptGather c
    | 9 => (match c.recs.kvOp with
      | 2 => s.attemptFree c
      | 5 => s.attemptQuery c
      | _ => s.setCmd { c with wait := .done })
    | 10 => s.attemptSync c
    | 11 => s.attemptTable c
    | 13 => s.startTimed c
    | 14 => s.setCmd { c with wait := .fence }
    | _ => if s.dictTurn c then s.attemptDict c else s.setCmd { c with wait := .dictionary }

end State
end Sys2Proof.Machine
end

