-- ==== Sys2Proof/Machine/Issue.lean ====
section
/-! DEFINITION. Machine/Issue.lean: how the Drover takes a command from a ring (R259, R262, R270): which queue
is ready, the fetch of the descriptor and the records it names, the waits of R193, the issue check, and
what issuing does. -/
namespace Sys2Proof.Machine

/-! ### Granary order (R191–R193) -/

/-- Sequences that a command reads as a reader. -/
def readSeqs (r : Recs) (prods : List Recs) : List Nat :=
  let attend (p : Recs) : List Nat := if p.isAttend then (p.segs.filter fun s => !s.2).map fun s => s.1.seq else []
  (match r.cls with
   | 1 => attend r
   | 3 => attend (prods.getD 0 {})
   | 8 => [r.b 20 21]
   | 9 => if r.kvOp = 1 then [r.b 20 21] else []
   | _ => []).eraseDups

/-- The sequence that a command writes as a writer. -/
def writeSeq (r : Recs) : Option Nat :=
  if r.cls = 7 ∨ (r.cls = 9 ∧ (r.kvOp = 2 ∨ r.kvOp = 3)) then some (r.b 20 21) else none

/-- Overwrites, TRUNCATE and FREE, which wait for readers. -/
def strictWriter (r : Recs) : Bool := (r.cls == 7 && bit r.kv 3) || (r.cls == 9 && (r.kvOp == 2 || r.kvOp == 3))

def isFree (r : Recs) : Bool := r.cls == 9 && r.kvOp == 2

namespace State

/-- R193: a command waits on the commands before it that touch its sequences. -/
def granaryHeld (s : State) (c : Cmd) (before : List Cmd) : Bool :=
  let mine (id : Nat) : Bool := match s.seq? id with
    | some q => q.pasid == c.pasid
    | none => false
  -- an issued FREE holds nobody: its sequence is no longer resident
  let open_ := before.filter fun x => !x.refused && !(x.unchecked && x.wait != .granary) && !(isFree x.recs && !x.unchecked)
  let reads := (readSeqs c.recs c.prods).filter mine
  let writes := (match writeSeq c.recs with
    | some id => [id]
    | none => []).filter mine
  (open_.any fun x => strictWriter x.recs && (match writeSeq x.recs with
    | some id => reads.contains id || writes.contains id
    | none => false)) ||
  (open_.any fun x => match writeSeq x.recs with
    | some id => writes.contains id
    | none => false) ||
  (strictWriter c.recs && writes.any fun id =>
    (open_.any fun x => x.unchecked && (readSeqs x.recs x.prods).contains id) ||
    (!isFree c.recs && (match s.seq? id with
      | some q => q.readers != 0
      | none => false)))

/-! ### Readiness and choice (R262) -/

def dieServes (s : State) (die : Nat) : Bool := bit s.diesServing die

/-- A command in flight that holds the later ones of its queue: a FENCE, a SYNC, or a TIMED before its release
point. -/
def holds (c : Cmd) : Bool :=
  c.wait != .done && (c.recs.cls == 14 || c.recs.cls == 10 || (c.recs.cls == 13 && c.wait == .release))

def complRoom (s : State) (q : Nat) (k : Queue) : Bool :=
  (k.complTail + 2 ^ 32 - k.complHead) % 2 ^ 32 + (s.cmds.filter fun c => c.q == q).length < 2 ^ k.complLog2

/-- R262, R249, R299, R414: a queue is ready. -/
def ready (s : State) (q : Nat) (k : Queue) : Bool :=
  s.pins.state == .ready && !s.pins.isolated && s.dieServes (k.region / 8) && k.state == 1 && !k.parked && !k.halted &&
    (!k.cadenceBound || !s.cadence || k.released) && k.head != k.tail && s.complRoom q k && k.wants.isNone &&
    k.saved.isNone && !s.cmds.any fun c => c.q == q && !c.refused && holds c

def classOfQueue (k : Queue) : Nat := if k.boosted then 7 else k.priority

/-- R262: a ready queue that the Drover can serve. DEDUCED (log entry 41): while a translation of its next descriptor, or
of a record of it, is out, the Drover serves others. -/
def servable (s : State) (e : Nat × Queue) : Bool := e.2.issueWait.isNone && s.ready e.1 e.2

/-- The queue that a die's Drover serves next by class and cursor. -/
def choice (s : State) (die : Nat) : Option Nat :=
  let r := s.queues.filter fun e => e.2.region / 8 == die && s.servable e
  let top := (r.map fun e => classOfQueue e.2).foldl max 0
  let cur := (Table.find? (die * 8 + top) s.cursors).getD 0
  let mine := (r.filter fun e => classOfQueue e.2 == top).map Prod.fst
  match mine.find? fun q => cur ≤ q with
  | some q => some q
  | none => mine.head?

/-- R262: has a queue been ready for `DROVER_AGE_LIMIT` µs without being served? -/
def aged (s : State) (q : Nat) : Bool :=
  (Table.find? q s.waiting).any fun t => t + 1600 * s.keptReg 0x2900 0x05 2000 ≤ s.clk

/-- The lowest-numbered aged queue of a die. -/
def agedChoice (s : State) (die : Nat) : Option Nat :=
  (List.find? (fun e => e.2.region / 8 == die && s.aged e.1 && s.servable e) s.queues).map Prod.fst

/-- R262: is a queue the one that its die's Drover serves next? -/
def turn (s : State) (q : Nat) (k : Queue) : Bool :=
  match s.agedChoice (k.region / 8) with
  | some a => a == q
  | none => s.choice (k.region / 8) == some q

/-- R262: the Drover serves a queue. DESIGN CHOICE: an aged issue moves the cursor only where it is the choice too (log
entry 41). -/
def served (s : State) (q : Nat) (k : Queue) : State :=
  let die := k.region / 8
  let s1 : State :=
    if s.choice die = some q then { s with cursors := Table.put (die * 8 + classOfQueue k) ((q + 1) % 2 ^ 20) s.cursors } else s
  let s2 := if s.agedChoice die = some q then s1.bump 0x2900 0x0D 1 else s1
  { s2 with waiting := Table.drop q s2.waiting }.onQueue q fun k =>
    { k with head := (k.head + 1) % 2 ^ 32, issueWait := none, issueFailure := none }

/-- R262: since when each queue has been ready. -/
def noteReady (s : State) : Table Nat :=
  (s.queues.filter fun e => s.ready e.1 e.2).map fun e => (e.1, (Table.find? e.1 s.waiting).getD s.clk)

/-- n clk pass: for the clocks, the Daybook port, and the queues that wait to be served. -/
def elapse (s : State) (n : Nat) : State :=
  let r := s.dayRun n
  { s.pass n with
    waiting := if n = 0 then s.waiting else s.noteReady,
    outbox := s.outbox ++ r.out,
    obs := { s.obs with
      daybook0 := { s.obs.daybook0 with events := r.events0 }, daybook1 := { s.obs.daybook1 with events := r.events1 },
      dayPort := r.port, sent := s.obs.sent + r.out.length / 2 } }

/-! ### The check -/

def engineFacts (s : State) : EngineFacts :=
  { tablePasid := s.keptReg 0x2300 0x10 0xFFFFFFFF, sealOk := bit s.fuses.features 17, dumpScope := bit s.fw.scopes 2,
    inputs := (s.bell.inputs.zipIdx.map fun x => if x.1.state = 0 then 0 else 2 ^ x.2).sum }

/-- R276, R52, R116, R127: what the check of a command of a queue knows. -/
def issueEnv (s : State) (k : Queue) (strict : Bool) : CheckEnv :=
  { strict := strict, defaults := { round := s.keptReg 0x2120 0x01 0, sat := s.keptReg 0x2120 0x02 1 == 1 },
    bank := s.bankView s.mills.generation, defForm := s.keptReg 0x2400 0x01 0, units := k.floor + k.borrow, ctrs := k.ctrCount,
    sems := k.semCount, clusters := 2 ^ k.clusters - 1, pasid := k.pasid, seq := s.seq? }

/-- The dump record's address, where it is read (R407). -/
def dumpReads (s : State) (r : Recs) : List (Nat × Nat) :=
  let a := r.b 16 23
  if r.cls = 12 ∧ vaOk a ∧ a % 64 = 0 ∧ bit s.fw.scopes 2 then [(a, 64)] else []

/-- Every code that refuses a command (R270). -/
def allCodes (s : State) (k : Queue) (c : Cmd) : List Nat :=
  checkCodes s.engineFacts (s.issueEnv k c.recs.strict) c.recs c.prods ++
    (if (s.dumpReads c.recs).isEmpty || c.recs.args.isEmpty then [] else s.dumpRecordCodes k.pasid c.recs.args)

/-! ### Granary work at issue (R176, R182, R184, R187) -/

/-- Hold a sequence as if it had a reader. -/
def lockSeq (s : State) (id : Nat) (up : Bool) : State :=
  match s.seq? id with
  | none => s
  | some q => s.setSeq id { q with readers := if up then q.readers + 1 else q.readers - 1 }

/-- R275: draw staging sheaves of a queue back to the free list, for a reservation of n. -/
def drawStaging (s : State) (q n : Nat) : State :=
  match s.queue? q with
  | none => s
  | some k =>
    let m := min n k.stagingLeft
    ({ s with granary := { s.granary with staged := s.granary.staged - m } }).setQueue q { k with stagingLeft := k.stagingLeft - m }

/-- What a refused Granary command reports: its code, and the `DETAIL` of its evictions (R187, R272). -/
structure KvRefusal where
  code : Nat
  detail : Nat := 0
  deriving DecidableEq, Repr

/-- R184: reserve the sheaves of an append. -/
def reserveAppend (s : State) (c : Cmd) : State × Except KvRefusal Cmd :=
  let r := c.recs
  let id := r.b 20 21
  match s.seq? id with
  | none => (s, .error { code := 0x2502 })
  | some q =>
    let es := s.appendNeeds q r.layer (r.b 24 27) (r.b 28 31)
    let left := match s.queue? c.q with
      | some k => min k.stagingLeft es.length
      | none => 0
    let (s1, ev) := (s.lockSeq id true).evictFor (es.length - left)
    let s2 := s1.lockSeq id false
    if s2.freeSheaves + left < es.length then (s2, .error { code := 0x2507, detail := appendDetail 0 ev })
    else
      let s3 := s2.drawStaging c.q es.length
      let is := s3.pickSheaves es.length
      (s3.takeSheaves is 0 1 c.pasid, .ok { c with reserved := es.zip is, drawn := min left es.length, evicted := ev, writer := true, seqs := [id] })

/-- R182: the record that CREATE makes. -/
def createdSeq (r : Recs) (pasid : Nat) : Sequence :=
  { pasid := pasid, kType := r.b 32 33, vType := r.b 34 35, dim := r.b 37 37, heads := r.b 23 23,
    perSheaf := headsPerSheaf (r.b 32 33) (r.b 34 35) (r.b 37 37) (r.b 23 23), layers := r.b 36 36, capacity := r.b 28 31 }

/-- The entries that SHARE takes over: index in the source, index in the new table (R182). -/
def sharedEntries (q new : Sequence) (n : Nat) : List (Nat × Nat) :=
  ((List.range q.layers).map fun l => ((List.range q.groups).map fun g =>
    (List.range (ceilDiv (min n (q.length l)) 64)).map fun b => (q.entry l g b, new.entry l g b)).flatten).flatten

def kvDetail (id shared evicted : Nat) : Nat := id + 2 ^ 16 * min (2 ^ 32 - 1) shared + 2 ^ 48 * min 65535 evicted

/-- R182: CREATE. -/
def createKv (s : State) (c : Cmd) : State × Except KvRefusal Cmd :=
  let new := createdSeq c.recs c.pasid
  match s.newSeq new with
  | (s1, ev, some id) => (s1, .ok { c with detail := kvDetail id 0 ev })
  | (s1, ev, none) => (s1, .error {
      code := if s1.freeSheaves < new.tallyCount + new.dirCount then 0x2507 else 0x2508, detail := kvDetail 0 0 ev })

/-- The sequence that SHARE makes of its source (R182). -/
def sharedSeq (q : Sequence) (r : Recs) : Sequence :=
  { q with
    state := 1, evictable := false, priority := 0, hint := 0, capacity := r.b 28 31, readers := 0, generation := 0, lastRead := 0,
    lengths := ((List.range q.layers).map fun l => (l, min (r.b 24 27) (q.length l))).filter fun e => e.2 != 0,
    tally := [], tallySheaves := [], dirSheaves := [], badTally := [], badDir := [] }

/-- The entries of the new table of a SHARE, with the source's sheaves that they name. -/
def sharedSheaves (q : Sequence) (r : Recs) : List (Nat × Nat) :=
  (sharedEntries q (sharedSeq q r) (r.b 24 27)).filterMap fun e => (Table.find? e.1 q.tally).map fun sh => (e.2, sh)

/-- R195, 0x2509: would a shared sheaf exceed its references? -/
def refsFull (s : State) (named : List (Nat × Nat)) : Bool := named.any fun e => 2 ^ 24 - 1 ≤ s.sheafRefs e.2

/-- R182, R191, R192: SHARE reads its source at its issue, and leaves it at its completion (`settleGranary`). -/
def shareKv (s : State) (c : Cmd) : State × Except KvRefusal Cmd :=
  let r := c.recs
  let src := r.b 20 21
  match s.seq? src with
  | none => (s, .error { code := 0x2502 })
  | some q =>
    let new := sharedSeq q r
    let need := new.tallyCount + new.dirCount
    let named := sharedSheaves q r
    let (s1, ev) := (s.lockSeq src true).evictFor need
    let s2 := s1.lockSeq src false
    let no (code : Nat) : State × Except KvRefusal Cmd := (s2, .error { code := code, detail := kvDetail 0 0 ev })
    if s2.freeSheaves < need then no 0x2507
    else if 65536 ≤ s2.granary.seqs.length then no 0x2508
    else if s2.refsFull named then no 0x2509
    else match (s2.beginRead src c.die).newSeq new with
      | (s3, _, some id) =>
        let s4 := named.foldl (fun s e => s.addRef e.2) s3
        let s5 := match s4.seq? id with
          | some n => s4.setSeq id { n with tally := named.foldl (fun t e => Table.put e.1 e.2 t) n.tally }
          | none => s4
        (s5, .ok { c with detail := kvDetail id named.length ev, seqs := [src] })
      | (_, _, none) => no 0x2508

/-- R182: TRUNCATE, in one step with `GENERATION` (R192). -/
def truncateKv (s : State) (c : Cmd) : State × Except KvRefusal Cmd :=
  let r := c.recs
  let id := r.b 20 21
  match s.seq? id with
  | none => (s, .error { code := 0x2502 })
  | some q =>
    let layers := if bit r.kv 12 then List.range q.layers else [r.layer]
    let (s1, n) := layers.foldl (fun (a : State × Nat) l =>
      let (s', m) := a.1.truncateLayer id l (r.b 24 27)
      (s', a.2 + m)) (s, 0)
    let s2 := match s1.seq? id with
      | some q1 => s1.setSeq id (bumpGen q1)
      | none => s1
    (s2, .ok { c with detail := min (2 ^ 32 - 1) n, writer := true, seqs := [id] })

/-- What a KV_APPEND or KV_SHARE does at its issue, or the code that refuses it. -/
def kvAtIssue (s : State) (c : Cmd) : State × Except KvRefusal Cmd :=
  let id := c.recs.b 20 21
  if c.recs.cls = 7 then s.reserveAppend c
  else if c.recs.cls != 9 then (s, .ok c)
  else match c.recs.kvOp with
    | 0 => s.createKv c
    | 1 => s.shareKv c
    | 2 => (match s.seq? id with
      | none => (s, .error { code := 0x2502 })
      | some q => (s.setSeq id { q with state := 2 }, .ok { c with writer := true, seqs := [id] }))
    | 3 => s.truncateKv c
    | 4 => (match s.seq? id with
      | none => (s, .error { code := 0x2502 })
      | some q => (s.setSeq id { q with evictable := bit c.recs.kv 13, priority := bits c.recs.kv 15 14,
                                        hint := bits c.recs.kv 17 16 }, .ok c))
    | _ => (s, .ok c)

/-- R187, R195, R270: the code from 0x2507 to 0x2509 of a command that `m` refuses too, where it is the lower one. A
geometry that 0x250A refuses has no need of sheaves (log entry 45). -/
def kvShort (s : State) (c : Cmd) (m : Nat) : Option (State × KvRefusal) :=
  if m = 0x250A then
    if 65536 ≤ s.granary.seqs.length then some (s, { code := 0x2508 })
    else if c.recs.kvOp = 1 && ((s.seq? (c.recs.b 20 21)).any fun q => s.refsFull (sharedSheaves q c.recs)) then
      some (s, { code := 0x2509 })
    else none
  else match s.kvAtIssue c with
    | (s1, .error e) => if e.code < m then some (s1, e) else none
    | _ => none

/-! ### Issue -/

/-- A schedule entry's fields (R289). -/
def schedule? (s : State) (e : Nat) : Nat := (Table.find? e s.bell.schedule).getD 0

/-- R294: the deadline check of an entry. -/
def checkOf (s : State) (e : Nat) : Option (Nat × Nat) :=
  List.find? (fun x => bits x.2 2 0 == 3 && bits x.2 75 64 == e) s.bell.schedule

/-- R293–R295: the deadline that a command of a queue takes: the last TIMED's, up to the next TIMED; else its release's. -/
def deadlineOf (s : State) (k : Queue) (timed : Bool) : Option Due :=
  if !s.cadence then none
  else match (if timed then none else k.timedDeadline) with
    | some d => some d
    | none => match k.releaseFrame with
      | none => none
      | some (f, e) => (s.checkOf e).map fun x =>
          { input := bits x.2 4 3, frame := (f + bits x.2 87 80) % 2 ^ 64, phase := bits x.2 63 32, check := some x.1 }

/-- A deadline that lies before the moment of issue: the command is late from the start. -/
def pastDue (s : State) (die : Nat) (d : Option Due) : Option Nat :=
  (d.bind s.dueReel).bind fun t => if t < s.reel die then some (s.lateFrom die t) else none

/-- R363: an output overlaps an input, or the class is marked. -/
def marked (s : State) (c : Cmd) : Bool :=
  let r := c.recs
  let scale (p : Recs) : List (Nat × Nat) := if p.isAttend && p.attend.scaleSrc && !p.merge? then [(p.slot 3, 4)] else []
  let ins := if r.cls ≤ 5 ∨ r.isConvert then planReads (s.cmdReader c) c ++ ((products c).map scale).flatten else []
  let outs := s.outputsOf c
  (r.cls == 10 && r.form == 3) || r.cls == 9 || (r.cls == 15 && r.b 19 19 == 1) ||
    ins.any fun i => outs.any fun o => meets i.1 i.2 o.1 o.2

/-- R192: a reader samples the lengths it will use and holds its sequences. -/
def sampleReads (s : State) (c : Cmd) : State × Cmd :=
  let r := c.recs
  let p := if r.cls = 3 then c.prods.getD 0 {} else r
  let ls := if r.cls = 8 then [(match s.seq? (r.b 20 21) with
      | some q => q.length r.layer
      | none => 0)]
    else if p.isAttend then p.segs.map fun g => match s.seq? g.1.seq with
      | some q => q.length p.layer
      | none => 0
    else []
  if r.cls = 9 then (s, c)
  else
    let ids := readSeqs r c.prods
    (ids.foldl (fun s id => s.beginRead id c.die) s, if c.writer then c else { c with lengths := ls, seqs := ids })

/-- R270: what a command takes as it issues: its samples, its place in the order of issue, what it is counted in. -/
def sampleIssue (s : State) (k : Queue) (c0 : Cmd) : State × Cmd :=
  let arith := c0.recs.cls ≤ 5 || c0.recs.isConvert
  let env := s.issueEnv k c0.recs.strict
  let c1 : Cmd := { c0 with
    unchecked := false, order := s.issued, issuedAt := s.reel c0.die, gen := if arith then s.mills.generation else 0,
    defRound := env.defaults.round, defSat := env.defaults.sat,
    form := (if c0.recs.cls = 3 then c0.prods.getD 0 {} else c0.recs).resolvedForm env,
    deadline := s.deadlineOf k (c0.recs.cls == 13), missedAt := s.pastDue c0.die (s.deadlineOf k (c0.recs.cls == 13)) }
  let (s1, c2) := s.sampleReads (s.withLimits c1)
  let c3 : Cmd := { c2 with nonRerunnable := s1.marked c2 }
  let s2 := if c3.nonRerunnable then s1.bump 0x2C00 0x0F 1 else s1
  let s3 := ({ s2 with issued := s2.issued + 1 }.bump 0x2900 0x08 1).setCmd c3
  let s4 := s3.captureIssue c3
  let s5 : State := if c3.recs.cls = 12 then
      let place := ((List.range 16).find? fun n => !s4.obs.captures.any fun k => k.place == n).getD 16
      { s4 with obs := { s4.obs with
          captures := s4.obs.captures ++ [{ place := place, q := c3.q, i := c3.i, record := c3.recs.args }] } }
    else s4
  (if onClusters c3.recs || onCarter c3.recs then s5 else s5.traceBegin c3, c3)

/-- R270: a command issues: its samples are taken and its work begins. -/
def issueCmd (s : State) (k : Queue) (c0 : Cmd) : State :=
  let (v, c) := s.sampleIssue k c0
  v.attempt c

/-- R270, R276: check a command. The need is a whole number of units, and never more than `FLOOR_UNITS` + `BORROW_UNITS`, at
which the check measured it. `fresh` says that it still stands in its ring; it is then consumed unless
it waits for space. -/
def consider (s : State) (k : Queue) (c : Cmd) (fresh : Bool) : State :=
  let take (s : State) : State := if fresh then s.served c.q k else s.dropCmd c.q c.i
  match lowest (s.allCodes k c) with
  | some code => (match s.kvShort c code with
    | some (s1, e) => (take s1).refuse { c with detail := e.detail } e.code
    | none => (take s).refuse c code)
  | none =>
    let need := min (needUnits (s.issueEnv k c.recs.strict) c.recs c.prods) (k.floor + k.borrow)
    if (s.partOf k).units < need then s.wantSpace c.q need
    else match s.kvAtIssue c with
      | (s1, .error e) => (take s1).refuse { c with detail := e.detail } e.code
      | (s1, .ok c1) =>
        let s2 : State := if fresh then
            let t := s1.served c.q k
            { t with cmds := t.cmds ++ [c1] }
          else s1
        match s2.queue? c.q with
        | some k2 => s2.issueCmd k2 c1
        | none => s2

/-- A command as it is taken from its ring. -/
def freshCmd (q : Nat) (k : Queue) (r : Recs) (prods : List Recs) : Cmd :=
  { q := q, i := k.head, pasid := k.pasid, die := k.region / 8, region := k.region, clusters := 2 ^ k.clusters - 1, recs := r,
    prods := prods, wait := .granary }

/-- R364: a record that the check reads is lost. -/
def lostRecord (s : State) (c : Cmd) (line : Nat) : State :=
  let st := Config.stackOf line % 16
  let phys := mkLoc true s.packageId (st / 8) 0 0x1F 9 (st % 8) 0xFF
  (s.ledgerWrite (st / 8) { s.faultEntry 0x2C0F 1 phys false 0 2 line (some c) with state := 3 }).1

/-- A command with the records that its descriptor names, as a reader gives them. -/
def fetchedCmd (q : Nat) (k : Queue) (rd : Reader) (desc : List Byte) : Cmd :=
  let r0 : Recs := { desc := desc }
  let r := Recs.load rd desc
  freshCmd q k (if r0.cls = 12 then { r with args := rd (r0.b 16 23) 64 } else r) (loadProducts rd desc)

/-- Reads that hit and are not lost; the others answer nothing. -/
def knownReader (s : State) (port pasid : Nat) : Reader := fun a n =>
  if s.reach port pasid a n 0 = .ok && (s.poisonAt port pasid a n).isNone then s.readVA port pasid a n else []

/-- R253, R270: a read of the check fails with a code. The lowest code stands: one that the records read so far give
refuses the command, as 0x2801 does; any other is its completion code. -/
def failAtCheck (s : State) (q : Nat) (k : Queue) (c : Cmd) (code detail : Nat) : State :=
  let low := (lowest ((s.allCodes k c).filter (· < code))).getD code
  match s.kvShort c low with
  | some (s1, e) => (s1.served q k).refuse { c with detail := e.detail } e.code
  | none =>
    if low < code || code = 0x2801 then (s.served q k).refuse c low
    else (s.served q k).failUnissued { c with detail := detail } code

/-- R259, R270: the Drover takes the next command of a queue, where that is one that `takes` accepts. -/
def issueNext (s : State) (takes : Recs → Bool) (q : Nat) : State :=
  match s.queue? q with
  | none => s
  | some k =>
    if !s.ready q k || !s.turn q k then s
    else
      let port := 16 + k.region / 8
      let va := k.descBase + 64 * (k.head % 2 ^ k.descLog2)
      let wait (s : State) (a : Nat) (desc fault : Bool) : State :=
        s.onQueue q fun k => { k with issueWait := some { va := a, access := 0, desc := desc, fault := fault } }
      match s.reach port k.pasid va 64 0 with
      | .miss a => wait (s.askTranslation port k.pasid a 0 (q, k.head, 0)) a true false
      | .fault a => if s.trans.priState = 1 then s.queueError q 0x2805 else wait (s.pageFault port k.pasid a 0) a true true
      | .failed code _ => s.queueError q code
      | .ok =>
        let desc := s.readVA port k.pasid va 64
        let r0 : Recs := { desc := desc }
        if !takes r0 then s
        else
          let rd : Reader := fun a n => s.readVA port k.pasid a n
          let as := readsOf (issueReads rd desc ++ s.dumpReads r0)
          let c := fetchedCmd q k rd desc
          -- what the check knows where one of its reads fails
          let c' := fetchedCmd q k (s.knownReader port k.pasid) desc
          match s.poisonAt port k.pasid va 64 with
          | some line => (s.lostRecord c line).queueError q 0x2C24
          | none => match k.issueFailure with
            | some (code, detail) => s.failAtCheck q k c' code detail
            | none => match s.reachAll port k.pasid as with
              | some (.miss a, _) => wait (s.askTranslation port k.pasid a 0 (q, k.head, 0)) a false false
              | some (.fault a, _) =>
                if s.trans.priState = 1 then s.failAtCheck q k c' 0x2805 0
                else wait (s.pageFault port k.pasid a 0) a false true
              | some (.failed code a, kind) =>
                s.failAtCheck q k c' code (failDetail code a kind)
              | some (.ok, _) => s
              | none => match s.poisonIn port k.pasid as with
                | some line => (s.lostRecord c line).failAtCheck q k c' 0x2C24 0
                | none =>
                  let s1 := ({ va := va, len := 64, kind := 0 } :: as).foldl
                    (fun s a => s.noteVA port k.pasid a.va a.len 0 0 false) s
                  if s1.granaryHeld c s1.cmds then
                    let t := if (writeSeq c.recs).isSome then (s1.served q k).bumpFree 0x2500 0x09 else s1.served q k
                    { t with cmds := t.cmds ++ [{ c with unchecked := true, writer := (writeSeq c.recs).isSome,
                                                         seqs := match writeSeq c.recs with
                                                           | some id => [id]
                                                           | none => [] }] }
                  else s1.consider k c true

/-! ### Which row takes a descriptor -/

/-- A class that has one row; `CLASS` 0 is taken by any row. -/
def takesClass (n : Nat) (r : Recs) : Bool := r.cls == n || r.cls == 0

/-- A form of a class that has several; a reserved form is taken by any of them. -/
def takesForm (n last form : Nat) (f : Recs → Nat) (r : Recs) : Bool :=
  r.cls == 0 || (r.cls == n && (f r == form || last < f r))

/-- R316: a DICT command that opens or closes a window. -/
def dictRow (r : Recs) : Nat :=
  if r.b 19 19 = 0 then 0
  else if 1 < r.b 19 19 then 9
  else if r.b 16 17 = 0x2B00 ∧ r.b 18 18 = 9 then 2
  else if r.b 16 17 = 0x2B00 ∧ r.b 18 18 = 10 then 3
  else 1

end State

end Sys2Proof.Machine
end

