-- ==== Sys2Proof/Machine/Space.lean ====
section
/-! DEFINITION. Machine/Space.lean: Loft space of queues: the pool of a region, borrowing, the saving of
partitions, yielding (R251, R275–R280), and how commands that were switched out go on (R250). -/
namespace Sys2Proof.Machine
namespace State

/-! ### Commands that go on -/

/-- R234, R249: transfers of a command stop at their cursors. -/
def stopSlots (c : Cmd) : Cmd :=
  match c.transfer with
  | none => c
  | some t =>
    let stop (x : Slot) : Slot :=
      if runnable x && x.formed < (Xfer.ofBytes x.bytes).rows then { x with stopped := true } else x
    { c with transfer := some { t with slots := t.slots.map stop } }

/-- R250: one command that was switched out goes on from its tile boundary or its cursors. -/
def resumeCmd (s : State) (c : Cmd) : State :=
  match c.wait with
  | .parked => if c.recs.cls = 12 then s.attemptDump c else s.attempt c
  | .transfer => s.resumeMove (stopSlots c)
  | .link _ => if c.sends.isEmpty then s else s.sendOn c
  | _ => s

/-- The commands in flight that a test picks go on, in the order of their issue. -/
def resumeThose (s : State) (pick : Cmd → Bool) : State :=
  ((s.cmds.filter pick).map fun c => (c.q, c.i)).foldl (fun s k => match s.cmd? k.1 k.2 with
    | some c => if s.mayRun c then s.resumeCmd c else s
    | none => s) s

/-! ### The pool (R275) -/

/-- Units of a region's pool on a cluster: what floors and borrowings leave. -/
def poolFree (s : State) (region cluster : Nat) : Nat :=
  192 - ((s.queues.filter fun e => e.2.region == region && cluster < e.2.clusters).map fun e =>
    e.2.floor + (if e.2.saved.isSome then 0 else e.2.borrowed)).sum

def poolRoom (s : State) (k : Queue) (n : Nat) : Bool := (List.range k.clusters).all fun c => n ≤ s.poolFree k.region c

/-- Units that a queue asks for beyond what it holds: its partition as it was saved, or its next command's need. -/
def unitsAsked (s : State) (k : Queue) : Nat :=
  max (k.wants.getD 0) (if k.saved.isSome then (s.partOf k).units else 0)

/-- R276: a waiting queue that takes part in the order of requests: a parked task is as if absent (R249). -/
def waitsSpace (k : Queue) : Bool := k.wants.isSome && !k.parked && !k.halted

/-- R276: is its request the oldest of its region? -/
def oldestRequest (s : State) (q : Nat) (k : Queue) : Bool :=
  waitsSpace k && s.queues.all fun e =>
    e.2.region != k.region || !waitsSpace e.2 || k.wantsSince < e.2.wantsSince || (k.wantsSince == e.2.wantsSince && q ≤ e.1)

/-! ### Saving (R202, R251, R278–R280) -/

/-- R280: can the state area be written and read? An access that misses asks for its translation, and one that faults
parks the task. -/
def areaReach (s : State) (q : Nat) (k : Queue) : State × Bool :=
  let try_ (a : State × Bool) (kind : Nat) : State × Bool :=
    if !a.2 then a
    else match a.1.reach k.region k.pasid (areaBase k) (areaBytes k) kind with
      | .ok => a
      | .miss va => (a.1.askTranslation k.region k.pasid va kind (q, 2 ^ 32, 0), false)
      | .fault va => (if a.1.trans.priState = 1 then a.1 else a.1.pageFault k.region k.pasid va kind, false)
      | .failed .. => (a.1, false)
  try_ (try_ (s, true) 1) 0

/-- Save the whole partition of a queue to its state area: its entry takes state 2 and its borrowings return to
the pool. The layout of the area is the firmware's own, so its bytes become free. Answers whether it was saved: a
pinned partition never is, and a save waits for the area's translations. -/
def saveQueue (s : State) (q : Nat) (k : Queue) : State × Bool :=
  match k.part with
  | none => (s, false)
  | some e =>
    let p := s.part k.region e
    if p.pinned || p.state != 1 then (s, false)
    else
      let (s0, ok) := s.areaReach q k
      if !ok then (s0, false)
      else
        let v := s.savePart k.region p
        let s1 := (s.setPart k.region e { p with state := 2 }).scramble k.region k.pasid (areaBase k) (areaBytes k)
        (s1.setQueue q { k with saved := some v, borrowed := 0 }, true)

/-- R276: the pool is short: partitions of parked queues that hold borrowings are saved, one after another
in queue order, until the pool holds room. -/
def makeRoom (s : State) (k : Queue) (n : Nat) : State :=
  (s.queues.filter fun e => e.2.region == k.region && (e.2.parked || e.2.halted) && e.2.borrowed != 0).foldl (fun s e =>
    if s.poolRoom k n then s
    else match s.queue? e.1 with
      | some x => (s.saveQueue e.1 x).1
      | none => s) s

/-! ### Granting -/

/-- Rows for a queue: its partition grows, is restored, or is made where it has none (R202, R203, R276). -/
def giveUnits (s : State) (k : Queue) (units : Nat) : Option (State × Nat) :=
  match k.part with
  | some e =>
    let p := s.part k.region e
    let s0 := match k.saved with
      | some _ => s.setPart k.region e { p with state := 1, units := 0 }
      | none => s
    match s0.resizePart k.region e units k.pasid with
    | none => none
    | some s1 => match k.saved with
      | some v => some (s1.restorePart k.region { s1.part k.region e with units := p.units } v, e)
      | none => some (s1, e)
  | none =>
    let mask := 2 ^ k.clusters - 1
    match s.freeEntry k.region, freeRange (s.usedSems k.region mask) k.semCount 256,
        freeRange (s.usedCtrs k.region mask) k.ctrCount 256 with
    | some e, some sb, some cb =>
      let hz := bits k.image 25 24
      let p : Partition := {
        state := 1, hazard := if hz = 0 then s.keptReg 0x2600 0x08 0 == 1 else hz == 2, pasid := k.pasid,
        ctrCount := k.ctrCount, ctrBase := cb, semCount := k.semCount, semBase := sb, units := 0, mask := mask }
      ((s.setPart k.region e p).resizePart k.region e units k.pasid).map fun s1 =>
        (s1.clearMarks k.region mask sb k.semCount cb k.ctrCount, e)
    | _, _, _ => none

/-- A burst that waited for space is fetched again. -/
def resumeBursts (s : State) (q : Nat) : State :=
  (s.cmds.filter fun c => c.q == q && c.wait == .transfer).foldl (fun s c => match s.cmd? c.q c.i with
    | some x => (match x.transfer with
      | some t => if t.burst && t.burstPage.isNone then s.fetchBurst x else s
      | none => s)
    | none => s) s

/-- R276: grant the oldest request of a region. Its next command then issues; commands of a queue that had
been saved go on. -/
def grantSpace (s : State) (q : Nat) : State :=
  match s.queue? q with
  | none => s
  | some k =>
    if !s.oldestRequest q k then s
    else
      let units := s.unitsAsked k
      let holds := if k.saved.isSome then 0 else k.borrowed
      let extra := units - k.floor - holds
      let s0 := s.makeRoom k extra
      if !s0.poolRoom k extra then s0.bumpFree 0x2900 0x0A
      else match s0.giveUnits k units with
        | none => s0.bumpFree 0x2900 0x0A
        | some (s1, e) =>
          let s2 := { s1 with issued := s1.issued + 1 }.setQueue q { k with
            wants := none, part := some e, saved := none, images := 0, borrowed := units - k.floor,
            borrowTime := if holds = 0 then s1.issued else k.borrowTime }
          (s2.resumeBursts q).resumeThose fun c => c.q == q && k.saved.isSome

/-! ### Mutual wait (R277, R278) -/

/-- A command in flight that waits for something. -/
def waitsFor (c : Cmd) : Bool :=
  match c.wait with
  | .done => false
  | .transfer => (match c.transfer with
    | some t => t.slots.any fun x => !x.started || x.faulted.isSome || !x.unacked.isEmpty || !x.reads.isEmpty
    | none => false)
  | _ => true

/-- R277: a region is in mutual wait: some queue waits for pool space, and every queue that waits for anything
waits for pool space. Parked tasks are as if absent. -/
def mutualWait (s : State) (region : Nat) : Bool :=
  let mine := s.queues.filter fun e => e.2.region == region && !e.2.parked && !e.2.halted
  (mine.any fun e => e.2.wants.isSome) &&
    mine.all fun e => e.2.wants.isSome || (e.2.issueWait.isNone && !s.cmds.any fun c => c.q == e.1 && waitsFor c)

/-- R277: the youngest borrowing queue of a region that can yield. -/
def youngest (s : State) (region : Nat) : Option (Nat × Queue) :=
  (s.queues.filter fun e =>
    e.2.region == region && e.2.borrowed != 0 && e.2.saved.isNone && !e.2.yieldOrdered && !(s.partOf e.2).pinned).foldl
    (fun b e => match b with
      | none => some e
      | some y => if y.2.borrowTime < e.2.borrowTime then some e else some y) none

/-- R277: the youngest borrowing queue is ordered to yield. -/
def orderYield (s : State) (region : Nat) : State :=
  if !s.mutualWait region then s
  else match s.youngest region with
    | none => s
    | some (q, k) => (s.setQueue q { k with yieldOrdered := true }).bump 0x2900 0x0B 1

/-- R278: a queue ordered to yield saves its partition at its tile boundary and asks for it again. -/
def yieldQueue (s : State) (q : Nat) : State :=
  match s.queue? q with
  | none => s
  | some k =>
    if !k.yieldOrdered then s
    else if k.borrowed = 0 then s.setQueue q { k with yieldOrdered := false }
    else
      let (s0, ok) := s.saveQueue q k
      let s1 := if ok then s0.saveTiles q k else s0
      if !ok then s1
      else { s1 with issued := s1.issued + 1 }.onQueue q fun k => { k with
        yieldOrdered := false, wants := some (s1.unitsAsked k), wantsSince := s1.issued }

end State

open State

/-- BorrowGrant: R276. The pool's room, the order of requests and what a save needs decide whether it arises. -/
def execBorrowGrant (q : Nat) (s : State) : Host.Outcome State Fault Refusal := .next (s.grantSpace q)

/-- MutualWaitYield: R277. The row says that the wait has lasted 4,096 clk (log entry 64). -/
def execMutualWaitYield (region : Nat) (s : State) : Host.Outcome State Fault Refusal := .next (s.orderYield region)

/-- QueueYield: R278. -/
def execQueueYield (q : Nat) (s : State) : Host.Outcome State Fault Refusal := .next (s.yieldQueue q)

end Sys2Proof.Machine
end

