-- ==== Sys2Proof/Machine/Events.lean ====
section
/-! DEFINITION. Machine/Events.lean: what happens to commands in flight: completion, rerun, and the ends of their waits
(R167, R208, R216, R220, R260, R268, R269, R293, R411). An event that can not arise in a state leaves it
unchanged (log entry 7). -/
namespace Sys2Proof.Machine
namespace State

/-! ### Completion (R260) -/

/-- Commands that wait for completions of others: signalling SYNCs, TABLEs, and DICT commands (R336). -/
def settle (s : State) : State :=
  (s.cmds.filter fun c => (c.recs.cls == 10 && c.wait == .fence) || c.wait == .shadow || c.wait == .dictionary).foldl (fun s c =>
    match s.cmd? c.q c.i with
    | some x => if x.wait = c.wait ∧ s.mayRun x then s.attempt x else s
    | none => s) s

/-- Can the record of a command be written now? -/
def recordReady (s : State) (c : Cmd) : Bool :=
  match s.queue? c.q with
  | none => false
  | some k => s.reach (16 + c.die) c.pasid (k.complBase + 64 * (k.complTail % 2 ^ k.complLog2)) 64 1 == .ok

/-- A finished command completes: captures of it are written, its record is written, what waited on it goes on. -/
def complete (s : State) (c : Cmd) : State :=
  if s.recordReady c then (((s.captureEnd c).tryRecord c).closeTied c.q c.i).settle else s.tryRecord c

/-- R260: the command completes where it has finished. -/
def completeCmd (s : State) (q i : Nat) : State :=
  match s.cmd? q i with
  | none => s
  | some c => match c.wait with
    | .done => s.complete c
    | .recordWrite _ false => s.complete { c with wait := .done }
    | .recordWrite _ true => s  -- a page request for its page is outstanding (R247)
    | _ => s

/-! ### Rerun (R216, R362) -/

/-- A command as it starts again. -/
def restart (c : Cmd) : Cmd :=
  { c with
    wait := .parked, tiles := 0, ringData := [], begun := false, sends := [], transfer := none, reruns := c.reruns + 1 }

/-- Ledger code of the last fault about a place: of its open domain, or of the newest entry that names it. -/
def lastCode (s : State) (loc : Nat) (parity : Bool) : Nat :=
  let es := (s.ledger (locDie loc)).places.map Prod.snd
  let about := es.filter fun e => locHolds (bareLoc (containerAt 1 loc)) (bareLoc e.phys) || bareLoc e.phys == bareLoc loc
  match about.foldl (fun (b : Option LedgerEntry) e => match b with
      | none => some e
      | some x => if x.seq ≤ e.seq then some e else some x) none with
  | some e => e.code
  | none => if parity then 0x2C09 else 0x2C0A

/-- R216: a detected error in a command: the first row of the table that applies. -/
def rerun (s : State) (c : Cmd) (given : Bool) : State :=
  let p := match c.wait with
    | .rerun p => p
    | _ => given
  if !openCmd c || c.unchecked then s
  else match s.rerunCode c p with
    | some code =>
      let s1 := s.failCmd c code 0
      match c.lastFault with
      | some l => if code % 16 = (if p then 7 else 2) then s1.escalate (s1.lastCode l p) l p else s1
      | none => s1
    | none =>
      let s1 := if c.begun then s.traceEnd c else s
      let s2 := (s1.bump (if p then 0x2600 else 0x2C00) (if p then 0x0D else 0x0E) 1).bumpTask c.pasid 13 1
      let s3 : State := { s2 with bruora := { s2.bruora with
        sent := s2.bruora.sent.filter fun m => !(m.q == c.q && m.i == c.i) } }
      (s3.setCmd (restart c)).attempt (restart c)

/-! ### Waits -/

/-- Go on with a command of one wait. -/
def onWait (s : State) (q i : Nat) (is : Cmd → Bool) (go : State → Cmd → State) : State :=
  match s.cmd? q i with
  | none => s
  | some c => if is c && s.mayRun c then go s c else s

/-- R208: a semaphore wait of a SYNC or of a transfer descriptor. -/
def semaphoreWait (s : State) (q i : Nat) (d : Option Nat) : State :=
  match d with
  | none => s.onWait q i (fun c => c.wait == .semaphore) attempt
  | some n => s.onWait q i (fun c => c.wait == .transfer && (match c.transfer with
      | some t => t.slots.any fun x => x.d == n && !x.started
      | none => false)) advanceMove

/-! ### Gated tiles (R167, R168) -/

/-- R168: the rows of a gated tile as every cluster of the command reads them from its ring: the tile's bytes, the first
marked row and the hazards, each with its cluster. Which cluster works on which rows is not stated: where the rings
differ the bytes are free (log entry 118). -/
def ringTile (s : State) (c : Cmd) (r : Recs) (tile : Nat) : List Byte × Option (Nat × Nat) × List (Nat × Nat) :=
  let p := s.cmdPart c
  let per := r.namedRows (s.cmdEnv c r) / r.ringSlots
  let first := r.ringFirst + tile % r.ringSlots * per
  let got := (setBits c.clusters 16).map fun n => (List.range per).map fun j => (n, first + j, s.readRow p c.region n (first + j))
  let data := got.map fun g => (g.map fun x => x.2.2.1).flatten
  let bytes := match data with
    | [] => []
    | b :: bs => if bs.all (· == b) then b else (List.range b.length).map (Config.freeByte s.free)
  (bytes, (got.flatten.find? fun x => x.2.2.2.1).map fun x => (x.1, 16 * p.baseUnit + x.2.1),
   (got.flatten.filter fun x => x.2.2.2.2).map fun x => (x.1, x.2.1))

/-- R168: how many slots a command releases as its tile starts: that tile's once it has been read; the two-pass form reads
every tile again in its second sweep, so it releases them all at the last one. -/
def releasesAt (c : Cmd) (tile : Nat) : Nat :=
  if (gateRec c).isAttend && c.form == 1 then (if tile + 1 < gateTiles (gateRec c) then 0 else gateTiles (gateRec c)) else 1

/-- Signal n times on every cluster of a mask; false where one of them overflowed. -/
def signalTimes (s : State) (p : Partition) (region mask : Nat) (w : SemWord) (n : Nat) : State × Bool :=
  (List.range n).foldl (fun (a : State × Bool) _ =>
    let (s', ok) := a.1.signalMask p region mask w
    (s', a.2 && ok)) (s, true)

/-- Have the arrivals of a tile counted on every cluster of the command? -/
def tileArrived (s : State) (c : Cmd) (r : Recs) (tile : Nat) : Bool :=
  (setBits c.clusters 16).all fun n =>
    (tile + 1) * r.gateStep ≤ s.arrived (s.cmdPart c) c.region n r.gateCounter r.gateBase

/-- A gated tile begins: its ring rows are read, and slots that are read for the last time are released on every cluster. -/
def startTile (s0 : State) (c0 : Cmd) (tile : Nat) : State :=
  let r := gateRec c0
  let (s, c) := s0.beginTrace c0
  let (bytes, bad, hz) := if r.ringed then s.ringTile c r tile else ([], none, [])
  match bad with
  | some (n, row) => s.parityRead c { restart c with wait := .gate 0 } c.region n row
  | none =>
    let p := s.cmdPart c
    let s1 := hz.foldl (fun s j => s.hazardAt p c.region j.1 j.2 c.pasid c.q) (s.bumpFree 0x2210 0x06)
    let w := SemWord.ofWord (if r.ringed then r.ringRelease else 0)
    let n := if w.op = 2 then releasesAt c tile else 0
    let (s2, ok) := s1.signalTimes p c.region c.clusters w n
    let c1 : Cmd := { c with
      tiles := tile + 1, hazards := c.hazards + hz.length, released := c.released || n != 0,
      ringData := if r.ringed then c.ringData ++ [bytes] else c.ringData, wait := .gate (tile + 1) }
    if !ok then s2.failCmd c1 0x2608 0
    else if tile + 1 < gateTiles r then s2.setCmd c1
    else (s2.setCmd c1).attempt c1

def gatedTile (s : State) (q i tile : Nat) : State :=
  s.onWait q i (fun c => c.wait == .gate tile && c.tiles == tile && s.tileArrived c (gateRec c) tile) fun s c =>
    if s.breakHolds c && !c.begun then s.setCmd { c with wait := .parked } else s.startTile c tile

/-- R167: the counter of a gate has stood still for `GATE_TIMEOUT`. -/
def gateTimeout (s : State) (q i : Nat) : State :=
  s.onWait q i (fun c => match c.wait with
    | .gate _ => true
    | _ => false) fun s c =>
    let s1 := (s.bumpFree 0x2210 0x06).bump 0x2210 0x07 1
    if !s.cadence then s1.failCmd c 0x2227 0
    else
      let dl := match c.deadline.bind s.dueReel with
        | some t => t
        | none => s.reel c.die
      (s1.missDeadline q (c.deadline.map Due.point) dl c.die false).failCmd
        { c with late := true, missedAt := some (c.missedAt.getD (s.lateFrom c.die dl)) } 0x2227 0

/-! ### Transfers (R220) -/

/-- A descriptor whose rows have landed and whose signal has taken effect frees its slot. -/
def endDescriptor (s : State) (q i d : Nat) : State :=
  match s.cmd? q i with
  | none => s
  | some c => match c.transfer with
    | none => s
    | some t => match t.slots.find? fun x => x.d == d && x.landed.isSome && !x.failed with
      | none => s
      | some x =>
        let late := match x.missed, x.landed with
          | some dl, some at_ => at_ - dl
          | _, _ => 0
        s.advanceMove { c with
          lateness := max c.lateness late,
          transfer := some { t with slots := t.slots.filter (fun y => y.d != d), completed := t.completed + 1 } }

/-! ### Granary order (R193) -/

/-- A command that waited by R193, or an issued FREE, goes on once nothing before it holds it. -/
def granaryRelease (s : State) (q i : Nat) : State :=
  match s.cmd? q i, s.queue? q with
  | some c, some k =>
    if c.wait != .granary || !s.mayRun c then s
    else if !c.unchecked then s.attempt c
    else if k.wants.isSome || s.granaryHeld c (s.cmds.takeWhile fun x => !(x.q == q && x.i == i)) then s
    else s.consider k c false
  | _, _ => s

/-! ### TIMED, FENCE, DUMP -/

/-- R293: the release point of a TIMED, `dt` clk from now. -/
def releasePoint (s : State) (q i dt : Nat) : State :=
  let s1 := s.elapse dt
  match s1.cmd? q i with
  | none => s
  | some c => if c.wait = .release ∧ s1.pointPassed c then s1.setCmd { c with wait := .done } else s

/-- R268: a FENCE releases and writes its record. -/
def releaseFence (s : State) (q i : Nat) : State :=
  match s.cmd? q i with
  | none => s
  | some c =>
    if c.recs.cls = 14 ∧ c.wait = .fence ∧ s.fenceOpen c then (s.setCmd { c with wait := .done }).complete { c with wait := .done }
    else s

/-- R411: `EXPIRE` commands of the watched queue have issued with no match. -/
def lapse (s : State) (place : Nat) : State :=
  match s.obs.captures.find? fun k => k.place == place && k.matched.isNone && k.rec_.expire ≤ k.issued with
  | none => s
  | some k => s.endDump k.q k.i 0x2E03 0

end State

open State

/-- CommandCompletion: R260, R272. -/
def execCommandCompletion (q i : Nat) (s : State) : Host.Outcome State Fault Refusal := .next (s.completeCmd q i)

/-- CommandRerun: R216, R362. -/
def execCommandRerun (q i : Nat) (parity : Bool) (s : State) : Host.Outcome State Fault Refusal :=
  .next (match s.cmd? q i with
    | some c => s.rerun c parity
    | none => s)

/-- DumpLapse: R411. -/
def execDumpLapse (place : Nat) (s : State) : Host.Outcome State Fault Refusal := .next (s.lapse place)

/-- TimedReleasePoint: R293. -/
def execTimedReleasePoint (q i dt : Nat) (s : State) : Host.Outcome State Fault Refusal := .next (s.releasePoint q i dt)

/-- FenceRelease: R268. -/
def execFenceRelease (q i : Nat) (s : State) : Host.Outcome State Fault Refusal := .next (s.releaseFence q i)

/-- DescriptorBurstArrival: R220, R237. -/
def execDescriptorBurstArrival (q i : Nat) (s : State) : Host.Outcome State Fault Refusal :=
  .next (s.onWait q i (fun c => c.wait == .transfer) fetchBurst)

/-- DescriptorCompletion: R220. -/
def execDescriptorCompletion (q i d : Nat) (s : State) : Host.Outcome State Fault Refusal := .next (s.endDescriptor q i d)

/-- SemaphoreWaitSatisfied: R208. -/
def execSemaphoreWaitSatisfied (q i : Nat) (d : Option Nat) (s : State) : Host.Outcome State Fault Refusal :=
  .next (s.semaphoreWait q i d)

/-- ArrivalWaitSatisfied: R269, R210. -/
def execArrivalWaitSatisfied (q i : Nat) (s : State) : Host.Outcome State Fault Refusal :=
  .next (s.onWait q i (fun c => c.wait == .counter) attempt)

/-- MemoryWaitPoll: R269. The row says that the 256 clk have passed (log entry 64). -/
def execMemoryWaitPoll (q i : Nat) (s : State) : Host.Outcome State Fault Refusal :=
  .next (s.onWait q i (fun c => c.wait == .memory) pollMemory)

/-- GatedTileStart: R167, R168. -/
def execGatedTileStart (q i tile : Nat) (s : State) : Host.Outcome State Fault Refusal := .next (s.gatedTile q i tile)

/-- GateTimeout: R167. The row says that `GATE_TIMEOUT` has passed (log entry 64). -/
def execGateTimeout (q i : Nat) (s : State) : Host.Outcome State Fault Refusal := .next (s.gateTimeout q i)

/-- GranaryWriterRelease: R193, R182. -/
def execGranaryWriterRelease (q i : Nat) (s : State) : Host.Outcome State Fault Refusal := .next (s.granaryRelease q i)

end Sys2Proof.Machine
end

