-- ==== Sys2Proof/Machine/Pages.lean ====
section
/-! DEFINITION. Machine/Pages.lean: answers of the host translation unit: translation completions, page-request
responses and invalidations, and what they wake, fail or unpark (R242–R250). -/
namespace Sys2Proof.Machine

/-- R243: is a range one page, or a merged run of 2, 4, 8 or 16 pages, that holds an address? -/
def rangeOk (va0 bytes pa va : Nat) : Bool :=
  va0 ≤ va && va < va0 + bytes && va0 + bytes ≤ 2 ^ 57 &&
  [4096, 2 ^ 21, 2 ^ 30].any fun page => [1, 2, 4, 8, 16].any fun n =>
    bytes == page * n && va0 % bytes == 0 && pa % page == 0

/-- The access that a page request's rights ask for. -/
def accessOf (rights : Nat) : Nat := if bit rights 2 then 2 else if bit rights 1 then 1 else 0

/-- Does an entry carry the rights of a page request? -/
def Entry.carries (e : Entry) (rights : Nat) : Bool :=
  (!bit rights 0 || e.read) && (!bit rights 1 || (e.write && e.asked)) && (!bit rights 2 || (e.allows 2 && e.asked))

namespace State

/-! ### Look-aside entries -/

/-- R242: a new entry stands first in both levels, in the place of one for the same range and kind. -/
def install (s : State) (port : Nat) (e : Entry) : State :=
  let others (l : List Entry) : List Entry :=
    l.filter fun x => !(x.pasid == e.pasid && x.va == e.va && x.bytes == e.bytes && x.asked == e.asked)
  let s1 := s.setCarterEntries port (e :: others (s.carterEntries port))
  s1.setDieEntries (dieOfPort port) (e :: others (s1.dieEntries (dieOfPort port)))

/-- What the waiters of a request meet while its answer gives no entry: an entry behind all others, for this moment. -/
def transient (pasid va pa : Nat) : Entry :=
  { pasid := pasid, va := va / 4096 * 4096, bytes := 4096, pa := pa, read := false, write := false, atomic := false, asked := true }

def withTransient (s : State) (die : Nat) (e : Entry) (go : State → State) : State :=
  let put (s : State) (l : List Entry) : State :=
    { s with trans := if die = 0 then { s.trans with die0 := l } else { s.trans with die1 := l } }
  let s1 := go (put s (s.dieEntries die ++ [e]))
  put s1 ((s1.dieEntries die).filter (· != e))

/-- R248: entries of a page that lack the rights of its page request give way to the fresh translation. -/
def dropStale (s : State) (p : PageReq) : State :=
  let on (e : Entry) : Bool := e.covers p.pasid (p.page * 4096) ||
    e.pasid == p.pasid && meets e.va e.bytes (p.page * 4096 / p.bytes * p.bytes) p.bytes
  let keep (e : Entry) : Bool := !on e || e.carries p.rights
  { s with trans := { s.trans with
      carter := s.trans.carter.map fun c => (c.1, c.2.filter keep),
      die0 := s.trans.die0.filter keep, die1 := s.trans.die1.filter keep } }

/-! ### What waits on a translation -/

/-- An access of an issue check that waited. -/
def wakeIssue (s : State) (die pasid page : Nat) : State :=
  s.queues.foldl (fun s e => match s.queue? e.1 with
    | none => s
    | some k => match k.issueWait with
      | none => s
      | some w =>
        if k.pasid != pasid || k.region / 8 != die || w.va / 4096 != page || w.fault then s
        else
          let stop (s : State) (code detail : Nat) : State :=
            if w.desc then s.queueError e.1 code
            else s.setQueue e.1 { k with issueWait := none, issueFailure := some (code, detail) }
          match s.reach (16 + die) pasid w.va 1 w.access with
          | .ok | .miss _ => s.setQueue e.1 { k with issueWait := none }
          | .fault va =>
            if s.trans.priState = 1 then stop s 0x2805 0
            else (s.setQueue e.1 { k with issueWait := some { w with fault := true } }).pageFault (16 + die) pasid va w.access
          | .failed code va => stop s code (failDetail code va w.access)) s

/-- Does a command wait on an access of this page through this port? -/
def waitsTranslation (c : Cmd) (port pasid page : Nat) : Bool :=
  c.pasid == pasid && match c.wait with
    | .translation va _ => c.region == port && va / 4096 == page
    | .transfer => c.region == port
    | .recordWrite va fault => 16 + c.die == port && va / 4096 == page && !fault
    | _ => false

/-- A command that waited on a translation goes on. -/
def proceed (s : State) (c : Cmd) : State :=
  match c.wait with
  | .recordWrite _ _ => s.complete { c with wait := .done }
  | .transfer =>
    let s1 := s.advanceMove c
    (match s1.cmd? c.q c.i with
    | some x => (match x.transfer with
      | some t => if t.burst && t.burstPage.isNone && x.wait == .transfer && s1.mayRun x then s1.fetchBurst x else s1
      | none => s1)
    | none => s1)
  | .translation va kind =>
    -- R247: a fault met while the task is parked still sends its page request
    if s.mayRun c then (if c.recs.cls = 12 then s.attemptDump c else s.attempt c)
    else match s.reach c.region c.pasid va 1 kind with
      | .fault v => s.faultCmd c v kind
      | _ => s.setCmd { c with wait := .parked }
  | _ => s

def wake (s : State) (port pasid page : Nat) : State :=
  let s1 := ((s.cmds.filter fun c => waitsTranslation c port pasid page).map fun c => (c.q, c.i)).foldl (fun s k =>
    match s.cmd? k.1 k.2 with
    | some c => if waitsTranslation c port pasid page then s.proceed c else s
    | none => s) s
  if port < 16 then s1 else s1.wakeIssue (port - 16) pasid page

/-! ### Unparking (R250) -/

/-- R397: how long a task was parked or halted is not stated. -/
def countParked (s : State) (pasid : Nat) : State :=
  let (f, s1) := s.draw
  s1.bumpTask pasid 15 (Config.freeCount f)

/-- R250: the saved spill images go back to their slots: every bit of a slot is as it was (R91). -/
def restoreTiles (s : State) (pasid : Nat) : State :=
  { s with queues := s.queues.map fun e => if e.2.pasid = pasid then (e.1, { e.2 with images := 0 }) else e }

/-- R250, R278: a partition of a task that was saved is asked for again before its commands go on. -/
def askRestore (s : State) (pasid : Nat) : State :=
  let one (e : Nat × Queue) : Nat × Queue :=
    if e.2.pasid == pasid && e.2.saved.isSome && e.2.wants.isNone then
      (e.1, { e.2 with wants := some (s.partOf e.2).units, wantsSince := s.issued })
    else e
  { s with queues := s.queues.map one, issued := s.issued + 1 }

/-- R250: commands of a task that is neither parked nor halted go on. -/
def goOn (s : State) (pasid : Nat) : State :=
  let s2 := (((s.askRestore pasid).restoreTiles pasid).countParked pasid).resumeThose fun c => c.pasid == pasid
  ((s2.cmds.filter fun c => c.pasid == pasid).map fun c => (c.q, c.i)).foldl (fun s k => match s.cmd? k.1 k.2 with
    | some c => (match c.wait with
      | .recordWrite _ false => s.complete { c with wait := .done }
      | _ => s)
    | none => s) s2

/-- R250: the queues of a PASID unpark. -/
def unpark (s : State) (pasid : Nat) : State :=
  let one (e : Nat × Queue) : Nat × Queue := if e.2.pasid = pasid then (e.1, { e.2 with parked := false }) else e
  { s with queues := s.queues.map one }.goOn pasid

/-- R250: unpark the PASIDs of a list that have no page request left. -/
def unparkFree (s : State) (pasids : List Nat) : State :=
  pasids.eraseDups.foldl (fun s p => if s.trans.pages.any fun x => x.pasid == p then s else s.unpark p) s

/-! ### Page requests (R247, R248) -/

def dropPages (s : State) (bad : PageReq → Bool) : State :=
  { s with trans := { s.trans with pages := s.trans.pages.filter fun p => !bad p } }.pumpPages

/-- What waited on a page is only parked now. -/
def releasePage (s : State) (p : PageReq) : State :=
  let on (va : Nat) : Bool := p.holds p.pasid va
  let slot (x : Slot) : Slot := match x.faulted with
    | some (va, _) => if on va then { x with faulted := none } else x
    | none => x
  let one (c : Cmd) : Cmd :=
    if c.pasid != p.pasid then c
    else match c.wait with
      | .page va _ => if on va then { c with wait := .parked } else c
      | .recordWrite va _ => if on va then { c with wait := .recordWrite va false } else c
      | .transfer => (match c.transfer with
        | some t => { c with transfer := some { t with
            slots := t.slots.map slot, burstPage := t.burstPage.filter fun va => !on va } }
        | none => c)
      | _ => c
  let queue (e : Nat × Queue) : Nat × Queue := match e.2.issueWait with
    | some w => if e.2.pasid == p.pasid && on w.va then (e.1, { e.2 with issueWait := none }) else e
    | none => e
  { s with cmds := s.cmds.map one, queues := s.queues.map queue }

/-- R248: everything that waits on pages that a test of their addresses picks fails with a code. -/
def failWaiters (s : State) (pasid : Nat) (bad : Nat → Bool) (code : Nat) : State :=
  let detail (va k : Nat) : Nat := failDetail code va k
  let s1 := ((s.cmds.filter fun c => c.pasid == pasid).map fun c => (c.q, c.i)).foldl (fun s k => match s.cmd? k.1 k.2 with
    | none => s
    | some c => match c.wait with
      | .page va kind => if bad va then s.failCmd c code (detail va kind) else s
      | .transfer => s.refusePage c bad code
      | .recordWrite va true =>
        if bad va then ((s.settleGranary c).dropCmd c.q c.i).queueError c.q code else s
      | _ => s) s
  (s1.queues.filter fun e => e.2.pasid == pasid).foldl (fun s e => match s.queue? e.1 with
    | none => s
    | some k => match k.issueWait with
      | some w =>
        if !(w.fault && bad w.va) then s
        else if w.desc then s.queueError e.1 code
        else s.setQueue e.1 { k with issueWait := none, issueFailure := some (code, detail w.va w.access) }
      | none => s) s1

/-- R248: page requests fail with a code; their waiters fail, and tasks without a page request left unpark. -/
def failPages (s : State) (bad : PageReq → Bool) (code : Nat) : State :=
  let gone := s.trans.pages.filter bad
  let s1 := s.dropPages bad
  let s2 := gone.foldl (fun s p => s.failWaiters p.pasid (p.holds p.pasid) code) s1
  s2.unparkFree (gone.map PageReq.pasid)

def samePage (a b : PageReq) : Bool := a.pasid == b.pasid && a.page == b.page

/-- R248, R253, R254: the translation asked for after a success has come: does the access have its rights now? A fault
that persists after `PAGE_REQUEST_RETRIES` successes fails (log entry 168). -/
def answerPage (s : State) (p : PageReq) (granted : Bool) : State :=
  if granted then ((s.releasePage p).dropPages (samePage p)).unparkFree [p.pasid]
  else if s.trans.priState = 1 then s.failPages (samePage p) 0x2805
  else if s.keptReg 0x2800 0x06 3 ≤ p.retries + 1 then s.failPages (samePage p) 0x2806
  else
    let again (x : PageReq) : PageReq := if samePage p x then { x with answered := false, retries := x.retries + 1 } else x
    (({ s with trans := { s.trans with pages := s.trans.pages.map again } }).bump 0x2800 0x0A 1).send
      (.pageRequest p.die p.pasid p.page p.rights)

/-- What asks for the fresh translation of a page request. -/
def pageWho (page : Nat) : Nat × Nat × Nat := (2 ^ 20, page, 0)

/-- The page request whose fresh translation arrives through a port. -/
def answeredPage (s : State) (port pasid page : Nat) : Option PageReq :=
  s.trans.pages.find? fun p => p.answered && p.pasid == pasid && p.page == page && 16 + p.die == port

/-! ### Translation completions (R242–R248) -/

def translated (s : State) (die pasid va : Nat) (answer : TransAnswer) : State :=
  let same (r : TransReq) : Bool := r.die == die && r.pasid == pasid && r.va / 4096 == va / 4096
  match s.trans.requests.find? same with
  | none => s
  | some r =>
    let page := va / 4096
    let s0 : State := { s with trans := { s.trans with requests := s.trans.requests.erase r } }
    let page? := if r.who == pageWho page then s0.answeredPage r.region pasid page else none
    if r.discard then s0.askTranslation r.region pasid r.va r.access r.who
    else match answer with
      | .range va0 bytes pa rd wr at_ =>
        if !rangeOk va0 bytes pa r.va then s
        else
          let e : Entry := { pasid := pasid, va := va0, bytes := bytes, pa := pa, read := rd, write := wr, atomic := at_,
                             asked := r.access != 0 }
          let s1 := s0.install r.region e
          let s2 := match page? with
            | some p => s1.answerPage p (e.carries p.rights)
            | none => s1
          s2.wake r.region pasid page
      | .notPresent =>
        let s1 := match page? with
          | some p => s0.answerPage p false
          | none => s0
        s1.withTransient die (transient pasid va 0) fun s => s.wake r.region pasid page
      | .unsupported =>
        let s1 := match page? with
          | some p => s0.failPages (samePage p) 0x2802
          | none => s0
        s1.withTransient die (transient pasid va (2 ^ 64)) fun s => s.wake r.region pasid page

/-! ### Responses -/

/-- R248: the host answers a page request. -/
def pageResponse (s : State) (die pasid page : Nat) (answer : PageAnswer) : State :=
  match s.trans.pages.find? fun p => p.die == die && p.pasid == pasid && p.page == page && !p.queued && !p.answered with
  | none => s
  | some p => match answer with
    | .success =>
      let mark (x : PageReq) : PageReq := if samePage p x then { x with answered := true } else x
      let s1 : State := { s with trans := { s.trans with pages := s.trans.pages.map mark } }
      (s1.dropStale p).askTranslation (16 + die) pasid (page * 4096) (accessOf p.rights) (pageWho page)
    | .invalid => s.failPages (samePage p) 0x2803
    | .failure =>
      ({ s with trans := { s.trans with priState := 1 } }).failPages (fun x => x.die == die) 0x2805

/-- R248: no response within `PAGE_REQUEST_TIMEOUT`. -/
def pageTimeout (s : State) (die pasid page : Nat) : State :=
  match s.trans.pages.find? fun p => p.die == die && p.pasid == pasid && p.page == page && !p.queued && !p.answered with
  | none => s
  | some p => s.failPages (samePage p) 0x2804

/-! ### Invalidations (R245, R246, R319) -/

/-- Has any look-aside, or an open memory window, an entry of a PASID? -/
def holdsEntries (s : State) (pasid : Nat) : Bool :=
  (s.trans.carter.any fun c => c.2.any fun e => e.pasid == pasid) || (s.trans.die0 ++ s.trans.die1).any (fun e => e.pasid == pasid) ||
    s.bruora.windows.any fun w => w.held.any fun e => e.pasid == pasid

def endInvalidation (s : State) (pasid va bytes : Nat) : State :=
  (s.bump 0x2800 0x0C 1).send (.invalidationComplete pasid va bytes)

def invalidate (s : State) (pasid va bytes : Nat) : State :=
  let had := s.holdsEntries pasid
  let s1 := s.dropEntries pasid va bytes
  let one (w : Window) : Window :=
    if w.memory && w.held.any fun e => e.pasid == pasid && meets (max e.va w.base) (min (e.va + e.bytes) (w.base + w.size) - max e.va w.base) va bytes
    then { w with faulted := true } else w
  let s2 : State := { s1 with bruora := { s1.bruora with windows := s1.bruora.windows.map one } }
  if had then { s2 with trans := { s2.trans with invalidations := s2.trans.invalidations ++ [(pasid, va, bytes)] } }
  else s2.endInvalidation pasid va bytes

def invalidated (s : State) (pasid va bytes : Nat) : State :=
  if s.trans.invalidations.contains (pasid, va, bytes) then
    { s with trans := { s.trans with invalidations := s.trans.invalidations.erase (pasid, va, bytes) } }.endInvalidation pasid va bytes
  else s

end State

open State

/-- TranslationCompletion: R242–R248. -/
def execTranslationCompletion (die pasid va : Nat) (answer : TransAnswer) (s : State) : Host.Outcome State Fault Refusal :=
  .next (if s.pins.isolated then s else s.translated die pasid va answer)

/-- Invalidation: R245, R246. -/
def execInvalidation (pasid va bytes : Nat) (s : State) : Host.Outcome State Fault Refusal :=
  -- R421: the responder completes it at once while the engine is isolated
  .next (if s.pins.isolated then s.send (.invalidationComplete pasid va bytes) else s.invalidate pasid va bytes)

/-- InvalidationCompletion: R245. -/
def execInvalidationCompletion (pasid va bytes : Nat) (s : State) : Host.Outcome State Fault Refusal :=
  .next (s.invalidated pasid va bytes)

/-- PageRequestResponse: R248. -/
def execPageRequestResponse (die pasid page : Nat) (answer : PageAnswer) (s : State) : Host.Outcome State Fault Refusal :=
  .next (if s.pins.isolated then s else s.pageResponse die pasid page answer)

/-- PageRequestTimeout: R248. The row says that `PAGE_REQUEST_TIMEOUT` has passed (log entry 64). -/
def execPageRequestTimeout (die pasid page : Nat) (s : State) : Host.Outcome State Fault Refusal :=
  .next (s.pageTimeout die pasid page)

end Sys2Proof.Machine
end

