-- ==== Sys2Proof/Machine/Queues.lean ====
section
/-! DEFINITION. Machine/Queues.lean: doorbells, and the bind, unbind, stop and start of queues (R256–R261, R275,
R397). -/
namespace Sys2Proof.Machine

/-- The fields of a record image that a bind supplies (R256). -/
def bindFields : List (Nat × Nat) :=
  [(19, 0), (22, 20), (23, 23), (25, 24), (43, 32), (51, 44), (63, 52), (68, 64), (127, 76), (132, 128), (191, 140), (255, 204),
   (391, 384), (399, 392), (404, 400), (416, 408), (425, 417), (455, 432)]

/-- Reserved fields of a record. -/
def bindReserved : List (Nat × Nat) :=
  [(26, 26), (75, 69), (139, 133), (203, 192), (407, 405), (431, 426), (463, 460), (511, 480)]

/-- The RW fields of an image; read-only fields of an image are ignored (log entry 65). -/
def bindImage (w : Nat) : Nat := (bindFields.map fun f => bits w f.1 f.2 * 2 ^ f.2).sum

/-- R256: the queue that an image describes, in a region. -/
def queueOf (w region : Nat) : Queue :=
  { image := bindImage w, pasid := bits w 19 0, priority := bits w 22 20, cadenceBound := bit w 23, vector := bits w 43 32,
    coalesce := bits w 51 44, slot := bits w 63 52, descLog2 := bits w 68 64, descBase := bits w 127 76 * 4096,
    complLog2 := bits w 132 128, complBase := bits w 191 140 * 4096, floor := bits w 391 384, borrow := bits w 399 392,
    clusters := bits w 404 400, semCount := bits w 416 408, ctrCount := bits w 425 417, staging := bits w 455 432,
    region := region, stagingLeft := bits w 455 432 }

/-- R256, R257: a reserved field is set, or a field lies outside its range. -/
def bindMalformed (w : Nat) : Bool :=
  let k := queueOf w 0
  (bindReserved.any fun f => bits w f.1 f.2 != 0) || bits w 25 24 == 3 ||
    k.descLog2 < 6 || 20 < k.descLog2 || k.complLog2 < 6 || 20 < k.complLog2 ||
    2 ^ 57 ≤ k.descBase || 2 ^ 57 ≤ k.complBase || 2 ^ 57 ≤ bits w 255 204 * 4096 ||
    192 < k.floor || 192 < k.borrow || 192 < k.floor + k.borrow || 16 < k.clusters ||
    (k.clusters == 0 && k.floor + k.borrow != 0) || 256 < k.semCount || 256 < k.ctrCount

namespace State

/-! ### Doorbells (R258) -/

/-- A doorbell write: ignored and counted on an unbound queue, an error where the value is refused. -/
def doorbell (s : State) (q : Nat) (ok : Queue → Bool) (take : Queue → Queue) : State :=
  if s.pins.isolated then s.send (.unsupported q)
  else match s.queue? q with
    | none => s.bump 0x2900 0x0C 1
    | some k =>
      if ok k then (s.setQueue q (take k)).shrinkQueue q else (s.bump 0x2900 0x0C 1).queueError q 0x2905

def doorbellTail (s : State) (q v : Nat) : State :=
  s.doorbell q (fun k => (v + 2 ^ 32 - k.head) % 2 ^ 32 ≤ 2 ^ k.descLog2) fun k => { k with tail := v % 2 ^ 32 }

def doorbellHead (s : State) (q v : Nat) : State :=
  s.doorbell q (fun k => (k.complTail + 2 ^ 32 - v % 2 ^ 32) % 2 ^ 32 ≤ 2 ^ k.complLog2) fun k => { k with complHead := v % 2 ^ 32 }

/-! ### Binding (R257, R275) -/

/-- R257: floors of a region's queues on a cluster. -/
def floorsOn (s : State) (region cluster : Nat) : Nat :=
  ((s.queues.filter fun e => e.2.region == region && cluster < e.2.clusters).map fun e => e.2.floor).sum

/-- R257: with the new floor taken, every borrow limit of a region fits its pool on every cluster. -/
def poolFits (s : State) (region : Nat) (k : Queue) : Bool :=
  (List.range 16).all fun c =>
    let new := if c < k.clusters then k.floor else 0
    let pool := 192 - (s.floorsOn region c + new)
    let most := ((s.queues.filter fun e => e.2.region == region && c < e.2.clusters).map fun e => e.2.borrow).foldl max
      (if c < k.clusters then k.borrow else 0)
    most ≤ pool && s.floorsOn region c + new ≤ 192

/-- The queue with its floor in a region, where the region can take it. R251: where its pool is short, partitions of parked
queues that hold borrowings are saved for the floor; what that takes stands where it does not suffice (log entry 166). -/
def placeIn (s : State) (q : Nat) (w region : Nat) : State × Bool :=
  let k := queueOf w region
  if !s.regionOk region || !bit s.diesServing (region / 8) || !s.poolFits region k then (s, false)
  else if k.floor = 0 then (s.setQueue q k, true)
  else
    let s1 := s.makeRoom k k.floor
    match if s1.poolRoom k k.floor then s1.giveUnits k k.floor else none with
    | some se => (se.1.setQueue q { k with part := some se.2 }, true)
    | none => (s1, false)

/-- R275: the lowest-numbered region that takes it. -/
def place (s : State) (q w : Nat) : State × Bool :=
  (List.range 16).foldl (fun a r => if a.2 then a else a.1.placeIn q w r) (s, false)

/-- R257: the code that refuses a bind, with the state that it leaves, or the state with the queue bound. -/
def tryBind (s : State) (q w : Nat) : Except (Nat × State) State :=
  let k := queueOf w 0
  let page := s.queues.any fun e => e.1 / 512 == q / 512 && e.1 != q && e.2.pasid != k.pasid
  let bad := 2 ^ 20 ≤ q || (s.queue? q).isSome || bindMalformed w
  match lowest (cond (k.pasid == 0) 0x2802 ++ cond page 0x2903 ++ cond bad 0x2904) with
  | some code => .error (code, s)
  | none =>
    if s.freeSheaves < k.staging then .error (0x2907, s)
    else match s.place q w with
      | (s1, false) => .error (0x2907, s1)
      | (s1, true) => .ok { s1 with granary := { s1.granary with staged := s1.granary.staged + k.staging } }

/-- R397: the counter set of a PASID is cleared when its first queue is bound. -/
def openTask (s : State) (pasid : Nat) : State :=
  if (s.queues.filter fun e => e.2.pasid == pasid).length = 1 then
    { s with obs := { s.obs with tasks := Table.put pasid (List.replicate 16 0) s.obs.tasks } }
  else s

/-- R257: a bind. A queue of a parked or halted task is bound parked or halted (log entry 66). -/
def bindQueue (s : State) (q w : Nat) : State :=
  match s.tryBind q w with
  | .error (code, u) => u.setReg 0x2900 0x16 code
  | .ok s1 =>
    let p := bits w 19 0
    let parked := s1.queues.any fun e => e.2.pasid == p && e.2.parked
    let s2 := s1.onQueue q fun k => { k with parked := parked, halted := s.obs.halted.contains p }
    (s2.openTask p).setReg 0x2900 0x16 0

/-! ### Stop, start, unbind (R261) -/

def stopQueue (s : State) (q : Nat) : State := s.onQueue q fun k => if k.state = 1 then { k with state := 2 } else k

def startQueue (s : State) (q : Nat) : State := s.onQueue q fun k => if k.state = 1 then k else { k with state := 1 }

/-- What an unbind gives back. Windows on the partition close with it (log entry 67). -/
def releaseQueue (s : State) (q : Nat) (k : Queue) : State :=
  let s1 := match k.part with
    | some e => s.setPart k.region e {}
    | none => s
  let last := !s.queues.any fun e => e.1 != q && e.2.pasid == k.pasid
  let rest (r : Release) : Release := { r with queues := r.queues.filter (· != q) }
  { s1 with
    queues := Table.drop q s1.queues,
    granary := { s1.granary with staged := s1.granary.staged - k.stagingLeft },
    bruora := { s1.bruora with windows := s1.bruora.windows.filter fun w => w.q != q },
    bell := { s1.bell with releases := s1.bell.releases.map rest },
    obs := { s1.obs with tasks := if last then Table.drop k.pasid s1.obs.tasks else s1.obs.tasks } }

/-- R261: refused with 0x2906 unless stopped or in error with nothing in flight. -/
def unbindQueue (s : State) (q : Nat) : State :=
  match s.queue? q with
  | none => s.setReg 0x2900 0x16 0x2906
  | some k =>
    if k.state = 1 || s.cmds.any (fun c => c.q == q) then s.setReg 0x2900 0x16 0x2906
    else (s.releaseQueue q k).setReg 0x2900 0x16 0

end State

open State

/-- DoorbellDescTail: R258. -/
def execDoorbellDescTail (q value : Nat) (s : State) : Host.Outcome State Fault Refusal :=
  -- R421: dropped while the fabric port is isolated
  .next (if s.pins.isolated then s else s.doorbellTail q value)

/-- DoorbellComplHead: R258. -/
def execDoorbellComplHead (q value : Nat) (s : State) : Host.Outcome State Fault Refusal :=
  -- R421: dropped while the fabric port is isolated
  .next (if s.pins.isolated then s else s.doorbellHead q value)

end Sys2Proof.Machine
end

