-- ==== Sys2Proof/Machine/Observe.lean ====
section
/-! DEFINITION. Machine/Observe.lean: counter freezes, Daybook syncs, breakpoints and halted tasks (R399–R402,
R412–R415). -/
namespace Sys2Proof.Machine
namespace State

/-! ### Freezing counters (R399, R400) -/

/-- A freeze at reel time T: ignored and counted while one is taken or under way. -/
def orderFreeze (s : State) (t : Nat) : State :=
  if s.obs.frozen || s.obs.due.isSome then
    let first := s.obs.frozen && s.obs.missed.all fun m => m.1 != s.clk
    { s with obs := { s.obs with missed := if first then some (s.clk, t) else s.obs.missed } }.bump 0x2E00 0x05 1
  else { s with obs := { s.obs with due := some (t, s.pins.dies) } }

/-- A thaw: reads return to live values. A freeze of the same clk, ignored before it, takes place after it. -/
def thaw (s : State) : State :=
  if !s.obs.frozen then s
  else
    let s1 := { s with obs := { s.obs with
      frozen := false, snapshot := [], snapshotTasks := [], missed := none } }.dayEvent s.noticeDie 0 0 0 9 0
    match s.obs.missed with
    | none => s1
    | some (clk, t) =>
      if clk != s.clk then s1
      else { s1.setReg 0x2E00 0x05 (s1.reg 0x2E00 0x05 0 - 1) with obs := { s1.obs with due := some (t, s1.pins.dies) } }

/-- A die copies its counters once its reel time is at least T. The model takes the snapshot when the last die copies
(log entry 68). -/
def freezeOn (s : State) (die dt : Nat) : State :=
  let s1 := s.elapse dt
  match s1.obs.due with
  | none => s
  | some (t, mask) =>
    if !bit mask die || s1.reel die < t then s
    else
      let rest := mask - 2 ^ die
      if rest != 0 then { s1 with obs := { s1.obs with due := some (t, rest) } }
      else
        { s1 with obs := { s1.obs with
            due := none, frozen := true, freezeTime := t, snapshot := s1.snapshotAll, snapshotTasks := s1.obs.tasks } }.dayEvent
          s1.noticeDie 0 0 0 9 t

/-! ### Daybook sync (R402) -/

def daySync (s : State) (die : Nat) : State :=
  let s1 := s.dayEvent die 0 0 0 1 (s.reel die)
  s1.setDaybook die { s1.daybook die with lastSync := s.reel die }

/-- A sync every 1 ms of reel time. -/
def syncDue (s : State) (die dt : Nat) : State :=
  let s1 := s.elapse dt
  if s1.eventFormed 1 && (s1.daybook die).lastSync + 1000000 ≤ s1.reel die then s1.daySync die else s

/-! ### Breakpoints (R412–R415) -/

def breakpointMalformed (w : Nat) : Bool := bits w 21 20 == 3 || bits w 31 22 != 0 || bits w 127 84 != 0

/-- Commands held by no breakpoint any more go on. -/
def resumeHeld (s : State) : State := s.resumeThose fun c => c.wait == .parked

/-- R412: a record is written. -/
def setBreakpoint (s : State) (b w : Nat) : State :=
  { s with obs := { s.obs with breakpoints := Table.put b w s.obs.breakpoints } }.resumeHeld

/-- R415: a halt record takes the next of 16 places. -/
def putHalt (s : State) (h : HaltRecord) : State :=
  if s.obs.halts.length < 16 then { s with obs := { s.obs with halts := s.obs.halts ++ [h] } }
  else { s with obs := { s.obs with halts := s.obs.halts.set s.obs.haltNext h, haltNext := (s.obs.haltNext + 1) % 16 } }

/-- R414: a hit halts the PASID; a further hit of a halted task leaves only its record. -/
def haltTask (s0 : State) (die : Nat) (h : HaltRecord) : State :=
  let past := s0.obs.hits.filter fun x => x.1 == s0.clk
  let before := match past.find? fun x => x.2.1 == h.pasid with
    | some x => x.2.2
    | none => s0.obs.halted.contains h.pasid
  let s : State := { s0 with obs := { s0.obs with hits := past ++ [(s0.clk, h.pasid, before)] } }
  let s1 := s.putHalt h
  if s.obs.halted.contains h.pasid then s1
  else
    let one (e : Nat × Queue) : Nat × Queue := if e.2.pasid = h.pasid then (e.1, { e.2 with halted := true }) else e
    { s1 with queues := s1.queues.map one, obs := { s1.obs with halted := s1.obs.halted ++ [h.pasid] } }.dayEvent die 0 0 0 10
      (h.pasid + 2 ^ 20 * h.breakpoint)

/-- R413: a hit of breakpoint b. -/
def hit (s : State) (b loc offset : Nat) (image : List Byte) (cmd : Option (Nat × Nat)) : State :=
  let w := (Table.find? b s.obs.breakpoints).getD 0
  let pasid := bits w 19 0
  let record (loc off : Nat) (im : List Byte) (die : Nat) : HaltRecord :=
    { pasid := pasid, breakpoint := b, loc := loc, time := s.reel die, offset := off, image := im }
  if !bit s.fw.scopes 3 then s
  else match bits w 21 20, cmd with
    | 1, _ =>
      if bits w 63 32 = offset ∧ (s.queues.any fun e => e.2.pasid == pasid) ∧ locKind loc = 2 then
        s.haltTask (locDie loc) (record loc offset (slice image 0 512) (locDie loc))
      else s
    | 2, some (q, i) => (match s.cmd? q i with
      | none => s
      | some c =>
        if c.pasid = pasid ∧ bits w 83 64 = q ∧ bits w 63 32 = c.recs.tag ∧ !c.begun ∧ !c.hit ∧ c.wait = .parked then
          (s.setCmd { c with hit := true }).haltTask c.die (record 0 0 [] c.die)
        else s)
    | _, _ => s

/-- R414: a halted task continues. -/
def resumeTask (s : State) (pasid : Nat) : State :=
  let one (e : Nat × Queue) : Nat × Queue := if e.2.pasid = pasid then (e.1, { e.2 with halted := false }) else e
  { s with queues := s.queues.map one, obs := { s.obs with halted := s.obs.halted.filter (· != pasid) } }.goOn pasid

/-- R414: an order to resume. With a hit in the same clk the order comes first: the task ends halted. -/
def breakResume (s : State) (pasid : Nat) : State × Nat :=
  let hit := s.obs.hits.find? fun x => x.1 == s.clk && x.2.1 == pasid
  let was := hit.elim (s.obs.halted.contains pasid) fun x => x.2.2
  if !was then (s, ownerRefused 0x2E10) else if hit.isSome then (s, 0) else (s.resumeTask pasid, 0)

/-! ### Closing of scopes (R386, R411, R414) -/

/-- Scopes (mask) close: armed captures end with the dump scope; with the debug scope every breakpoint is
disabled and every halted task resumes. -/
def closeScopes (s : State) (mask : Nat) : State :=
  let was := s.fw.scopes
  let kept := ((List.range 8).filter fun n => bit was n && !bit mask n).map (2 ^ ·)
  let s1 : State := { s with fw := { s.fw with scopes := kept.sum, byChallenge := s.fw.byChallenge &&& kept.sum } }
  let s2 := if bit was 2 && bit mask 2 then s1.captureClosed else s1
  if bit was 3 && bit mask 3 then
    let off : Table Nat := s2.obs.breakpoints.map fun b => (b.1, b.2 - 2 ^ 20 * bits b.2 21 20)
    (s2.obs.halted.foldl resumeTask { s2 with obs := { s2.obs with breakpoints := off } }).resumeHeld
  else s2

end State

open State

/-- FreezeSnapshot: R399. -/
def execFreezeSnapshot (die dt : Nat) (s : State) : Host.Outcome State Fault Refusal := .next (s.freezeOn die dt)

/-- DaybookSync: R402. -/
def execDaybookSync (die dt : Nat) (s : State) : Host.Outcome State Fault Refusal := .next (s.syncDue die dt)

/-- BreakpointHit: R413, R414. -/
def execBreakpointHit (b loc offset : Nat) (image : List Byte) (cmd : Option (Nat × Nat)) (s : State) :
    Host.Outcome State Fault Refusal := .next (s.hit b loc offset image cmd)

end Sys2Proof.Machine
end

