-- ==== Sys2Proof/Machine/Bellman.lean ====
section
/-! DEFINITION. Machine/Bellman.lean: reel copies, cadence pulses, the schedule, releases, deadlines and epochs
(13_cadence.md). Events take effect in the order of R296: an event that is not the first of those due leaves
the state unchanged. Where the dies' copies could differ, the copy of the lowest die in service decides (log entry 69). -/
namespace Sys2Proof.Machine

/-- An event that is due: the reel time at which it came due, its place in R296, its entry with its contents, its frame. -/
structure DueEvent where
  time : Nat
  rank : Nat
  entry : Nat
  frame : Nat := 0
  word : Nat := 0
  /-- by contents that a write has replaced (R290) -/
  owed : Bool := false
  deriving DecidableEq, Repr

/-- R296: earlier in time, then in order of kind, then in ascending entry number. -/
def DueEvent.before (a b : DueEvent) : Bool :=
  a.time < b.time || (a.time == b.time && (a.rank < b.rank || (a.rank == b.rank && a.entry < b.entry)))

/-- Fields of a schedule entry (R289). -/
def entryKind (w : Nat) : Nat := bits w 2 0
def entryInput (w : Nat) : Nat := bits w 4 3
def entryPhase (w : Nat) : Nat := bits w 63 32

/-- Order of kinds at one reel time (R296). -/
def kindRank (kind : Nat) : Nat := match kind with
  | 5 => 0
  | 3 => 1
  | 4 => 2
  | 2 => 3
  | _ => 4

namespace State

/-! ### Reel time (R283) -/

def setReel (s : State) (die : Nat) (r : Reel) : State :=
  { s with bell := if die = 0 then { s.bell with reel0 := r } else { s.bell with reel1 := r } }

/-- R419: the time bus and the cadence inputs are acted on. -/
def hearsBus (s : State) : Bool := !(s.pins.coldHeld || s.pins.state == .unpowered || s.pins.state == .absent)

/-- A valid time bus: slew, step forward, or half rate. A correction at half rate is counted when it begins. -/
def timeBus (s0 : State) (die bus dt : Nat) : State :=
  let s := s0.elapse dt
  let r := s.reelOf die
  let d : Int := (bus : Int) - r.time
  if 64 < d then
    (s.setReel die { r with time := bus, state := 1, delta := 0, slew := 0, half := false, stepFrom := r.time, stepTo := bus }).bump
      0x2A00 0x04 1
  else if d < -64 then
    (s.setReel die { r with state := 1, delta := d, slew := if r.half then r.slew else 0, half := true }).bump
      0x2A00 0x04 (boolNat (!r.half))
  else
    let half := r.half && d < 0
    s.setReel die { r with state := 1, delta := d, half := half, slew := if half == r.half then r.slew else 0 }

/-- Holdover. The row says that the bus has been invalid for 100 µs (log entry 64). -/
def busLost (s0 : State) (die dt : Nat) : State :=
  let s := s0.elapse dt
  let r := s.reelOf die
  if r.state = 1 then (s.setReel die { r with state := 2, delta := 0, slew := 0, half := false }).bump 0x2A00 0x05 1 else s0

/-- The reel time that the schedule runs by. -/
def bellTime (s : State) : Nat := s.reel s.noticeDie

/-! ### Pulses (R285, R286) -/

/-- The rate that the dictionary holds. -/
def rateOf (s : State) (c : Nat) : Nat × Nat := (s.keptReg (0x2A10 + c) 0x01 50, s.keptReg (0x2A10 + c) 0x02 1)

/-- R286: the rate that a pulse taken now brings into force: one in the clk of a write takes the rate before it. -/
def rateTaken (s : State) (c : Nat) : Nat × Nat :=
  match (s.input c).oldRate with
  | some (k, r) => if k = s.clk then r else s.rateOf c
  | none => s.rateOf c

/-- R286: the rate is written now; `old` was the dictionary's rate before. -/
def noteRate (s : State) (c : Nat) (old : Nat × Nat) : State :=
  let x := s.input c
  if (x.oldRate.map Prod.fst) = some s.clk then s else s.setInput c { x with oldRate := some (s.clk, old) }

/-- Frame numbers of an input begin again or jump: what has been said of the frames that `pick` names is forgotten. -/
def forgetFrames (s : State) (c : Nat) (pick : Nat → Bool) : State :=
  let mine (e : Nat) : Bool := entryInput ((Table.find? e s.bell.schedule).getD 0) == c
  let queue (q : Nat × Queue) : Nat × Queue := (q.1, { q.2 with
    missed := q.2.missed.filter fun p => !(p.1 == c && pick p.2.1),
    timedJudged := q.2.timedJudged.filter fun d => !(d.input == c && pick d.frame) })
  { s with
    queues := s.queues.map queue,
    bell := { s.bell with fired := s.bell.fired.filter fun f => !(mine f.1 && pick f.2) } }

/-- R285: the expected time of the next pulse. -/
def expected (x : Input) : Nat := x.lastRx + (x.synth + 1) * 10 ^ 9 * x.den / x.n

/-- A frame begins at reel time t; `received` tells a pulse from a synthetic one. -/
def beginFrame (s : State) (c t : Nat) (received : Bool) : State :=
  let x := s.input c
  let first := x.state = 1
  let frame := match x.next with
    | some f => f
    | none => if first then 0 else (x.frame + 1) % 2 ^ 64
  let (n, d) := s.rateTaken c
  let rebase := received || n != x.n || d != x.den
  let y : Input := { x with
    state := if received then 2 else 3, frame := frame, t := t, seen := s.bellTime, next := none,
    lastRx := if rebase then t else x.lastRx, synth := if rebase then 0 else x.synth + 1, n := n, den := d,
    prev := if first then none else some x.frame, times := Table.put frame (t, n, d) x.times }
  let s1 := s.setInput c y
  if x.next.isNone then s1 else s1.forgetFrames c (· == frame)

/-- Is a reel time at or past the end of the window of P/8 about the expected time? -/
def windowOver (x : Input) (now : Nat) : Bool := expected x ≤ now && 10 ^ 9 * x.den ≤ 8 * x.n * (now - expected x)

/-- R285: the window ends without a pulse: a synthetic one is inserted at the expected time. -/
def flywheel (s : State) (c : Nat) : State := (s.beginFrame c (expected (s.input c)) false).bump (0x2A10 + c) 0x07 1

/-- Every window that ended before now without a pulse inserts its synthetic one. A period is more than 2,000,000 ticks. -/
def flywheels (c : Nat) : Nat → State → State
  | 0, s => s
  | fuel + 1, s =>
    let x := s.input c
    if 10 ^ 9 * x.den < 8 * x.n * (s.bellTime - expected x) then flywheels c fuel (s.flywheel c) else s

def pulse (s0 : State) (c dt : Nat) : State :=
  let s := s0.elapse dt
  let x := s.input c
  if x.state = 0 then s
  else if x.state = 1 then s.beginFrame c s.bellTime true
  else
    let s1 := flywheels c ((s.bellTime - expected x) / 2000000 + 2) s
    let x1 := s1.input c
    if 10 ^ 9 * x1.den < 8 * x1.n * (expected x1 - s1.bellTime) then s1.bump (0x2A10 + c) 0x08 1
    else s1.beginFrame c s1.bellTime true

def windowEnd (s0 : State) (c dt : Nat) : State :=
  let s := s0.elapse dt
  let x := s.input c
  if 2 ≤ x.state ∧ windowOver x s.bellTime then s.flywheel c else s0

/-! ### What is due (R287, R291, R296) -/

/-- R296: when a point came due: with its pulse where that came later, and after a step over it. -/
def cameDue (s : State) (c t : Nat) : Nat :=
  let a := max t (s.input c).seen
  let r := s.reelOf s.noticeDie
  if r.stepFrom < a ∧ a ≤ r.stepTo then r.stepTo else a

/-- Frames of an input on which an entry may still fire. -/
def framesDue (s : State) (e w : Nat) : List Nat :=
  let x := s.input (entryInput w)
  let f := Table.find? e s.bell.fired
  let on (n : Nat) : Bool := n % (bits w 15 8 + 1) == bits w 23 16
  if x.state < 2 then []
  else
    ((match x.prev with
      | some p => if f != some p && f != some x.frame && on p then [p] else []
      | none => []) ++ (if f != some x.frame && on x.frame then [x.frame] else []))

/-- Releases, prefetch launches, snapshots and epoch ends of the schedule that are due. -/
def entriesDue (s : State) : List DueEvent :=
  if !s.cadence then []
  else (s.bell.schedule.map fun ew =>
    if entryKind ew.2 = 0 ∨ entryKind ew.2 = 3 then []
    else (s.framesDue ew.1 ew.2).filterMap fun f =>
      (s.pointReel (entryInput ew.2) f (entryPhase ew.2)).bind fun t =>
        if t ≤ s.bellTime then
          some { time := s.cameDue (entryInput ew.2) t, rank := kindRank (entryKind ew.2), entry := ew.1, frame := f,
                 word := ew.2 : DueEvent }
        else none).flatten

/-- R294: the deadline that a release's check judges: its entry and its point. -/
def releaseDue (s : State) (r : Release) : Option (Nat × Due) :=
  match r.fixed with
  | some x => some x
  | none => (s.checkOf r.entry).map fun x =>
    (x.1, { input := entryInput x.2, frame := (r.frame + bits x.2 87 80) % 2 ^ 64, phase := entryPhase x.2, check := some x.1 })

def dueAt (s : State) (d : Due) (rank entry frame : Nat) : List DueEvent :=
  match s.dueReel d with
  | some t => if t ≤ s.bellTime then [{ time := s.cameDue d.input t, rank := rank, entry := entry, frame := frame }] else []
  | none => []

/-- Deadlines that TIMED commands of a queue gave, that commands in flight carry and that have not been judged. -/
def timedDues (s : State) (q : Nat) : List Due :=
  let judged := ((s.queue? q).map Queue.timedJudged).getD []
  ((s.cmds.filter fun c => c.q == q).filterMap Cmd.deadline).eraseDups.filter fun d => d.check.isNone && !judged.contains d

/-- A deadline that a TIMED gave has no entry: it comes after the schedule's, in queue order (log entry 70). -/
def deadlinesDue (s : State) : List DueEvent :=
  if !s.cadence then []
  else
    (s.bell.releases.map fun r => match s.releaseDue r with
      | some (e, d) => s.dueAt d 1 e r.frame
      | none => []).flatten ++
    (s.queues.map fun q => ((s.timedDues q.1).map fun d => s.dueAt d 1 (4096 + q.1) 0).flatten).flatten

/-- R297: epochs close by entries in cadence mode where an enabled input has one, else by length. -/
def epochEntries (s : State) : Bool :=
  s.cadence && s.bell.schedule.any fun e => entryKind e.2 == 5 && (s.input (entryInput e.2)).state != 0

def epochDue (s : State) : List DueEvent :=
  let t := s.bell.epochOpened + s.keptReg 0x2A00 0x06 4000000
  if s.epochEntries || s.bellTime < t then []
  else
    let r := s.reelOf s.noticeDie
    [{ time := if r.stepFrom < t ∧ t ≤ r.stepTo then r.stepTo else t, rank := 0, entry := 0 }]

/-- R290: events that were due when their entries were written. -/
def owedDue (s : State) : List DueEvent :=
  if !s.cadence then []
  else s.bell.owed.map fun o =>
    { time := o.time, rank := kindRank (entryKind o.word), entry := o.entry, frame := o.frame, word := o.word, owed := true }

def eventsDue (s : State) : List DueEvent := s.epochDue ++ s.deadlinesDue ++ s.owedDue ++ s.entriesDue

/-- The first event due, where a test picks it. -/
def firstDue (s : State) (pick : DueEvent → Bool) : Option DueEvent :=
  let all := s.eventsDue
  all.find? fun x => pick x && !all.any fun y => y.before x

/-! ### Releases (R291, R292) -/

def markFired (s : State) (e frame : Nat) : State := { s with bell := { s.bell with fired := Table.put e frame s.bell.fired } }

/-- An entry's event takes effect: it does not again on that frame. -/
def spend (s : State) (x : DueEvent) : State :=
  if x.owed then
    { s with bell := { s.bell with
      owed := s.bell.owed.filter fun o => !(o.entry == x.entry && o.word == x.word && o.frame == x.frame) } }
  else s.markFired x.entry x.frame

/-- A release or prefetch launch of an entry, by contents `w`. -/
def fireRelease (s : State) (e w frame : Nat) (boost : Bool) : State :=
  let bound (q : Nat × Queue) : Bool := q.2.cadenceBound && q.2.slot == e
  let go := s.queues.filter fun q => bound q && !q.2.released
  let overruns := (s.queues.filter fun q => bound q && q.2.released).length
  let one (q : Nat × Queue) : Nat × Queue :=
    if bound q && !q.2.released then (q.1, { q.2 with released := true, releaseFrame := some (frame, e), boosted := boost }) else q
  let r : Release := { entry := e, input := entryInput w, frame := frame, queues := go.map Prod.fst }
  { s with queues := s.queues.map one, bell := { s.bell with releases := s.bell.releases ++ [r] } }.bump 0x2A00 0x0C overruns

def releaseEntry (s0 : State) (e dt kind : Nat) : State :=
  let s := s0.elapse dt
  match s.firstDue fun x => x.rank == kindRank kind && x.entry == e with
  | none => s0
  | some x => (s.spend x).fireRelease e x.word x.frame (kind == 2)

/-- R291: a counter snapshot pulls the freeze trigger at the event's reel time. -/
def snapshotEntry (s0 : State) (e dt : Nat) : State :=
  let s := s0.elapse dt
  match s.firstDue fun x => x.rank == 2 && x.entry == e with
  | none => s0
  | some x => (s.spend x).orderFreeze ((s.pointReel (entryInput x.word) x.frame (entryPhase x.word)).getD x.time)

/-! ### Deadlines (R294, R295) -/

/-- R294, R236: the engine's transfers for a command carry its deadline; they are late where its work is not done. -/
def transfersLate (c : Cmd) : Bool :=
  (c.recs.cls ≤ 5 || c.recs.isConvert || c.recs.cls == 7 || c.recs.cls == 8) && openCmd c

/-- The deadline-miss event of each queue of a list, for the deadline `d`; the commands that carry it are late. -/
def missQueues (s : State) (qs : List Nat) (d : Due) (carries : Cmd → Bool) : State :=
  let t := (s.dueReel d).getD s.bellTime
  let mark (c : Cmd) : Cmd := if carries c && c.missedAt.isNone then { c with missedAt := some (s.lateFrom c.die t) } else c
  let s1 : State := { s with cmds := s.cmds.map mark }
  qs.eraseDups.foldl (fun s q => match s.queue? q with
    | some k => s.missDeadline q (some d.point) t (k.region / 8) (s.cmds.any fun c => c.q == q && carries c && transfersLate c)
    | none => s) s1

/-- A deadline check judges the oldest release whose deadline is due: commands that carry it and have not completed,
and released queues that have not issued their TIMED. -/
def judgeRelease (s : State) (r : Release) (d : Due) : State :=
  let carries (c : Cmd) : Bool := c.deadline == some d
  let s1 := s.missQueues (((s.cmds.filter carries).map Cmd.q) ++ r.queues) d carries
  { s1 with bell := { s1.bell with releases := s1.bell.releases.erase r } }

def judgeTimed (s : State) (q : Nat) (d : Due) : State :=
  (s.missQueues [q] d fun c => c.q == q && c.deadline == some d).onQueue q fun k => { k with timedJudged := k.timedJudged ++ [d] }

def checkDeadline (s0 : State) (e : Option Nat) (q dt : Nat) : State :=
  let s := s0.elapse dt
  match e with
  | some n => (match s.firstDue fun x => x.rank == 1 && x.entry == n with
    | none => s0
    | some x =>
      match s.bell.releases.find? fun r => r.frame == x.frame && ((s.releaseDue r).map Prod.fst) == some n with
      | none => s0
      | some r => match s.releaseDue r with
        | some (_, d) => s.judgeRelease r d
        | none => s0)
  | none => (match s.firstDue fun x => x.rank == 1 && x.entry == 4096 + q with
    | none => s0
    | some x => match (s.timedDues q).find? fun d => s.dueAt d 1 (4096 + q) 0 == [x] with
      | some d => s.judgeTimed q d
      | none => s0)

/-- R236: the deadline of a transfer descriptor falls due before it has landed. -/
def transferDue (s0 : State) (q i d dt : Nat) : State :=
  let s := s0.elapse dt
  match s.cmd? q i with
  | none => s0
  | some c => match c.transfer with
    | none => s0
    | some t => match t.slots.find? fun x => x.d == d && x.missed.isNone with
      | none => s0
      | some x => match s.slotDeadline (Xfer.ofBytes x.bytes) with
        | none => s0
        | some dl =>
          let onTime := match x.landed with
            | some at_ => at_ ≤ dl
            | none => false
          if s.reel c.die < dl || onTime then s0
          else
            let (s1, c1, t1) := s.missSlot c t x dl
            s1.setCmd { c1 with transfer := some t1 }

/-! ### Epochs (R297, R298, R372) -/

/-- R298: detection is degraded now: the open epoch, and closed ones whose 16 ms have not passed, are marked. -/
def noteDegraded (s : State) : State :=
  if !s.detectDegraded then s
  else
    let one (e : ClosedEpoch) : ClosedEpoch := if s.bellTime ≤ e.closed + 16000000 then { e with degraded := true } else e
    { s with bell := { s.bell with epochDegraded := true, closed := s.bell.closed.map one } }

def closeEpoch (s : State) (t : Nat) : State :=
  let e : ClosedEpoch := { n := s.bell.epoch, opened := s.bell.epochOpened, closed := t, degraded := s.bell.epochDegraded || s.detectDegraded }
  { s with bell := { s.bell with
      epoch := s.bell.epoch + 1, epochOpened := t, epochDegraded := s.detectDegraded, closed := s.bell.closed ++ [e] } }

def endEpoch (s0 : State) (e : Option Nat) (dt : Nat) : State :=
  let s := s0.elapse dt
  match e with
  | none =>
    if s.epochEntries then s0
    else (match s.firstDue fun x => x.rank == 0 && !x.owed with
      | some x => s.closeEpoch x.time
      | none => s0)
  | some n => (match s.firstDue fun x => x.rank == 0 && x.entry == n with
    | some x => if x.owed || s.epochEntries then (s.spend x).closeEpoch x.time else s0
    | none => s0)

/-- R372: does a fault touch the epoch? -/
def touches (s : State) (n : Nat) : Bool :=
  (s.bell.work.filter fun w => w.epoch == n).any fun w => s.integ.faults.any fun f =>
    f.exposed ≤ w.time && w.units.any fun u => locHolds (bareLoc f.loc) u || locHolds u (bareLoc f.loc)

/-- `EPOCH_OUTCOMES`: the last 64 decided epochs. -/
def putOutcome (b : Bellman) (n : Nat) (ok : Bool) : Bellman :=
  let base := if b.outcomeCount < 64 then (if b.outcomeCount = 0 then n else b.outcomeBase) else b.outcomeBase + 1
  let map := if b.outcomeCount < 64 then b.outcomeMap else b.outcomeMap / 2
  { b with outcomeBase := base, outcomeMap := map + 2 ^ (n - base) * boolNat ok, outcomeCount := min 64 (b.outcomeCount + 1) }

/-- The oldest closed epoch is decided, I after its close. -/
def decideEpoch (s0 : State) (dt : Nat) : State :=
  let s := s0.elapse dt
  match s.bell.closed with
  | [] => s0
  | e :: rest =>
    if s.bellTime < e.closed + (if e.degraded then 20000000 else 16000000) then s0
    else
      let ok := !s.touches e.n
      let b := putOutcome s.bell e.n ok
      { s with bell := { b with
          closed := rest, confirmed := if ok then some e.n else b.confirmed, denied := if ok then b.denied else some e.n,
          work := b.work.filter fun w => e.n < w.epoch } }.dayEvent s.noticeDie 0 0 0 7 (e.n % 2 ^ 63 + 2 ^ 63 * boolNat ok)

/-! ### Orders of the dictionary (R285, R290, R299) -/

/-- Pending deadlines of an input, or of all, are abandoned: those that meet `counts` are counted. -/
def abandon (s : State) (pick : Due → Bool) (counts : Due → Bool) : State :=
  let rel := s.bell.releases.filter fun r => match s.releaseDue r with
    | some (_, d) => pick d
    | none => false
  let timed := (s.queues.map fun q => ((s.timedDues q.1) ++ (match q.2.timedDeadline with
    | some d => if q.2.timedJudged.contains d then [] else [d]
    | none => [])).eraseDups.filter pick).flatten
  let n := (rel.filter fun r => match s.releaseDue r with
    | some (_, d) => counts d
    | none => false).length + (timed.filter counts).length
  let gone (d : Option Due) : Option Due := d.bind fun x => if pick x then none else some x
  let cmd (c : Cmd) : Cmd := { c with deadline := gone c.deadline }
  let queue (q : Nat × Queue) : Nat × Queue := (q.1, { q.2 with timedDeadline := gone q.2.timedDeadline })
  { s with
    cmds := s.cmds.map cmd, queues := s.queues.map queue,
    bell := { s.bell with releases := s.bell.releases.filter fun r => !rel.contains r } }.bump 0x2A00 0x0D n

/-- An entry takes part from its next event: its points before reel time `from_` do not fire. -/
def armEntry (s : State) (e from_ : Nat) : State :=
  let w := s.schedule? e
  let x := s.input (entryInput w)
  let passed (f : Nat) : Bool := (s.pointReel (entryInput w) f (entryPhase w)).any fun t => t < from_
  let drop : State := { s with bell := { s.bell with fired := Table.drop e s.bell.fired } }
  if x.state < 2 then drop
  else if passed x.frame then s.markFired e x.frame
  else match x.prev with
    | some p => if passed p then s.markFired e p else drop
    | none => drop

/-- R290. -/
def scheduleBad (s : State) (e w : Nat) : Bool :=
  let k := entryKind w
  let t := s.schedule? (bits w 75 64)
  bits w 7 5 != 0 || bits w 31 24 != 0 || bits w 79 76 != 0 || bits w 127 88 != 0 || 5 < k || bits w 15 8 < bits w 23 16 ||
    (k == 3 && (bits w 15 8 != 0 || bits w 23 16 != 0 || !(entryKind t == 1 || entryKind t == 2) || entryInput t != entryInput w ||
      bits w 75 64 == e ||
      (s.bell.schedule.any fun x => x.1 != e && entryKind x.2 == 3 && bits x.2 75 64 == bits w 75 64) ||
      (bits w 87 80 == 0 && entryPhase w ≤ entryPhase t)))

/-- R290: what the old contents of an entry have due now is owed: its events, and the judging of its releases. -/
def oweEntry (s : State) (e : Nat) : State :=
  let mine (x : DueEvent) : Bool := x.entry == e && !x.owed
  let owe (x : DueEvent) : Owed := { entry := e, word := x.word, frame := x.frame, time := x.time }
  let due (d : Due) : Bool := s.cadence && (s.dueReel d).any fun t => t ≤ s.bellTime
  let fix (r : Release) : Release := match s.releaseDue r with
    | some (n, d) => if n == e && due d then { r with fixed := some (n, d) } else r
    | none => r
  { s with bell := { s.bell with
      owed := s.bell.owed ++ (s.entriesDue.filter mine).map owe, releases := s.bell.releases.map fix } }

/-- R290: a deadline that a command carries after the check that gave it has new contents `w` in place of `old`. One that
was due is owed; the others follow the check to its new point, and end where that has passed or the check judges other
releases. -/
def movedDue (s : State) (e old w : Nat) (d : Due) : Option Due :=
  let n : Due := { input := entryInput w, frame := (d.frame + 2 ^ 64 - bits old 87 80 + bits w 87 80) % 2 ^ 64, phase := entryPhase w, check := some e }
  if d.check != some e || s.bell.releases.any (fun r => r.fixed == some (e, d)) then some d
  else if entryKind w != 3 || bits w 75 64 != bits old 75 64 then none
  else if (s.dueReel n).any fun t => t ≤ s.bellTime then none
  else some n

/-- R289, R290: a write applies from the entry's next event. -/
def setSchedule (s0 : State) (e w : Nat) : State :=
  let s := s0.oweEntry e
  let old := s0.schedule? e
  let s1 : State := { s with bell := { s.bell with
    schedule := if w = 0 then Table.drop e s.bell.schedule else Table.put e w s.bell.schedule } }
  let cmd (c : Cmd) : Cmd := if c.missedAt.isSome then c else { c with deadline := c.deadline.bind (s.movedDue e old w) }
  -- releases whose point under the new contents has passed are not judged
  let passed (r : Release) : Bool := r.fixed.isNone && (match s1.releaseDue r with
    | some (n, d) => n == e && (s1.dueReel d).any fun t => t ≤ s1.bellTime
    | none => false)
  { s1 with
    cmds := s1.cmds.map cmd,
    bell := { s1.bell with releases := s1.bell.releases.filter fun r => !passed r } }.armEntry e (s1.bellTime + 1)

/-- R299: the mode changes. A TIMED that waits completes at once in free-run. -/
def changeMode (s : State) (cadence : Bool) : State :=
  let clear (q : Nat × Queue) : Nat × Queue :=
    if q.2.cadenceBound then (q.1, { q.2 with released := false, releaseFrame := none, boosted := false }) else q
  let s1 : State := { s with queues := s.queues.map clear }
  if cadence then (s1.bell.schedule.map Prod.fst).foldl (fun t e => t.armEntry e t.bellTime) s1
  else
    let s2 := s1.abandon (fun _ => true) (fun _ => true)
    let open_ (c : Cmd) : Cmd := if c.wait = .release then { c with wait := .done } else c
    { s2 with cmds := s2.cmds.map open_, bell := { s2.bell with releases := [], owed := [] } }

/-- R285, R295: an input is enabled or disabled. -/
def enableInput (s : State) (c : Nat) (on : Bool) : State :=
  let x := s.input c
  if on then
    (if x.state = 0 then (s.setInput c { x with state := 1, prev := none, times := [] }).forgetFrames c fun _ => true else s)
  else if x.state = 0 then s
  else
    let s1 := (s.abandon (fun d => d.input == c) (fun d => x.state < 2 || frameAhead x.frame d.frame)).setInput c { x with state := 0 }
    { s1 with bell := { s1.bell with owed := s1.bell.owed.filter fun o => entryInput o.word != c } }

end State

open State

/-- TimeBusUpdate: R283. -/
def execTimeBusUpdate (die bus dt : Nat) (s : State) : Host.Outcome State Fault Refusal := .next (if s.hearsBus then s.timeBus die bus dt else s)

/-- TimeBusLoss: R283. -/
def execTimeBusLoss (die dt : Nat) (s : State) : Host.Outcome State Fault Refusal := .next (if s.hearsBus then s.busLost die dt else s)

/-- CadencePulse: R285. -/
def execCadencePulse (c dt : Nat) (s : State) : Host.Outcome State Fault Refusal := .next (if s.pins.state == .ready then s.pulse c dt else s)

/-- PulseWindowEnd: R285. -/
def execPulseWindowEnd (c dt : Nat) (s : State) : Host.Outcome State Fault Refusal := .next (s.windowEnd c dt)

/-- ScheduleRelease: R291, R292. -/
def execScheduleRelease (e dt : Nat) (s : State) : Host.Outcome State Fault Refusal := .next (s.releaseEntry e dt 1)

/-- PrefetchLaunch: R291. -/
def execPrefetchLaunch (e dt : Nat) (s : State) : Host.Outcome State Fault Refusal := .next (s.releaseEntry e dt 2)

/-- DeadlineCheck: R294, R295. -/
def execDeadlineCheck (e : Option Nat) (q dt : Nat) (s : State) : Host.Outcome State Fault Refusal := .next (s.checkDeadline e q dt)

/-- TransferDeadlineDue: R236. -/
def execTransferDeadlineDue (q i d dt : Nat) (s : State) : Host.Outcome State Fault Refusal := .next (s.transferDue q i d dt)

/-- CounterSnapshot: R291, R399. -/
def execCounterSnapshot (e dt : Nat) (s : State) : Host.Outcome State Fault Refusal := .next (s.snapshotEntry e dt)

/-- EpochEnd: R297. -/
def execEpochEnd (e : Option Nat) (dt : Nat) (s : State) : Host.Outcome State Fault Refusal := .next (s.endEpoch e dt)

/-- EpochDecision: R298. -/
def execEpochDecision (dt : Nat) (s : State) : Host.Outcome State Fault Refusal := .next (s.decideEpoch dt)

end Sys2Proof.Machine
end

