-- ==== Sys2Proof/Machine/Bruora.lean ====
section
/-! DEFINITION. Machine/Bruora.lean: flits, ports and lanes, and the messages of windows (14_bruora_links.md). What the
target of a message does, and sending, stand in Window.lean. -/
namespace Sys2Proof.Machine
namespace State

/-! ### Ledger entries of lanes and ports (R310, R311, R323) -/

/-- Locator of a port, or of one of its lanes. -/
def portLoc (s : State) (p lane : Nat) : Nat := mkLoc true s.packageId (p / 8) 0 0x1F 10 (p % 8) lane

def portFault (s : State) (p lane code : Nat) : State := s.raiseFault code (s.portLoc p lane) (if lane = 0xFF then 0 else lane) none true

/-! ### Transfers and sends that a link holds up (R321) -/

/-- Does a slot move rows to or from a window of a package? -/
def slotTo (dst : Nat) (x : Slot) : Bool :=
  let y := Xfer.ofBytes x.bytes
  x.started && x.landed.isNone && !x.failed &&
    ((y.srcKind == 2 && refPackage y.src == dst) || (y.dstKind == 2 && refPackage y.dst == dst))

def mapSlots (c : Cmd) (f : Slot → Slot) : Cmd :=
  match c.transfer with
  | none => c
  | some t => { c with transfer := some { t with slots := t.slots.map f } }

/-- Commands that use a link to a package. -/
def linkUsers (s : State) (dst : Nat) : List Cmd :=
  s.cmds.filter fun c => c.wait == .link dst || (match c.transfer with
    | some t => c.wait == .transfer && t.slots.any (slotTo dst)
    | none => false)

/-- R321: a port that carries messages goes down: their destinations' transfers stop at their cursors. Answers and transit
messages that it had not sent whole wait for a route (log entry 72). -/
def stopPort (s : State) (p : Nat) : State :=
  let dsts := ((s.bruora.sent.filter fun m => m.port == p).map fun m => m.msg.dst).eraseDups
  let back := (s.port p).unsent.filterMap fun u => u.last.filter fun m => m.transit || 2 < m.kind
  let halt (x : Slot) : Slot := if dsts.any fun d => slotTo d x then { x with stopped := true } else x
  { s with
    cmds := s.cmds.map fun c => mapSlots c halt,
    bruora := { s.bruora with lost := (s.bruora.lost ++ dsts).eraseDups, held := s.bruora.held ++ back } }

/-! ### Ports going down (R308, R310) -/

/-- A port leaves states 3 and 4, for a state given. -/
def leaveUp (s : State) (p state : Nat) (retrain : Bool) : State :=
  let x := s.port p
  let s1 := if x.up then (s.stopPort p).bump 0x2B00 0x13 1 else s
  s1.setPort p { x.cleared with
    state := state, retrain := retrain, partner := if state = 0 ∨ state = 1 then none else x.partner,
    width := if state = 5 then 0 else x.width }

/-- R308: no light on any lane for 10 µs. -/
def darkPort (s : State) (p : Nat) : State :=
  if 16 ≤ p || (s.port p).state < 2 then s else s.leaveUp p 1 false

/-- R309: light begins the training of an enabled port. -/
def lightPort (s : State) (p : Nat) : State :=
  let x := s.port p
  if p < 16 ∧ (x.state = 1 ∨ x.state = 5) then s.setPort p { x with state := 2, retrain := false } else s

/-- `PORT_ENABLE` (R308). -/
def enablePort (s : State) (p : Nat) (on : Bool) : State :=
  let x := s.port p
  if on then (if x.state = 0 then s.setPort p { x with state := 1 } else s)
  else if x.state = 0 then s else s.leaveUp p 0 false

/-- R377: is a port enabled, by its fuse and by `PORT_ENABLE`, and in service (R15, R367)? -/
def portOn (s : State) (p : Nat) : Bool :=
  bit s.fuses.features p && s.keptReg (0x2B10 + p) 0x01 1 == 1 && !s.listed (s.portLoc p 0xFF) && !s.quarantinedAt (s.portLoc p 0xFF)

/-! ### Training (R309) -/

/-- Lanes of a mask, and a lane map over the lowest ones. -/
def laneMap (ok width : Nat) : List Nat := (setBits ok 18).take width

/-- R309, R311: lane count decides the width: 16, 8, or none. -/
def widthOf (ok : Nat) : Nat := if 16 ≤ (setBits ok 18).length then 16 else if 8 ≤ (setBits ok 18).length then 8 else 0

/-- R15: lanes (mask) of a port that a spare map lists: they never enter service. -/
def lanesListed (s : State) (p : Nat) : Nat := (((List.range 18).filter fun n => s.listed (s.portLoc p n)).map (2 ^ ·)).sum

/-- Lanes of a mask without those of another. -/
def withoutLanes (a b : Nat) : Nat := (((setBits a 18).filter fun n => !bit b n).map (2 ^ ·)).sum

/-- Training ends. A retraining with an unchanged partner keeps the lanes that were in service. -/
def endTraining (s : State) (p lanes package port incarnation : Nat) (ok : Bool) : State :=
  let x := s.port p
  if 16 ≤ p || x.state != 2 then s
  else
    let keep := x.retrain && x.partnerIncarnation == some incarnation
    let lanesOk := withoutLanes (if keep then x.lanesOk &&& lanes else lanes) (s.lanesListed p)
    let w := widthOf lanesOk
    let x1 : Port := { x with lanesOk := lanesOk, retrain := false, width := w, lanes := laneMap lanesOk w }
    if ok && package == s.packageId then (s.setPort p { x1 with state := 5, width := 0 }).portFault p 0xFF 0x2B21
    else if !ok || w == 0 then (s.setPort p { x1 with state := 5, width := 0 }).portFault p 0xFF 0x2B32
    else
      (s.setPort p { x1.cleared with
        state := if w = 16 then 3 else 4, partner := some (package, port),
        partnerIncarnation := some incarnation }).bump (0x2B10 + p) 0x07 1

/-! ### Lanes (R311) -/

/-- A lane leaves service: a spare takes its place, or the port narrows, or goes down. `entry` writes what the ledger
says of the lane. -/
def dropLaneWith (s : State) (p lane : Nat) (entry : State → State) : State :=
  let x := s.port p
  let ok := clearBit x.lanesOk lane
  let s1 (y : Port) : State := entry (s.setPort p { y with lanesOk := ok })
  if 16 ≤ p || 18 ≤ lane || !bit x.lanesOk lane then s
  else if !x.up || !x.lanes.contains lane then s1 x
  else match (setBits ok 18).find? fun l => !x.lanes.contains l with
    | some l => (s1 { x with lanes := x.lanes.map fun n => if n = lane then l else n }).bump 0x2B00 0x12 1
    | none =>
      if 8 ≤ (setBits ok 18).length ∧ x.width = 16 then s1 { x with state := 4, width := 8, lanes := laneMap ok 8 }
      else ((s1 x).leaveUp p 5 false).portFault p 0xFF 0x2B32

/-- R15: a lane that is retired. -/
def dropLane (s : State) (p lane : Nat) : State := s.dropLaneWith p lane id

/-- R311: a lane that is lost. -/
def loseLane (s : State) (p lane : Nat) : State :=
  if !(s.port p).up then s else s.dropLaneWith p lane fun t => t.portFault p lane 0x2B31

/-- `errors` symbol errors in 1 ms of a lane's 22,400,000 symbols (224 Gbit/s in symbols of 10 bits). -/
def laneErrors (s : State) (p lane errors : Nat) : State :=
  if s.keptReg 0x2B00 0x08 1000 * 22400000 < errors * 10 ^ 9 then s.loseLane p lane else s

/-! ### Flits (R304, R305) -/

/-- R303, R305, R307: a good flit in order: a link control flit acts on the port; any other stands in the receive buffer of
its channel until its credit is returned. One for which the buffer has no place breaks the credits and is dropped. -/
def acceptFlit (s : State) (p : Nat) (flit : List Byte) : State :=
  let x := s.port p
  let ch := field flit 0 1 / 4096 % 4
  let y : Port := { x with rx := (x.rx + 1) % 4096 }
  if ch = 3 then (s.setPort p (y.takeControl (slice flit 4 248))).pumpPort p
  else if Port.pick x.owed ch = 1024 then s
  else s.setPort p { y with owed := Port.onChannel x.owed ch (· + 1) }

/-- A flit arrives: a bad one is discarded and asked for again; a good one is taken in order. What the payload of a data,
response or management flit says reaches the model as the rows of its messages. -/
def takeFlit (s : State) (p : Nat) (flit : List Byte) (fecBad : Bool) (corrected uncorrectable : Nat) : State :=
  let x := s.port p
  if 16 ≤ p || !x.up then s
  else
    let t := (s.bump 0x2B00 0x0F corrected).bump 0x2B00 0x10 uncorrectable
    let crc := flit.length == 256 && crcBytes (flit.take 252) == field flit 252 255
    if fecBad || !crc then ((if fecBad then t else t.bump 0x2B00 0x0E 1).bump 0x2B00 0x11 1).send (.replay p x.rx)
    else if field flit 0 1 % 4096 = x.rx then t.acceptFlit p flit
    else t

/-- R305, R310: the partner asks for a replay. What stands before the requested flit has been accepted. -/
def replayFrom (s : State) (p seq : Nat) : State :=
  let x := s.port p
  if 16 ≤ p || !x.up || !x.kept.any fun f => f.1 == seq then s
  else
    let rest := x.kept.dropWhile fun f => f.1 != seq
    let again := if (x.kept.head?.map Prod.fst) = some seq then x.replays else 0
    if 8 ≤ again then s.leaveUp p 2 true
    else
      rest.foldl (fun s f => s.send (.flit p f.2)) (s.setPort p { x with kept := rest, replays := again + 1 })

/-! ### Messages for this package (R315, R318, R319) -/

/-- The port whose recorded partner is a package (R312). -/
def directPort (s : State) (dst : Nat) : Option Nat :=
  (List.range 16).find? fun p => (s.port p).up && ((s.port p).partner.map Prod.fst) == some dst

/-- The port that a message of a package arrives by: the one to it, or the lowest that is up (log entry 72). -/
def arrivalPort (s : State) (src : Nat) : Option Nat :=
  (s.directPort src).or ((List.range 16).find? fun p => (s.port p).up)

def noteArrival (s : State) (m : Message) : State :=
  match s.arrivalPort m.src with
  | some p => s.bump 0x2E30 (0x11 + 2 * p) m.bytes
  | none => s

/-- Is a message one that this package takes now? -/
def mine (s : State) (m : Message) (kind : Nat) : Bool := m.kind == kind && m.dst == s.packageId && m.src != s.packageId && s.pins.ready

/-- R319: a write message lands, or is answered with a NACK. -/
def remoteWrite (s0 : State) (m : Message) : State :=
  if !s0.mine m 1 then s0
  else
    let (code, _, s1) := (s0.noteArrival m).serveWindow m true
    s1.answer (s1.reply m (if code = 0 then 4 else 5) code [])

/-- R318: a read of a window; one that had been served is only acknowledged again. -/
def remoteRead (s0 : State) (m : Message) : State :=
  if !s0.mine m 2 then s0
  else
    let s := s0.noteArrival m
    if s.landedBefore m then s.answer (s.reply m 4 0 [])
    else
      let (code, data, s1) := s.serveWindow m false
      if code != 0 then s1.answer (s1.reply m 5 code [])
      else
        let s2 := s1.answer (s1.reply m 3 0 data)
        s2.answer (s2.reply m 4 0 [])

/-! ### Answers to messages sent -/

def sentBy (s : State) (m : Message) : Option Sent := s.bruora.sent.find? fun x => x.msg.dst == m.src && x.msg.seq == m.seq

/-- R312, R319: the message that a NACK fails. One of a transit package, 0x2B02, comes from the partner of the port that the
message left by (log entry 72). -/
def nackedBy (s : State) (m : Message) : Option Sent :=
  match s.sentBy m with
  | some x => some x
  | none => if m.offset % 65536 = 0x2B02 then s.bruora.sent.find? fun x =>
      x.msg.seq == m.seq && x.msg.window == m.window && ((s.port x.port).partner.map Prod.fst) == some m.src
    else none

def dropSent (s : State) (x : Sent) : State := { s with bruora := { s.bruora with sent := s.bruora.sent.filter (· != x) } }

/-- The command of a message goes on. -/
def afterAnswer (s : State) (q i : Nat) : State :=
  match s.cmd? q i with
  | none => s
  | some c => match c.wait with
    | .transfer => s.advanceMove c
    | .link _ => if s.mayRun c then s.sendOn c else s
    | _ => s

/-- Answers and transit messages to a package that wait for their route try again. -/
def sendHeld (s : State) (dst : Nat) : State :=
  let mine := s.bruora.held.filter fun m => m.dst == dst
  let s1 : State := { s with bruora := { s.bruora with held := s.bruora.held.filter fun m => m.dst != dst } }
  mine.foldl (fun s m =>
    if m.transit then match s.directPort dst with
      | some p => s.emit p m
      | none => { s with bruora := { s.bruora with held := s.bruora.held ++ [m] } }
    else s.answer m) s1

/-- Transfers, sends and answers that wait for their route (R313) try again. -/
def retryRoutes (s0 : State) (dst : Nat) : State :=
  if s0.bruora.lost.contains dst then s0
  else
    let s := s0.sendHeld dst
    ((s.linkUsers dst).map fun c => (c.q, c.i)).foldl (fun s k => match s.cmd? k.1 k.2 with
    | some c => if s.mayRun c then (if c.transfer.isSome then s.advanceMove c else if c.sends.isEmpty then s else s.sendOn c) else s
    | none => s) s

/-- R238: rows of a descriptor that a message carried. -/
def rowsOf (c : Cmd) (d seq : Nat) : Nat :=
  match c.transfer with
  | none => 0
  | some t => (((t.slots.filter fun y => y.d == d).map Slot.unacked).flatten.map fun e => if e.1 = seq then e.2.2 - e.2.1 else 0).sum

/-- R315: an acknowledgement releases its message from resend. -/
def acknowledged (s : State) (m : Message) : State :=
  if !s.mine m 4 then s
  else match s.sentBy m with
    | none => s
    | some x =>
      let s1 := s.dropSent x
      let land (y : Slot) : Slot :=
        if y.d != x.d then y
        else
          let u := y.unacked.filter fun e => e.1 != m.seq
          { y with unacked := u, cursor := if y.unacked.isEmpty then y.cursor else cursorOf { y with unacked := u } y.formed }
      let s2 := match s1.cmd? x.q x.i with
        | some c => ((s1.bump 0x2700 0x06 (rowsOf c x.d m.seq)).setCmd (mapSlots c land)).afterAnswer x.q x.i
        | none => s1
      s2.retryRoutes m.src

/-- R314: data of a read arrives. -/
def readData (s0 : State) (m : Message) : State :=
  if !s0.mine m 3 then s0
  else
    let s := s0.noteArrival m
    match s.sentBy m with
    | none => s
    | some x =>
      let data := (m.segs.map Prod.snd).flatten
      let take (y : Slot) : Slot :=
        match y.reads.find? fun r => y.d == x.d && r.1 == m.seq with
        | some r => { y with reads := y.reads.filter (fun e => e.1 != m.seq), got := y.got ++ [(r.2, data)] }
        | none => y
      match s.cmd? x.q x.i with
      | some c => (s.setCmd (mapSlots c take)).afterAnswer x.q x.i
      | none => s

/-- A MOVE or a chained command fails by its link or its window: R319, R321. -/
def failLink (s : State) (c : Cmd) (which : Slot → Bool) (code : Nat) : State :=
  match c.transfer with
  | none => s.failCmd { c with sends := [] } code 0
  | some t =>
    let t1 := (t.slots.filter which).foldl (fun t y => failAt (putSlot t { y with failed := true, unacked := [], reads := [] }) y.d code y.cursor) t
    s.transferEnd c t1

/-- R319: a NACK fails what sent the message. -/
def nacked (s : State) (m : Message) : State :=
  if !s.mine m 5 then s
  else match s.nackedBy m with
    | none => s
    | some x =>
      let s1 := s.dropSent x
      (match s1.cmd? x.q x.i with
      | some c => if openCmd c then s1.failLink c (fun y => y.d == x.d && !y.failed) (m.offset % 65536) else s1
      | none => s1).retryRoutes x.msg.dst

/-! ### Transit (R312) -/

def forward (s : State) (m : Message) : State :=
  if m.dst = s.packageId ∨ !s.pins.ready then s
  else
    let s1 := s.noteArrival m
    match s.directPort m.dst with
    | some p => if m.transit then s1.answer (s1.reply m 5 0x2B02 []) else s1.emit p { m with transit := true }
    | none => s1.answer (s1.reply m 5 0x2B02 [])

/-! ### Lost and recovered links (R321) -/

/-- The port by which a destination can be reached now. -/
def reachable (s : State) (dst : Nat) : Option Nat :=
  let ok (p : Nat) : Bool := p < 16 && (s.port p).up
  if ok (s.routeByte false dst) then some (s.routeByte false dst)
  else if ok (s.routeByte true dst) then some (s.routeByte true dst) else none

/-- The destination stays unreachable beyond `LINK_RECOVERY_TIMEOUT`. -/
def linkTimeout (s : State) (dst : Nat) : State :=
  if (s.reachable dst).isSome then s
  else
    let users := s.linkUsers dst
    let s1 : State := { s with bruora := { s.bruora with
      sent := s.bruora.sent.filter fun m => m.msg.dst != dst, lost := s.bruora.lost.filter (· != dst),
      held := s.bruora.held.filter fun m => m.dst != dst } }
    (users.map fun c => (c.q, c.i)).foldl (fun s k => match s.cmd? k.1 k.2 with
      | some c => if openCmd c then s.failLink c (slotTo dst) 0x2B06 else s
      | none => s) s1

/-- The destination can be reached again: unacknowledged messages are sent again, transfers resume. -/
def linkBack (s : State) (dst : Nat) : State :=
  match s.reachable dst with
  | none => s
  | some p =>
    if !s.bruora.lost.contains dst && (s.linkUsers dst).isEmpty && !s.bruora.held.any (fun m => m.dst == dst) then s
    else
      let again := s.bruora.sent.filter fun m => m.msg.dst == dst
      let s1 := if s.bruora.lost.contains dst then again.foldl (fun s m => s.emit p m.msg) s else s
      let move (m : Sent) : Sent := if m.msg.dst == dst && s.bruora.lost.contains dst then { m with port := p } else m
      let s2 : State := { s1 with bruora := { s1.bruora with
        sent := s1.bruora.sent.map move, lost := s1.bruora.lost.filter (· != dst) } }
      (s2.sendHeld dst).resumeThose fun c => (s.linkUsers dst).any fun u => u.q == c.q && u.i == c.i

end State

open State

/-- FlitReceived: R303–R305, R307. -/
def execFlitReceived (p : Nat) (flit : List Byte) (fec : Fec) (s : State) : Host.Outcome State Fault Refusal :=
  .next (s.takeFlit p flit fec.bad fec.corrected fec.uncorrectable)

/-- ReplayRequest: R305, R310. -/
def execReplayRequest (p seq : Nat) (s : State) : Host.Outcome State Fault Refusal := .next (s.replayFrom p seq)

/-- LightDetected: R309. -/
def execLightDetected (p : Nat) (s : State) : Host.Outcome State Fault Refusal := .next (if s.pins.state == .ready || s.pins.state == .booting then s.lightPort p else s)

/-- LaneLoss: R311. -/
def execLaneLoss (p lane : Nat) (s : State) : Host.Outcome State Fault Refusal := .next (s.loseLane p lane)

/-- LaneErrorRateCheck: R311. -/
def execLaneErrorRateCheck (p lane errors : Nat) (s : State) : Host.Outcome State Fault Refusal := .next (s.laneErrors p lane errors)

/-- RemoteWrite: R315, R318, R319. -/
def execRemoteWrite (m : Message) (s : State) : Host.Outcome State Fault Refusal := .next (s.remoteWrite m)

/-- RemoteReadRequest: R315, R318, R319. -/
def execRemoteReadRequest (m : Message) (s : State) : Host.Outcome State Fault Refusal := .next (s.remoteRead m)

/-- ReadData: R314. -/
def execReadData (m : Message) (s : State) : Host.Outcome State Fault Refusal := .next (s.readData m)

/-- Acknowledge: R315. -/
def execAcknowledge (m : Message) (s : State) : Host.Outcome State Fault Refusal := .next (s.acknowledged m)

/-- Nack: R319. -/
def execNack (m : Message) (s : State) : Host.Outcome State Fault Refusal := .next (s.nacked m)

/-- TransitForward: R312. -/
def execTransitForward (m : Message) (s : State) : Host.Outcome State Fault Refusal := .next (s.forward m)

/-- LinkRecoveryTimeout: R321. The row says that the timeout has passed (log entry 64). -/
def execLinkRecoveryTimeout (dst : Nat) (s : State) : Host.Outcome State Fault Refusal := .next (s.linkTimeout dst)

/-- LinkRecovered: R321. -/
def execLinkRecovered (dst : Nat) (s : State) : Host.Outcome State Fault Refusal := .next (s.linkBack dst)

end Sys2Proof.Machine
end

