-- ==== Sys2Proof/Machine/Kept.lean ====
section
/-! DEFINITION. Machine/Kept.lean: the write counters of kept entries and their wear (R340–R343, R439). -/
namespace Sys2Proof.Machine
namespace State

/-- R439: a notice about kept storage on both ledgers; `k` is index × 256 + subindex. -/
def keptNotice (s : State) (code k : Nat) : State :=
  [0, 1].foldl (fun s die => s.notice die code (mkLoc true s.packageId die 0 0x1F 0xB 0 0xFF) k) s

/-- R342, R351, R402: an entry is warned about (1) or worn (2). -/
def setWear (s : State) (k state : Nat) : State :=
  { s with dict := { s.dict with wearList := if s.dict.wearList.contains k then s.dict.wearList else s.dict.wearList ++ [k] } }.dayEvent
    s.noticeDie 0 0 0 8 (k / 256 % 65536 + 2 ^ 16 * (k % 256) + 2 ^ 24 * state)

/-- The warning event of R342. -/
def warnWear (s : State) (k : Nat) : State := ((s.notify 3 k).interrupt (s.reg 0x1010 0x04 0xFFFF)).setWear k 1

/-- R342: an entry is worn once its counter has reached 200,000. -/
def keptWorn (s : State) (k : Nat) : Bool := match Table.find? k s.dict.kept with
  | some e => e.wear == 2
  | none => false

/-- R341, R439: an entry 0x1012 on the ledger of each die whose copy failed to commit. -/
def commitNotices (s : State) (k dies : Nat) : State :=
  [0, 1].foldl (fun s die =>
    if bit dies die then s.notice die 0x1012 (mkLoc true s.packageId die 0 0x1F 0xB 0 0xFF) k else s) s

/-- R341: the dies (mask) whose copy of an entry no longer commits. -/
def stuckCopies (s : State) (k : Nat) : Nat := (Table.find? k s.dict.stuck).getD 0 % 4

/-- R340, R342: an entry after one more counted write of a value. -/
def countedWrite (e : Kept) (value : Nat) : Kept :=
  { e with
    value := value, writes := e.writes + 1,
    wear := if e.writes + 1 = 200000 then 2 else if e.writes + 1 = 180000 then 1 else e.wear }

/-- R340–R342: a changed value is committed and counted once. One that a copy fails to commit leaves the entry on both
dies as it stood (R341); a worn entry keeps its value (R342). -/
def commitKept (s : State) (k value : Nat) : State :=
  if s.keptWorn k then s
  else if s.stuckCopies k != 0 then s.commitNotices k (s.stuckCopies k)
  else
    let e := countedWrite ((Table.find? k s.dict.kept).getD { value := value, writes := 0 }) value
    let s1 : State := { s with dict := { s.dict with kept := Table.put k e s.dict.kept } }
    if e.writes = 180000 then s1.warnWear k else if e.writes = 200000 then (s1.setWear k 2).keptNotice 0x1011 k else s1

/-- R340: an equal value is accepted, stored nowhere and not counted. -/
def writeKept (s : State) (index sub default value : Nat) : State :=
  if s.keptReg index sub default = value then s else s.commitKept (key index sub) value

/-- R340, R341: the dies (mask) whose copy would fail to commit a write of an entry: none where the value is the stored one. -/
def commitFails (s : State) (index sub default value : Nat) : Nat :=
  if s.keptReg index sub default = value then 0 else s.stuckCopies (key index sub)

/-- R341: a power loss cuts a commit: each copy holds the old value or the new one, as the mask of the dies that have
committed says. The write was accepted, and counts once. -/
def cutKept (s : State) (index sub default value committed : Nat) : State :=
  let k := key index sub
  if s.keptReg index sub default = value ∨ committed % 4 = 0 ∨ s.stuckCopies k != 0 then s
  else
    let e := countedWrite ((Table.find? k s.dict.kept).getD { value := default, writes := 0 }) value
    let e1 : Kept := if committed % 4 = 3 then e else { e with value := s.keptReg index sub default, later := some value }
    let worn := e.wear != 0 && !s.dict.wearList.contains k
    { s with dict := { s.dict with
        kept := Table.put k e1 s.dict.kept, wearList := if worn then s.dict.wearList ++ [k] else s.dict.wearList } }

/-- R341, R432: where the copies differ, the one written later is taken and written to the other, without being counted. -/
def reconcileKept (s : State) : State :=
  { s with dict := { s.dict with
      kept := s.dict.kept.map fun e => (e.1, { e.2 with value := e.2.later.getD e.2.value, later := none }) } }

end State
end Sys2Proof.Machine
end

