-- ==== Sys2Proof/Machine/Units.lean ====
section
/-! DEFINITION. Machine/Units.lean: retirement, return, quarantine, rotation, self-test, probation and moves of units
(R10–R15, R18, R356–R360, R367). An event that can not arise in a state leaves it unchanged (log entry 7). -/
namespace Sys2Proof.Machine
namespace State

/-! ### Locators that software supplies -/

/-- The locator with this package's identity. -/
def fullLoc (s : State) (l : Nat) : Nat := bareLoc l + 2 ^ 25 * (s.packageId % 64)

/-- R10, R15: a malformed locator, a logical one, or one of another package (log entry 80). -/
def unitLocBad (s : State) (l : Nat) : Bool := !locOk l || !locPhys l || locPackage l != s.packageId

/-! ### Which units there are -/

/-- The units of a physical cluster that no record names themselves. -/
def unitsWithin (s : State) (r c : Nat) : List Nat :=
  ((List.range 5).map (fun i => unitLoc r c 1 i 0xFF) ++ (List.range 3).map (fun i => unitLoc r c 2 i 0xFF) ++
    [unitLoc r c 3 0 0xFF, unitLoc r c 4 0 0xFF]).filter fun l => !s.listedLocs.any (samePlace l)

/-- The units that a locator names: itself, or every unit of a container (R367). -/
def unitsNamed (s : State) (l : Nat) : List Nat :=
  let region (r : Nat) : List Nat :=
    [5, 6, 7].map (fun k => unitLoc r 0x1E k 0 0xFF) ++ ((List.range 18).map (s.unitsWithin r)).flatten
  if locKind l != 0 then [bareLoc l]
  else if locCluster l = 0x1F then ((List.range 8).map fun g => region (8 * locDie l + g)).flatten
  else if locCluster l = 0x1E then region (locRegion16 l)
  else s.unitsWithin (locRegion16 l) (locCluster l)

/-- One bank of a Loft. -/
def isBank (l : Nat) : Bool := locKind l == 4 && locSub l != 0xFF

/-- Does a unit or container hold a logical slot? -/
def holdsSlot (s : State) (l : Nat) : Bool := (locCluster l != 0x1F || locKind l == 0) && s.logicalOf l != 0xFFFFFFFF

/-- R13: no command that has begun works on the slot. -/
def atBoundary (s : State) (l : Nat) : Bool :=
  !s.cmds.any fun c => c.begun && c.wait != .done && s.worksOn c.region c.clusters l

/-! ### Records -/

/-- R361, R368: a notice entry about a unit, with the slot that it holds. -/
def unitNotice (s : State) (code l : Nat) : State := (s.ledgerWrite (locDie l) (s.faultEntry code 0 (s.fullLoc l) false 0 0 0 none)).1

/-- The unit, part or container at a place is not testing or in probation any more. A part holds only itself. -/
def dropPhases (s : State) (l : Nat) : State :=
  let mine (u : Nat) : Bool := if locSub l = 0xFF then locHolds (bareLoc l) u else bareLoc l == u
  { s with integ := { s.integ with
      phases := s.integ.phases.filter fun p => !mine p.1, out := s.integ.out.filter fun u => !mine u } }

/-- R18: record a retirement in the field map. One that the map can not record is enforced all the same: with 0x2004
where it is full, with 0x1012 where a copy of it fails to commit (R341), without a code where it is worn (R342). -/
def recordRetired (s : State) (l : Nat) : State :=
  if s.listedLocs.any (samePlace l) then s
  else if s.stuckCopies (key 0x2000 0x12) != 0 then
    { s with integ := { s.integ with unrecorded := s.integ.unrecorded ++ [s.fullLoc l] } }.commitKept (key 0x2000 0x12) 0
  else if s.keptWorn (key 0x2000 0x12) then { s with integ := { s.integ with unrecorded := s.integ.unrecorded ++ [s.fullLoc l] } }
  else if s.integ.field.length < 1024 then
    ({ s with integ := { s.integ with field := s.integ.field ++ [s.fullLoc l] } }.commitKept (key 0x2000 0x12) 0).commitKept
      (key 0x2000 0x13) 0
  else { s with integ := { s.integ with unrecorded := s.integ.unrecorded ++ [s.fullLoc l] } }.unitNotice 0x2004 l

/-- R15: the records that a return clears. Where a copy of the field map fails to commit, what it lists stands (R341). -/
def clearRecords (s : State) (is : Nat → Bool) : State :=
  let f0 := s.integ.field.filter fun x => !is x
  let stuck := s.stuckCopies (key 0x2000 0x12) != 0
  let f := if stuck then s.integ.field else f0
  let s1 : State := { s with integ := { s.integ with
    field := f, unrecorded := s.integ.unrecorded.filter fun x => !is x, returning := s.integ.returning.filter fun x => !is x } }
  if f0.length = s.integ.field.length then s1
  else if stuck then s1.commitKept (key 0x2000 0x12) 0
  else (s1.commitKept (key 0x2000 0x12) 0).commitKept (key 0x2000 0x13) 0

/-- R13, R14: a logical cluster whose physical cluster is not serviceable is hosted in turn from its next command
boundary on. With a spare cluster left that lasts until its move, which is then the permanent change that R18 counts.
DESIGN CHOICE: a cluster or region that is retired because of its units is not recorded in `FIELD_SPARE_MAP` itself;
that it is retired follows from the units recorded there (log entry 156). -/
def dropLostClusters (s : State) : State :=
  (List.range 16).foldl (fun s r =>
    let m := s.mapOf r
    let ok := s.regionOk r
    let keep (e : Option Nat × Nat) : Option Nat := match e.1 with
      | none => none
      | some c => if (ok && s.clusterOk r c) || !s.slotFree r e.2 then some c else none
    let m1 := m.zipIdx.map keep
    if m1 = m then s
    else
      let s1 := s.setMap r m1
      if ok && (s.clustersOk r).any fun c => !m1.contains (some c) then s1
      else { s1 with integ := { s1.integ with remaps := s1.integ.remaps + 1 } }) s

/-- What follows a change of the units in service. -/
def afterUnits (s : State) : State := s.dropLostClusters.settleDomains.noteDegraded

/-! ### Parts (R14, R198, R311) -/

/-- R14, R198: serviceable banks that hold no slot take the empty ones, in ascending order. The rows of a bank go with
its slot, so that no row changes. -/
def fillBanks (s : State) (r c : Nat) : State :=
  let h := s.hostsOf r c
  let free := (s.banksOk r c).filter fun b =>
    let l := unitLoc r c 4 0 b
    !h.banks.contains (some b) && !s.quarantinedAt l && (s.phase? l).isNone
  let fill (a : List (Option Nat) × List Nat) (x : Option Nat) : List (Option Nat) × List Nat :=
    match x, a.2 with
    | none, b :: bs => (a.1 ++ [some b], bs)
    | x, bs => (a.1 ++ [x], bs)
  let banks := (h.banks.foldl fill ([], free)).1
  if banks = h.banks then s else s.setHosts r c { h with banks := banks }

/-- A Bruora port that leaves service goes dark; a lane that does is swapped out (R311). -/
def portOut (s : State) (l : Nat) : State :=
  let p := 8 * locDie l + locIndex l
  if locSub l != 0xFF then s.dropLane p (locSub l) else if (s.port p).state = 0 then s else s.leaveUp p 0 false

/-- What leaves with a part or a port, and what takes its place. -/
def partsOut (s : State) (l : Nat) : State :=
  match locKind l with
  | 4 => s.fillBanks (locRegion16 l) (locCluster l)
  | 10 => s.portOut l
  | _ => s

/-- What comes back with a part or a port. -/
def partsBack (s : State) (l : Nat) : State :=
  match locKind l with
  | 4 => s.fillBanks (locRegion16 l) (locCluster l)
  | 10 => if locSub l = 0xFF then s.enablePort (8 * locDie l + locIndex l) (s.portOn (8 * locDie l + locIndex l)) else s
  | _ => s

/-! ### Retirement and return (R14, R15) -/

/-- A unit leaves service for good. A Thresher's third column retires the Thresher (R14). -/
def retireNow (s : State) (l : Nat) : State :=
  let s1 := s.recordRetired l
  let column := locKind l = 1 && locSub l != 0xFF
  let out (s : State) (u : Nat) : State := ((s.vacate u).dropPhases u).partsOut u
  if !column then (out s1 l).afterUnits
  else if (s1.columnsOf l).length ≤ 2 then s1
  else (out (s1.recordRetired (containerAt 1 l)) (containerAt 1 l)).afterUnits

/-- R367: out of service by quarantine. -/
def quarantineNow (s : State) (l : Nat) : State :=
  let inTurn (s : State) (r : Nat) : State := (List.range 18).foldl (fun s c => s.hostInTurn r c) s
  let s1 :=
    if locCluster l = 0x1F then
      (if locKind l = 0 then (List.range 8).foldl (fun s g => inTurn s (8 * locDie l + g)) s
       else if locKind l = 10 then s.portOut l else s)
    else if locCluster l = 0x1E then inTurn s (locRegion16 l)
    else if locKind l = 1 || locKind l = 2 || (locKind l = 4 && locSub l != 0xFF) then s.vacate l
    else s.hostInTurn (locRegion16 l) (locCluster l)
  let s1b := if locKind l = 0 then (s.unitsNamed l).foldl vacate s1 else s1
  let s2 : State := { s1b with integ := { s1b.integ with
    quarantined := if s1.integ.quarantined.any (samePlace l) then s1.integ.quarantined else s1.integ.quarantined ++ [s.fullLoc l] } }
  (s2.dropPhases l).afterUnits

/-- A unit ordered out leaves at the next command boundary of its slot, or at once where it holds none. A bank's rows
move to the spare at a boundary of its cluster (R14). -/
def orderOut (s : State) (l : Nat) (quarantine : Bool) : State :=
  if (s.holdsSlot l || isBank l) && !s.atBoundary l then
    { s with integ := { s.integ with leaving := (s.integ.leaving.filter fun e => !samePlace e.1 l) ++ [(bareLoc l, quarantine)] } }
  else if quarantine then s.quarantineNow l
  else s.retireNow l

def startTests (s : State) (ls : List Nat) : State := ls.foldl sendToTest s

def retireUnit (s : State) (l : Nat) : State := s.orderOut l false

/-- R15: a retired unit starts towards its return; an order to retire that has not taken effect is withdrawn
(log entry 81). A returned column is tried at the next sabbatical of its Thresher. -/
def returnUnit (s : State) (l : Nat) : State :=
  let s1 : State := { s with integ := { s.integ with leaving := s.integ.leaving.filter fun e => !(samePlace e.1 l && !e.2) } }
  if !((s.integ.field ++ s.integ.unrecorded).any (samePlace l)) then s1
  else
    let s2 : State := { s1 with integ := { s1.integ with
      returning := if s1.integ.returning.any (samePlace l) then s1.integ.returning else s1.integ.returning ++ [bareLoc l] } }
    if locKind l = 1 && locSub l != 0xFF then s2 else s2.startTests (s2.unitsNamed l)

/-- R367: an entry about an order of quarantine or release. -/
def orderNotice (s : State) (l : Nat) : State := s.unitNotice 0x2C15 l

def quarantineUnit (s : State) (l : Nat) : State := (s.orderNotice l).orderOut l true

/-- R367: is a unit quarantined, or ordered so? -/
def inQuarantine (s : State) (l : Nat) : Bool :=
  s.integ.quarantined.any (samePlace l) || s.integ.leaving.any fun e => samePlace e.1 l && e.2

def releaseUnit (s : State) (l : Nat) : State :=
  let out := s.integ.quarantined.any (samePlace l)
  let s1 := s.orderNotice l
  let s2 : State := { s1 with integ := { s1.integ with
    quarantined := s1.integ.quarantined.filter fun x => !samePlace x l,
    leaving := s1.integ.leaving.filter fun e => !(samePlace e.1 l && e.2) } }
  if out then s2.startTests ((s2.unitsNamed l).filter fun u => !s2.listed u && !s2.quarantinedAt u) else s2

/-! ### Sabbaticals (R356–R360) -/

/-- Is a unit in its self-test? A serviceable Thresher or Gleaner that fills no slot and is in no other phase is on its
sabbatical, as after reset (R12). The self-test of a whole Loft tests its banks. -/
def inSelfTest (s : State) (l : Nat) : Bool := match s.phase? l with
  | some p => p == .selfTest && !(isBank l && s.integ.leaving.any fun e => samePlace e.1 l)
  | none =>
    let h := s.hostsOf (locRegion16 l) (locCluster l)
    (isBank l && s.phase? (containerAt 1 l) == some .selfTest && !s.listed l) || (locKind l == 1 || locKind l == 2) && locSub l == 0xFF && !s.listed l && !s.quarantinedAt l &&
      !(if locKind l = 1 then h.threshers else h.gleaners).contains (some (locIndex l))

/-- The unit has its place again: its records go, and those of a container all of whose units are back. -/
def backInService (s : State) (l : Nat) : State :=
  let s1 := s.dropPhases l
  let mine (x : Nat) : Bool := locHolds (bareLoc (containerAt 1 l)) (bareLoc x) && s.integ.returning.any (samePlace x)
  let whole (x : Nat) : Bool := locKind x == 0 && s.integ.returning.any (samePlace x) && locHolds (bareLoc x) (bareLoc l) &&
    !s1.integ.out.any (locHolds (bareLoc x))
  ((s1.clearRecords fun x => mine x || whole x).partsBack l).afterUnits

/-- The unit's own container is out, so that it has no slot to take. -/
def containerOut (s : State) (l : Nat) : Bool :=
  s.listedLocs.any fun x => locKind x == 0 && locHolds (bareLoc x) (bareLoc l)

def setPassed (s : State) (l : Nat) : State :=
  { s with integ := { s.integ with passed := Table.put (bareLoc l) (s.reel (locDie l)) s.integ.passed } }

/-- Ledger code of a self-test that finds a unit faulty. -/
def testCode (kind : Nat) : Nat := match kind with
  | 1 => 0x2C02
  | 2 => 0x2C07
  | 3 => 0x2C05
  | 4 => 0x2C09
  | _ => 0x2C0E

/-- R14, R368: the entry of a failed self-test, closed by retirement or steering. It opens no domain and is not
nested in the one that sent the unit to its test (log entry 82). -/
def testEntry (s : State) (l : Nat) : State :=
  let u := bareLoc (containerAt 1 l)
  let e : LedgerEntry := { s.faultEntry (testCode (locKind l)) 1 (s.fullLoc l) false 0 3 ((Table.find? u s.integ.lastSlot).getD 0xFFFFFFFF) none with
    state := 2, log := 0xFFFFFFFF, exposed := s.passedAt l }
  ((s.ledgerWrite (locDie l) e).1).noteFault (s.fullLoc l) 1 e.exposed

def testPassed (s : State) (l : Nat) : State :=
  let s1 := s.setPassed l
  if (locKind l = 1 || locKind l = 2) && !s.containerOut l then s1.setPhase l .tested else s1.backInService l

/-- R14, R356: a self-test ends. Failed columns are steered out while two spare columns are enough. -/
def testComplete (s : State) (l : Nat) (res : TestResult) : State :=
  if !s.inSelfTest l then s
  else match res with
    | .pass => s.testPassed l
    | .fail => if isBank l then (s.testEntry l).orderOut l false else (s.testEntry l).retireNow l
    | .columns cs =>
      let new := (cs.filter fun c => c < 67).eraseDups.filter fun c => !(s.columnsOf l).contains c
      if locKind l != 1 then s
      else if new.isEmpty then s.testPassed l
      else if (s.columnsOf l).length + new.length ≤ 2 then
        (new.foldl (fun s c => (s.testEntry (bareLoc l - 0xFF + c)).recordRetired (bareLoc l - 0xFF + c)) s).setPhase l .tested
      else (s.testEntry l).retireNow l

/-- Slot that a unit takes: an empty one, else that of the next unit in service in ascending order (R356). -/
def slotFor (hosts : List (Option Nat)) (i : Nat) : Nat :=
  match hosts.zipIdx.find? fun e => e.1.isNone with
  | some e => e.2
  | none =>
    let held := hosts.filterMap id
    let nxt := match lowest (held.filter (i < ·)) with
      | some j => j
      | none => (lowest held).getD 0
    (hosts.zipIdx.find? fun e => e.1 == some nxt).elim 0 Prod.snd

/-- Physical unit that hosts the slot a unit will take. -/
def shadowed (s : State) (l : Nat) : Option Nat :=
  let h := s.hostsOf (locRegion16 l) (locCluster l)
  let xs := if locKind l = 1 then h.threshers else h.gleaners
  (xs.getD (slotFor xs (locIndex l)) none).map fun j => unitLoc (locRegion16 l) (locCluster l) (locKind l) j 0xFF

/-- R356: a rotation step: the unit whose self-test has passed begins its probation. The Mill's known-answer sequence
(R357) changes nothing that software sees while it passes. -/
def rotate (s : State) (r c : Nat) (gleaners : Bool) : State :=
  if 16 ≤ r ∨ 18 ≤ c then s
  else
    let kind := if gleaners then 2 else 1
    let here := (List.range 5).map fun i => unitLoc r c kind i 0xFF
    let h := s.hostsOf r c
    let s1 := s.setHosts r c { h with step := h.step + boolNat (!gleaners) }
    match here.find? fun l => s.phase? l == some .tested with
    | some l => if here.any fun x => s.phase? x == some .probation then s1 else s1.setPhase l .probation
    | none => if s.rotationStopped r c gleaners then s else s1

def probationDone (s : State) (l : Nat) : State :=
  if s.phase? l = some .probation then (s.setPassed l).setPhase l .passed else s

/-- R358: a probation has not completed 3.2 ms after it began. -/
def probationLate (s : State) (r c : Nat) (gleaners : Bool) : State :=
  let kind := if gleaners then 2 else 1
  if (List.range 5).any fun i => s.phase? (unitLoc r c kind i 0xFF) == some .probation then
    let h := s.hostsOf r c
    (s.setHosts r c (if gleaners then { h with overrunGleaner := true } else { h with overrunThresher := true })).noteDegraded
  else s

/-- A unit that has passed its probation takes its slot; the previous host leaves on its sabbatical. -/
def takeSlot (s0 : State) (l : Nat) : State :=
  let r := locRegion16 l
  let c := locCluster l
  let s := match s0.shadowed l with
    | some p => s0.noteSlot p
    | none => s0
  let h := s.hostsOf r c
  let xs := if locKind l = 1 then h.threshers else h.gleaners
  let ys := xs.set (slotFor xs (locIndex l)) (some (locIndex l))
  let h1 : ClusterHosts := if locKind l = 1 then { h with threshers := ys, overrunThresher := false }
    else { h with gleaners := ys, overrunGleaner := false }
  (s.setHosts r c h1).backInService l

/-- R13: the command boundary of a slot: a unit ordered out leaves, or a unit that has passed its probation enters; a
logical cluster loses its host or comes back to it (R14). -/
def handover (s : State) (l : Nat) : State :=
  if !s.atBoundary l then s
  else match s.integ.leaving.find? fun e => samePlace e.1 l with
    | some (x, q) =>
      let s1 : State := { s with integ := { s.integ with leaving := s.integ.leaving.filter fun e => !samePlace e.1 x } }
      if q then s1.quarantineNow x else s1.retireNow x
    | none => if s.phase? l = some .passed then s.takeSlot l else if locKind l = 0 then s.afterUnits else s

/-- R14, R202: yard firmware saves the partitions that a logical cluster's move affects and restores them on the new
cluster, as at a task switch. A pinned one is never saved; a save or a restore waits for its area's translations, and a
fault of it parks the task (R280). Answers whether every one was saved. The area's bytes become free, and the rows that
the restore brings back are those that were saved. -/
def saveForMove (s : State) (r n : Nat) : State × Bool :=
  s.queues.foldl (fun a e =>
    let p := s.partOf e.2
    if !a.2 || e.2.region != r || p.state != 1 || !bit p.mask n then a
    else if p.pinned then (a.1, false)
    else
      let (s1, ok) := a.1.areaReach e.1 e.2
      if ok then (s1.scramble e.2.region e.2.pasid (areaBase e.2) (areaBytes e.2), true) else (s1, false)) (s, true)

/-- R14: a logical cluster without a serviceable physical one, or on one with 3 Threshers or 1 Gleaner left, moves to
the lowest unused serviceable cluster. Every unit there enters by self-test and probation (R360). -/
def moveCluster (s : State) (r n : Nat) : State :=
  let m := s.mapOf r
  let now := m.getD n none
  let away := s.integ.away.any fun a => a.1 == r && a.2.1 == n
  let poor := match now with
    | none => !away
    | some c => (s.threshersOk r c).length ≤ 3 || (s.gleanersOk r c).length ≤ 1
  let spare := (s.clustersOk r).find? fun c =>
    !m.contains (some c) && !s.quarantinedAt (unitLoc r c 0 0 0xFF) && !s.integ.away.any fun a => a.1 == r && a.2.2 == c
  let (s', saved) := s.saveForMove r n
  if 16 ≤ r || 16 ≤ n || !poor || !s.slotFree r n || !s.regionOk r then s
  else match if saved then spare else none with
    | none => if spare.isSome then s' else s
    | some c =>
      let s0 := (match now with
        | some o => (s'.clusterUnits r o).foldl noteSlot s'
        | none => s')
      let s1 := (s0.setMap r (m.set n (some c))).setHosts r c {
        threshers := List.replicate 4 none, gleaners := List.replicate 2 none, banks := (s.freshHosts r c).banks }
      let s2 : State := { s1 with integ := { s1.integ with remaps := s1.integ.remaps + 1 } }
      (s2.startTests ((s2.clusterUnits r c).filter fun u => !s2.quarantinedAt u)).afterUnits

end State

/-! ### The events -/

/-- SLOT_HANDOVER (R13). -/
def execSlotHandover (loc : Nat) (s : State) : Host.Outcome State Fault Refusal := .next (s.handover loc)

/-- CLUSTER_MOVE (R14). -/
def execClusterMove (region cluster : Nat) (s : State) : Host.Outcome State Fault Refusal := .next (s.moveCluster region cluster)

/-- ROTATION_STEP (R356). -/
def execRotationStep (region cluster : Nat) (gleaners : Bool) (s : State) : Host.Outcome State Fault Refusal :=
  .next (s.rotate region cluster gleaners)

/-- SELF_TEST_COMPLETE (R356). -/
def execSelfTestComplete (loc : Nat) (result : TestResult) (s : State) : Host.Outcome State Fault Refusal :=
  .next (s.testComplete loc result)

/-- PROBATION_COMPLETE (R360). -/
def execProbationComplete (loc : Nat) (s : State) : Host.Outcome State Fault Refusal := .next (s.probationDone loc)

/-- PROBATION_OVERRUN (R358). -/
def execProbationOverrun (region cluster : Nat) (gleaners : Bool) (s : State) : Host.Outcome State Fault Refusal :=
  .next (s.probationLate region cluster gleaners)

/-- KNOWN_ANSWER_TILE (R359): the tile's result is compared and discarded; nothing that software sees changes. A
mismatch is a FAULT_DETECTED with 0x2C08. -/
def execKnownAnswerTile (_loc : Nat) (s : State) : Host.Outcome State Fault Refusal := .next s

end Sys2Proof.Machine
end

