-- ==== Sys2Proof/Machine/Detect.lean ====
section
/-! DEFINITION. Machine/Detect.lean: detected faults, corrected errors, the scrub, die self-tests and yard firmware
accesses outside their context (R354, R355, R359–R364, R376). An event that can not arise in a state leaves it
unchanged (log entry 7). -/
namespace Sys2Proof.Machine
namespace State

/-- R215: a Loft row of a physical cluster is marked as bad. -/
def markRow (s : State) (region cluster row : Nat) : State :=
  match (s.mapOf region).zipIdx.find? fun e => e.1 == some cluster with
  | none => s
  | some e =>
    let k := loftKey region e.2 row
    s.setRow k { s.loftRow k with mark := true }

/-- R207: a bad sector that a copy's read finds: the row it copied carries the mark. -/
def markCopied (s : State) (affected : Option (Nat × Nat)) (region cluster row : Nat) : State :=
  match s.affectedCmd affected with
  | none => s
  | some c =>
    let p := s.cmdPart c
    let src := 16 * p.baseUnit + c.recs.b 24 27
    if isCopy c && c.region == region && src ≤ row && row < src + c.recs.b 32 35 then
      s.markRow region cluster (16 * p.baseUnit + c.recs.b 28 31 + (row - src))
    else s

/-- R360: the returning unit and its slot's host disagree: both stop and self-test. -/
def probationMismatch (s : State) (loc detail : Nat) (affected : Option (Nat × Nat)) : State :=
  if s.phase? loc != some .probation then s
  else
    let host := s.shadowed loc
    let s1 := (s.bump 0x2C00 0x10 1).raiseFault 0x2C03 loc detail affected false
    match host with
    | some h => s1.benchUnit h
    | none => s1

/-- R359: two units disagree about a tile; `detail` gives the second. -/
def duplicateMismatch (s : State) (loc detail : Nat) (affected : Option (Nat × Nat)) : State :=
  let second := detail % 2 ^ 32
  let s1 := s.raiseFault 0x2C08 loc second affected false
  if locOk second && bareLoc second / 2 ^ 12 == bareLoc loc / 2 ^ 12 then s1.benchUnit second else s1

/-- R231, R364: an uncorrectable Barn line: its data is lost where it was not yet written back. -/
def barnLost (s : State) (line : Nat) : State :=
  let dirty := s.barn.any fun b => b.line == line && b.dirty
  { s with
    barn := s.barn.filter fun b => b.line != line,
    poisoned := if dirty && !s.poisoned.contains line then s.poisoned ++ [line] else s.poisoned }

/-- R364: an uncorrectable error in Granary metadata: of the context record (0), a tally sheaf (1) or a directory sheaf
(2) of a sequence, or of a sheaf's own record (3). -/
def metadataLost (s : State) (what seq index : Nat) : State :=
  if what = 3 then
    { s with granary := { s.granary with
        withdrawn := if s.granary.withdrawn.contains index then s.granary.withdrawn else s.granary.withdrawn ++ [index] } }
  else match s.seq? seq with
    | none => s
    | some q =>
      let q1 : Sequence := { q with
        state := if q.state = 1 then 3 else q.state,
        badTally := if what = 1 then q.badTally ++ [index] else q.badTally,
        badDir := if what = 2 then q.badDir ++ [index] else q.badDir }
      s.setSeq seq q1

/-- R364: a read of device memory that a command made is lost: the command fails. -/
def memoryLost (s : State) (loc address : Nat) (c : Cmd) : State :=
  let line := address / 512
  let e := s.faultEntry 0x2C0F 1 loc false 0 2 address (some c)
  let s1 := ((s.ledgerWrite (locDie loc) { e with state := 3 }).1.noteFault loc 1 e.exposed).failCmd c 0x2C24 0
  { s1 with poisoned := if s1.poisoned.contains line then s1.poisoned else s1.poisoned ++ [line] }

/-- R354, R361: a detected failure. The codes of ports and of orders are raised elsewhere. -/
def faultDetected (s : State) (code loc0 detail : Nat) (affected : Option (Nat × Nat)) (atUse : Bool) : State :=
  let loc := s.fullLoc loc0
  -- R360: a unit that holds no slot affects no command; the host's results stand (log entry 175)
  let idle := (locKind loc == 1 || locKind loc == 2) && (s.phase? (containerAt 1 loc)).isSome
  let generic (s : State) : State := s.raiseFault code loc detail (if idle then none else affected) (atUse && !idle)
  if !locOk loc0 || !locPhys loc0 || !bit s.pins.dies (locDie loc) || code < 0x2C01 || 0x2C14 < code then s
  else match code with
  | 0x2C03 => s.probationMismatch loc detail affected
  | 0x2C08 => s.duplicateMismatch loc detail affected
  | 0x2C09 =>
    let s1 := s.bump 0x2600 0x0C 1
    generic (if atUse then
      (s1.markRow (locRegion16 loc) (locCluster loc) (detail % 4096)).markCopied affected (locRegion16 loc) (locCluster loc) (detail % 4096)
     else s1)
  | 0x2C0A => generic (if atUse then s.barnLost (detail / 512) else s)
  | 0x2C0B =>
    let what := bits detail 18 16
    let s1 := s.metadataLost what (detail % 2 ^ 16) (bits detail 63 32)
    s1.raiseFault code loc (if what = 3 then bits detail 63 32 else detail % 2 ^ 16) affected atUse
  | 0x2C0C => generic (if (s.queue? (detail % 2 ^ 20)).isSome then s.queueError (detail % 2 ^ 20) 0x2C0C else s)
  | 0x2C0F => (match atUse, s.affectedCmd affected with
    | true, some c => s.memoryLost loc detail c
    | _, _ => generic s)
  | 0x2C10 => [0, 1].foldl (fun s d => s.raiseFault code (mkLoc true (s.packageId % 64) d 0 0x1F 12 0 0xFF) detail affected false) s
  | _ => generic s

/-- R355: one unit corrected more than the limit within a second: it is handled as failed. -/
def correctedLimit (s : State) (loc count : Nat) : State :=
  if !locOk loc || !locPhys loc || !bit s.pins.dies (locDie loc) || count ≤ s.keptReg 0x2C00 0x0A 1000 then s
  else (s.bump 0x2C00 0x0D count).raiseFault 0x2C14 (s.fullLoc loc) count none false

/-- R216, R354: one sweep: single-bit errors are corrected and counted; bad Loft rows are marked, which affects no
command. -/
def scrub (s : State) (die : Nat) (what : Scrubbed) (corrected : Nat) (bad : List (Nat × Nat × Nat)) : State :=
  let one (s : State) (b : Nat × Nat × Nat) : State :=
    if b.1 / 8 != die || 16 ≤ b.2.1 || 3072 ≤ b.2.2 then s
    else
      let s1 := (s.bump 0x2600 0x0C 1).setRow (loftKey b.1 b.2.1 b.2.2) { s.loftRow (loftKey b.1 b.2.1 b.2.2) with mark := true }
      s1.raiseFault 0x2C09 (s1.bankLoc b.1 b.2.1 b.2.2) b.2.2 none true
  if !bit s.pins.dies die then s
  else
    let s1 := s.bump 0x2C00 0x0D corrected
    if what = .loft then bad.foldl one s1 else s1

/-- R361: the self-test of a stopped die ends. Its queues stay in error until they are started. -/
def dieTested (s : State) (die : Nat) (pass : Bool) : State :=
  if !pass || !bit s.pins.dies die || !bit s.pins.stopped die || bit s.pins.fatal die then s
  else
    let s1 : State := { s with pins := { s.pins with stopped := clearBit s.pins.stopped die } }
    (s1.integ.domains.filter fun d => d.severity == 4 && locDie d.loc == die).foldl (fun s d => s.closeDomain d 1) s1

/-- R376: the access is not performed; the command that the Gleaner serves fails. -/
def yardViolation (s : State) (loc q i : Nat) : State :=
  match s.cmd? q i with
  | none => s
  | some c =>
    if !openCmd c || c.wait == .done || !locOk loc || !locPhys loc || locKind loc != 2 || !s.worksOn c.region c.clusters loc then s
    else ((s.ledgerWrite (locDie loc) (s.faultEntry 0x2D30 0 (s.fullLoc loc) false 0 2 0 (some c))).1).failCmd c 0x2D31 0

end State

/-- FAULT_DETECTED (R361). -/
def execFaultDetected (code loc detail : Nat) (affected : Option (Nat × Nat)) (atUse : Bool) (s : State) :
    Host.Outcome State Fault Refusal := .next (s.faultDetected code loc detail affected atUse)

/-- CORRECTED_LIMIT_EXCEEDED (R355). -/
def execCorrectedLimitExceeded (loc count : Nat) (s : State) : Host.Outcome State Fault Refusal :=
  .next (s.correctedLimit loc count)

/-- SCRUB_SWEEP (R354). -/
def execScrubSweep (die : Nat) (what : Scrubbed) (corrected : Nat) (bad : List (Nat × Nat × Nat)) (s : State) :
    Host.Outcome State Fault Refusal := .next (s.scrub die what corrected bad)

/-- DIE_SELF_TEST_COMPLETE (R361). -/
def execDieSelfTestComplete (die : Nat) (pass : Bool) (s : State) : Host.Outcome State Fault Refusal :=
  .next (s.dieTested die pass)

/-- YARD_ACCESS_VIOLATION (R376). -/
def execYardAccessViolation (loc q i : Nat) (s : State) : Host.Outcome State Fault Refusal :=
  .next (s.yardViolation loc q i)

end Sys2Proof.Machine
end

