-- ==== Sys2Proof/Machine/Firmware.lean ====
section
/-! DEFINITION. Machine/Firmware.lean: fuses, images, updates, recovery and the reopening of field scopes
(17_firmware_access.md). A refused order answers the code that stands under `OWNER_REFUSED`, or another abort of R338. -/
namespace Sys2Proof.Machine

/-! ### Images (R379–R381) -/

def slotBytes : Nat := 17039872

/-- R379: is the header of an image well formed? `whole` is the length of the image where it is given apart. -/
def headerOk (b : List Byte) (whole : Option Nat) : Bool :=
  let reeve := field b 8 11
  let yard := field b 12 15
  let total := 512 + reeve + yard
  512 ≤ b.length && field b 0 3 == 0x4E453449 && field b 4 5 == 1 && bits (field b 6 6) 7 4 == 0 && field b 7 7 ≤ 64 &&
    4096 ≤ reeve && reeve ≤ 262144 && reeve % 4096 == 0 && 65536 ≤ yard && yard ≤ 16777216 && yard % 65536 == 0 &&
    zeroBytes b 20 31 && zeroBytes b 129 143 && zeroBytes b 288 511 &&
    (match whole with
     | some n => n == total
     | none => total ≤ slotBytes)

/-- Key slot, `SVN` and `VERSION` of a header. -/
def headerKey (b : List Byte) : Nat := bits (field b 6 6) 3 0
def headerSvn (b : List Byte) : Nat := field b 7 7
def headerVersion (b : List Byte) : Nat := field b 16 19

/-- R377, R378, R381: is a key slot accepted? The manufacture state takes any programmed slot (log entry 84). -/
def Fuses.keyAccepted (f : Fuses) (n : Nat) : Bool :=
  n < 4 && bit f.keysProgrammed n && (f.lifecycle == 1 || !bit f.keysRevoked n)

/-- R381: checks 2–6 on an image; none where every check passes. -/
def Fuses.verify (f : Fuses) (b : List Byte) (whole : Option Nat) : Option Nat :=
  let reeve := field b 8 11
  let yard := field b 12 15
  if !headerOk b whole then some 0x2D01
  else if !f.keyAccepted (headerKey b) || Config.sha384 (slice b 32 97) != Config.imageKeyHash (headerKey b) then some 0x2D02
  else if headerSvn b < f.rollback then some 0x2D05
  else if !Config.ecdsaVerify (slice b 32 97) (Config.sha384 (slice b 0 192 ++ slice b 512 reeve)) (slice b 192 96) then some 0x2D03
  else if Config.sha384 (slice b (512 + reeve) yard) != field b 144 191 then some 0x2D04
  else none

namespace State

/-- What the boot finds in the slot: a code, or key slot, `SVN` and `VERSION` of the image. The image installed at
manufacture verifies while its key and `SVN` are accepted; what stands in a slot that was written in part is not known, so
its code is free. -/
def verifySlot (s : State) : State × Option Nat × Nat × Nat × Nat :=
  match s.fw.slot with
  | .empty => (s, some 0x2D01, 0, 0, 0)
  | .factory =>
    let code := if !s.fuses.keyAccepted 0 then some 0x2D02 else if 0 < s.fuses.rollback then some 0x2D05 else none
    (s, code, 0, 0, 0)
  | .mixed =>
    let (f, s1) := s.draw
    (s1, some (0x2D01 + Config.freeCount f % 5), 0, 0, 0)
  | .bytes b => (s, s.fuses.verify b none, headerKey b, headerSvn b, headerVersion b)

/-- R381: the image starts and is the running one. -/
def startImage (s : State) (keySlot svn version : Nat) : State :=
  { s with fw := { s.fw with runningKey := keySlot, runningSvn := svn, runningVersion := version, recoveryCode := 0, session := none } }

/-- R380: one write of the slot is counted. -/
def countSlotWrite (s : State) : State := s.commitKept (key 0x2D00 0x0A) (s.keptReg 0x2D00 0x0A 0 + 1)

/-! ### Updates (R382) -/

def fwUpdate (s : State) (v : Nat) : State × Nat :=
  let address := v % 2 ^ 64
  let length := bits v 95 64
  if bits v 127 96 != 0 then (s, valueRange)
  else if 1 ≤ s.fw.updateState ∧ s.fw.updateState ≤ 3 then (s, ownerRefused 0x2D06)
  else if 200000 ≤ s.keptReg 0x2D00 0x0A 0 then (s, ownerRefused 0x2D07)
  else ({ s with fw := { s.fw with updateState := 1, staged := (address, length), fetched := [] } }, 0)

def updateFailed (s : State) (code : Nat) : State :=
  { s with fw := { s.fw with updateState := 5, updateCode := code, fetched := [] } }

/-- The fetch ends: of a range of memory, where the fabric delivered it. -/
def updateFetched (s : State) (ok : Bool) : State :=
  let (a, n) := s.fw.staged
  if !ok || !(isDevice a n || isHost a n) then s.updateFailed 0x2D08
  -- no image is longer than the slot; what is beyond is not read
  else { s with fw := { s.fw with updateState := 2, fetched := s.physRead a (min n (slotBytes + 1)) } }

/-- The checks end; the write of the slot begins. -/
def updateChecked (s : State) : State :=
  match s.fuses.verify s.fw.fetched (some s.fw.staged.2) with
  | some code => s.updateFailed code
  | none => { s with fw := { s.fw with updateState := 3 } }.countSlotWrite

/-- The write ends. -/
def updateWritten (s : State) : State :=
  { s with fw := { s.fw with updateState := 4, slot := .bytes s.fw.fetched, fetched := [] } }

/-! ### Fuses (R377, R378, R383, R384) -/

def rollbackCommit (s : State) (v : Nat) : State × Nat :=
  if v = 1 then ({ s with fuses := { s.fuses with rollback := max s.fuses.rollback s.fw.runningSvn } }, 0) else (s, 0)

def keyRevoke (s : State) (n : Nat) : State × Nat :=
  let others := (List.range 4).any fun k => k != n && bit s.fuses.keysProgrammed k && !bit s.fuses.keysRevoked k
  if 4 ≤ n then (s, valueRange)
  else if n = s.fw.runningKey || !others then (s, ownerRefused 0x2D09)
  else ({ s with fuses := { s.fuses with keysRevoked := setBit s.fuses.keysRevoked n } }, 0)

def debugLockRaise (s : State) (v : Nat) : State × Nat :=
  if v ≤ s.fuses.debugLock ∨ 3 < v then (s, valueRange) else ({ s with fuses := { s.fuses with debugLock := v } }, 0)

def ownerHashProgram (s : State) (v : Nat) : State × Nat :=
  if s.fuses.ownerHash.isSome then (s, valueRange) else ({ s with fuses := { s.fuses with ownerHash := some v } }, 0)

/-- R378: only while every scope is open by challenge; else the scopes are closed to it (log entry 85). -/
def decommission (s : State) (v : Nat) : State × Nat :=
  if v = 0 then (s, 0)
  else if s.fw.scopes &&& s.fw.byChallenge &&& 15 != 15 then (s, scopeClosed)
  else ({ s with fuses := { s.fuses with lifecycle := 3 }, fw := { s.fw with slot := .empty } }, 0)

/-! ### Scopes (R386–R389) -/

def openScopes (s : State) (mask : Nat) (challenge : Bool) : State :=
  { s with fw := { s.fw with
      scopes := s.fw.scopes ||| mask, byChallenge := if challenge then s.fw.byChallenge ||| mask else s.fw.byChallenge } }

/-- R388: a failed attempt, with its notice entry. -/
def attemptFailed (s : State) (code : Nat) : State × Nat :=
  let s1 : State := { s with fw := { s.fw with attempts := s.fw.attempts + 1 } }
  let die := s.noticeDie
  (s1.notice die code (mkLoc true s.packageId die 0 0x1F 0xB 0 0xFF) 0, ownerRefused code)

/-- R389: the nonce that a response is checked against: a read in its clk is served after it (log entry 173). -/
def usedNonce (s : State) : Option Nat := match s.fw.drawn with
  | some (clk, old) => if clk = s.clk then old else s.fw.nonce
  | none => s.fw.nonce

/-- R387, R389: a response spends the nonce that it is checked against. -/
def spendNonce (s : State) : State := { s with fw := match s.fw.drawn with
  | some (clk, _) => if clk = s.clk then { s.fw with drawn := some (clk, none) } else { s.fw with nonce := none }
  | none => { s.fw with nonce := none } }

/-- R387: a read of `DEBUG_NONCE`. -/
def freshNonce (s : State) : State × Nat :=
  let (f, s1) := s.draw
  let n := Config.randomBits 384 f % 2 ^ 384
  ({ s1 with fw := { s1.fw with nonce := some n, drawn := some (s.clk, s.usedNonce) } }, n)

def serialBytes : List Byte := leBytes 16 Config.serialNumber

/-- R386: in the field a lock of 3 lets no scope open. -/
def lockedShut (s : State) : Bool := s.fuses.lifecycle == 2 && s.fuses.debugLock == 3

/-- R387. -/
def debugResponse (s : State) (v : Nat) : State × Nat :=
  let b := leBytes 200 v
  let mask := field b 0 0
  if 15 < mask || !zeroBytes b 1 3 || !zeroBytes b 101 103 then (s, valueRange)
  else if 8 ≤ s.fw.attempts then (s, ownerRefused 0x2D12)
  else
    let s1 := s.spendNonce
    let pub := slice b 4 97
    let good := match s.usedNonce with
      | none => false
      | some n => s.fuses.debugKey && Config.sha384 pub == Config.debugKeyHash &&
          Config.ecdsaVerify pub (Config.sha384 (leBytes 48 n ++ serialBytes ++ leBytes 1 mask)) (slice b 104 96)
    if good && !s.lockedShut then (s1.openScopes mask true, 0) else s1.attemptFailed 0x2D10

/-- R388. -/
def ownerPassword (s : State) (v : Nat) : State × Nat :=
  let b := leBytes 65 v
  let n := field b 0 0
  if n < 8 ∨ 64 < n ∨ !zeroBytes b (n + 1) 64 then (s, valueRange)
  else if 8 ≤ s.fw.attempts then (s, ownerRefused 0x2D12)
  else
    let field2 := s.fuses.lifecycle == 2 && 2 ≤ s.fuses.debugLock
    let good := s.fuses.ownerHash == some (Config.sha384 (serialBytes ++ slice b 1 n))
    if good && !field2 && s.fuses.debugLock != 2 then (s.openScopes 3 false, 0) else s.attemptFailed 0x2D11

/-! ### Recovery (R385) -/

def answerRecovery (s : State) (endpoint code : Nat) : State := s.send (.recovery endpoint code s.fw.received)

/-- A recovery request from an endpoint: only in recovery, and only from the session's endpoint while one is open. -/
def recovery (s : State) (endpoint : Nat) (go : State → State) : State :=
  if s.pins.state != .recovery then s
  else match s.fw.session with
    | some e => if e = endpoint then go s else s.answerRecovery endpoint 0x2D06
    | none => go s

def recoveryStatus (s : State) (endpoint : Nat) : State := s.recovery endpoint fun s => s.answerRecovery endpoint s.fw.recoveryCode

def recoveryBegin (s : State) (endpoint length : Nat) : State :=
  s.recovery endpoint fun s =>
    if slotBytes < length then s.answerRecovery endpoint 0x2D01
    else { s with fw := { s.fw with session := some endpoint, sessionLength := length, received := 0 } }.answerRecovery endpoint 0

/-- Bytes that stood in the slot before; those of a mixed slot are not known, and count as missing (log entry 86). -/
def slotNow (s : State) : List Byte := match s.fw.slot with
  | .bytes b => b
  | .factory => Config.factoryImage
  | _ => []

def recoveryData (s : State) (endpoint offset : Nat) (data : List Byte) : State :=
  s.recovery endpoint fun s =>
    if s.fw.session.isNone || offset != s.fw.received || data.isEmpty || 1024 < data.length || s.fw.sessionLength < offset + data.length then
      s.answerRecovery endpoint 0x2D01
    else
      let b := s.slotNow
      let n := offset + data.length
      let s1 := if offset = 0 then s.countSlotWrite else s
      { s1 with fw := { s1.fw with slot := .bytes (slice b 0 offset ++ data ++ b.drop n), received := n } }.answerRecovery endpoint 0

/-- R385: on success the image boots: start-up goes on after step 3 with the COLD_RESET_RELEASE that follows
(log entry 87). -/
def recoveryEnd (s : State) (endpoint : Nat) : State :=
  s.recovery endpoint fun s =>
    if s.fw.session.isNone then s.answerRecovery endpoint 0x2D01
    else
      let (s1, code, k, svn, ver) := s.verifySlot
      match code with
      | some c => { s1 with fw := { s1.fw with recoveryCode := c, session := none } }.answerRecovery endpoint c
      | none =>
        let s2 := (s1.startImage k svn ver).answerRecovery endpoint 0
        { s2 with pins := { s2.pins with state := .booting, startupStep := 3 } }

def recoveryAbort (s : State) (endpoint : Nat) : State :=
  s.recovery endpoint fun s => { s with fw := { s.fw with session := none } }.answerRecovery endpoint 0

end State

/-- RECOVERY_STATUS (R385; log entry 177). -/
def execRecoveryStatus (endpoint : Nat) (s : State) : Host.Outcome State Fault Refusal := .next (s.recoveryStatus endpoint)

/-- RECOVERY_BEGIN (R385). -/
def execRecoveryBegin (endpoint length : Nat) (s : State) : Host.Outcome State Fault Refusal :=
  .next (s.recoveryBegin endpoint length)

/-- RECOVERY_DATA (R385). -/
def execRecoveryData (endpoint offset : Nat) (data : List Byte) (s : State) : Host.Outcome State Fault Refusal :=
  .next (s.recoveryData endpoint offset data)

/-- RECOVERY_END (R385). -/
def execRecoveryEnd (endpoint : Nat) (s : State) : Host.Outcome State Fault Refusal := .next (s.recoveryEnd endpoint)

/-- RECOVERY_ABORT (R385). -/
def execRecoveryAbort (endpoint : Nat) (s : State) : Host.Outcome State Fault Refusal := .next (s.recoveryAbort endpoint)

end Sys2Proof.Machine
end

