-- ==== Sys2Proof/Machine/Boundary.lean ====
section
/-! DEFINITION. Machine/Boundary.lean: resets, start-up, isolation, power caps and throttling (19_boundary_startup.md). -/
namespace Sys2Proof.Machine
namespace State

/-! ### Power (R427, R428) -/

/-- The cap in force, and what follows from it. The draw with every issue held, and the clk that issue was throttled, are free. -/
def applyCap (s : State) : State :=
  let cap := if s.pins.throttleLow then min 1000 (s.reg 0x2F00 0x07 3200) else s.reg 0x2F00 0x07 3200
  let unmet := decide (cap < Config.idlePower s.clk)
  let s1 : State := { s with pins := { s.pins with capEffective := cap, capUnmet := unmet } }
  let s2 := if unmet && !s.pins.capUnmet then s1.notice s1.noticeDie 0x2F02 (s1.dieLoc s1.noticeDie) 0 else s1
  s2.bumpFree 0x2F00 0x0B

/-- R419: the throttle pin is acted on from booting on. -/
def throttle (s : State) (low : Bool) : State :=
  let s1 : State := { s with pins := { s.pins with throttleLow := low } }
  match s.pins.state with
  | .absent | .unpowered | .inReset => s1
  | _ => s1.applyCap

/-- R427: a cap in steps of 50 W. -/
def powerCap (s : State) (v : Nat) : State × Nat :=
  if v < 1000 ∨ 3200 < v ∨ v % 50 != 0 then (s, valueRange) else ((s.setReg 0x2F00 0x07 v).applyCap, 0)

/-! ### Entering reset (R420, R421, R429) -/

/-- R421: as isolation engages, the responder completes what waits. -/
def isolate (s : State) : State :=
  s.trans.invalidations.foldl (fun s i => s.send (.invalidationComplete i.1 i.2.1 i.2.2)) s

/-- R429: what a cold reset keeps: fuses, kept entries, the image slot, which stands mixed where it was being written
(R382); and, outside the engine, host memory. What was undefined in the Lofts is undefined afresh. -/
def coldState (s0 : State) (state : Boundary) (cause : Nat) : State :=
  let (f, s) := s0.isolate.slotStopped.draw
  { pending := s.pending, free := s.free, hostMem := s.hostMem, outbox := s.outbox, fuses := s.fuses,
    pins := {
      s.pins with
      state := state, coldHeld := decide (state = .inReset), warmHeld := false, ready := false, faultLow := false, isolated := true,
      warm := false, ordered := 0, dies := 3, fatal := 0, stopped := 0, cause := cause, startupUs := 0, startupStep := 0,
      training := 0, capEffective := 3200, capUnmet := false, releasedAt := 0 },
    fw := { slot := s.fw.slot },
    loft := { base := f },
    bruora := { incarnation := s.bruora.incarnation, incarnationWrites := s.bruora.incarnationWrites,
                incarnationWorn := s.bruora.incarnationWorn },
    dict := { kept := s.dict.kept, stuck := s.dict.stuck, wearList := s.dict.wearList },
    integ := { field := s.integ.field } }

def powerFall (s : State) : State := match s.pins.state with
  | .absent | .unpowered => s
  | _ =>
    let t := s.coldState .unpowered 0
    { t with pins := { t.pins with pwrGood := false } }

def powerRise (s : State) : State :=
  if s.pins.state = .unpowered then
    let t := s.coldState .inReset 0
    { t with pins := { t.pins with pwrGood := true } }
  else s

/-- The cold reset pin, or the entry of a cold reset that was ordered. While a cold reset is held it changes nothing. -/
def coldAssert (s : State) : State := match s.pins.state with
  | .absent | .unpowered => s
  | _ =>
    if s.pins.coldHeld then s
    else s.coldState .inReset (if s.pins.ordered = 2 then 2 else 1)

/-- R328: entries that are not kept and that masters write take their defaults. -/
def dropWritable (s : State) : State :=
  let keep (e : Nat × Nat) : Bool := match dictEntry? (e.1 / 256) (e.1 % 256) with
    | some d => d.access == .ro
    | none => true
  { s with dict := { s.dict with
      regs := s.dict.regs.filter keep, busy := false, done := false, request := [], response := [], vectors := [], prior := (0, []) } }

/-- R429, R431: the entry of a warm reset. -/
def warmState (s0 : State) (cause : Nat) : State :=
  -- a domain that only a command in flight held open closes with the command (log entry 172)
  let (f, s1) := ((s0.integ.domains.filter fun d => d.cmd.isSome).foldl (fun s d => s.closeDomain d 3) s0).isolate.dropWritable.draw
  let s := (s1.bump 0x2F00 0x0D 1).bump 0x2B00 0x13 (s1.bruora.ports.filter Port.up).length
  let again (x : Input) : Input := if x.state = 0 then x else { x with state := 1, prev := none, next := none, times := [] }
  let port (p : Port) : Port :=
    if p.state = 0 then p
    else { p.cleared with state := 1, partner := none, retrain := p.up }
  { s with
    queues := [], cmds := [], cursors := [], waiting := [], barn := [], granary := { pool := s.granary.pool }, mills := {}, loft := { base := f }, threshers := [],
    trans := { priState := s.trans.priState },
    bruora := { s.bruora with ports := s.bruora.ports.map port, windows := [], sent := [], lost := [], held := [] },
    bell := { s.bell with inputs := s.bell.inputs.map again, schedule := [], fired := [], releases := [], owed := [] },
    obs := { s.obs with captures := [], breakpoints := [], halted := [], hits := [] },
    fw := { s.fw with scopes := 0, byChallenge := 0, nonce := none, drawn := none, attempts := 0, heldWarm := 0 },
    pins := {
      s.pins with
      state := .inReset, warm := true, ready := false, isolated := true, ordered := 0, cause := cause, startupStep := 4 } }

/-- R430, R431: warm reset entry, by the pin or by an order. Before the engine is ready it is a cold reset; while the
image slot is written it is held. -/
def warmEntry (s : State) (pin : Bool) : State :=
  let cause := if pin then 3 else 4
  if !pin && s.pins.ordered != 1 then s
  else match s.pins.state with
  | .absent | .unpowered | .inReset => s
  | .ready =>
    let s1 : State := { s with pins := { s.pins with warmHeld := pin, ordered := 0 } }
    if s.fw.updateState = 3 then { s1 with fw := { s1.fw with heldWarm := cause } } else s1.warmState cause
  | _ => s.coldState .inReset cause

/-- R382, R430: the background update ends a phase; a reset held for it begins. -/
def updateStep (s : State) (fetched : Bool) : State :=
  let s1 := match s.fw.updateState with
    | 1 => s.updateFetched fetched
    | 2 => s.updateChecked
    | 3 => s.updateWritten
    | _ => s
  if s1.fw.heldWarm != 0 && s1.fw.updateState != 3 then s1.warmState s1.fw.heldWarm else s1

/-! ### Start-up (R432, R433) -/

/-- R343: the incarnation of a cold reset. -/
def nextIncarnation (s : State) : State :=
  let b := s.bruora
  let k := key 0x2B00 0x0D
  if s.stuckCopies k != 0 ∧ b.incarnationWrites < 51200000 then s.commitNotices k (s.stuckCopies k)
  else if b.incarnationWrites < 51200000 then
    let s1 : State := { s with bruora := { b with
      incarnation := (b.incarnation + 1) % 2 ^ 32, incarnationWrites := b.incarnationWrites + 1 } }
    if b.incarnationWrites + 1 = 46080000 then s1.warnWear k else s1
  else
    let (f, s1) := s.draw
    let v := Config.randomBits 32 f % 2 ^ 32
    -- after a power loss the value of the previous reset is not held
    let w := if v = b.incarnation ∧ s.pins.cause != 0 then (v + 1) % 2 ^ 32 else v
    let s2 : State := { s1 with bruora := { b with incarnation := w, incarnationWorn := true } }
    if b.incarnationWorn then s2 else (s2.setWear k 2).keptNotice 0x1013 k

/-- Dies (mask) that fail in start-up stay stopped. -/
def failDies (s : State) (dies : Nat) : State :=
  ([0, 1].filter fun d => !bit dies d).foldl (fun s d => s.raiseFault 0x2C0F (s.dieLoc d) 0 none false) s

/-- Steps 6 and 7: the engine is ready. `DAYBOOK_ENABLE` takes its kept value, and the first events are syncs (R402; log
entry 176). -/
def finishStart (s : State) : State :=
  let s1 := if s.pins.warm then s else s.buildMaps
  let enabled (e : Input × Nat) : Input :=
    if s.pins.warm then e.1 else if s.keptReg (0x2A10 + e.2) 0x03 0 = 1 then { e.1 with state := 1 } else e.1
  let s2 : State := { s1 with
    bell := { s1.bell with inputs := s1.bell.inputs.zipIdx.map enabled },
    granary := { pool := if s.pins.warm then s1.granary.pool else s1.keptReg 0x2500 0x01 8388608 },
    fw := { s1.fw with scopes := if s1.fuses.lifecycle = 1 then 15 else 0 },
    pins := {
      s1.pins with
      state := .ready, ready := true, faultLow := false, training := 0, startupStep := 7, warm := false, warmHeld := false,
      startupUs := if s.pins.warm then s.pins.startupUs else (s.clk - s.pins.releasedAt) / 1600 } }
  let s3 := if s.pins.warm || s.keptReg 0x2E00 0x0C 0 != 1 then s2 else [0, 1].foldl daySync s2
  s3.applyCap.notify 1 0

/-- Steps 4 and 5: dies that pass, and ports that see light. -/
def trainAll (s0 : State) (dies light : Nat) : State :=
  let s := s0.failDies dies
  let d := dies % 4
  if d = 0 then { s with pins := { s.pins with state := .booting, dies := 0, startupStep := 4, faultLow := true } }
  else
    let lit (p : Nat) : Bool := s.portOn p && bit light p
    -- R12: lanes that a spare map lists are not mapped
    let mapped (e : Port × Nat) : Port :=
      let ok := withoutLanes e.1.lanesOk (s.lanesListed e.2)
      { e.1 with lanesOk := ok, width := widthOf ok, lanes := laneMap ok (widthOf ok) }
    let port (e : Port × Nat) : Port :=
      if !s.portOn e.2 then { mapped e with state := 0 } else if lit e.2 then { mapped e with state := 2 } else mapped e
    let mask := (((List.range 16).filter lit).map (2 ^ ·)).sum
    let s1 : State := { s with
      bruora := { s.bruora with ports := s.bruora.ports.zipIdx.map port },
      pins := { s.pins with state := .booting, dies := d, startupStep := 5, training := mask } }
    if mask = 0 then s1.finishStart else s1

/-- R432: the release of a cold reset; or, after a recovery whose image verified, the steps that remain (R385). `us` is
the time to the end of step 4. -/
def coldRelease (s0 : State) (us dies light : Nat) : State :=
  let pass (s : State) : State := s.elapse (us * 1600)
  if s0.pins.state = .booting ∧ s0.pins.startupStep = 3 then (pass s0).trainAll dies light
  else if s0.pins.state != .inReset ∨ s0.pins.warm then s0
  else
    -- step 2: the kept copies are reconciled (R341)
    let s : State := { s0.reconcileKept with
      clk := 0, bell := { s0.bell with reel0 := {}, reel1 := {} },
      pins := { s0.pins with coldHeld := false, isolated := false, startupStep := 2 } }
    let stop (s : State) (st : Boundary) (step : Nat) : State := { s with pins := { s.pins with state := st, startupStep := step } }
    if s.fuses.lifecycle = 0 then stop (pass s) .blank 2
    else if s.fuses.lifecycle = 3 then stop (pass s) .decommissioned 2
    else
      let s1 := (pass s).nextIncarnation
      let forced := s1.keptReg 0x2D00 0x0B 0 = 1
      let (s2, code, k, svn, ver) := s1.verifySlot
      -- R381: a forced recovery has no failing check
      let fail (c : Nat) : State :=
        let t := stop s2 .recovery 3
        { t with fw := { t.fw with recoveryCode := c } }.writeKept 0x2D00 0x0B 0 0
      if forced then fail 0
      else match code with
        | some c => fail c
        | none => (s2.startImage k svn ver).trainAll dies light

/-- R431: the release of a warm reset. Ports come up from dark as their partners light them. A part that was
decommissioned is never ready again (R378; log entry 174). -/
def warmRelease (s0 : State) (us dies : Nat) : State :=
  if s0.pins.state != .inReset ∨ !s0.pins.warm then s0
  else if s0.fuses.lifecycle = 3 then
    let s := s0.elapse (us * 1600)
    { s with pins := { s.pins with state := .decommissioned, startupStep := 2, isolated := false, warm := false, warmHeld := false } }
  else
    let s := s0.elapse (us * 1600)
    let shut := s.integ.domains.filter fun d => 4 ≤ d.severity
    let s1 : State := shut.foldl (fun s d => s.closeDomain d 1) { s with pins := { s.pins with fatal := 0, stopped := 0, isolated := false } }
    let s2 := s1.failDies dies
    let d := dies % 4
    if d = 0 then { s2 with pins := { s2.pins with state := .booting, dies := 0, startupStep := 6, faultLow := true } }
    else
      let port (e : Port × Nat) : Port := if s2.portOn e.2 then { e.1 with state := 1 } else { e.1 with state := 0 }
      { s2 with
        bruora := { s2.bruora with ports := s2.bruora.ports.zipIdx.map port },
        pins := { s2.pins with dies := d } }.finishStart

/-- R432: a port has finished its training, or is dark or failed; step 5 ends with the last one. -/
def portSettled (s : State) (p : Nat) : State :=
  if s.pins.state != .booting || s.pins.startupStep != 5 || !bit s.pins.training p then s
  else
    let m := clearBit s.pins.training p
    let s1 : State := { s with pins := { s.pins with training := m } }
    if m = 0 then s1.finishStart else s1

/-- R432: step 5 ends at its budget. -/
def budgetEnd (s : State) : State := if s.pins.state = .booting ∧ s.pins.startupStep = 5 then s.finishStart else s

/-- R433: 500 ms have passed since release with no die failed. -/
def startTimeout (s : State) : State :=
  if s.pins.state != .booting ∨ s.pins.dies != 3 ∨ s.pins.faultLow then s
  else { s with pins := { s.pins with faultLow := true } }.notice s.noticeDie 0x2F01 (s.dieLoc s.noticeDie) 0

/-- R429, R430: a reset is ordered; a cold one that was ordered stands. -/
def orderReset (s : State) (v : Nat) : State × Nat :=
  if v = 1 then (if s.pins.ordered = 2 then (s, 0) else ({ s with pins := { s.pins with ordered := 1 } }, 0))
  else if v = 2 then ({ s with pins := { s.pins with ordered := 2 } }, 0)
  else (s, valueRange)

end State

/-- THROTTLE_ASSERT (R428). -/
def execThrottleAssert (s : State) : Host.Outcome State Fault Refusal := .next (s.throttle true)

/-- THROTTLE_RELEASE (R428). -/
def execThrottleRelease (s : State) : Host.Outcome State Fault Refusal := .next (s.throttle false)

/-- PWR_GOOD_RISE (R429). -/
def execPwrGoodRise (s : State) : Host.Outcome State Fault Refusal := .next s.powerRise

/-- COLD_RESET_ASSERT (R429). -/
def execColdResetAssert (s : State) : Host.Outcome State Fault Refusal := .next s.coldAssert

/-- COLD_RESET_RELEASE (R432). -/
def execColdResetRelease (us dies light : Nat) (s : State) : Host.Outcome State Fault Refusal := .next (s.coldRelease us dies light)

/-- WARM_RESET_ENTRY (R431). -/
def execWarmResetEntry (pin : Bool) (s : State) : Host.Outcome State Fault Refusal := .next (s.warmEntry pin)

/-- WARM_RESET_RELEASE (R431). -/
def execWarmResetRelease (us dies : Nat) (s : State) : Host.Outcome State Fault Refusal := .next (s.warmRelease us dies)

/-- BRUORA_TRAINING_BUDGET_END (R432). -/
def execBruoraTrainingBudgetEnd (s : State) : Host.Outcome State Fault Refusal := .next s.budgetEnd

/-- STARTUP_TIMEOUT (R433). -/
def execStartupTimeout (s : State) : Host.Outcome State Fault Refusal := .next s.startTimeout

/-- FW_SLOT_WRITE_COMPLETE (R382). -/
def execFwSlotWriteComplete (fetched : Bool) (s : State) : Host.Outcome State Fault Refusal := .next (s.updateStep fetched)

/-- TRAINING_COMPLETE (R309). -/
def execTrainingComplete (p lanes package port incarnation : Nat) (ok : Bool) (s : State) : Host.Outcome State Fault Refusal :=
  .next ((s.endTraining p lanes package port incarnation ok).portSettled p)

/-- PORT_DARK_TIMEOUT (R308). -/
def execPortDarkTimeout (p : Nat) (s : State) : Host.Outcome State Fault Refusal := .next ((s.darkPort p).portSettled p)

end Sys2Proof.Machine
end

