-- ==== Sys2Proof/Machine/Dictionary.lean ====
section
/-! DEFINITION. Machine/Dictionary.lean: dictionary requests of every path: checks, arbitration among the orders of one
clk, what a write to each entry does, and the memory-mapped aperture (15_object_dictionary.md). -/
namespace Sys2Proof.Machine

/-! ### Kinds of entries (R344, R346) -/

/-- An entry of a family, by its first index. -/
def isEntry (index sub base n : Nat) : Bool := (dictFamily index).1 == base && sub == n

/-- Enable entries: 0 is the more restrictive. -/
def enableEntry (index sub : Nat) : Bool := isEntry index sub 0x2A10 3 || isEntry index sub 0x2B10 1

/-- The more restrictive entry of a run-state pair, and its partner. -/
def runPairs : List ((Nat × Nat) × (Nat × Nat)) :=
  [((0x2900, 0x12), (0x2900, 0x13)), ((0x2000, 0x10), (0x2000, 0x11)), ((0x2C00, 0x06), (0x2C00, 0x07))]

/-- Entries that the tables mark as run-state. -/
def runState (index sub : Nat) : Bool :=
  enableEntry index sub || isEntry index sub 0x2D00 0x11 || isEntry index sub 0x2F00 3 ||
    runPairs.any fun p => p.1 == (index, sub) || p.2 == (index, sub)

/-- R344: order entries hold no value. -/
def orderEntry (index sub : Nat) : Bool :=
  [(0x2900, 0x11), (0x2900, 0x12), (0x2900, 0x13), (0x2000, 0x10), (0x2000, 0x11), (0x2C00, 0x06), (0x2C00, 0x07),
   (0x2E00, 0x12), (0x2D00, 0x0D), (0x2B00, 0x0A)].contains (index, sub)

/-- The value that a write gives. -/
def written (r : Request) : Nat := leNat r.data

/-- Rank of a master and order within a rank (R346), as one number. -/
def pathOrder : DictPath → Nat
  | .management => 0
  | .mailbox => 1
  | .hostMctp => 2
  | .dictCommand q => 3 + q
  | .peer p => 2 ^ 21 + p

/-- Two writes of one clk that contradict each other (R344). -/
def contradict (a b : Request) : Bool :=
  if a.index == b.index && a.sub == b.sub then
    !orderEntry a.index a.sub && written a != written b && (match dictEntry? a.index a.sub with
      | some e => e.access != .w1c
      | none => false)
  else
    (runPairs.any fun p => (p.1 == (a.index, a.sub) && p.2 == (b.index, b.sub)) || (p.2 == (a.index, a.sub) && p.1 == (b.index, b.sub))) &&
      written a == written b

/-- Of two contradictory orders, does the first win? The more restrictive of run-state orders, else the lower rank (R346). -/
def winsOver (a b : Request) : Bool :=
  if !(a.index == b.index && a.sub == b.sub) then runPairs.any fun p => p.1 == (a.index, a.sub)
  else if enableEntry a.index a.sub then decide (written a < written b)
  else if runState a.index a.sub then decide (written b < written a)
  else pathOrder a.path < pathOrder b.path

/-- The range that an entry's table states. -/
def entryRange (base sub : Nat) : Option (Nat × Nat) := match base, sub with
  | 0x2000, 0x01 => some (0, 63)
  | 0x2000, 0x02 => some (1, 64)
  | 0x2120, 0x01 => some (0, 5)
  | 0x2210, 0x08 => some (100, 1000000)
  | 0x2400, 0x01 => some (0, 1)
  | 0x2500, 0x01 => some (16384, 17563648)
  | 0x2600, 0x07 => some (1, 7)
  | 0x2700, 0x05 => some (16, 384)
  | 0x2800, 0x05 => some (1, 60000)
  | 0x2800, 0x06 => some (1, 15)
  | 0x2900, 0x05 => some (100, 1000000)
  | 0x2900, 0x12 | 0x2900, 0x13 | 0x2E00, 0x12 => some (0, 2 ^ 20 - 1)
  | 0x2A00, 0x01 => some (0, 1)
  | 0x2A00, 0x06 => some (1000000, 20000000)
  | 0x2A00, 0x0E => some (0, 4095)
  | 0x2B00, 0x07 => some (100, 1000000)
  | 0x2C00, 0x09 => some (0, 5)
  | 0x2C10, 0x09 => some (0, 1023)
  | 0x2D00, 0x0D => some (0, 3)
  | 0x2E00, 0x0D => some (0, 3)
  | 0x2E00, 0x13 => some (0, 15)
  | _, _ => none

namespace State

/-! ### What a write does -/

/-- A write that stores its value: a kept one is committed and counted (R340). -/
def storeValue (s : State) (index sub : Nat) (e : DictEntry) (v : Nat) : State :=
  if e.kept then s.writeKept index sub e.default v else s.setReg index sub v

/-- R15, R367: an order about a unit. -/
def unitOrder (s : State) (v : Nat) (refused : Option Nat) (go : State → State) : State × Nat :=
  if s.unitLocBad v then (s, ownerRefused 0x2002)
  else match refused with
    | some code => (s, ownerRefused code)
    | none => (go s, 0)

/-- R286: both halves of a rate, with one of them replaced. -/
def rateBad (n d : Nat) : Bool := n == 0 || d == 0 || n < d || 480 * d < n

/-- R399, R400: a freeze; one of the same clk as a thaw follows it. -/
def freezeWrite (s : State) (v : Nat) (thawing : Bool) : State :=
  if v = 0 then s
  else
    let s1 := if thawing then s.thaw else s
    s1.orderFreeze (s1.reel s1.noticeDie + 2000)

/-- R404: the first events after the enable are syncs. -/
def dayEnable (s : State) (index sub : Nat) (e : DictEntry) (v : Nat) : State :=
  let on := s.keptReg 0x2E00 0x0C 0 = 0 ∧ v = 1
  let s1 := s.storeValue index sub e v
  if on then [0, 1].foldl daySync s1 else s1

/-- R316–R320: a DICT command's write of `WINDOW_OPEN` or `WINDOW_CLOSE`, for its queue's task. -/
def windowOrder (s : State) (r : Request) (opens : Bool) : State × Nat :=
  match r.path with
  | .dictCommand q => (match s.queue? q with
    | none => (s, ownerRefused (if opens then 0x2B13 else 0x2B14))
    | some k =>
      if opens then
        let w := WindowRecord.ofBytes r.data
        match lowest (s.windowOpenCodes k w), s.reachAll k.region k.pasid (windowAccesses w) with
        | some code, _ => (s, ownerRefused code)
        | none, some (.failed code _, _) => (s, ownerRefused code)
        | none, _ => (s.addWindow q k w, 0)
      else match s.dropWindow k.pasid (written r) with
        | none => (s, ownerRefused 0x2B14)
        | some t => (t, 0))
  | _ => (s, pathNotAllowed)

/-- R317: does a window order wait for pages? -/
def windowWaits (s : State) (r : Request) : Bool :=
  r.index == 0x2B00 && r.sub == 0x09 && (match r.path with
    | .dictCommand q => (match s.queue? q with
      | none => false
      | some k =>
        let w := WindowRecord.ofBytes r.data
        (lowest (s.windowOpenCodes k w)).isNone && (match s.reachAll k.region k.pasid (windowAccesses w) with
          | none | some (.failed .., _) => false
          | some _ => true))
    | _ => false)

/-- What a write that is admitted does, by entry. Answers the abort, 0 for success. `mates` are the admitted orders of the
same clk. -/
def applyEntry (s : State) (r : Request) (e : DictEntry) (mates : List Request) : State × Nat :=
  let v := written r
  let (base, m) := dictFamily r.index
  let store := s.storeValue r.index r.sub e v
  let bad := (e.ty == 1 && 1 < v) || (match entryRange base r.sub with
    | some (lo, hi) => v < lo || hi < v
    | none => false)
  let has (i n : Nat) : Bool := mates.any fun x => x.index == i && x.sub == n && written x == 1
  -- R389: a close of the same clk takes effect after an opening
  let reshut (o : State × Nat) : State × Nat := if has 0x2D00 0x11 then (o.1.closeScopes 15, o.2) else o
  if bad then (s, valueRange)
  else match base, r.sub with
  | 0x2000, 0x10 => s.unitOrder v none (fun s => s.retireUnit v)
  | 0x2000, 0x11 => s.unitOrder v (if s.fuses.spare.any (samePlace v) then some 0x2003 else none) (fun s => s.returnUnit v)
  | 0x2900, 0x10 => (s.bindQueue (v % 2 ^ 32) (v / 2 ^ 32), 0)
  | 0x2900, 0x11 => (s.unbindQueue v, 0)
  | 0x2900, 0x12 => (s.stopQueue v, 0)
  | 0x2900, 0x13 => (s.startQueue v, 0)
  | 0x2A00, 0x01 =>
    if v = 1 ∧ !bit s.fuses.features 16 then (s, valueRange)
    else if s.cadence = (v == 1) then (store, 0)
    else (store.changeMode (v == 1), 0)
  | 0x2A00, 0x0F =>
    let n := s.reg 0x2A00 0x0E 0
    if s.scheduleBad n v then (s, valueRange) else (s.setSchedule n v, 0)
  | 0x2A10, 0x01 => if rateBad v (s.rateOf m).2 then (s, valueRange) else (store.noteRate m (s.rateOf m), 0)
  | 0x2A10, 0x02 => if rateBad (s.rateOf m).1 v then (s, valueRange) else (store.noteRate m (s.rateOf m), 0)
  | 0x2A10, 0x03 => (store.enableInput m (v == 1), 0)
  | 0x2A10, 0x04 => (s.setInput m { s.input m with next := some v }, 0)
  | 0x2B00, 0x09 => s.windowOrder r true
  | 0x2B00, 0x0A => s.windowOrder r false
  | 0x2B10, 0x01 => if v = 1 ∧ !bit s.fuses.features m then (s, valueRange) else (store.enablePort m (v == 1), 0)
  | 0x2C00, 0x06 => s.unitOrder v none (fun s => s.quarantineUnit v)
  | 0x2C00, 0x07 => s.unitOrder v (if s.inQuarantine v then none else some 0x2C30) (fun s => s.releaseUnit v)
  | 0x2C10, 0x01 => (match s.ledgerRetire m v with
    | some t => (t, 0)
    | none => (s, valueRange))
  | 0x2C10, 0x04 => if v = 1 then (s.setLedger m { s.ledger m with overflow := false }, 0) else (s, 0)
  | 0x2C10, 0x08 => if v = 1 then (s.clearWorst m, 0) else (s, 0)
  | 0x2D00, 0x07 => s.fwUpdate v
  | 0x2D00, 0x0C => s.rollbackCommit v
  | 0x2D00, 0x0D => s.keyRevoke v
  | 0x2D00, 0x0F => s.debugLockRaise v
  | 0x2D00, 0x11 => if v = 1 then (s.closeScopes 15, 0) else (s, 0)
  | 0x2D00, 0x13 => reshut (s.debugResponse v)
  | 0x2D00, 0x14 => reshut (s.ownerPassword v)
  | 0x2D00, 0x15 => s.ownerHashProgram v
  | 0x2D00, 0x16 => s.decommission v
  | 0x2E00, 0x01 => (s.freezeWrite v (has 0x2E00 0x02), 0)
  | 0x2E00, 0x02 => if v = 1 then (s.thaw, 0) else (s, 0)
  | 0x2E00, 0x0C => (s.dayEnable r.index r.sub e v, 0)
  | 0x2E00, 0x12 => s.breakResume v
  | 0x2E60, _ => if breakpointMalformed v then (s, ownerRefused 0x2E11) else (s.setBreakpoint r.sub v, 0)
  | 0x2F00, 0x03 => s.orderReset v
  | 0x2F00, 0x07 => s.powerCap v
  | _, _ => (store, 0)

/-- R338: the abort of the value, where its entry refuses it. -/
def valueAborts (s : State) (r : Request) : List Nat := match dictEntry? r.index r.sub with
  | none => []
  | some e => cond ((s.applyEntry r e []).2 != 0) (s.applyEntry r e []).2

/-- Every check of R338 and, where they pass, the write. Of several aborts the lowest is reported. -/
def tryWrite (s : State) (r : Request) (mates : List Request) : State × Nat :=
  match s.accessAborts r true, dictEntry? r.index r.sub with
  | [], some e => s.applyEntry r e mates
  | as, _ => (s, (lowestAbort (as ++ s.valueAborts r)).getD noSubindex)

/-- R344: does an order pass every check? -/
def passes (s : State) (r : Request) : Bool := (s.tryWrite r []).2 == 0

/-- R346: an order that passes, contradicts this one and wins over it. -/
def loses (s : State) (r : Request) (rivals : List Request) : Bool :=
  rivals.any fun x => contradict r x && winsOver x r && s.passes x

/-! ### Answers (R332, R335, R349) -/

def responseHeader (op tag abort len : Nat) : List Byte :=
  leBytes 16 (op + 2 ^ 8 * (tag % 256) + 2 ^ 16 * abort + 2 ^ 48 * len)

/-- R335: a response after the MCTP message type: the enterprise number, the message byte 0x02, header and data. That the
enterprise number stands big-endian is PRESUMED from DSP0236 (log entry 170). -/
def mctpBytes (header data : List Byte) : List Byte :=
  (0x7F : Byte) :: (leBytes 4 Config.vendorEnterprise).reverse ++ [0x02] ++ header ++ data

/-- R335: the management message that returns a response to a peer; the request's data bytes came by its link. -/
def answerPeer (s : State) (peer : Nat) (r : Request) (bytes : List Byte) : State :=
  let n := (Table.find? peer s.bruora.sequence).getD 0
  let s1 := match s.arrivalPort peer with
    | some p => s.bump 0x2E30 (0x11 + 2 * p) (16 + r.data.length)
    | none => s
  { s1 with bruora := { s1.bruora with sequence := Table.put peer ((n + 1) % 2 ^ 32) s1.bruora.sequence } }.answer
    { kind := 6, src := s.packageId, dst := peer, window := 0, seq := n, offset := 0, transit := false, length := bytes.length,
      incarnation := s.bruora.incarnation, segs := [(0, bytes)] }

/-- Send a response by its path; for the mailbox it stands in the page, with `DONE` and an interrupt. -/
def respond (s : State) (op0 : Nat) (r : Request) (abort : Nat) (data : List Byte) : State :=
  let op := r.badOp.getD op0
  let header := responseHeader op r.tag abort data.length
  let s1 := s.send (.response r.path op r.tag abort data)
  match r.path with
  | .management => s1.send (.mctp false r.endpoint (mctpBytes header data))
  | .hostMctp => s1.send (.mctp true r.endpoint (mctpBytes header data))
  | .peer p => s1.answerPeer p r (header ++ data)
  | .mailbox =>
    { s1 with dict := { s1.dict with busy := false, done := true, response := header ++ data } }.interrupt
      (s1.reg 0x1010 0x04 0xFFFF)
  | .dictCommand _ => s1

def abortWith (s : State) (op : Nat) (r : Request) (abort : Nat) : State := (s.countAbort r abort).respond op r abort []

/-! ### The mailbox page (R349) -/

/-- The request that a page holds, with its `OP`. -/
def pageRequest (page : List Byte) : Nat × Request :=
  let op := field page 0 0
  let len := field page 6 7
  (op, { path := .mailbox, tag := field page 1 1, index := field page 2 3, sub := field page 4 4, length := len, offset := field page 8 11,
         reserved := !zeroBytes page 5 5 || !zeroBytes page 12 15, data := if op = 1 then slice page 16 (min len 1024) else [] })

/-- R335: is its message one that the engine accepts: of at most 1,048 bytes after the MCTP type, or of one segment? -/
def messageFits (r : Request) : Bool := match r.path with
  | .management | .hostMctp => 4 + 1 + 16 + r.data.length ≤ 1048
  | .peer _ => 16 + r.data.length ≤ 4096
  | _ => true

/-- Can this request be served now? One of the mailbox must be the one that its page holds; while the engine is isolated
none arrives (R421). A request to an entry waits until every earlier one to it is complete (R336). One whose commit the loss
of power cuts comes by `REQUEST_WRITE` (R341). -/
def arrives (s : State) (op : Nat) (r : Request) : Bool :=
  !s.pins.isolated && r.cut.isNone && messageFits r && (s.entryUsers r.index r.sub).isEmpty && !(op == 1 && s.windowWaits r) && (match r.path with
    | .mailbox => s.dict.busy && pageRequest s.dict.request == (op, r)
    | _ => true)

/-! ### Serving (R333–R337) -/

/-- R341: the dies (mask) whose copy of the entry fails to commit what an order writes. -/
def orderStuck (s : State) (r : Request) : Nat := match dictEntry? r.index r.sub with
  | some e => if e.kept then s.commitFails r.index r.sub e.default (written r) else 0
  | none => 0

/-- A write. One that a copy of a kept entry fails to commit leaves the entry, and all else, as it stood (R341). -/
def serveWrite (s : State) (r : Request) (rivals : List Request) : State :=
  if !s.arrives 1 r then s
  else
    let s0 := s.bump 0x1010 0x05 1
    let (s1, a) := s0.tryWrite r (rivals.filter s0.passes)
    if a != 0 then s1.abortWith 1 r a
    else if s0.loses r rivals then (s0.bump 0x1010 0x07 1).abortWith 1 r superseded
    else if s0.orderStuck r != 0 then
      (s0.commitNotices (key r.index r.sub) (s0.orderStuck r)).abortWith 1 r keptFailure
    else match dictEntry? r.index r.sub with
      | some e => (notePrior s0 s1 r.index r.sub e).respond 1 r 0 []
      | none => s1.respond 1 r 0 []

/-- A read. Reading `DEBUG_NONCE` draws a fresh one (R387). -/
def serveRead (s : State) (r : Request) : State :=
  if !s.arrives 0 r then s
  else
    let s0 := s.bump 0x1010 0x05 1
    match lowestAbort (s0.accessAborts r false), dictEntry? r.index r.sub with
    | some a, _ => s0.abortWith 0 r a
    | none, none => s0.abortWith 0 r noSubindex
    | none, some e =>
      if r.index = 0x2D00 ∧ r.sub = 0x12 then
        let (s1, n) := s0.freshNonce
        s1.respond 0 r 0 (((leBytes 48 n).drop r.offset).take r.length)
      else s0.respond 0 r 0 (s0.readBytes r e)

/-- R334: what a describe returns. -/
def describeBytes (index : Nat) (e : DictEntry) : List Byte :=
  let code := match e.access with
    | .ro => 0
    | .rw => 1
    | .wo => 2
    | .w1c => 3
  leBytes 1 e.ty ++ leBytes 1 0 ++ leBytes 2 e.len ++
    leBytes 1 (code + 4 * boolNat e.priv + 8 * boolNat e.kept + 16 * boolNat (runState index e.sub)) ++ leBytes 3 0 ++ leBytes 8 e.default

/-- A describe: any master, any path (R329). -/
def serveDescribe (s : State) (r : Request) : State :=
  if !s.arrives 2 r then s
  else
    let s0 := s.bump 0x1010 0x05 1
    match lowestAbort (s0.headerAborts r false), dictEntry? r.index r.sub with
    | some a, _ => s0.abortWith 2 r a
    | none, none => s0.abortWith 2 r noSubindex
    | none, some e => s0.respond 2 r 0 (describeBytes r.index e)

/-- A row of one entry: the request must name it. -/
def ownRow (s : State) (r : Request) (rivals : List Request) (base : Nat) (subs : List Nat) : State :=
  if (dictFamily r.index).1 = base ∧ subs.contains r.sub then s.serveWrite r rivals else s

/-! ### The aperture (R348–R350, R421) -/

def stray (s : State) : State := s.bump 0x1010 0x09 1

/-- `GO`: the page is taken, or dropped while a request is served. A reserved `OP` is answered at once, with the lowest code that holds. -/
def mailboxGo (s : State) (header data : List Byte) : State :=
  if s.pins.isolated then s
  else if s.dict.busy then s.stray
  else
    let page := slice header 0 16 ++ slice data 0 1024
    let s1 : State := { s with dict := { s.dict with busy := true, request := page } }
    let (op, r) := pageRequest page
    if 2 < op then
      let r1 : Request := { r with badOp := some op }
      (s1.bump 0x1010 0x05 1).abortWith op r1 ((lowestAbort (s1.headerAborts r1 false)).getD malformed)
    else s1

def mailboxDone (s : State) (value : Nat) : State :=
  if s.pins.isolated || !bit value 1 then s else { s with dict := { s.dict with done := false } }

/-- R348, R349: does an access of the aperture lie outside its regions, or on a place of the mailbox page that takes none? -/
def isStray (s : State) (write : Bool) (off : Nat) : Bool :=
  let m := off - 0x800000
  let inPage := 0x800000 ≤ off && off < 0x801000
  if inPage then
    if write then !(m ≤ 0x40F || (0xFF0 ≤ m && m < 0x1000)) || (m ≤ 0x40F && s.dict.busy)
    else !(m ≤ 0x40F || (0x800 ≤ m && m ≤ 0xC0F) || (0xFF0 ≤ m && m < 0x1000))
  else
    0x800000 ≤ off && off < 2 ^ 24 && !(0x810000 ≤ off && off < 0x820200)

/-- R348; while the fabric port is isolated its responder answers a read and drops a write (R421). -/
def strayAccess (s : State) (write : Bool) (off : Nat) : State :=
  if s.pins.isolated then (if write then s else s.send (.unsupported off))
  else if s.isStray write off then s.stray
  else s

/-- R350: a vector table entry; clearing the mask signals a pending vector once. -/
def vectorWrite (s : State) (v address data : Nat) (mask : Bool) : State :=
  if s.pins.isolated || 4096 ≤ v then s
  else
    let x : IrqVector := { address := address % 2 ^ 64, data := data % 2 ^ 32, mask := mask, pending := (s.vector v).pending }
    if !mask && x.pending then (s.setVector v { x with pending := false }).interrupt v else s.setVector v x

end State

/-! ### Requests -/

/-- R341: the loss of power cuts the commit of a write order, with the dies (mask) whose copies have committed. -/
def State.cutWrite (s : State) (r : Request) (rivals : List Request) (dies : Nat) : State :=
  match dictEntry? r.index r.sub with
  | some e =>
    if e.kept && s.arrives 1 r && s.passes r && !s.loses r rivals then s.cutKept r.index r.sub e.default (written r) dies else s
  | none => s

/-- PWR_GOOD_FALL (R420). -/
def execPwrGoodFall (s : State) : Host.Outcome State Fault Refusal := .next s.powerFall

/-- REQUEST_READ (R333). -/
def execRequestRead (r : Request) (s : State) : Host.Outcome State Fault Refusal := .next (s.serveRead r)

/-- REQUEST_WRITE (R337): any entry; those with rows of their own do there the same. A write whose commit the loss of power
cuts is not answered (R341, R420). -/
def execRequestWrite (r : Request) (rivals : List Request) (s : State) : Host.Outcome State Fault Refusal :=
  .next (match r.cut with
    | some dies => (s.cutWrite { r with cut := none } rivals dies).powerFall
    | none => s.serveWrite r rivals)

/-- REQUEST_DESCRIBE (R334). -/
def execRequestDescribe (r : Request) (s : State) : Host.Outcome State Fault Refusal := .next (s.serveDescribe r)

/-- DEBUG_NONCE_READ (R387). -/
def execDebugNonceRead (r : Request) (s : State) : Host.Outcome State Fault Refusal :=
  .next (if r.index = 0x2D00 ∧ r.sub = 0x12 then s.serveRead r else s)

/-- MAILBOX_GO (R349). -/
def execMailboxGo (header data : List Byte) (s : State) : Host.Outcome State Fault Refusal := .next (s.mailboxGo header data)

/-- MAILBOX_DONE_CLEAR (R349). -/
def execMailboxDoneClear (value : Nat) (s : State) : Host.Outcome State Fault Refusal := .next (s.mailboxDone value)

/-- MMIO_STRAY_ACCESS (R348). -/
def execMmioStrayAccess (write : Bool) (offset : Nat) (s : State) : Host.Outcome State Fault Refusal :=
  .next (s.strayAccess write offset)

/-- VECTOR_TABLE_WRITE (R350). -/
def execVectorTableWrite (v address data : Nat) (mask : Bool) (s : State) : Host.Outcome State Fault Refusal :=
  .next (s.vectorWrite v address data mask)

/-! ### Writes to the entries that have rows of their own -/

/-- QUEUE_BIND (R257). -/
def execQueueBind (r : Request) (rivals : List Request) (s : State) : Host.Outcome State Fault Refusal :=
  .next (s.ownRow r rivals 0x2900 [0x10])

/-- QUEUE_UNBIND (R261). -/
def execQueueUnbind (r : Request) (rivals : List Request) (s : State) : Host.Outcome State Fault Refusal :=
  .next (s.ownRow r rivals 0x2900 [0x11])

/-- QUEUE_STOP (R261). -/
def execQueueStop (r : Request) (rivals : List Request) (s : State) : Host.Outcome State Fault Refusal :=
  .next (s.ownRow r rivals 0x2900 [0x12])

/-- QUEUE_START (R261). -/
def execQueueStart (r : Request) (rivals : List Request) (s : State) : Host.Outcome State Fault Refusal :=
  .next (s.ownRow r rivals 0x2900 [0x13])

/-- RETIRE_UNIT (R15). -/
def execRetireUnit (r : Request) (rivals : List Request) (s : State) : Host.Outcome State Fault Refusal :=
  .next (s.ownRow r rivals 0x2000 [0x10])

/-- RETURN_UNIT (R15). -/
def execReturnUnit (r : Request) (rivals : List Request) (s : State) : Host.Outcome State Fault Refusal :=
  .next (s.ownRow r rivals 0x2000 [0x11])

/-- QUARANTINE_UNIT (R367). -/
def execQuarantineUnit (r : Request) (rivals : List Request) (s : State) : Host.Outcome State Fault Refusal :=
  .next (s.ownRow r rivals 0x2C00 [0x06])

/-- RELEASE_UNIT (R367). -/
def execReleaseUnit (r : Request) (rivals : List Request) (s : State) : Host.Outcome State Fault Refusal :=
  .next (s.ownRow r rivals 0x2C00 [0x07])

/-- LEDGER_HEAD (R370). -/
def execLedgerHead (r : Request) (rivals : List Request) (s : State) : Host.Outcome State Fault Refusal :=
  .next (s.ownRow r rivals 0x2C10 [0x01])

/-- LEDGER_OVERFLOW_CLEAR (R370). -/
def execLedgerOverflowClear (r : Request) (rivals : List Request) (s : State) : Host.Outcome State Fault Refusal :=
  .next (s.ownRow r rivals 0x2C10 [0x04])

/-- WORST_CLEAR (R370). -/
def execWorstClear (r : Request) (rivals : List Request) (s : State) : Host.Outcome State Fault Refusal :=
  .next (s.ownRow r rivals 0x2C10 [0x08])

/-- INPUT_ENABLE (R285). -/
def execInputEnable (r : Request) (rivals : List Request) (s : State) : Host.Outcome State Fault Refusal :=
  .next (s.ownRow r rivals 0x2A10 [0x03])

/-- NEXT_FRAME (R285). -/
def execNextFrame (r : Request) (rivals : List Request) (s : State) : Host.Outcome State Fault Refusal :=
  .next (s.ownRow r rivals 0x2A10 [0x04])

/-- CADENCE_RATE (R286). -/
def execCadenceRate (r : Request) (rivals : List Request) (s : State) : Host.Outcome State Fault Refusal :=
  .next (s.ownRow r rivals 0x2A10 [0x01, 0x02])

/-- SCHEDULE_ENTRY (R290). -/
def execScheduleEntry (r : Request) (rivals : List Request) (s : State) : Host.Outcome State Fault Refusal :=
  .next (s.ownRow r rivals 0x2A00 [0x0F])

/-- BELLMAN_MODE (R299). -/
def execBellmanMode (r : Request) (rivals : List Request) (s : State) : Host.Outcome State Fault Refusal :=
  .next (s.ownRow r rivals 0x2A00 [0x01])

/-- FW_UPDATE (R382). -/
def execFwUpdate (r : Request) (rivals : List Request) (s : State) : Host.Outcome State Fault Refusal :=
  .next (s.ownRow r rivals 0x2D00 [0x07])

/-- ROLLBACK_COMMIT (R383). -/
def execRollbackCommit (r : Request) (rivals : List Request) (s : State) : Host.Outcome State Fault Refusal :=
  .next (s.ownRow r rivals 0x2D00 [0x0C])

/-- KEY_REVOKE (R384). -/
def execKeyRevoke (r : Request) (rivals : List Request) (s : State) : Host.Outcome State Fault Refusal :=
  .next (s.ownRow r rivals 0x2D00 [0x0D])

/-- DEBUG_LOCK_RAISE (R377). -/
def execDebugLockRaise (r : Request) (rivals : List Request) (s : State) : Host.Outcome State Fault Refusal :=
  .next (s.ownRow r rivals 0x2D00 [0x0F])

/-- OWNER_HASH_PROGRAM (R377). -/
def execOwnerHashProgram (r : Request) (rivals : List Request) (s : State) : Host.Outcome State Fault Refusal :=
  .next (s.ownRow r rivals 0x2D00 [0x15])

/-- DECOMMISSION (R378). -/
def execDecommission (r : Request) (rivals : List Request) (s : State) : Host.Outcome State Fault Refusal :=
  .next (s.ownRow r rivals 0x2D00 [0x16])

/-- SCOPE_CLOSE (R386). -/
def execScopeClose (r : Request) (rivals : List Request) (s : State) : Host.Outcome State Fault Refusal :=
  .next (s.ownRow r rivals 0x2D00 [0x11])

/-- DEBUG_RESPONSE (R387). -/
def execDebugResponse (r : Request) (rivals : List Request) (s : State) : Host.Outcome State Fault Refusal :=
  .next (s.ownRow r rivals 0x2D00 [0x13])

/-- OWNER_PASSWORD (R388). -/
def execOwnerPassword (r : Request) (rivals : List Request) (s : State) : Host.Outcome State Fault Refusal :=
  .next (s.ownRow r rivals 0x2D00 [0x14])

/-- COUNTER_FREEZE (R399). -/
def execCounterFreeze (r : Request) (rivals : List Request) (s : State) : Host.Outcome State Fault Refusal :=
  .next (s.ownRow r rivals 0x2E00 [0x01])

/-- COUNTER_THAW (R400). -/
def execCounterThaw (r : Request) (rivals : List Request) (s : State) : Host.Outcome State Fault Refusal :=
  .next (s.ownRow r rivals 0x2E00 [0x02])

/-- BREAKPOINT (R412). -/
def execBreakpoint (r : Request) (rivals : List Request) (s : State) : Host.Outcome State Fault Refusal :=
  .next (s.ownRow r rivals 0x2E60 [0x01, 0x02, 0x03, 0x04, 0x05, 0x06, 0x07, 0x08])

/-- BREAK_RESUME (R414). -/
def execBreakResume (r : Request) (rivals : List Request) (s : State) : Host.Outcome State Fault Refusal :=
  .next (s.ownRow r rivals 0x2E00 [0x12])

/-- POWER_CAP (R427). -/
def execPowerCap (r : Request) (rivals : List Request) (s : State) : Host.Outcome State Fault Refusal :=
  .next (s.ownRow r rivals 0x2F00 [0x07])

/-- RESET_ORDER_WARM (R431): an order of 1. -/
def execResetOrderWarm (r : Request) (rivals : List Request) (s : State) : Host.Outcome State Fault Refusal :=
  .next (if written r = 1 then s.ownRow r rivals 0x2F00 [0x03] else s)

/-- RESET_ORDER_COLD (R429): an order of 2. -/
def execResetOrderCold (r : Request) (rivals : List Request) (s : State) : Host.Outcome State Fault Refusal :=
  .next (if written r = 2 then s.ownRow r rivals 0x2F00 [0x03] else s)

end Sys2Proof.Machine
end

