-- ==== Sys2Proof/Machine/QueueCommands.lean ====
section
/-! DEFINITION. Machine/QueueCommands.lean: the rows of the commands of a queue. Each lets the Drover take the next
command of queue q, where that command is the row's (R259, R262, R270); what the command does stands in
Issue.lean and Run.lean. Where the queue is not ready or its next command is another row's, nothing changes
(log entry 6). -/
namespace Sys2Proof.Machine
open State

/-- Attend: an ATTEND (R126, R133). -/
def execAttend (q : Nat) (s : State) : Host.Outcome State Fault Refusal := .next (s.issueNext (takesClass 1) q)

/-- Gemm: a GEMM (R68, R89). -/
def execGemm (q : Nat) (s : State) : Host.Outcome State Fault Refusal := .next (s.issueNext (takesClass 2) q)

/-- Chain2: a CHAIN2 (R159). -/
def execChain2 (q : Nat) (s : State) : Host.Outcome State Fault Refusal := .next (s.issueNext (takesClass 3) q)

/-- Norm: a NORM (R120, R122). -/
def execNorm (q : Nat) (s : State) : Host.Outcome State Fault Refusal := .next (s.issueNext (takesClass 4) q)

/-- Func: a FUNC (R111, R155). -/
def execFunc (q : Nat) (s : State) : Host.Outcome State Fault Refusal := .next (s.issueNext (takesClass 5) q)

/-- MoveTransfer: a MOVE in transfer form (R219). -/
def execMoveTransfer (q : Nat) (s : State) : Host.Outcome State Fault Refusal := .next (s.issueNext (takesForm 6 3 0 Recs.form) q)

/-- MoveFill: a MOVE fill (R207). -/
def execMoveFill (q : Nat) (s : State) : Host.Outcome State Fault Refusal := .next (s.issueNext (takesForm 6 3 1 Recs.form) q)

/-- MoveCopy: a MOVE copy (R207). -/
def execMoveCopy (q : Nat) (s : State) : Host.Outcome State Fault Refusal := .next (s.issueNext (takesForm 6 3 2 Recs.form) q)

/-- MoveConvert: a MOVE convert (R54, R55, R157). -/
def execMoveConvert (q : Nat) (s : State) : Host.Outcome State Fault Refusal := .next (s.issueNext (takesForm 6 3 3 Recs.form) q)

/-- KvAppend: a KV_APPEND (R183–R185). -/
def execKvAppend (q : Nat) (s : State) : Host.Outcome State Fault Refusal := .next (s.issueNext (takesClass 7) q)

/-- KvGather: a KV_GATHER (R189). -/
def execKvGather (q : Nat) (s : State) : Host.Outcome State Fault Refusal := .next (s.issueNext (takesClass 8) q)

/-- KvCreate: a KV_SHARE CREATE (R182). -/
def execKvCreate (q : Nat) (s : State) : Host.Outcome State Fault Refusal := .next (s.issueNext (takesForm 9 5 0 Recs.kvOp) q)

/-- KvSharePrefix: a KV_SHARE SHARE (R182). -/
def execKvSharePrefix (q : Nat) (s : State) : Host.Outcome State Fault Refusal := .next (s.issueNext (takesForm 9 5 1 Recs.kvOp) q)

/-- KvFree: a KV_SHARE FREE (R182). -/
def execKvFree (q : Nat) (s : State) : Host.Outcome State Fault Refusal := .next (s.issueNext (takesForm 9 5 2 Recs.kvOp) q)

/-- KvTruncate: a KV_SHARE TRUNCATE (R182). -/
def execKvTruncate (q : Nat) (s : State) : Host.Outcome State Fault Refusal := .next (s.issueNext (takesForm 9 5 3 Recs.kvOp) q)

/-- KvHint: a KV_SHARE HINT (R182, R186). -/
def execKvHint (q : Nat) (s : State) : Host.Outcome State Fault Refusal := .next (s.issueNext (takesForm 9 5 4 Recs.kvOp) q)

/-- KvQuery: a KV_SHARE QUERY (R182). -/
def execKvQuery (q : Nat) (s : State) : Host.Outcome State Fault Refusal := .next (s.issueNext (takesForm 9 5 5 Recs.kvOp) q)

/-- SyncSemaphore: a SYNC of form 0 (R269). -/
def execSyncSemaphore (q : Nat) (s : State) : Host.Outcome State Fault Refusal := .next (s.issueNext (takesForm 10 4 0 Recs.form) q)

/-- SyncCounterWait: a SYNC of form 1 (R269). -/
def execSyncCounterWait (q : Nat) (s : State) : Host.Outcome State Fault Refusal := .next (s.issueNext (takesForm 10 4 1 Recs.form) q)

/-- SyncMemoryWait: a SYNC of form 2 (R269). -/
def execSyncMemoryWait (q : Nat) (s : State) : Host.Outcome State Fault Refusal := .next (s.issueNext (takesForm 10 4 2 Recs.form) q)

/-- SyncMemoryAdd: a SYNC of form 3 (R269). -/
def execSyncMemoryAdd (q : Nat) (s : State) : Host.Outcome State Fault Refusal := .next (s.issueNext (takesForm 10 4 3 Recs.form) q)

/-- SyncMemoryStore: a SYNC of form 4 (R269). -/
def execSyncMemoryStore (q : Nat) (s : State) : Host.Outcome State Fault Refusal := .next (s.issueNext (takesForm 10 4 4 Recs.form) q)

/-- Table: a TABLE (R117). -/
def execTable (q : Nat) (s : State) : Host.Outcome State Fault Refusal := .next (s.issueNext (takesClass 11) q)

/-- Dump: a DUMP (R407). -/
def execDump (q : Nat) (s : State) : Host.Outcome State Fault Refusal := .next (s.issueNext (takesClass 12) q)

/-- Timed: a TIMED (R293). -/
def execTimed (q : Nat) (s : State) : Host.Outcome State Fault Refusal := .next (s.issueNext (takesClass 13) q)

/-- Fence: a FENCE (R268). -/
def execFence (q : Nat) (s : State) : Host.Outcome State Fault Refusal := .next (s.issueNext (takesClass 14) q)

/-- DictRead: a DICT read (R330, R339). -/
def execDictRead (q : Nat) (s : State) : Host.Outcome State Fault Refusal := .next (s.issueNext (takesForm 15 3 0 dictRow) q)

/-- DictWrite: a DICT write of an entry other than the window entries (R330, R339). -/
def execDictWrite (q : Nat) (s : State) : Host.Outcome State Fault Refusal := .next (s.issueNext (takesForm 15 3 1 dictRow) q)

/-- WindowOpen: a DICT write of `WINDOW_OPEN` (R316, R317, R320). -/
def execWindowOpen (q : Nat) (s : State) : Host.Outcome State Fault Refusal := .next (s.issueNext (takesForm 15 3 2 dictRow) q)

/-- WindowClose: a DICT write of `WINDOW_CLOSE` (R316, R319, R320). -/
def execWindowClose (q : Nat) (s : State) : Host.Outcome State Fault Refusal := .next (s.issueNext (takesForm 15 3 3 dictRow) q)

end Sys2Proof.Machine
end

