-- ==== Sys2Proof/Machine/Dispatch.lean ====
section
/-! DEFINITION. Machine/Dispatch.lean: one arm per command; each arm is one call of its meaning. -/
namespace Sys2Proof.Machine

def exec (i : Instr) (s : State) : Host.Outcome State Fault Refusal :=
  match i with
  | .attend q => Sys2Proof.Machine.execAttend q s
  | .gemm q => Sys2Proof.Machine.execGemm q s
  | .chain2 q => Sys2Proof.Machine.execChain2 q s
  | .norm q => Sys2Proof.Machine.execNorm q s
  | .func q => Sys2Proof.Machine.execFunc q s
  | .moveTransfer q => Sys2Proof.Machine.execMoveTransfer q s
  | .moveFill q => Sys2Proof.Machine.execMoveFill q s
  | .moveCopy q => Sys2Proof.Machine.execMoveCopy q s
  | .moveConvert q => Sys2Proof.Machine.execMoveConvert q s
  | .kvAppend q => Sys2Proof.Machine.execKvAppend q s
  | .kvGather q => Sys2Proof.Machine.execKvGather q s
  | .kvCreate q => Sys2Proof.Machine.execKvCreate q s
  | .kvSharePrefix q => Sys2Proof.Machine.execKvSharePrefix q s
  | .kvFree q => Sys2Proof.Machine.execKvFree q s
  | .kvTruncate q => Sys2Proof.Machine.execKvTruncate q s
  | .kvHint q => Sys2Proof.Machine.execKvHint q s
  | .kvQuery q => Sys2Proof.Machine.execKvQuery q s
  | .syncSemaphore q => Sys2Proof.Machine.execSyncSemaphore q s
  | .syncCounterWait q => Sys2Proof.Machine.execSyncCounterWait q s
  | .syncMemoryWait q => Sys2Proof.Machine.execSyncMemoryWait q s
  | .syncMemoryAdd q => Sys2Proof.Machine.execSyncMemoryAdd q s
  | .syncMemoryStore q => Sys2Proof.Machine.execSyncMemoryStore q s
  | .table q => Sys2Proof.Machine.execTable q s
  | .dump q => Sys2Proof.Machine.execDump q s
  | .dumpLapse place => Sys2Proof.Machine.execDumpLapse place s
  | .timed q => Sys2Proof.Machine.execTimed q s
  | .timedReleasePoint q k dt => Sys2Proof.Machine.execTimedReleasePoint q k dt s
  | .fence q => Sys2Proof.Machine.execFence q s
  | .fenceRelease q k => Sys2Proof.Machine.execFenceRelease q k s
  | .dictRead q => Sys2Proof.Machine.execDictRead q s
  | .dictWrite q => Sys2Proof.Machine.execDictWrite q s
  | .commandCompletion q k => Sys2Proof.Machine.execCommandCompletion q k s
  | .commandRerun q k parity => Sys2Proof.Machine.execCommandRerun q k parity s
  | .doorbellDescTail q value => Sys2Proof.Machine.execDoorbellDescTail q value s
  | .doorbellComplHead q value => Sys2Proof.Machine.execDoorbellComplHead q value s
  | .queueBind r rivals => Sys2Proof.Machine.execQueueBind r rivals s
  | .queueUnbind r rivals => Sys2Proof.Machine.execQueueUnbind r rivals s
  | .queueStop r rivals => Sys2Proof.Machine.execQueueStop r rivals s
  | .queueStart r rivals => Sys2Proof.Machine.execQueueStart r rivals s
  | .borrowGrant q => Sys2Proof.Machine.execBorrowGrant q s
  | .mutualWaitYield region => Sys2Proof.Machine.execMutualWaitYield region s
  | .queueYield q => Sys2Proof.Machine.execQueueYield q s
  | .retireUnit r rivals => Sys2Proof.Machine.execRetireUnit r rivals s
  | .returnUnit r rivals => Sys2Proof.Machine.execReturnUnit r rivals s
  | .slotHandover loc => Sys2Proof.Machine.execSlotHandover loc s
  | .clusterMove region cluster => Sys2Proof.Machine.execClusterMove region cluster s
  | .quarantineUnit r rivals => Sys2Proof.Machine.execQuarantineUnit r rivals s
  | .releaseUnit r rivals => Sys2Proof.Machine.execReleaseUnit r rivals s
  | .rotationStep region cluster gleaners => Sys2Proof.Machine.execRotationStep region cluster gleaners s
  | .selfTestComplete loc result => Sys2Proof.Machine.execSelfTestComplete loc result s
  | .probationComplete loc => Sys2Proof.Machine.execProbationComplete loc s
  | .probationOverrun region cluster gleaners => Sys2Proof.Machine.execProbationOverrun region cluster gleaners s
  | .knownAnswerTile loc => Sys2Proof.Machine.execKnownAnswerTile loc s
  | .faultDetected code loc detail affected atUse => Sys2Proof.Machine.execFaultDetected code loc detail affected atUse s
  | .correctedLimitExceeded loc count => Sys2Proof.Machine.execCorrectedLimitExceeded loc count s
  | .scrubSweep die what corrected bad => Sys2Proof.Machine.execScrubSweep die what corrected bad s
  | .dieSelfTestComplete die pass => Sys2Proof.Machine.execDieSelfTestComplete die pass s
  | .yardAccessViolation loc q k => Sys2Proof.Machine.execYardAccessViolation loc q k s
  | .ledgerHead r rivals => Sys2Proof.Machine.execLedgerHead r rivals s
  | .ledgerOverflowClear r rivals => Sys2Proof.Machine.execLedgerOverflowClear r rivals s
  | .worstClear r rivals => Sys2Proof.Machine.execWorstClear r rivals s
  | .descriptorBurstArrival q k => Sys2Proof.Machine.execDescriptorBurstArrival q k s
  | .descriptorCompletion q k d => Sys2Proof.Machine.execDescriptorCompletion q k d s
  | .semaphoreWaitSatisfied q k d => Sys2Proof.Machine.execSemaphoreWaitSatisfied q k d s
  | .arrivalWaitSatisfied q k => Sys2Proof.Machine.execArrivalWaitSatisfied q k s
  | .memoryWaitPoll q k => Sys2Proof.Machine.execMemoryWaitPoll q k s
  | .gatedTileStart q k tile => Sys2Proof.Machine.execGatedTileStart q k tile s
  | .gateTimeout q k => Sys2Proof.Machine.execGateTimeout q k s
  | .granaryWriterRelease q k => Sys2Proof.Machine.execGranaryWriterRelease q k s
  | .translationCompletion die pasid va answer => Sys2Proof.Machine.execTranslationCompletion die pasid va answer s
  | .invalidation pasid va bytes => Sys2Proof.Machine.execInvalidation pasid va bytes s
  | .invalidationCompletion pasid va bytes => Sys2Proof.Machine.execInvalidationCompletion pasid va bytes s
  | .pageRequestResponse die pasid page answer => Sys2Proof.Machine.execPageRequestResponse die pasid page answer s
  | .pageRequestTimeout die pasid page => Sys2Proof.Machine.execPageRequestTimeout die pasid page s
  | .timeBusUpdate die bus dt => Sys2Proof.Machine.execTimeBusUpdate die bus dt s
  | .timeBusLoss die dt => Sys2Proof.Machine.execTimeBusLoss die dt s
  | .cadencePulse c dt => Sys2Proof.Machine.execCadencePulse c dt s
  | .pulseWindowEnd c dt => Sys2Proof.Machine.execPulseWindowEnd c dt s
  | .inputEnable r rivals => Sys2Proof.Machine.execInputEnable r rivals s
  | .nextFrame r rivals => Sys2Proof.Machine.execNextFrame r rivals s
  | .cadenceRate r rivals => Sys2Proof.Machine.execCadenceRate r rivals s
  | .scheduleEntry r rivals => Sys2Proof.Machine.execScheduleEntry r rivals s
  | .bellmanMode r rivals => Sys2Proof.Machine.execBellmanMode r rivals s
  | .scheduleRelease e dt => Sys2Proof.Machine.execScheduleRelease e dt s
  | .prefetchLaunch e dt => Sys2Proof.Machine.execPrefetchLaunch e dt s
  | .deadlineCheck e q dt => Sys2Proof.Machine.execDeadlineCheck e q dt s
  | .transferDeadlineDue q k d dt => Sys2Proof.Machine.execTransferDeadlineDue q k d dt s
  | .counterSnapshot e dt => Sys2Proof.Machine.execCounterSnapshot e dt s
  | .epochEnd e dt => Sys2Proof.Machine.execEpochEnd e dt s
  | .epochDecision dt => Sys2Proof.Machine.execEpochDecision dt s
  | .flitReceived p flit fec => Sys2Proof.Machine.execFlitReceived p flit fec s
  | .replayRequest p seq => Sys2Proof.Machine.execReplayRequest p seq s
  | .lightDetected p => Sys2Proof.Machine.execLightDetected p s
  | .trainingComplete p lanes package port incarnation ok => Sys2Proof.Machine.execTrainingComplete p lanes package port incarnation ok s
  | .portDarkTimeout p => Sys2Proof.Machine.execPortDarkTimeout p s
  | .laneLoss p lane => Sys2Proof.Machine.execLaneLoss p lane s
  | .laneErrorRateCheck p lane errors => Sys2Proof.Machine.execLaneErrorRateCheck p lane errors s
  | .remoteWrite m => Sys2Proof.Machine.execRemoteWrite m s
  | .remoteReadRequest m => Sys2Proof.Machine.execRemoteReadRequest m s
  | .readData m => Sys2Proof.Machine.execReadData m s
  | .acknowledge m => Sys2Proof.Machine.execAcknowledge m s
  | .nack m => Sys2Proof.Machine.execNack m s
  | .transitForward m => Sys2Proof.Machine.execTransitForward m s
  | .linkRecoveryTimeout dst => Sys2Proof.Machine.execLinkRecoveryTimeout dst s
  | .linkRecovered dst => Sys2Proof.Machine.execLinkRecovered dst s
  | .windowOpen q => Sys2Proof.Machine.execWindowOpen q s
  | .windowClose q => Sys2Proof.Machine.execWindowClose q s
  | .requestRead r => Sys2Proof.Machine.execRequestRead r s
  | .requestWrite r rivals => Sys2Proof.Machine.execRequestWrite r rivals s
  | .requestDescribe r => Sys2Proof.Machine.execRequestDescribe r s
  | .mailboxGo header data => Sys2Proof.Machine.execMailboxGo header data s
  | .mailboxDoneClear value => Sys2Proof.Machine.execMailboxDoneClear value s
  | .mmioStrayAccess write offset => Sys2Proof.Machine.execMmioStrayAccess write offset s
  | .vectorTableWrite v address data mask => Sys2Proof.Machine.execVectorTableWrite v address data mask s
  | .fwUpdate r rivals => Sys2Proof.Machine.execFwUpdate r rivals s
  | .rollbackCommit r rivals => Sys2Proof.Machine.execRollbackCommit r rivals s
  | .keyRevoke r rivals => Sys2Proof.Machine.execKeyRevoke r rivals s
  | .debugLockRaise r rivals => Sys2Proof.Machine.execDebugLockRaise r rivals s
  | .ownerHashProgram r rivals => Sys2Proof.Machine.execOwnerHashProgram r rivals s
  | .decommission r rivals => Sys2Proof.Machine.execDecommission r rivals s
  | .scopeClose r rivals => Sys2Proof.Machine.execScopeClose r rivals s
  | .debugNonceRead r => Sys2Proof.Machine.execDebugNonceRead r s
  | .debugResponse r rivals => Sys2Proof.Machine.execDebugResponse r rivals s
  | .ownerPassword r rivals => Sys2Proof.Machine.execOwnerPassword r rivals s
  | .recoveryStatus endpoint => Sys2Proof.Machine.execRecoveryStatus endpoint s
  | .recoveryBegin endpoint length => Sys2Proof.Machine.execRecoveryBegin endpoint length s
  | .recoveryData endpoint offset data => Sys2Proof.Machine.execRecoveryData endpoint offset data s
  | .recoveryEnd endpoint => Sys2Proof.Machine.execRecoveryEnd endpoint s
  | .recoveryAbort endpoint => Sys2Proof.Machine.execRecoveryAbort endpoint s
  | .counterFreeze r rivals => Sys2Proof.Machine.execCounterFreeze r rivals s
  | .freezeSnapshot die dt => Sys2Proof.Machine.execFreezeSnapshot die dt s
  | .counterThaw r rivals => Sys2Proof.Machine.execCounterThaw r rivals s
  | .daybookSync die dt => Sys2Proof.Machine.execDaybookSync die dt s
  | .breakpoint r rivals => Sys2Proof.Machine.execBreakpoint r rivals s
  | .breakpointHit b loc offset image cmd => Sys2Proof.Machine.execBreakpointHit b loc offset image cmd s
  | .breakResume r rivals => Sys2Proof.Machine.execBreakResume r rivals s
  | .powerCap r rivals => Sys2Proof.Machine.execPowerCap r rivals s
  | .throttleAssert => Sys2Proof.Machine.execThrottleAssert s
  | .throttleRelease => Sys2Proof.Machine.execThrottleRelease s
  | .resetOrderWarm r rivals => Sys2Proof.Machine.execResetOrderWarm r rivals s
  | .resetOrderCold r rivals => Sys2Proof.Machine.execResetOrderCold r rivals s
  | .pwrGoodFall => Sys2Proof.Machine.execPwrGoodFall s
  | .pwrGoodRise => Sys2Proof.Machine.execPwrGoodRise s
  | .coldResetAssert => Sys2Proof.Machine.execColdResetAssert s
  | .coldResetRelease us dies light => Sys2Proof.Machine.execColdResetRelease us dies light s
  | .warmResetEntry pin => Sys2Proof.Machine.execWarmResetEntry pin s
  | .warmResetRelease us dies => Sys2Proof.Machine.execWarmResetRelease us dies s
  | .bruoraTrainingBudgetEnd => Sys2Proof.Machine.execBruoraTrainingBudgetEnd s
  | .startupTimeout => Sys2Proof.Machine.execStartupTimeout s
  | .fwSlotWriteComplete fetched => Sys2Proof.Machine.execFwSlotWriteComplete fetched s

end Sys2Proof.Machine
end

