-- ==== Sys2Proof/Safety.lean ====
section
/-! DEFINITION. Safety.lean: what the claims speak of: when an order is admitted, when a queue's next command issues, and
the invariant of the whole state. -/
namespace Sys2Proof.Safety
open Machine

/-! ### Dictionary orders -/

/-- The state in which the arbiter checks an order: the request is counted in `DICT_REQUESTS` (R351). -/
def counted (s : State) : State := s.bump 0x1010 0x05 1

/-- R329–R338: an order arrives, and no check of its access refuses it. -/
abbrev Accessible (s : State) (r : Request) : Prop := s.arrives 1 r = true ∧ s.accessAborts r true = []

/-- Such an order on an entry whose copies commit what it writes (R341). -/
abbrev Admitted (s : State) (r : Request) : Prop := Accessible s r ∧ s.orderStuck r = 0

/-- R346: no order of the same clk wins over it. -/
abbrev Unrivalled (s : State) (r : Request) (rivals : List Request) : Prop := (counted s).loses r rivals = false

/-- R332: the order was answered with success. -/
abbrev Answered (t : State) (r : Request) : Prop := Out.response r.path 1 r.tag 0 [] ∈ t.outbox

/-- No dictionary value changed but those at the keys of a list; no kept value changed. -/
def RegsBut (s t : State) (ks : List Nat) : Prop :=
  (∀ k, k ∉ ks → Table.find? k t.dict.regs = Table.find? k s.dict.regs) ∧
    t.dict.kept = s.dict.kept ∧ t.dict.wearList = s.dict.wearList

/-- The keys of the counters that serving a request or an abort may change (R351), with those of the data bytes that the
Bruora ports carry for a peer (R398). -/
def requestCounters : List Nat :=
  [State.key 0x1010 0x05, State.key 0x1010 0x06, State.key 0x1010 0x07, State.key 0x1010 0x08] ++
    (List.range 32).map fun n => State.key 0x2E30 (0x10 + n)

/-- R335: the links after a request was answered: the answer to a peer leaves as a management message, and no other answer
touches them. -/
abbrev linkAfter (s t : State) (r : Request) : Bruora := match r.path with
  | .peer _ => t.bruora
  | _ => s.bruora

/-- Entries that hold what is written to them, and start nothing (the read-write entries of the tables without a rule of
their own): index and subindex. -/
def plainEntries : List (Nat × Nat) :=
  [(0x1010, 0x03), (0x1010, 0x04), (0x1020, 0x03), (0x2000, 0x01), (0x2000, 0x02), (0x2120, 0x01), (0x2120, 0x02), (0x2210, 0x08),
   (0x2300, 0x10), (0x2400, 0x01), (0x2500, 0x01), (0x2600, 0x07), (0x2600, 0x08), (0x2600, 0x09), (0x2700, 0x05), (0x2800, 0x05),
   (0x2800, 0x06), (0x2900, 0x05), (0x2900, 0x14), (0x2A00, 0x06), (0x2A00, 0x0E), (0x2B00, 0x05), (0x2B00, 0x06), (0x2B00, 0x07),
   (0x2B00, 0x08), (0x2C00, 0x08), (0x2C00, 0x09), (0x2C00, 0x0A), (0x2C10, 0x09), (0x2C11, 0x09), (0x2D00, 0x0B), (0x2E00, 0x0D),
   (0x2E00, 0x13)]

/-- A value that the table of a plain entry admits: a truth value of 0 or 1, and a value in the entry's range. -/
def InRange (i n : Nat) (e : DictEntry) (v : Nat) : Prop :=
  (e.ty = 1 → v ≤ 1) ∧ ∀ lo hi, entryRange (dictFamily i).1 n = some (lo, hi) → lo ≤ v ∧ v ≤ hi

/-- Rows of one entry each: the row, the first index of the entry's family, its subindices. -/
def ownRows : List ((Request → List Request → Instr) × Nat × List Nat) :=
  [(.queueBind, 0x2900, [0x10]), (.queueUnbind, 0x2900, [0x11]), (.queueStop, 0x2900, [0x12]), (.queueStart, 0x2900, [0x13]),
   (.retireUnit, 0x2000, [0x10]), (.returnUnit, 0x2000, [0x11]), (.quarantineUnit, 0x2C00, [0x06]), (.releaseUnit, 0x2C00, [0x07]),
   (.ledgerHead, 0x2C10, [0x01]), (.ledgerOverflowClear, 0x2C10, [0x04]), (.worstClear, 0x2C10, [0x08]),
   (.inputEnable, 0x2A10, [0x03]), (.nextFrame, 0x2A10, [0x04]), (.cadenceRate, 0x2A10, [0x01, 0x02]),
   (.scheduleEntry, 0x2A00, [0x0F]), (.bellmanMode, 0x2A00, [0x01]), (.fwUpdate, 0x2D00, [0x07]), (.rollbackCommit, 0x2D00, [0x0C]),
   (.keyRevoke, 0x2D00, [0x0D]), (.debugLockRaise, 0x2D00, [0x0F]), (.ownerHashProgram, 0x2D00, [0x15]),
   (.decommission, 0x2D00, [0x16]), (.scopeClose, 0x2D00, [0x11]), (.debugResponse, 0x2D00, [0x13]), (.ownerPassword, 0x2D00, [0x14]),
   (.counterFreeze, 0x2E00, [0x01]), (.counterThaw, 0x2E00, [0x02]),
   (.breakpoint, 0x2E60, [0x01, 0x02, 0x03, 0x04, 0x05, 0x06, 0x07, 0x08]), (.breakResume, 0x2E00, [0x12]), (.powerCap, 0x2F00, [0x07])]

/-! ### Links -/

/-- R361, R366: no open containment domain holds a locator, and none that held it closed in this clk. -/
abbrev NoDomain (s : State) (loc : Nat) : Prop :=
  s.domainOf loc = none ∧ ∀ x ∈ s.integ.shut, ¬(x.1 = s.clk ∧ locHolds x.2.loc loc = true)

/-- R307: a port sends messages at once: no flit waits on it, and it holds a credit for every flit of theirs. -/
def Sends (s : State) (p : Nat) (ms : List Message) : Prop :=
  (s.port p).unsent = [] ∧ ∀ ch, ch < 3 →
    ((ms.map State.unsentOf).flatten.filter fun u => u.channel == ch).length ≤ Port.pick (s.port p).credits ch

/-- R304: a flit whose CRC holds. -/
def GoodFlit (flit : List Byte) : Prop := flit.length = 256 ∧ crcBytes (flit.take 252) = field flit 252 255

/-- R304: the channel of a flit. -/
def flitChannel (flit : List Byte) : Nat := field flit 0 1 / 4096 % 4

/-! ### Commands of a queue -/

/-- Address of the next descriptor of a queue (R259), and its bytes. -/
def descAt (k : Queue) : Nat := k.descBase + 64 * (k.head % 2 ^ k.descLog2)
def nextDesc (s : State) (k : Queue) : List Byte := s.readVA (16 + k.region / 8) k.pasid (descAt k) 64

/-- What the check reads beside the descriptor. -/
def checkReads (s : State) (k : Queue) : List Access :=
  readsOf (issueReads (fun a n => s.readVA (16 + k.region / 8) k.pasid a n) (nextDesc s k) ++
    s.dumpReads { desc := nextDesc s k })

/-- The command as it is taken from its ring. -/
def nextCmd (s : State) (q : Nat) (k : Queue) : Cmd :=
  State.fetchedCmd q k (fun a n => s.readVA (16 + k.region / 8) k.pasid a n) (nextDesc s k)

/-- The state after the reads of the check. -/
def afterReads (s : State) (k : Queue) : State :=
  ({ va := descAt k, len := 64, kind := 0 } :: checkReads s k).foldl
    (fun s a => s.noteVA (16 + k.region / 8) k.pasid a.va a.len 0 0 false) s

/-- R262, R270: the next command of queue q is taken and checked: the queue is ready and its turn has come, the descriptor and the records that
it names can be read and are not lost (R364), no failed access stands (R248), and nothing before it holds it (R193). -/
structure Checked (s : State) (q : Nat) (k : Queue) : Prop where
  bound : s.queue? q = some k
  ready : s.ready q k = true
  turn : s.turn q k = true
  fetched : s.reach (16 + k.region / 8) k.pasid (descAt k) 64 0 = .ok
  sound : s.poisonAt (16 + k.region / 8) k.pasid (descAt k) 64 = none
  noFailure : k.issueFailure = none
  reached : s.reachAll (16 + k.region / 8) k.pasid (checkReads s k) = none
  whole : s.poisonIn (16 + k.region / 8) k.pasid (checkReads s k) = none
  free : (afterReads s k).granaryHeld (nextCmd s q k) (afterReads s k).cmds = false

/-- R270, R276, R182, R184: no code refuses it, its partition is large enough, and what a Granary command takes at its
issue it gets: `s1` and `c` are the state and the command after that. -/
structure Accepted (s : State) (q : Nat) (k : Queue) (s1 : State) (c : Cmd) : Prop extends Checked s q k where
  noCode : lowest ((afterReads s k).allCodes k (nextCmd s q k)) = none
  space : min (needUnits ((afterReads s k).issueEnv k (nextCmd s q k).recs.strict) (nextCmd s q k).recs (nextCmd s q k).prods)
    (k.floor + k.borrow) ≤ ((afterReads s k).partOf k).units
  granary : (afterReads s k).kvAtIssue (nextCmd s q k) = (s1, .ok c)

/-- The command stands in flight and its queue's head has moved past it. -/
def taken (s1 : State) (q : Nat) (k : Queue) (c : Cmd) : State :=
  { s1.served q k with cmds := (s1.served q k).cmds ++ [c] }

/-- R270: queue q issues: `v` is the state with the samples of the command taken, `c` the command, as its work begins; its
queue is not held by a breakpoint (R413). -/
def Issues (s : State) (q : Nat) (v : State) (c : Cmd) : Prop :=
  ∃ k s1 c0 k1, Accepted s q k s1 c0 ∧ (taken s1 q k c0).queue? q = some k1 ∧
    (taken s1 q k c0).sampleIssue k1 c0 = (v, c) ∧ v.mayRun c = true ∧ v.breakHolds c = false

/-- Every access of a list hits and no read of it is lost: a command's work is done with them (R253, R364). -/
abbrev Clear (v : State) (c : Cmd) (as : List Access) : Prop :=
  v.reachAll c.region c.pasid as = none ∧ v.poisonIn c.region c.pasid as = none

/-- R253, R353: beside its own state, a command that fails changes its outputs in memory, which are undefined, what it had
sent, its capture, its trace and its counters; nothing else changes. -/
def FailsAlone (s t : State) : Prop :=
  t = {
    s with cmds := t.cmds, devMem := t.devMem, hostMem := t.hostMem, poisoned := t.poisoned, bruora := t.bruora, dict := t.dict,
           obs := t.obs, free := t.free }

/-- The 30 rows of commands of a queue, each with the test of the descriptors that it takes. -/
def rowOf (q : Nat) : List (Instr × (Recs → Bool)) :=
  [(.attend q, State.takesClass 1), (.gemm q, State.takesClass 2), (.chain2 q, State.takesClass 3), (.norm q, State.takesClass 4),
   (.func q, State.takesClass 5), (.moveTransfer q, State.takesForm 6 3 0 Recs.form), (.moveFill q, State.takesForm 6 3 1 Recs.form),
   (.moveCopy q, State.takesForm 6 3 2 Recs.form), (.moveConvert q, State.takesForm 6 3 3 Recs.form),
   (.kvAppend q, State.takesClass 7), (.kvGather q, State.takesClass 8), (.kvCreate q, State.takesForm 9 5 0 Recs.kvOp),
   (.kvSharePrefix q, State.takesForm 9 5 1 Recs.kvOp), (.kvFree q, State.takesForm 9 5 2 Recs.kvOp),
   (.kvTruncate q, State.takesForm 9 5 3 Recs.kvOp), (.kvHint q, State.takesForm 9 5 4 Recs.kvOp),
   (.kvQuery q, State.takesForm 9 5 5 Recs.kvOp), (.syncSemaphore q, State.takesForm 10 4 0 Recs.form),
   (.syncCounterWait q, State.takesForm 10 4 1 Recs.form), (.syncMemoryWait q, State.takesForm 10 4 2 Recs.form),
   (.syncMemoryAdd q, State.takesForm 10 4 3 Recs.form), (.syncMemoryStore q, State.takesForm 10 4 4 Recs.form),
   (.table q, State.takesClass 11), (.dump q, State.takesClass 12), (.timed q, State.takesClass 13), (.fence q, State.takesClass 14),
   (.dictRead q, State.takesForm 15 3 0 State.dictRow), (.dictWrite q, State.takesForm 15 3 1 State.dictRow),
   (.windowOpen q, State.takesForm 15 3 2 State.dictRow), (.windowClose q, State.takesForm 15 3 3 State.dictRow)]

/-! ### The invariant -/

/-- The memories are in canonical form. -/
def memOk (s : State) : Prop := Memory.wf s.devMem = true ∧ Memory.wf s.hostMem = true

/-- R368–R370: a ledger is a ring of 1,024 places: its tail stands its count beyond its head. -/
def ringOk (l : Ledger) : Prop := l.head < 1024 ∧ l.count ≤ 1024 ∧ l.tail = (l.head + l.count) % 1024

/-- What every step keeps: canonical memories, ledgers that are rings, the 16 ports (R303) and the 4 cadence inputs (R285)
of the engine, dies that the mask of dies can name, and at most 16 halt records (R415), and a schedule that
lists each entry once (R289). -/
structure Inv (s : State) : Prop where
  mem : memOk s
  ledger0 : ringOk s.integ.ledger0
  ledger1 : ringOk s.integ.ledger1
  ports : s.bruora.ports.length = 16
  inputs : s.bell.inputs.length = 4
  dies : s.pins.dies < 4
  halts : s.obs.halts.length ≤ 16 ∧ s.obs.haltNext < 16
  schedule : Table.rising s.bell.schedule = true

end Sys2Proof.Safety
end

