-- ==== Sys2Proof/Certificates/Slice0/Obligations.lean ====
section
/-! DEFINITION. Certificates/Slice0/Obligations.lean: what the provers are asked to prove of this model. `t` is always the
next state. Where a clause reads `t = { s with f := t.f, … }`, the fields named are the only ones of the whole state that
may differ: memories, queues, Lofts, Granary, translation, ports, ledgers, counters and the rest stand as they stood. -/
open Sys2Proof Sys2Proof.Machine Sys2Proof.Safety

/-! ## The step, reset and the invariant -/

/-- A step with a command at the front of the queue is that command on the state with the queue's rest. On an empty
queue one clk passes (the model's choice, log entry 1). -/
def Obligations.StepRunsTheFrontCommand : Prop :=
  (∀ (s : State) (c : Instr) (rest : List Instr), s.pending = c :: rest → step s = exec c { s with pending := rest }) ∧
  (∀ s : State, s.pending = [] → step s = .next (s.elapse 1))

/-- What reset leaves (R12, R328, R418, R432): ready, both dies in service, nothing waiting, no queue bound, no command in
flight, no sequence and no sheaf in use, the Mill catalogue as generation 1, every field scope closed (R386), both ledgers
empty, no interrupt vector written, and every dictionary value at its default. That the state after reset is the one after
start-up of a factory-fresh part is the model's choice (log entry 10).
Model choices in it: log entries 4, 11, 71, 145. -/
def Obligations.ResetState : Prop :=
  State.reset.pins.state = .ready ∧ State.reset.pins.ready = true ∧ State.reset.diesServing = 3 ∧ State.reset.pending = [] ∧
  State.reset.queues = [] ∧ State.reset.cmds = [] ∧ State.reset.granary.seqs = [] ∧ State.reset.granary.sheaves = [] ∧
  State.reset.freeSheaves = 8388608 ∧ State.reset.mills.generation = 1 ∧ State.reset.fw.scopes = 0 ∧
  (∀ die, State.reset.ledger die = {}) ∧ (∀ v, (State.reset.vector v).mask = true) ∧
  (∀ i n d, State.reset.reg i n d = d ∧ State.reset.keptReg i n d = d) ∧ (∀ k, State.reset.sem k = 0 ∧ State.reset.ctr k = 0) ∧
  (∀ a, memByte State.reset.devMem a = 0 ∧ memByte State.reset.hostMem a = 0)

/-- The invariant holds at reset. -/
def Obligations.InvariantAtReset : Prop := Inv State.reset

/-- Every step keeps the invariant: memories stay canonical, the ledgers stay rings of 1,024 places whose tail stands the
count beyond the head (R369, R370), and the engine keeps its 16 ports (R303), its 4 cadence inputs (R285), its two dies
(R1), at most 16 halt records (R415), and a
schedule that lists an entry once (R289). -/
def Obligations.EveryStepKeepsTheInvariant : Prop :=
  ∀ (s t : State), Inv s → step s = .next t → Inv t

/-! ## Dictionary orders -/

/-- R261: `QUEUE_STOP` takes a running queue to `STATE` 2 and leaves another as it stands; `QUEUE_START` takes a stopped or
failed queue to `STATE` 1; an accepted `QUEUE_UNBIND` of a queue that is not running and has no command in flight frees
the queue and its partition, and 0x2906 stands in `LAST_BIND_CODE` where it is refused. No other queue changes.
R257, R275: a bind of an unbound queue that no check refuses, where some region takes it, leaves the queue bound as its
image says, running, with all four ring indices 0, and its staging sheaves held; `LAST_BIND_CODE` is 0. A bind that a check
refuses leaves only its code. Model choices in it: log entries 65, 67, 166. -/
def Obligations.QueueOrders : Prop :=
  (∀ (s : State) (r : Request) (rivals : List Request) (q : Nat) (k : Queue),
      Admitted s r → Unrivalled s r rivals → r.index = 0x2900 → written r = q → q < 2 ^ 20 → s.queue? q = some k →
      (r.sub = 0x12 → ∃ t, exec (.queueStop r rivals) s = .next t ∧ Answered t r ∧
        t.queue? q = some (if k.state = 1 then { k with state := 2 } else k) ∧ (∀ n, n ≠ q → t.queue? n = s.queue? n) ∧
        RegsBut s t requestCounters ∧ t = { s with dict := t.dict, outbox := t.outbox, bruora := linkAfter s t r, queues := t.queues }) ∧
      (r.sub = 0x13 → ∃ t, exec (.queueStart r rivals) s = .next t ∧ Answered t r ∧
        t.queue? q = some (if k.state = 1 then k else { k with state := 1 }) ∧ (∀ n, n ≠ q → t.queue? n = s.queue? n) ∧
        RegsBut s t requestCounters ∧ t = { s with dict := t.dict, outbox := t.outbox, bruora := linkAfter s t r, queues := t.queues }) ∧
      (r.sub = 0x11 → k.state ≠ 1 → (∀ c ∈ s.cmds, c.q ≠ q) → ∃ t, exec (.queueUnbind r rivals) s = .next t ∧ Answered t r ∧
        t.queue? q = none ∧ (∀ n x, n ≠ q → s.queue? n = some x → t.queue? n = some x) ∧ (∀ e, k.part = some e → t.part k.region e = {}) ∧ t.granary.staged = s.granary.staged - k.stagingLeft ∧
        (∀ w ∈ t.bruora.windows, w.q ≠ q) ∧ t.reg 0x2900 0x16 0 = 0 ∧
        RegsBut s t (State.key 0x2900 0x16 :: requestCounters) ∧
        t = { s with dict := t.dict, outbox := t.outbox, queues := t.queues, loft := t.loft, granary := t.granary,
                     bruora := t.bruora, bell := t.bell, obs := t.obs }) ∧
      (r.sub = 0x11 → (k.state = 1 ∨ ∃ c ∈ s.cmds, c.q = q) → ∃ t, exec (.queueUnbind r rivals) s = .next t ∧ Answered t r ∧
        t.reg 0x2900 0x16 0 = 0x2906 ∧ RegsBut s t (State.key 0x2900 0x16 :: requestCounters) ∧
        t = { s with dict := t.dict, outbox := t.outbox, bruora := linkAfter s t r })) ∧
  (∀ (s : State) (r : Request) (rivals : List Request) (q w : Nat),
      Admitted s r → Unrivalled s r rivals → r.index = 0x2900 → r.sub = 0x10 →
      written r % 2 ^ 32 = q → written r / 2 ^ 32 = w →
      (∀ s1, q < 2 ^ 20 → s.queue? q = none → bindMalformed w = false → bits w 19 0 ≠ 0 →
        (∀ e ∈ s.queues, e.1 / 512 = q / 512 → e.1 ≠ q → e.2.pasid = bits w 19 0) →
        bits w 455 432 ≤ (counted s).freeSheaves → (counted s).place q w = (s1, true) →
        ∃ t k, exec (.queueBind r rivals) s = .next t ∧ Answered t r ∧ t.queue? q = some k ∧
          k.pasid = bits w 19 0 ∧ k.priority = bits w 22 20 ∧ k.vector = bits w 43 32 ∧ k.floor = bits w 391 384 ∧
          k.borrow = bits w 399 392 ∧ k.descBase = bits w 127 76 * 4096 ∧ k.complBase = bits w 191 140 * 4096 ∧
          k.state = 1 ∧ k.head = 0 ∧ k.tail = 0 ∧ k.complTail = 0 ∧ k.complHead = 0 ∧ k.lastError = 0 ∧
          (∀ n, n ≠ q → t.queue? n = s1.queue? n) ∧ t.granary.staged = s1.granary.staged + bits w 455 432 ∧ t.reg 0x2900 0x16 0 = 0 ∧
          t = { s1 with dict := t.dict, outbox := t.outbox, bruora := linkAfter s1 t r, queues := t.queues, granary := t.granary, obs := t.obs } ∧
          ((∀ e ∈ s.queues, e.2.parked = true ∨ e.2.halted = true → e.2.borrowed = 0) →
            (∀ n, n ≠ q → t.queue? n = s.queue? n) ∧ RegsBut s t (State.key 0x2900 0x16 :: requestCounters) ∧
            t = { s with dict := t.dict, outbox := t.outbox, bruora := linkAfter s t r, queues := t.queues, loft := t.loft,
                         granary := t.granary, obs := t.obs, issued := t.issued, free := t.free })) ∧
      (∀ code u, (counted s).tryBind q w = .error (code, u) → ∃ t, exec (.queueBind r rivals) s = .next t ∧ Answered t r ∧
        t.reg 0x2900 0x16 0 = code ∧ RegsBut u t (State.key 0x2900 0x16 :: requestCounters) ∧
        t = { u with dict := t.dict, outbox := t.outbox, bruora := linkAfter u t r } ∧
        (code ≠ 0x2907 ∨ (∀ e ∈ s.queues, e.2.parked = true ∨ e.2.halted = true → e.2.borrowed = 0) →
          RegsBut s t (State.key 0x2900 0x16 :: requestCounters) ∧ t = { s with dict := t.dict, outbox := t.outbox, bruora := linkAfter s t r })))

/-- R15, R367: an accepted order to retire or quarantine a unit puts it out of service at once where no begun command works
on a slot of its, and else stands until the next command boundary (R13); a release ends the quarantine, and a return starts
the unit towards its place. Memory, Granary and translation do not change.
Model choices in it: log entries 80, 81, 89, 91, 159. -/
def Obligations.UnitOrders : Prop :=
  ∀ (s : State) (r : Request) (rivals : List Request) (l : Nat),
    Admitted s r → Unrivalled s r rivals → written r = l → (counted s).unitLocBad l = false →
    (r.index = 0x2000 → r.sub = 0x10 → ∃ t, exec (.retireUnit r rivals) s = .next t ∧ Answered t r ∧
      (if (s.holdsSlot l || State.isBank l) && !s.atBoundary l then (bareLoc l, false) ∈ t.integ.leaving
       else t.listedLocs.any (samePlace l) = true) ∧ (locKind l ≠ 10 → t.cmds = s.cmds ∧ t.bruora = linkAfter s t r) ∧
      t = { s with dict := t.dict, outbox := t.outbox, integ := t.integ, obs := t.obs, bell := t.bell, cmds := t.cmds,
                   bruora := t.bruora }) ∧
    (r.index = 0x2000 → r.sub = 0x11 → s.fuses.spare.any (samePlace l) = false → ∃ t, exec (.returnUnit r rivals) s = .next t ∧
      Answered t r ∧ t.integ.leaving = s.integ.leaving.filter (fun e => !(samePlace e.1 l && !e.2)) ∧
      ((s.integ.field ++ s.integ.unrecorded).any (samePlace l) = true → t.integ.returning.any (samePlace l) = true) ∧
      t.integ.field = s.integ.field ∧ RegsBut s t requestCounters ∧
      t = { s with dict := t.dict, outbox := t.outbox, bruora := linkAfter s t r, integ := t.integ }) ∧
    (r.index = 0x2C00 → r.sub = 0x06 → ∃ t, exec (.quarantineUnit r rivals) s = .next t ∧ Answered t r ∧
      t.inQuarantine l = true ∧ (locKind l ≠ 10 → t.cmds = s.cmds ∧ t.bruora = linkAfter s t r) ∧
      t = { s with dict := t.dict, outbox := t.outbox, integ := t.integ, obs := t.obs, bell := t.bell, cmds := t.cmds,
                   bruora := t.bruora }) ∧
    (r.index = 0x2C00 → r.sub = 0x07 → s.inQuarantine l = true → ∃ t, exec (.releaseUnit r rivals) s = .next t ∧ Answered t r ∧
      t.inQuarantine l = false ∧
      t = { s with dict := t.dict, outbox := t.outbox, bruora := linkAfter s t r, integ := t.integ, obs := t.obs, bell := t.bell })

/-- R370: a `LEDGER_HEAD` between head and tail retires the entries below it, and any other value is refused with
`VALUE_RANGE` and changes nothing but the counters of requests; clearing `LEDGER_OVERFLOW` and `WORST_CLEAR` do only that;
a fault of the same clk takes effect after the clear, so that the worst of that clk stands.
That a full ledger reads a value equal to its head as retiring nothing is the model's choice (log entry 15).
Model choices in it: log entry 173. -/
def Obligations.LedgerOrders : Prop :=
  ∀ (s : State) (r : Request) (rivals : List Request) (die : Nat) (l : Ledger),
    Admitted s r → Unrivalled s r rivals → die ≤ 1 → r.index = 0x2C10 + die → s.ledger die = l →
    (r.sub = 0x01 → written r < 1024 → (written r + 1024 - l.head) % 1024 ≤ l.count →
      ∃ t, exec (.ledgerHead r rivals) s = .next t ∧ Answered t r ∧ (t.ledger die).head = written r ∧
        (t.ledger die).count = l.count - (written r + 1024 - l.head) % 1024 ∧ (t.ledger die).tail = l.tail ∧
        (t.ledger die).overflow = l.overflow ∧ (t.ledger die).worst = l.worst ∧
        (∀ p, p ∈ (t.ledger die).places ↔ p ∈ l.places ∧ (written r + 1024 - l.head) % 1024 ≤ (p.1 + 1024 - l.head) % 1024) ∧
        t.ledger (1 - die) = s.ledger (1 - die) ∧ RegsBut s t requestCounters ∧
        t = { s with dict := t.dict, outbox := t.outbox, bruora := linkAfter s t r, integ := t.integ }) ∧
    (r.sub = 0x01 → (1024 ≤ written r ∨ l.count < (written r + 1024 - l.head) % 1024) →
      ∃ t, exec (.ledgerHead r rivals) s = .next t ∧ Out.response r.path 1 r.tag 0x1006 [] ∈ t.outbox ∧
        RegsBut s t requestCounters ∧ t = { s with dict := t.dict, outbox := t.outbox, bruora := linkAfter s t r }) ∧
    (r.sub = 0x04 → written r = 1 → ∃ t, exec (.ledgerOverflowClear r rivals) s = .next t ∧ Answered t r ∧
        t.ledger die = { l with overflow := false } ∧ t.ledger (1 - die) = s.ledger (1 - die) ∧ RegsBut s t requestCounters ∧
        t = { s with dict := t.dict, outbox := t.outbox, bruora := linkAfter s t r, integ := t.integ }) ∧
    (r.sub = 0x08 → written r = 1 → ∃ t, exec (.worstClear r rivals) s = .next t ∧ Answered t r ∧
        (l.newest.map Prod.fst ≠ some s.clk → t.ledger die = { l with worst := 0, worstEntry := none }) ∧
        (∀ e, l.newest = some (s.clk, e) → t.ledger die = { l with worst := e.severity, worstEntry := some e }) ∧ t.ledger (1 - die) = s.ledger (1 - die) ∧ RegsBut s t requestCounters ∧
        t = { s with dict := t.dict, outbox := t.outbox, bruora := linkAfter s t r, integ := t.integ })

/-- R285, R286: `INPUT_ENABLE` of 1 enables a disabled input, which waits for its first pulse, and leaves another as it
stands; 0 disables it. `NEXT_FRAME` gives the number of the next frame. A rate is stored where both halves give 1 to 480
frames a second, and is refused with `VALUE_RANGE` otherwise. -/
def Obligations.BellmanInputs : Prop :=
  ∀ (s : State) (r : Request) (rivals : List Request) (c v : Nat),
    Admitted s r → Unrivalled s r rivals → s.bell.inputs.length = 4 → c < 4 → r.index = 0x2A10 + c → written r = v →
    (r.sub = 0x03 → v ≤ 1 → ∃ t, exec (.inputEnable r rivals) s = .next t ∧ Answered t r ∧ t.keptReg r.index 0x03 0 = v ∧
      (t.input c).state = (if v = 0 then 0 else if (s.input c).state = 0 then 1 else (s.input c).state) ∧
      (∀ n, n ≠ c → t.input n = s.input n) ∧ (v = 1 → t.cmds = s.cmds) ∧
      (∀ x ∈ t.cmds, v = 0 → (s.input c).state ≠ 0 → ∀ d, x.deadline = some d → d.input ≠ c) ∧
      t = { s with dict := t.dict, outbox := t.outbox, bruora := linkAfter s t r, bell := t.bell, cmds := t.cmds, queues := t.queues, integ := t.integ, obs := t.obs }) ∧
    (r.sub = 0x04 → ∃ t, exec (.nextFrame r rivals) s = .next t ∧ Answered t r ∧ t.input c = { s.input c with next := some v } ∧
      (∀ n, n ≠ c → t.input n = s.input n) ∧ RegsBut s t requestCounters ∧
      t = { s with dict := t.dict, outbox := t.outbox, bruora := linkAfter s t r, bell := t.bell }) ∧
    (r.sub = 0x01 → State.rateBad v (s.rateOf c).2 = false → ∃ t, exec (.cadenceRate r rivals) s = .next t ∧ Answered t r ∧
      t.rateOf c = (v, (s.rateOf c).2) ∧ (∀ n, n ≠ c → t.input n = s.input n) ∧
      t.rateTaken c = s.rateTaken c ∧
      t = { s with dict := t.dict, outbox := t.outbox, bruora := linkAfter s t r, bell := t.bell, integ := t.integ, obs := t.obs }) ∧
    (r.sub = 0x02 → State.rateBad (s.rateOf c).1 v = false → ∃ t, exec (.cadenceRate r rivals) s = .next t ∧ Answered t r ∧
      t.rateOf c = ((s.rateOf c).1, v) ∧ (∀ n, n ≠ c → t.input n = s.input n) ∧ t.rateTaken c = s.rateTaken c ∧
      t = { s with dict := t.dict, outbox := t.outbox, bruora := linkAfter s t r, bell := t.bell, integ := t.integ, obs := t.obs }) ∧
    (r.sub = 0x01 → State.rateBad v (s.rateOf c).2 = true → ∃ t, exec (.cadenceRate r rivals) s = .next t ∧
      Out.response r.path 1 r.tag 0x1006 [] ∈ t.outbox ∧ RegsBut s t requestCounters ∧ t = { s with dict := t.dict, outbox := t.outbox, bruora := linkAfter s t r })

/-- R290, R299: a well-formed schedule entry is stored at the selected number and no other changes; a malformed one is
refused with `VALUE_RANGE`. A write of `BELLMAN_MODE` changes the mode; into cadence mode no queue bound to the Bellman
stands released; into free-run no deadline is pending and no TIMED waits any more. Model choices in it: log entry 78. -/
def Obligations.BellmanSchedule : Prop :=
  ∀ (s : State) (r : Request) (rivals : List Request) (v : Nat),
    Admitted s r → Unrivalled s r rivals → r.index = 0x2A00 → written r = v →
    (r.sub = 0x0F → Inv s → s.scheduleBad (s.reg 0x2A00 0x0E 0) v = false → ∃ t, exec (.scheduleEntry r rivals) s = .next t ∧ Answered t r ∧
      t.schedule? (s.reg 0x2A00 0x0E 0) = v ∧ (∀ n, n ≠ s.reg 0x2A00 0x0E 0 → t.schedule? n = s.schedule? n) ∧
      RegsBut s t requestCounters ∧ t = { s with dict := t.dict, outbox := t.outbox, bruora := linkAfter s t r, bell := t.bell, cmds := t.cmds }) ∧
    (r.sub = 0x0F → s.scheduleBad (s.reg 0x2A00 0x0E 0) v = true → ∃ t, exec (.scheduleEntry r rivals) s = .next t ∧
      Out.response r.path 1 r.tag 0x1006 [] ∈ t.outbox ∧ RegsBut s t requestCounters ∧ t = { s with dict := t.dict, outbox := t.outbox, bruora := linkAfter s t r }) ∧
    (r.sub = 0x01 → v = 1 → bit s.fuses.features 16 = true → s.cadence = false →
      ∃ t, exec (.bellmanMode r rivals) s = .next t ∧ Answered t r ∧ t.cadence = true ∧
      (∀ e ∈ t.queues, e.2.cadenceBound = true → e.2.released = false) ∧
      t = { s with dict := t.dict, outbox := t.outbox, bruora := linkAfter s t r, bell := t.bell, queues := t.queues, integ := t.integ, obs := t.obs }) ∧
    (r.sub = 0x01 → v = 0 → s.cadence = true → ∃ t, exec (.bellmanMode r rivals) s = .next t ∧ Answered t r ∧ t.cadence = false ∧
      t.bell.releases = [] ∧ (∀ c ∈ t.cmds, c.wait ≠ .release ∧ c.deadline = none) ∧
      (∀ e ∈ t.queues, e.2.cadenceBound = true → e.2.released = false) ∧
      t = { s with dict := t.dict, outbox := t.outbox, bruora := linkAfter s t r, bell := t.bell, queues := t.queues, cmds := t.cmds, integ := t.integ,
                   obs := t.obs })

/-- R377–R386: the orders about fuses, the image and field scopes. An update is accepted as staged, or refused with 0x2D06
while one is under way and with 0x2D07 once the slot is worn; a rollback commit burns the counter up to the running `SVN`;
the debug lock only rises; an owner hash is programmed once; `DECOMMISSION` with every scope open by challenge burns the
state and erases the slot; `SCOPE_CLOSE` closes every scope. Model choices in it: log entries 85, 101. -/
def Obligations.FirmwareOrders : Prop :=
  ∀ (s : State) (r : Request) (rivals : List Request) (v : Nat),
    Admitted s r → Unrivalled s r rivals → r.index = 0x2D00 → written r = v →
    (r.sub = 0x07 → bits v 127 96 = 0 → ¬(1 ≤ s.fw.updateState ∧ s.fw.updateState ≤ 3) → s.keptReg 0x2D00 0x0A 0 < 200000 →
      ∃ t, exec (.fwUpdate r rivals) s = .next t ∧ Answered t r ∧
        t.fw = { s.fw with updateState := 1, staged := (v % 2 ^ 64, bits v 95 64), fetched := [] } ∧ RegsBut s t requestCounters ∧
        t = { s with dict := t.dict, outbox := t.outbox, bruora := linkAfter s t r, fw := t.fw }) ∧
    (r.sub = 0x07 → bits v 127 96 = 0 → 1 ≤ s.fw.updateState ∧ s.fw.updateState ≤ 3 → ∃ t, exec (.fwUpdate r rivals) s = .next t ∧
      Out.response r.path 1 r.tag 0x2D06100A [] ∈ t.outbox ∧ t = { s with dict := t.dict, outbox := t.outbox, bruora := linkAfter s t r }) ∧
    (r.sub = 0x07 → bits v 127 96 = 0 → ¬(1 ≤ s.fw.updateState ∧ s.fw.updateState ≤ 3) → 200000 ≤ s.keptReg 0x2D00 0x0A 0 →
      ∃ t, exec (.fwUpdate r rivals) s = .next t ∧
      Out.response r.path 1 r.tag 0x2D07100A [] ∈ t.outbox ∧ t = { s with dict := t.dict, outbox := t.outbox, bruora := linkAfter s t r }) ∧
    (r.sub = 0x0C → v = 1 → ∃ t, exec (.rollbackCommit r rivals) s = .next t ∧ Answered t r ∧
      t.fuses = { s.fuses with rollback := max s.fuses.rollback s.fw.runningSvn } ∧ RegsBut s t requestCounters ∧
      t = { s with dict := t.dict, outbox := t.outbox, bruora := linkAfter s t r, fuses := t.fuses }) ∧
    (r.sub = 0x0F → s.fuses.debugLock < v → v ≤ 3 → ∃ t, exec (.debugLockRaise r rivals) s = .next t ∧ Answered t r ∧
      t.fuses = { s.fuses with debugLock := v } ∧ RegsBut s t requestCounters ∧
      t = { s with dict := t.dict, outbox := t.outbox, bruora := linkAfter s t r, fuses := t.fuses }) ∧
    (r.sub = 0x0F → v ≤ s.fuses.debugLock → ∃ t, exec (.debugLockRaise r rivals) s = .next t ∧
      Out.response r.path 1 r.tag 0x1006 [] ∈ t.outbox ∧ t = { s with dict := t.dict, outbox := t.outbox, bruora := linkAfter s t r }) ∧
    (r.sub = 0x15 → s.fuses.ownerHash = none → ∃ t, exec (.ownerHashProgram r rivals) s = .next t ∧ Answered t r ∧
      t.fuses = { s.fuses with ownerHash := some v } ∧ RegsBut s t requestCounters ∧
      t = { s with dict := t.dict, outbox := t.outbox, bruora := linkAfter s t r, fuses := t.fuses }) ∧
    (r.sub = 0x16 → v = 1 → s.fw.scopes &&& s.fw.byChallenge &&& 15 = 15 → ∃ t, exec (.decommission r rivals) s = .next t ∧
      Answered t r ∧ t.fuses = { s.fuses with lifecycle := 3 } ∧ t.fw = { s.fw with slot := .empty } ∧ RegsBut s t requestCounters ∧
      t = { s with dict := t.dict, outbox := t.outbox, bruora := linkAfter s t r, fuses := t.fuses, fw := t.fw }) ∧
    (r.sub = 0x11 → v = 1 → s.fw.scopes < 16 → ∃ t, exec (.scopeClose r rivals) s = .next t ∧ Answered t r ∧
      t.fw.scopes = 0 ∧ t.fuses = s.fuses ∧
      (s.obs.halted = [] → s.obs.captures = [] → t = { s with dict := t.dict, outbox := t.outbox, bruora := linkAfter s t r, fw := t.fw, obs := t.obs }))

/-- R384: `KEY_REVOKE` burns the revoke fuse of the slot that it names, unless that slot signed the running image or no
other slot would stay usable: then the write is refused with 0x2D09 and no fuse changes. -/
def Obligations.KeyRevoke : Prop :=
  ∀ (s : State) (r : Request) (rivals : List Request) (n : Nat),
    Admitted s r → Unrivalled s r rivals → r.index = 0x2D00 → r.sub = 0x0D → written r = n → n < 4 →
    ((n ≠ s.fw.runningKey ∧ ∃ k, k < 4 ∧ k ≠ n ∧ bit s.fuses.keysProgrammed k = true ∧ bit s.fuses.keysRevoked k = false) →
      ∃ t, exec (.keyRevoke r rivals) s = .next t ∧ Answered t r ∧ (∀ b, bit t.fuses.keysRevoked b = (bit s.fuses.keysRevoked b || b == n)) ∧
        t.fuses = { s.fuses with keysRevoked := t.fuses.keysRevoked } ∧ RegsBut s t requestCounters ∧
        t = { s with dict := t.dict, outbox := t.outbox, bruora := linkAfter s t r, fuses := t.fuses }) ∧
    ((n = s.fw.runningKey ∨ ∀ k, k < 4 → k ≠ n → bit s.fuses.keysProgrammed k = true → bit s.fuses.keysRevoked k = true) →
      ∃ t, exec (.keyRevoke r rivals) s = .next t ∧ Out.response r.path 1 r.tag 0x2D09100A [] ∈ t.outbox ∧ RegsBut s t requestCounters ∧
        t = { s with dict := t.dict, outbox := t.outbox, bruora := linkAfter s t r })

/-- R387–R389: a read of `DEBUG_NONCE` answers the 48 bytes of a nonce that stands until a response uses it; a response in
the clk of such a read is checked against the earlier nonce, and leaves the one that was read; a correct
response opens the scopes of its mask by challenge, a correct password opens the first two; any other well-formed attempt
opens nothing, is counted, and is refused with 0x2D10 or 0x2D11; after 8 failed attempts every one is refused with 0x2D12.
The nonce itself, the hash and the signature check are free (opaque constants).
Model choices in it: log entries 101, 103, 173. -/
def Obligations.FieldAccess : Prop :=
  (∀ s : State, (s.fw.drawn.map Prod.fst ≠ some s.clk → s.usedNonce = s.fw.nonce) ∧
    ∀ old, s.fw.drawn = some (s.clk, old) → s.usedNonce = old) ∧
  ∀ (s : State) (r : Request) (rivals : List Request) (v : Nat),
    r.index = 0x2D00 →
    (r.sub = 0x12 → s.arrives 0 r = true → s.accessAborts r false = [] → ∃ t n, exec (.debugNonceRead r) s = .next t ∧
      t.fw = { s.fw with nonce := some n, drawn := some (s.clk, s.usedNonce) } ∧ n < 2 ^ 384 ∧
      Out.response r.path 0 r.tag 0 (((leBytes 48 n).drop r.offset).take r.length) ∈ t.outbox ∧
      t = { s with dict := t.dict, outbox := t.outbox, bruora := linkAfter s t r, fw := t.fw, free := t.free }) ∧
    (Admitted s r → Unrivalled s r rivals → (∀ x ∈ rivals, ¬(x.index = 0x2D00 ∧ x.sub = 0x11)) → written r = v →
      (r.sub = 0x13 → 8 ≤ s.fw.attempts → field (leBytes 200 v) 0 0 ≤ 15 → zeroBytes (leBytes 200 v) 1 3 = true →
        zeroBytes (leBytes 200 v) 101 103 = true → ∃ t, exec (.debugResponse r rivals) s = .next t ∧
        Out.response r.path 1 r.tag 0x2D12100A [] ∈ t.outbox ∧ t = { s with dict := t.dict, outbox := t.outbox, bruora := linkAfter s t r }) ∧
      (r.sub = 0x13 → s.fw.attempts < 8 → field (leBytes 200 v) 0 0 ≤ 15 → zeroBytes (leBytes 200 v) 1 3 = true →
        zeroBytes (leBytes 200 v) 101 103 = true → ∃ t, exec (.debugResponse r rivals) s = .next t ∧ t.usedNonce = none ∧
        t.fw.nonce = (if s.fw.drawn.map Prod.fst = some s.clk then s.fw.nonce else none) ∧
        (((∃ n, s.usedNonce = some n ∧ Config.ecdsaVerify (slice (leBytes 200 v) 4 97)
            (Config.sha384 (leBytes 48 n ++ State.serialBytes ++ leBytes 1 (field (leBytes 200 v) 0 0))) (slice (leBytes 200 v) 104 96) = true) ∧
          s.fuses.debugKey = true ∧ Config.sha384 (slice (leBytes 200 v) 4 97) = Config.debugKeyHash ∧ s.lockedShut = false) →
          Answered t r ∧ t.fw.scopes = s.fw.scopes ||| field (leBytes 200 v) 0 0 ∧
          t.fw.byChallenge = s.fw.byChallenge ||| field (leBytes 200 v) 0 0 ∧ t.fw.attempts = s.fw.attempts ∧
          t = { s with dict := t.dict, outbox := t.outbox, bruora := linkAfter s t r, fw := t.fw }) ∧
        (¬((∃ n, s.usedNonce = some n ∧ Config.ecdsaVerify (slice (leBytes 200 v) 4 97)
            (Config.sha384 (leBytes 48 n ++ State.serialBytes ++ leBytes 1 (field (leBytes 200 v) 0 0))) (slice (leBytes 200 v) 104 96) = true) ∧
          s.fuses.debugKey = true ∧ Config.sha384 (slice (leBytes 200 v) 4 97) = Config.debugKeyHash ∧ s.lockedShut = false) →
          Out.response r.path 1 r.tag 0x2D10100A [] ∈ t.outbox ∧
          t.fw.scopes = s.fw.scopes ∧ t.fw.attempts = s.fw.attempts + 1 ∧
          t = { s with dict := t.dict, outbox := t.outbox, bruora := linkAfter s t r, fw := t.fw, integ := t.integ, obs := t.obs })) ∧
      (r.sub = 0x14 → s.fw.attempts < 8 → (8 ≤ v % 256 ∧ v % 256 ≤ 64) → zeroBytes (leBytes 65 v) (v % 256 + 1) 64 = true →
        s.fuses.ownerHash = some (Config.sha384 (State.serialBytes ++ slice (leBytes 65 v) 1 (v % 256))) → s.fuses.debugLock < 2 →
        ∃ t, exec (.ownerPassword r rivals) s = .next t ∧ Answered t r ∧ t.fw.scopes = s.fw.scopes ||| 3 ∧ t.fw.attempts = s.fw.attempts ∧
          t = { s with dict := t.dict, outbox := t.outbox, bruora := linkAfter s t r, fw := t.fw }) ∧
      (r.sub = 0x14 → s.fw.attempts < 8 → (8 ≤ v % 256 ∧ v % 256 ≤ 64) → zeroBytes (leBytes 65 v) (v % 256 + 1) 64 = true →
        s.fuses.ownerHash = none → ∃ t, exec (.ownerPassword r rivals) s = .next t ∧
          Out.response r.path 1 r.tag 0x2D11100A [] ∈ t.outbox ∧ t.fw.scopes = s.fw.scopes ∧ t.fw.attempts = s.fw.attempts + 1 ∧
          t = { s with dict := t.dict, outbox := t.outbox, bruora := linkAfter s t r, fw := t.fw, integ := t.integ, obs := t.obs }))

/-- R399, R400, R412, R414: a freeze is ordered 2 µs ahead for every die in service, or counted as ignored while one is taken
or under way; a thaw drops the snapshot, and a freeze of the same clk that was ignored follows it; a breakpoint record is
stored, or refused with 0x2E11; a halted task resumes, or 0x2E10 refuses one that is not halted; with a hit in the same clk the
order comes first, and the task ends halted. Model choices in it: log entries 69, 173. -/
def Obligations.ObserveOrders : Prop :=
  ∀ (s : State) (r : Request) (rivals : List Request) (v : Nat),
    Admitted s r → Unrivalled s r rivals → written r = v →
    (r.index = 0x2E00 → r.sub = 0x01 → v = 1 → (∀ x ∈ rivals, ¬(x.index = 0x2E00 ∧ x.sub = 0x02)) → s.obs.frozen = false → s.obs.due = none →
      ∃ t, exec (.counterFreeze r rivals) s = .next t ∧ Answered t r ∧ t.obs = { s.obs with due := some (s.reel s.noticeDie + 2000, s.pins.dies) } ∧
        RegsBut s t requestCounters ∧ t = { s with dict := t.dict, outbox := t.outbox, bruora := linkAfter s t r, obs := t.obs }) ∧
    (r.index = 0x2E00 → r.sub = 0x01 → v = 1 → (∀ x ∈ rivals, ¬(x.index = 0x2E00 ∧ x.sub = 0x02)) → (s.obs.frozen = true ∨ s.obs.due ≠ none) →
      ∃ t, exec (.counterFreeze r rivals) s = .next t ∧ Answered t r ∧ t.reg 0x2E00 0x05 0 = s.reg 0x2E00 0x05 0 + 1 ∧
        t.obs = { s.obs with missed := t.obs.missed } ∧ RegsBut s t (State.key 0x2E00 0x05 :: requestCounters) ∧
        t = { s with dict := t.dict, outbox := t.outbox, bruora := linkAfter s t r, obs := t.obs }) ∧
    (r.index = 0x2E00 → r.sub = 0x02 → v = 1 → ∃ t, exec (.counterThaw r rivals) s = .next t ∧ Answered t r ∧ t.obs.frozen = false ∧
      (s.obs.frozen = true → t.obs.snapshot = [] ∧ t.obs.snapshotTasks = []) ∧
      (s.obs.frozen = false ∨ s.obs.missed.map Prod.fst ≠ some s.clk → t.obs.due = s.obs.due) ∧
      (∀ x, s.obs.frozen = true → s.obs.missed = some (s.clk, x) → t.obs.due = some (x, s.pins.dies)) ∧
      t = { s with dict := t.dict, outbox := t.outbox, bruora := linkAfter s t r, obs := t.obs }) ∧
    (r.index = 0x2E60 → 1 ≤ r.sub → r.sub ≤ 8 → State.breakpointMalformed v = false → ∃ t, exec (.breakpoint r rivals) s = .next t ∧
      Answered t r ∧ Table.find? r.sub t.obs.breakpoints = some v ∧
      (∀ b, b ≠ r.sub → Table.find? b t.obs.breakpoints = Table.find? b s.obs.breakpoints) ∧ RegsBut s t requestCounters ∧
      t = { s with dict := t.dict, outbox := t.outbox, bruora := linkAfter s t r, obs := t.obs }) ∧
    (r.index = 0x2E60 → 1 ≤ r.sub → r.sub ≤ 8 → State.breakpointMalformed v = true → ∃ t, exec (.breakpoint r rivals) s = .next t ∧
      Out.response r.path 1 r.tag 0x2E11100A [] ∈ t.outbox ∧ RegsBut s t requestCounters ∧ t = { s with dict := t.dict, outbox := t.outbox, bruora := linkAfter s t r }) ∧
    (r.index = 0x2E00 → r.sub = 0x12 → v < 2 ^ 20 → v ∈ s.obs.halted → (∀ x ∈ s.obs.hits, ¬(x.1 = s.clk ∧ x.2.1 = v)) → ∃ t, exec (.breakResume r rivals) s = .next t ∧ Answered t r ∧
      t.obs.halted = s.obs.halted.filter (· != v) ∧
      ((∀ c ∈ s.cmds, c.pasid ≠ v) → t = { s with dict := t.dict, outbox := t.outbox, bruora := linkAfter s t r, obs := t.obs, queues := t.queues })) ∧
    (r.index = 0x2E00 → r.sub = 0x12 → v < 2 ^ 20 → v ∉ s.obs.halted → (∀ x ∈ s.obs.hits, ¬(x.1 = s.clk ∧ x.2.1 = v)) → ∃ t, exec (.breakResume r rivals) s = .next t ∧
      Out.response r.path 1 r.tag 0x2E10100A [] ∈ t.outbox ∧ RegsBut s t requestCounters ∧ t = { s with dict := t.dict, outbox := t.outbox, bruora := linkAfter s t r }) ∧
    (∀ was, r.index = 0x2E00 → r.sub = 0x12 → v < 2 ^ 20 → s.obs.hits = [(s.clk, v, was)] → ∃ t, exec (.breakResume r rivals) s = .next t ∧
      Out.response r.path 1 r.tag (if was then 0 else 0x2E10100A) [] ∈ t.outbox ∧ RegsBut s t requestCounters ∧
      t = { s with dict := t.dict, outbox := t.outbox, bruora := linkAfter s t r })

/-- R427–R431: a cap of 1,000 to 3,200 W in steps of 50 W is stored and in force, unless the throttle pin holds it at 1,000 W
(R428); any other is refused with `VALUE_RANGE`. A warm or cold reset is ordered, and a cold one ordered before stands.
How much an idle engine draws is free, and with it whether the cap is met. Model choices in it: log entry 106. -/
def Obligations.PowerAndResetOrders : Prop :=
  ∀ (s : State) (r : Request) (rivals : List Request) (v : Nat),
    Admitted s r → Unrivalled s r rivals → r.index = 0x2F00 → written r = v →
    (r.sub = 0x07 → 1000 ≤ v → v ≤ 3200 → v % 50 = 0 → ∃ t, exec (.powerCap r rivals) s = .next t ∧ Answered t r ∧
      t.reg 0x2F00 0x07 3200 = v ∧
      t.pins = { s.pins with capEffective := if s.pins.throttleLow then 1000 else v, capUnmet := t.pins.capUnmet } ∧
      t = { s with dict := t.dict, outbox := t.outbox, bruora := linkAfter s t r, pins := t.pins, integ := t.integ, obs := t.obs, free := t.free }) ∧
    (r.sub = 0x07 → (v < 1000 ∨ 3200 < v ∨ v % 50 ≠ 0) → ∃ t, exec (.powerCap r rivals) s = .next t ∧
      Out.response r.path 1 r.tag 0x1006 [] ∈ t.outbox ∧ RegsBut s t requestCounters ∧ t = { s with dict := t.dict, outbox := t.outbox, bruora := linkAfter s t r }) ∧
    (r.sub = 0x03 → v = 1 → ∃ t, exec (.resetOrderWarm r rivals) s = .next t ∧ Answered t r ∧
      t.pins = { s.pins with ordered := if s.pins.ordered = 2 then 2 else 1 } ∧ RegsBut s t requestCounters ∧
      t = { s with dict := t.dict, outbox := t.outbox, bruora := linkAfter s t r, pins := t.pins }) ∧
    (r.sub = 0x03 → v = 2 → ∃ t, exec (.resetOrderCold r rivals) s = .next t ∧ Answered t r ∧
      t.pins = { s.pins with ordered := 2 } ∧ RegsBut s t requestCounters ∧
      t = { s with dict := t.dict, outbox := t.outbox, bruora := linkAfter s t r, pins := t.pins })

/-- R327, R340, R344: a write of a plain entry is accepted, and a read returns it from the next clk on; in the clk of the
write it returns the value before; a kept entry's write counter rises
by one where the value differs from the stored one, and an equal value is stored nowhere and not counted.
Model choices in it: log entry 130. -/
def Obligations.PlainWriteIsReadBack : Prop :=
  ∀ (s : State) (r : Request) (rivals : List Request) (e : DictEntry) (v : Nat),
    Admitted s r → Unrivalled s r rivals → (r.index, r.sub) ∈ plainEntries → dictEntry? r.index r.sub = some e →
    written r = v → InRange r.index r.sub e v →
    ∃ t, exec (.requestWrite r rivals) s = .next t ∧ Answered t r ∧ t.entryValue r.index r.sub 0 e = v ∧
      (s.dict.prior.1 ≠ s.clk → t.seenValue r.index r.sub 0 e = s.entryValue r.index r.sub 0 e) ∧
      (e.kept = false → RegsBut s t (State.key r.index r.sub :: requestCounters) ∧ t = { s with dict := t.dict, outbox := t.outbox, bruora := linkAfter s t r }) ∧
      (e.kept = true → s.keptReg r.index r.sub e.default = v → RegsBut s t requestCounters ∧
        t = { s with dict := t.dict, outbox := t.outbox, bruora := linkAfter s t r }) ∧
      (e.kept = true → s.keptReg r.index r.sub e.default ≠ v → ∃ k, Table.find? (State.key r.index r.sub) t.dict.kept = some k ∧
        k.value = v ∧ k.writes = ((Table.find? (State.key r.index r.sub) s.dict.kept).map Kept.writes).getD 0 + 1 ∧
        t = { s with dict := t.dict, outbox := t.outbox, bruora := linkAfter s t r, integ := t.integ, obs := t.obs })

/-- R338, R344, R346: an order that a check of its access refuses (with the lowest code that holds, those of its value among
them), and one that loses against a contradictory order of the
same clk, are answered with their abort and change nothing but the counters of requests; the loser is counted in
`DICT_SUPERSEDED`. R341, R439: an order on a kept entry that a copy fails to commit leaves the entry, and is a notice 0x1012
on the ledger of each die whose copy failed. Each row of one entry does there what REQUEST_WRITE does.
Model choices in it: log entries 111, 112, 114. -/
def Obligations.RefusedOrdersChangeNothing : Prop :=
  ∀ (s : State) (r : Request) (rivals : List Request),
    s.arrives 1 r = true →
    (∀ a, s.accessAborts r true ≠ [] → lowestAbort (s.accessAborts r true ++ (counted s).valueAborts r) = some a → a ≠ 0 →
      ∃ t, exec (.requestWrite r rivals) s = .next t ∧
      Out.response r.path (r.badOp.getD 1) r.tag a [] ∈ t.outbox ∧ RegsBut s t requestCounters ∧ t = { s with dict := t.dict, outbox := t.outbox, bruora := linkAfter s t r }) ∧
    ((counted s).passes r = true → (counted s).loses r rivals = true →
      ((counted s).tryWrite r (rivals.filter (counted s).passes)).2 = 0 → ∃ t, exec (.requestWrite r rivals) s = .next t ∧
      Out.response r.path 1 r.tag 0x1007 [] ∈ t.outbox ∧ t.reg 0x1010 0x07 0 = s.reg 0x1010 0x07 0 + 1 ∧
      RegsBut s t requestCounters ∧ t = { s with dict := t.dict, outbox := t.outbox, bruora := linkAfter s t r }) ∧
    (∀ e, Accessible s r → Unrivalled s r rivals → (r.index, r.sub) ∈ plainEntries → dictEntry? r.index r.sub = some e →
      InRange r.index r.sub e (written r) → s.orderStuck r ≠ 0 → ∃ t, exec (.requestWrite r rivals) s = .next t ∧
      Out.response r.path 1 r.tag 0x100D [] ∈ t.outbox ∧
      (∀ die, die < 2 → bit (s.orderStuck r) die = true → (s.ledger die).count < 1022 →
        ∃ x, Table.find? (s.ledger die).tail (t.ledger die).places = some x ∧ x.code = 0x1012 ∧ x.severity = 0 ∧
          x.detail = State.key r.index r.sub) ∧
      (∀ die, die < 2 → bit (s.orderStuck r) die = false → t.ledger die = s.ledger die) ∧
      RegsBut s t (State.key 0x2E00 0x0F :: requestCounters) ∧
      t = { s with dict := t.dict, outbox := t.outbox, bruora := linkAfter s t r, integ := t.integ, obs := t.obs }) ∧
    (∀ x ∈ ownRows, (dictFamily r.index).1 = x.2.1 → r.sub ∈ x.2.2 → exec (x.1 r rivals) s = exec (.requestWrite r rivals) s)

/-! ## Reads, describes and the aperture -/

/-- R333: a read returns min(`LENGTH`, entry length − `OFFSET`) bytes from `OFFSET` onward; one whose `OFFSET` is at or beyond
the entry length is aborted with `TYPE_LENGTH`, where no lower code holds (R338); a read asks for at most 1,024 bytes, so that
longer entries are read in pieces; a write carries the whole entry with `OFFSET` 0, and no writable entry is longer than
1,024 bytes. -/
def Obligations.ReadAnswers : Prop :=
  (∀ (s : State) (r : Request) (e : DictEntry), s.arrives 0 r = true → s.accessAborts r false = [] →
    dictEntry? r.index r.sub = some e → ¬(r.index = 0x2D00 ∧ r.sub = 0x12) → (∀ q, r.path ≠ .dictCommand q) →
    ∃ t d, exec (.requestRead r) s = .next t ∧ Out.response r.path 0 r.tag 0 d ∈ t.outbox ∧
      d.length = min r.length (e.len - r.offset) ∧
      d = ((leBytes e.len ((counted s).seenValue r.index r.sub 0 e)).drop r.offset).take r.length ∧
      (s.dict.prior.1 ≠ s.clk → d = ((leBytes e.len ((counted s).entryValue r.index r.sub 0 e)).drop r.offset).take r.length) ∧
      RegsBut s t requestCounters ∧ t = { s with dict := t.dict, outbox := t.outbox, bruora := linkAfter s t r }) ∧
  (∀ (s : State) (r : Request) (e : DictEntry), s.arrives 0 r = true → dictEntry? r.index r.sub = some e →
    (∀ q, r.path ≠ .dictCommand q) → (e.len ≤ r.offset ∨ 1024 < r.length) → lowestAbort (s.accessAborts r false) = some 0x1005 →
    ∃ t, exec (.requestRead r) s = .next t ∧ Out.response r.path (r.badOp.getD 0) r.tag 0x1005 [] ∈ t.outbox ∧
      RegsBut s t requestCounters ∧ t = { s with dict := t.dict, outbox := t.outbox, bruora := linkAfter s t r }) ∧
  (∀ (s : State) (r : Request) (e : DictEntry), dictEntry? r.index r.sub = some e → (∀ q, r.path ≠ .dictCommand q) →
    (e.len ≤ r.offset ∨ 1024 < r.length) → 0x1005 ∈ s.accessAborts r false) ∧
  (∀ (s : State) (r : Request) (e : DictEntry), dictEntry? r.index r.sub = some e → s.accessAborts r true = [] →
    r.data.length = e.len ∧ r.length = e.len ∧ r.offset = 0) ∧
  (∀ index sub e, dictEntry? index sub = some e → e.access ≠ .ro → e.len ≤ 1024)

/-- R334: a describe returns 16 bytes: byte 0 the type code, bytes 2–3 the length, byte 4 the access with its marks, bytes
8–15 the default or its first 8 bytes, and zeros in bytes 1 and 5–7. -/
def Obligations.DescribeAnswers : Prop :=
  ∀ (s : State) (r : Request) (e : DictEntry), s.arrives 2 r = true → s.dictReady r.index r.sub false = true → r.reserved = false → r.badOp = none →
    dictEntry? r.index r.sub = some e →
    ∃ t d, exec (.requestDescribe r) s = .next t ∧ Out.response r.path 2 r.tag 0 d ∈ t.outbox ∧ d.length = 16 ∧
      field d 0 0 = e.ty ∧ field d 1 1 = 0 ∧ field d 2 3 = e.len ∧
      bits (field d 4 4) 1 0 = (match e.access with | .ro => 0 | .rw => 1 | .wo => 2 | .w1c => 3) ∧
      bit (field d 4 4) 2 = e.priv ∧ bit (field d 4 4) 3 = e.kept ∧ bit (field d 4 4) 4 = runState r.index r.sub ∧
      bits (field d 4 4) 7 5 = 0 ∧ field d 5 7 = 0 ∧ field d 8 15 = e.default % 2 ^ 64 ∧
      RegsBut s t requestCounters ∧ t = { s with dict := t.dict, outbox := t.outbox, bruora := linkAfter s t r }

/-- R348–R350, R421: `GO` submits the page, which stands until it is answered; a reserved `OP` is answered at once with
`MALFORMED`, where no lower code holds (R338); while a request is served it is dropped and
counted in `MMIO_STRAY`, as is an access outside the regions; writing 1 to `DONE` clears it; a vector table entry is written,
and a vector pending under its mask is signalled once as the mask is cleared. While the port is isolated its responder
answers reads. Model choices in it: log entries 109, 110, 170. -/
def Obligations.Aperture : Prop :=
  ∀ (s : State),
    (∀ header data, s.pins.isolated = false → s.dict.busy = false → 2 < field header 0 0 → 16 ≤ header.length →
      s.headerAborts { (State.pageRequest (slice header 0 16 ++ slice data 0 1024)).2 with badOp := none } false = [] →
      ∃ t, exec (.mailboxGo header data) s = .next t ∧ Out.response .mailbox (field header 0 0) (field header 1 1) 0x1009 [] ∈ t.outbox ∧
      t.dict.busy = false ∧ t.dict.done = true ∧ RegsBut s t requestCounters ∧ t = { s with dict := t.dict, outbox := t.outbox }) ∧
    (∀ header data, s.pins.isolated = false → s.dict.busy = false → field header 0 0 ≤ 2 → 1 ≤ header.length → ∃ t,
      exec (.mailboxGo header data) s = .next t ∧ t.dict.busy = true ∧ t.dict.request = slice header 0 16 ++ slice data 0 1024 ∧
      t = { s with dict := { s.dict with busy := true, request := t.dict.request } }) ∧
    (∀ header data, s.pins.isolated = false → s.dict.busy = true → ∃ t, exec (.mailboxGo header data) s = .next t ∧
      t.reg 0x1010 0x09 0 = s.reg 0x1010 0x09 0 + 1 ∧ t.dict.request = s.dict.request ∧ t = { s with dict := t.dict }) ∧
    (∀ v, s.pins.isolated = false → bit v 1 = true → ∃ t, exec (.mailboxDoneClear v) s = .next t ∧
      t = { s with dict := { s.dict with done := false } }) ∧
    (∀ w off, s.pins.isolated = false → s.isStray w off = true → ∃ t, exec (.mmioStrayAccess w off) s = .next t ∧
      t.reg 0x1010 0x09 0 = s.reg 0x1010 0x09 0 + 1 ∧ RegsBut s t [State.key 0x1010 0x09] ∧ t = { s with dict := t.dict }) ∧
    (∀ off, s.pins.isolated = true → ∃ t, exec (.mmioStrayAccess false off) s = .next t ∧ t = { s with outbox := s.outbox ++ [.unsupported off] }) ∧
    (∀ v a d m, v < 4096 → s.pins.isolated = false → (m = true ∨ (s.vector v).pending = false) → ∃ t,
      exec (.vectorTableWrite v a d m) s = .next t ∧
      t.vector v = { address := a % 2 ^ 64, data := d % 2 ^ 32, mask := m, pending := (s.vector v).pending } ∧
      (∀ n, n ≠ v → t.vector n = s.vector n) ∧ t = { s with dict := t.dict }) ∧
    (∀ v a d, v < 4096 → s.pins.isolated = false → (s.vector v).pending = true → ∃ t,
      exec (.vectorTableWrite v a d false) s = .next t ∧
      t.vector v = { address := a % 2 ^ 64, data := d % 2 ^ 32, mask := false, pending := false } ∧
      (∀ n, n ≠ v → t.vector n = s.vector n) ∧ t.outbox = s.outbox ++ [.interrupt v (a % 2 ^ 64) (d % 2 ^ 32)] ∧
      t = { s with dict := t.dict, outbox := t.outbox })

/-- R258: a doorbell write of a tail at most one ring beyond the head, or of a completion head at most one ring behind the
completion tail, updates only its half; any other value puts the queue in error with 0x2905; on an unbound queue it is
ignored and counted in `DOORBELL_ERRORS`. -/
def Obligations.Doorbells : Prop :=
  ∀ (s : State) (q v : Nat), s.pins.isolated = false →
    (s.queue? q = none →
      (∃ t, exec (.doorbellDescTail q v) s = .next t ∧ t.reg 0x2900 0x0C 0 = s.reg 0x2900 0x0C 0 + 1 ∧ t = { s with dict := t.dict }) ∧
      (∃ t, exec (.doorbellComplHead q v) s = .next t ∧ t.reg 0x2900 0x0C 0 = s.reg 0x2900 0x0C 0 + 1 ∧ t = { s with dict := t.dict })) ∧
    (∀ k, s.queue? q = some k →
      ((v + 2 ^ 32 - k.head) % 2 ^ 32 ≤ 2 ^ k.descLog2 → ∃ t k', exec (.doorbellDescTail q v) s = .next t ∧ t.queue? q = some k' ∧
        k'.tail = v % 2 ^ 32 ∧ k'.head = k.head ∧ k'.complHead = k.complHead ∧ k'.complTail = k.complTail ∧ k'.state = k.state ∧
        (∀ n, n ≠ q → t.queue? n = s.queue? n) ∧ t = { s with queues := t.queues, loft := t.loft }) ∧
      (2 ^ k.descLog2 < (v + 2 ^ 32 - k.head) % 2 ^ 32 → ∃ t k', exec (.doorbellDescTail q v) s = .next t ∧ t.queue? q = some k' ∧
        k'.state = 3 ∧ k'.lastError = 0x2905 ∧ k'.tail = k.tail ∧ k'.head = k.head ∧ (∀ n, n ≠ q → t.queue? n = s.queue? n) ∧
        t.reg 0x2900 0x0C 0 = s.reg 0x2900 0x0C 0 + 1 ∧ t = { s with queues := t.queues, dict := t.dict, outbox := t.outbox }) ∧
      ((k.complTail + 2 ^ 32 - v % 2 ^ 32) % 2 ^ 32 ≤ 2 ^ k.complLog2 → ∃ t k', exec (.doorbellComplHead q v) s = .next t ∧
        t.queue? q = some k' ∧ k'.complHead = v % 2 ^ 32 ∧ k'.tail = k.tail ∧ k'.head = k.head ∧ k'.complTail = k.complTail ∧
        k'.state = k.state ∧ (∀ n, n ≠ q → t.queue? n = s.queue? n) ∧ t = { s with queues := t.queues, loft := t.loft }) ∧
      (2 ^ k.complLog2 < (k.complTail + 2 ^ 32 - v % 2 ^ 32) % 2 ^ 32 → ∃ t k', exec (.doorbellComplHead q v) s = .next t ∧
        t.queue? q = some k' ∧ k'.state = 3 ∧ k'.lastError = 0x2905 ∧ k'.complHead = k.complHead ∧
        (∀ n, n ≠ q → t.queue? n = s.queue? n) ∧ t = { s with queues := t.queues, dict := t.dict, outbox := t.outbox }))

/-! ## Boundary, reset, start-up -/

/-- R428: while the pin is low the cap in force is at most 1,000 W, and `POWER_CAP` again as it rises; in reset the pin is only
noted (R419). R420, R429: power loss and cold reset isolate the engine at once, leave no queue, command, sequence, partition
or device memory behind, close the scopes, and keep fuses, kept entries, the field map and host memory; the image slot stands
as it was, or mixed where a write of it was under way (R382). R341: of a kept write whose commit the loss cuts, each copy holds
the old value or the new one, and no other kept entry changes. Model choices in it: log entries 106, 114, 122. -/
def Obligations.ThrottleAndColdReset : Prop :=
  ∀ (s : State),
    ((s.pins.state ≠ .absent ∧ s.pins.state ≠ .unpowered ∧ s.pins.state ≠ .inReset) →
      (∃ t, exec .throttleAssert s = .next t ∧ t.pins = {
        s.pins with throttleLow := true, capEffective := min 1000 (s.reg 0x2F00 0x07 3200), capUnmet := t.pins.capUnmet } ∧
        t = { s with pins := t.pins, integ := t.integ, dict := t.dict, obs := t.obs, outbox := t.outbox, free := t.free }) ∧
      (∃ t, exec .throttleRelease s = .next t ∧ t.pins = {
        s.pins with throttleLow := false, capEffective := s.reg 0x2F00 0x07 3200, capUnmet := t.pins.capUnmet } ∧
        t = { s with pins := t.pins, integ := t.integ, dict := t.dict, obs := t.obs, outbox := t.outbox, free := t.free })) ∧
    (s.pins.state = .inReset →
      exec .throttleAssert s = .next { s with pins := { s.pins with throttleLow := true } } ∧
      exec .throttleRelease s = .next { s with pins := { s.pins with throttleLow := false } }) ∧
    ((s.pins.state ≠ .absent ∧ s.pins.state ≠ .unpowered) → ∃ t, exec .pwrGoodFall s = .next t ∧
      t.pins.state = .unpowered ∧ t.pins.pwrGood = false ∧ t.pins.isolated = true ∧ t.pins.ready = false ∧
      t.queues = [] ∧ t.cmds = [] ∧ t.granary.seqs = [] ∧ t.loft.parts = [] ∧ t.devMem = [] ∧ t.hostMem = s.hostMem ∧ t.fw.scopes = 0 ∧
      t.fuses = s.fuses ∧ t.dict.kept = s.dict.kept ∧ t.dict.regs = [] ∧ t.integ.field = s.integ.field ∧ t.pending = s.pending ∧
      t.fw.slot = (if s.fw.updateState = 3 then .mixed else s.fw.slot)) ∧
    (s.pins.state = .unpowered → ∃ t, exec .pwrGoodRise s = .next t ∧ t.pins.state = .inReset ∧ t.pins.pwrGood = true ∧
      t.pins.isolated = true ∧ t.pins.coldHeld = true ∧ t.fuses = s.fuses ∧ t.dict.kept = s.dict.kept ∧ t.integ.field = s.integ.field ∧
      t.hostMem = s.hostMem) ∧
    (∀ r rivals e dies, (s.pins.state ≠ .absent ∧ s.pins.state ≠ .unpowered) → Accessible s r → s.loses r rivals = false →
      (r.index, r.sub) ∈ plainEntries → dictEntry? r.index r.sub = some e → e.kept = true → InRange r.index r.sub e (written r) → s.orderStuck r = 0 →
      s.keptReg r.index r.sub e.default ≠ written r → dies < 4 →
      ∃ t, exec (.requestWrite { r with cut := some dies } rivals) s = .next t ∧ t.pins.state = .unpowered ∧ (dies = 0 → t.dict.kept = s.dict.kept) ∧
      (dies = 1 ∨ dies = 2 → ∃ k, Table.find? (State.key r.index r.sub) t.dict.kept = some k ∧
        k.value = s.keptReg r.index r.sub e.default ∧ k.later = some (written r)) ∧
      (dies = 3 → t.keptReg r.index r.sub e.default = written r) ∧
      (∀ n, n ≠ State.key r.index r.sub → Table.find? n t.dict.kept = Table.find? n s.dict.kept)) ∧
    ((s.pins.state ≠ .absent ∧ s.pins.state ≠ .unpowered) → s.pins.coldHeld = false → ∃ t, exec .coldResetAssert s = .next t ∧
      t.pins.state = .inReset ∧ t.pins.coldHeld = true ∧ t.pins.isolated = true ∧ t.pins.ready = false ∧
      t.pins.cause = (if s.pins.ordered = 2 then 2 else 1) ∧
      t.queues = [] ∧ t.cmds = [] ∧ t.granary.seqs = [] ∧ t.loft.parts = [] ∧ t.devMem = [] ∧ t.hostMem = s.hostMem ∧ t.fw.scopes = 0 ∧
      t.fuses = s.fuses ∧ t.dict.kept = s.dict.kept ∧ t.dict.regs = [] ∧ t.integ.field = s.integ.field ∧ t.pending = s.pending ∧
      t.fw.slot = (if s.fw.updateState = 3 then .mixed else s.fw.slot))

/-- R341, R378, R381, R432, R433: in step 2 of a start-up, of two copies of a kept entry that differ the one written later is
taken, and that is not counted. A part that is not yet programmed stops blank, a decommissioned one stops so, and one whose image
fails a check, or whose recovery is forced, stops in recovery; a fielded part whose image verifies, with a die that passes, is
booting in step 5 while a port that sees light trains, and ready where none does. Step 5 ends at its budget: the engine is
ready. A start-up of more than 500 ms drives `ENG_FAULT_N` low and raises a notice entry 0x2F01.
Model choices in it: log entries 105, 108, 176. -/
def Obligations.ColdStartUp : Prop :=
  ∀ (s : State) (us dies light : Nat),
    (s.pins.state = .inReset → s.pins.warm = false → s.fuses.lifecycle = 0 → ∃ t, exec (.coldResetRelease us dies light) s = .next t ∧
      t.pins.state = .blank ∧ t.pins.isolated = false ∧ t.pins.coldHeld = false ∧ t.pins.ready = s.pins.ready ∧ t.fuses = s.fuses ∧
      t = { s with dict := s.reconcileKept.dict, pins := t.pins, clk := t.clk, bell := t.bell, obs := t.obs, waiting := t.waiting, outbox := t.outbox }) ∧
    (s.pins.state = .inReset → s.pins.warm = false → s.fuses.lifecycle = 3 → ∃ t, exec (.coldResetRelease us dies light) s = .next t ∧
      t.pins.state = .decommissioned ∧ t.pins.isolated = false ∧ t.fuses = s.fuses ∧
      t = { s with dict := s.reconcileKept.dict, pins := t.pins, clk := t.clk, bell := t.bell, obs := t.obs, waiting := t.waiting, outbox := t.outbox }) ∧
    (s.pins.state = .inReset → s.pins.warm = false → (s.fuses.lifecycle = 1 ∨ s.fuses.lifecycle = 2) → s.fw.slot = .empty →
      s.stuckCopies (State.key 0x2D00 0x0B) = 0 → s.keptWorn (State.key 0x2D00 0x0B) = false →
      ∃ t, exec (.coldResetRelease us dies light) s = .next t ∧ t.pins.state = .recovery ∧
        t.fw.recoveryCode = (if s.reconcileKept.keptReg 0x2D00 0x0B 0 = 1 then 0 else 0x2D01) ∧ t.keptReg 0x2D00 0x0B 0 = 0 ∧ t.fuses = s.fuses ∧
        t = { s with pins := t.pins, clk := t.clk, bell := t.bell, fw := t.fw, bruora := t.bruora, dict := t.dict, outbox := t.outbox,
                     integ := t.integ, obs := t.obs, free := t.free, waiting := t.waiting }) ∧
    (∀ k e, Table.find? k s.dict.kept = some e → Table.find? k s.reconcileKept.dict.kept =
      some { e with value := e.later.getD e.value, later := none }) ∧
    (s.pins.state = .inReset → s.pins.warm = false → s.fuses.lifecycle = 2 → s.fw.slot = .factory → s.fuses.keyAccepted 0 = true →
      s.fuses.rollback = 0 → s.reconcileKept.keptReg 0x2D00 0x0B 0 = 0 → dies % 4 ≠ 0 → (∀ p, p < 16 → bit light p = false) →
      ∃ t, exec (.coldResetRelease us dies light) s = .next t ∧ t.pins.state = .ready ∧ t.pins.ready = true ∧ t.pins.dies = dies % 4 ∧
        t.pins.isolated = false ∧ t.pins.startupStep = 7 ∧ t.fw.scopes = 0 ∧ t.fuses = s.fuses ∧ Out.notify 1 0 ∈ t.outbox) ∧
    (s.pins.state = .inReset → s.pins.warm = false → s.fuses.lifecycle = 2 → s.fw.slot = .factory → s.fuses.keyAccepted 0 = true →
      s.fuses.rollback = 0 → s.reconcileKept.keptReg 0x2D00 0x0B 0 = 0 → dies % 4 ≠ 0 → (∃ p, p < 16 ∧ bit light p = true ∧ s.reconcileKept.portOn p = true) →
      s.bruora.ports.length = 16 →
      ∃ t, exec (.coldResetRelease us dies light) s = .next t ∧ t.pins.state = .booting ∧ t.pins.startupStep = 5 ∧
        ∀ p, p < 16 → (t.port p).state = (if s.reconcileKept.portOn p = false then 0 else if bit light p then 2 else (s.port p).state)) ∧
    (s.pins.state = .booting → s.pins.startupStep = 5 → ∃ t, exec .bruoraTrainingBudgetEnd s = .next t ∧ t.pins.state = .ready ∧
      t.pins.ready = true ∧ t.pins.startupStep = 7 ∧ t.fuses = s.fuses ∧ t.devMem = s.devMem ∧ t.hostMem = s.hostMem) ∧
    (s.pins.state = .booting → s.pins.dies = 3 → s.pins.faultLow = false → ∃ t, exec .startupTimeout s = .next t ∧ t.pins.faultLow = true ∧
      t.pins.state = .booting ∧ (t.ledger 0).seq = (s.ledger 0).seq + 1 ∧
      t = { s with pins := { s.pins with faultLow := true }, integ := t.integ, dict := t.dict, outbox := t.outbox, obs := t.obs })

/-- R429–R431: a warm reset, by the pin or by an order given before, discards every queue, command, partition, sequence and
Mill bank but keeps memory, fuses, kept entries and the ledgers, and isolates the engine; its release makes a part with a die
that passes ready again, unless it was decommissioned (R378). Before the engine is ready it is a cold reset. While the image slot is written it is held (R382).
Model choices in it: log entries 107, 172, 174. -/
def Obligations.WarmReset : Prop :=
  ∀ (s : State) (pin : Bool),
    (s.pins.state = .ready → (pin = true ∨ s.pins.ordered = 1) → s.fw.updateState ≠ 3 → ∃ t, exec (.warmResetEntry pin) s = .next t ∧
      t.pins.state = .inReset ∧ t.pins.warm = true ∧ t.pins.isolated = true ∧ t.pins.ready = false ∧ t.pins.cause = (if pin then 3 else 4) ∧
      t.queues = [] ∧ t.cmds = [] ∧ t.granary.seqs = [] ∧ t.loft.parts = [] ∧ t.mills = {} ∧ t.bruora.windows = [] ∧
      t.devMem = s.devMem ∧ t.hostMem = s.hostMem ∧ t.fuses = s.fuses ∧ t.dict.kept = s.dict.kept ∧ t.fw.scopes = 0 ∧
      t.fw.slot = s.fw.slot ∧ ((∀ d ∈ s.integ.domains, d.cmd = none) → t.integ = s.integ) ∧ (∀ d ∈ t.integ.domains, d.cmd = none)) ∧
    (s.pins.state = .ready → (pin = true ∨ s.pins.ordered = 1) → s.fw.updateState = 3 → ∃ t, exec (.warmResetEntry pin) s = .next t ∧
      t.fw = { s.fw with heldWarm := if pin then 3 else 4 } ∧ t.pins = { s.pins with warmHeld := pin, ordered := 0 } ∧
      t = { s with fw := t.fw, pins := t.pins }) ∧
    ((s.pins.state = .booting ∨ s.pins.state = .recovery) → (pin = true ∨ s.pins.ordered = 1) → ∃ t, exec (.warmResetEntry pin) s = .next t ∧
      t.pins.state = .inReset ∧ t.pins.warm = false ∧ t.queues = [] ∧ t.devMem = [] ∧ t.fuses = s.fuses ∧ t.dict.kept = s.dict.kept) ∧
    (∀ us dies, s.pins.state = .inReset → s.pins.warm = true → s.fuses.lifecycle = 3 → ∃ t, exec (.warmResetRelease us dies) s = .next t ∧
      t.pins.state = .decommissioned ∧ t.pins.ready = s.pins.ready ∧ t.pins.isolated = false ∧ t.fuses = s.fuses) ∧
    (∀ us dies, s.pins.state = .inReset → s.pins.warm = true → s.fuses.lifecycle ≠ 3 → dies % 4 ≠ 0 → ∃ t, exec (.warmResetRelease us dies) s = .next t ∧
      t.pins.state = .ready ∧ t.pins.ready = true ∧ t.pins.isolated = false ∧ t.pins.dies = dies % 4 ∧ t.pins.warm = false ∧
      t.pins.fatal = (if dies % 4 = 3 then 0 else t.pins.fatal) ∧ t.devMem = s.devMem ∧ t.hostMem = s.hostMem ∧ t.fuses = s.fuses)

/-- R382: a background update goes through its phases: a staged image that cannot be fetched fails with 0x2D08, one that
stands in device or host memory is fetched, one whose checks fail (R381) fails with their lowest code and writes nothing,
a verified one starts the write of the slot, which is counted (R380), and the end of the write puts the image into the slot.
Model choices in it: log entry 102. -/
def Obligations.UpdatePhases : Prop :=
  ∀ (s : State) (ok : Bool), s.fw.heldWarm = 0 →
    (s.fw.updateState = 1 → ok = false → ∃ t, exec (.fwSlotWriteComplete ok) s = .next t ∧ t.fw.updateState = 5 ∧ t.fw.updateCode = 0x2D08 ∧
      t.fw.slot = s.fw.slot ∧ t = { s with fw := t.fw }) ∧
    (s.fw.updateState = 1 → ok = true → (isDevice s.fw.staged.1 s.fw.staged.2 || isHost s.fw.staged.1 s.fw.staged.2) = true →
      s.fw.staged.2 ≤ 17039872 → ∃ t, exec (.fwSlotWriteComplete ok) s = .next t ∧ t.fw.updateState = 2 ∧
      t.fw.fetched = s.physRead s.fw.staged.1 s.fw.staged.2 ∧ t.fw.slot = s.fw.slot ∧ t = { s with fw := t.fw }) ∧
    (s.fw.updateState = 2 → ∃ t, exec (.fwSlotWriteComplete ok) s = .next t ∧ t.fw.slot = s.fw.slot ∧ t.fuses = s.fuses ∧
      t.queues = s.queues ∧ t.cmds = s.cmds ∧ t.devMem = s.devMem ∧
      (∀ code, s.fuses.verify s.fw.fetched (some s.fw.staged.2) = some code → t.fw.updateState = 5 ∧ t.fw.updateCode = code ∧
        t = { s with fw := t.fw }) ∧
      (s.fuses.verify s.fw.fetched (some s.fw.staged.2) = none → t.fw.updateState = 3 ∧
        (s.stuckCopies (State.key 0x2D00 0x0A) = 0 → s.keptWorn (State.key 0x2D00 0x0A) = false →
          t.keptReg 0x2D00 0x0A 0 = s.keptReg 0x2D00 0x0A 0 + 1))) ∧
    (s.fw.updateState = 3 → ∃ t, exec (.fwSlotWriteComplete ok) s = .next t ∧ t.fw.updateState = 4 ∧ t.fw.slot = .bytes s.fw.fetched ∧
      t = { s with fw := t.fw })

/-- R385: the recovery path. Only in recovery, and only for the endpoint that holds the session, which any may open. Data
comes in ascending offset and lands in the slot; the end verifies the slot: its failing check is answered and stays the
recovery code, or the image boots. Model choices in it: log entries 87, 104, 177. -/
def Obligations.Recovery : Prop :=
  ∀ (s : State) (ep : Nat), s.pins.state = .recovery →
    (∀ e, s.fw.session = some e → e ≠ ep →
      (∃ t, exec (.recoveryStatus ep) s = .next t ∧ t = { s with outbox := s.outbox ++ [.recovery ep 0x2D06 s.fw.received] }) ∧
      (∀ n, ∃ t, exec (.recoveryBegin ep n) s = .next t ∧ t = { s with outbox := s.outbox ++ [.recovery ep 0x2D06 s.fw.received] })) ∧
    ((s.fw.session = none ∨ s.fw.session = some ep) →
      (∃ t, exec (.recoveryStatus ep) s = .next t ∧ t = { s with outbox := s.outbox ++ [.recovery ep s.fw.recoveryCode s.fw.received] }) ∧
      (∀ n, n ≤ 17039872 → ∃ t, exec (.recoveryBegin ep n) s = .next t ∧
        t.fw = { s.fw with session := some ep, sessionLength := n, received := 0 } ∧ t.outbox = s.outbox ++ [.recovery ep 0 0] ∧
        t = { s with fw := t.fw, outbox := t.outbox }) ∧
      (∃ t, exec (.recoveryAbort ep) s = .next t ∧ t.fw = { s.fw with session := none } ∧ t.outbox = s.outbox ++ [.recovery ep 0 s.fw.received] ∧
        t = { s with fw := t.fw, outbox := t.outbox })) ∧
    (s.fw.session = some ep →
      (∀ (data : List Byte), data ≠ [] → data.length ≤ 1024 → s.fw.received + data.length ≤ s.fw.sessionLength →
        s.fw.received ≤ s.slotNow.length → ∃ t b, exec (.recoveryData ep s.fw.received data) s = .next t ∧ t.fw.slot = .bytes b ∧
          slice b s.fw.received data.length = data ∧ b.take s.fw.received = s.slotNow.take s.fw.received ∧
          t.fw.received = s.fw.received + data.length ∧ t.fw.session = some ep ∧ t.fuses = s.fuses ∧ t.devMem = s.devMem ∧
          (s.fw.received ≠ 0 → t = { s with fw := t.fw, outbox := t.outbox })) ∧
      (∀ b, s.fw.slot = .bytes b → ∃ t, exec (.recoveryEnd ep) s = .next t ∧
        (∀ code, s.fuses.verify b none = some code → t.fw = { s.fw with recoveryCode := code, session := none } ∧ t.pins = s.pins ∧
          t.outbox = s.outbox ++ [.recovery ep code s.fw.received]) ∧
        (s.fuses.verify b none = none → t.pins = { s.pins with state := .booting, startupStep := 3 } ∧ t.fw.runningKey = headerKey b ∧
          t.fw.runningSvn = headerSvn b ∧ t.fw.runningVersion = headerVersion b ∧ t.outbox = s.outbox ++ [.recovery ep 0 s.fw.received]) ∧
        t = { s with pins := t.pins, fw := t.fw, outbox := t.outbox }))

/-! ## The Bellman's events -/

/-- R282, R283: a clk is 8/5 of a tick of reel time. A bus value more than 64 ns ahead steps the copy at once, and is
counted; one more than 64 ns behind puts it at half rate, and is counted when that begins; a closer one slews it. After a
lost bus the copy runs on in holdover, which is counted. The other die's copy only runs.
Model choices in it: log entries 1, 2, 79. -/
def Obligations.TimeBus : Prop :=
  (∀ (s : State) (die bus dt : Nat), s.hearsBus = true → die ≤ 1 →
    ((s.elapse dt).reel die + 64 < bus → ∃ t, exec (.timeBusUpdate die bus dt) s = .next t ∧ t.reel die = bus ∧ (t.reelOf die).state = 1 ∧
      t.reg 0x2A00 0x04 0 = s.reg 0x2A00 0x04 0 + 1 ∧ t.reelOf (1 - die) = (s.elapse dt).reelOf (1 - die) ∧
      RegsBut s t [State.key 0x2A00 0x04] ∧ t = { s.elapse dt with bell := t.bell, dict := t.dict }) ∧
    (bus + 64 < (s.elapse dt).reel die → ∃ t, exec (.timeBusUpdate die bus dt) s = .next t ∧ t.reel die = (s.elapse dt).reel die ∧
      (t.reelOf die).state = 1 ∧ (t.reelOf die).half = true ∧ (t.reelOf die).delta = (bus : Int) - (s.elapse dt).reel die ∧
      t.reg 0x2A00 0x04 0 = s.reg 0x2A00 0x04 0 + (if ((s.elapse dt).reelOf die).half then 0 else 1) ∧
      t.reelOf (1 - die) = (s.elapse dt).reelOf (1 - die) ∧
      RegsBut s t [State.key 0x2A00 0x04] ∧ t = { s.elapse dt with bell := t.bell, dict := t.dict }) ∧
    (bus ≤ (s.elapse dt).reel die + 64 → (s.elapse dt).reel die ≤ bus + 64 → ∃ t, exec (.timeBusUpdate die bus dt) s = .next t ∧
      t.reel die = (s.elapse dt).reel die ∧ (t.reelOf die).state = 1 ∧ (t.reelOf die).delta = (bus : Int) - (s.elapse dt).reel die ∧
      t.reelOf (1 - die) = (s.elapse dt).reelOf (1 - die) ∧ t = { s.elapse dt with bell := t.bell }) ∧
    (((s.elapse dt).reelOf die).state = 1 → ∃ t, exec (.timeBusLoss die dt) s = .next t ∧ (t.reelOf die).state = 2 ∧
      t.reel die = (s.elapse dt).reel die ∧ (t.reelOf die).half = false ∧ t.reg 0x2A00 0x05 0 = s.reg 0x2A00 0x05 0 + 1 ∧
      t.reelOf (1 - die) = (s.elapse dt).reelOf (1 - die) ∧
      RegsBut s t [State.key 0x2A00 0x05] ∧ t = { s.elapse dt with bell := t.bell, dict := t.dict })) ∧
  (∀ (s : State) (die : Nat), s.pending = [] → (s.reelOf die).delta = 0 → ∃ t, step s = .next t ∧ t.clk = s.clk + 1 ∧
    t.reel die = s.reel die + ((s.reelOf die).frac + 5) / 8 ∧ (t.reelOf die).frac = ((s.reelOf die).frac + 5) % 8)

/-- Every queue is as it was, but for the deadlines that it has had its event for. -/
def ForgetsEvents (s t : State) : Prop :=
  ∀ q, (t.queue? q).map (fun k => { k with missed := [], timedJudged := [] }) =
    (s.queue? q).map (fun k => { k with missed := [], timedJudged := [] })

/-- R285, R286: pulses of a cadence input. The first begins the frame that `NEXT_FRAME` names, else frame 0; a further one
within an eighth of a period of the expected time begins the next frame there; an early one is counted and ignored. A
window that ends without one inserts a pulse at the expected time, and counts it. A disabled input ignores pulses. A pulse
brings the rate into force that stood before the clk in which it is taken. Model choices in it: log entries 77, 162. -/
def Obligations.CadencePulses : Prop :=
  ∀ (s : State) (c dt : Nat), s.bell.inputs.length = 4 → c < 4 →
    (s.pins.state = .ready → (s.input c).state = 0 → exec (.cadencePulse c dt) s = .next (s.elapse dt)) ∧
    (s.pins.state = .ready → (s.input c).state = 1 → ∃ t, exec (.cadencePulse c dt) s = .next t ∧ (t.input c).state = 2 ∧
      (t.input c).frame = (s.input c).next.getD 0 ∧ (t.input c).t = (s.elapse dt).bellTime ∧ (t.input c).next = none ∧
      (∀ n, n ≠ c → t.input n = s.input n) ∧ ForgetsEvents s t ∧ ((s.input c).next = none → t.queues = s.queues) ∧
      t = { s.elapse dt with bell := t.bell, queues := t.queues }) ∧
    (s.pins.state = .ready → 2 ≤ (s.input c).state →
      8 * (s.input c).n * (State.expected (s.input c) - (s.elapse dt).bellTime) ≤ 10 ^ 9 * (s.input c).den →
      8 * (s.input c).n * ((s.elapse dt).bellTime - State.expected (s.input c)) ≤ 10 ^ 9 * (s.input c).den →
      ∃ t, exec (.cadencePulse c dt) s = .next t ∧ (t.input c).state = 2 ∧
      (t.input c).frame = (s.input c).next.getD (((s.input c).frame + 1) % 2 ^ 64) ∧ (t.input c).t = (s.elapse dt).bellTime ∧
      (t.input c).lastRx = (s.elapse dt).bellTime ∧ (t.input c).synth = 0 ∧ (t.input c).next = none ∧
      ((t.input c).n, (t.input c).den) = (s.elapse dt).rateTaken c ∧
      (∀ n, n ≠ c → t.input n = s.input n) ∧ ForgetsEvents s t ∧ ((s.input c).next = none → t.queues = s.queues) ∧
      t = { s.elapse dt with bell := t.bell, queues := t.queues }) ∧
    (s.pins.state = .ready → 2 ≤ (s.input c).state →
      10 ^ 9 * (s.input c).den < 8 * (s.input c).n * (State.expected (s.input c) - (s.elapse dt).bellTime) →
      ∃ t, exec (.cadencePulse c dt) s = .next t ∧ t.reg (0x2A10 + c) 0x08 0 = s.reg (0x2A10 + c) 0x08 0 + 1 ∧
      RegsBut s t [State.key (0x2A10 + c) 0x08] ∧ t = { s.elapse dt with dict := t.dict }) ∧
    (2 ≤ (s.input c).state → State.expected (s.input c) ≤ (s.elapse dt).bellTime →
      10 ^ 9 * (s.input c).den ≤ 8 * (s.input c).n * ((s.elapse dt).bellTime - State.expected (s.input c)) →
      ∃ t, exec (.pulseWindowEnd c dt) s = .next t ∧ (t.input c).state = 3 ∧
      (t.input c).frame = (s.input c).next.getD (((s.input c).frame + 1) % 2 ^ 64) ∧ (t.input c).t = State.expected (s.input c) ∧
      t.reg (0x2A10 + c) 0x07 0 = s.reg (0x2A10 + c) 0x07 0 + 1 ∧ (∀ n, n ≠ c → t.input n = s.input n) ∧
      RegsBut s t [State.key (0x2A10 + c) 0x07] ∧ ForgetsEvents s t ∧ ((s.input c).next = none → t.queues = s.queues) ∧
      t = { s.elapse dt with bell := t.bell, queues := t.queues, dict := t.dict })

/-- R291, R292, R296: the event that fires is one of those due, and none due comes before it. A release (kind 1) or prefetch
launch (kind 2, with boosted priority) releases the queues of its slot that are not released; one that still is counts an
overrun. A snapshot (kind 4) orders a freeze, or is counted as ignored.
Model choices in it: log entries 53, 68, 69, 99, 162. -/
def Obligations.ScheduleEvents : Prop :=
  (∀ (s : State) (pick : DueEvent → Bool) (x : DueEvent), s.firstDue pick = some x →
    x ∈ s.eventsDue ∧ pick x = true ∧ ∀ y ∈ s.eventsDue, y.before x = false) ∧
  (∀ (s : State) (e dt : Nat) (boost : Bool) (x : DueEvent),
    (s.elapse dt).firstDue (fun y => y.rank == (if boost then 3 else 4) && y.entry == e) = some x →
    ∃ t, exec (if boost then .prefetchLaunch e dt else .scheduleRelease e dt) s = .next t ∧
      (∀ q, t.queue? q = (s.queue? q).map fun k => if k.cadenceBound && k.slot == e && !k.released then
        { k with released := true, releaseFrame := some (x.frame, e), boosted := boost } else k) ∧
      (∃ r, t.bell.releases = s.bell.releases ++ [r] ∧ r.entry = e ∧ r.frame = x.frame ∧
        ∀ q k, (q, k) ∈ s.queues → k.cadenceBound = true → k.slot = e → k.released = false → q ∈ r.queues) ∧
      (x.owed = false → Table.find? e t.bell.fired = some x.frame ∧ t.bell.owed = s.bell.owed) ∧
      (x.owed = true → t.bell.fired = s.bell.fired) ∧
      t.reg 0x2A00 0x0C 0 = s.reg 0x2A00 0x0C 0 +
        (s.queues.filter fun q => (q.2.cadenceBound && q.2.slot == e) && q.2.released).length ∧
      RegsBut s t [State.key 0x2A00 0x0C] ∧ t = { s.elapse dt with queues := t.queues, bell := t.bell, dict := t.dict }) ∧
  (∀ (s : State) (e dt : Nat) (x : DueEvent), (s.elapse dt).firstDue (fun y => y.rank == 2 && y.entry == e) = some x →
    (s.obs.frozen = false → s.obs.due = none → ∃ t n, exec (.counterSnapshot e dt) s = .next t ∧ t.obs.due = some (n, s.pins.dies) ∧
      (∀ p, (s.elapse dt).pointReel (entryInput x.word) x.frame (entryPhase x.word) = some p → n = p) ∧
      (x.owed = false → Table.find? e t.bell.fired = some x.frame) ∧ t = { s.elapse dt with obs := t.obs, bell := t.bell }) ∧
    ((s.obs.frozen = true ∨ s.obs.due ≠ none) → ∃ t, exec (.counterSnapshot e dt) s = .next t ∧
      t.reg 0x2E00 0x05 0 = s.reg 0x2E00 0x05 0 + 1 ∧ RegsBut s t [State.key 0x2E00 0x05] ∧
      (x.owed = false → Table.find? e t.bell.fired = some x.frame) ∧ t.obs.due = s.obs.due ∧ t.obs.frozen = s.obs.frozen ∧
      t = { s.elapse dt with dict := t.dict, bell := t.bell, obs := t.obs }))

/-- R294, R295, R236, R296: a deadline that falls due marks every unfinished command that carries it with the time it missed,
the stepped time after a forward step, and counts one miss for each queue that has not had its event for that deadline; a
release is judged once, a deadline of a TIMED too. A transfer descriptor that has not landed in time marks its MOVE, and
what shares the deadline in its queue counts one miss. Model choices in it: log entries 70, 163. -/
def Obligations.Deadlines : Prop :=
  (∀ (s : State) (n q dt : Nat) (x : DueEvent) (r : Release) (d : Due),
    (s.elapse dt).firstDue (fun y => y.rank == 1 && y.entry == n) = some x →
    s.bell.releases.find? (fun y => y.frame == x.frame && (((s.elapse dt).releaseDue y).map Prod.fst) == some n) = some r →
    (s.elapse dt).releaseDue r = some (n, d) →
    ∃ t, exec (.deadlineCheck (some n) q dt) s = .next t ∧
      t.cmds = s.cmds.map (fun c => if c.deadline = some d ∧ c.missedAt = none then
        { c with missedAt := some ((s.elapse dt).lateFrom c.die (((s.elapse dt).dueReel d).getD (s.elapse dt).bellTime)) } else c) ∧
      t.reg 0x2A00 0x0A 0 = s.reg 0x2A00 0x0A 0 +
        ((((s.cmds.filter fun c => c.deadline == some d).map Cmd.q) ++ r.queues).eraseDups.filter fun q =>
          (s.queue? q).any fun k => !k.missed.contains d.point).length ∧
      (∀ q k, q ∈ r.queues → s.queue? q = some k → d.point ∉ k.missed → t.queue? q = some { k with missed := k.missed ++ [d.point] }) ∧
      ForgetsEvents s t ∧ t.bell.releases = s.bell.releases.erase r ∧
      t = { s.elapse dt with cmds := t.cmds, queues := t.queues, dict := t.dict, outbox := t.outbox, obs := t.obs, bell := t.bell }) ∧
  (∀ (s : State) (q dt : Nat) (k : Queue) (x : DueEvent) (d : Due),
    s.queue? q = some k → (s.elapse dt).firstDue (fun y => y.rank == 1 && y.entry == 4096 + q) = some x →
    ((s.elapse dt).timedDues q).find? (fun y => (s.elapse dt).dueAt y 1 (4096 + q) 0 == [x]) = some d →
    ∃ t, exec (.deadlineCheck none q dt) s = .next t ∧
      t.cmds = s.cmds.map (fun c => if c.q = q ∧ c.deadline = some d ∧ c.missedAt = none then
        { c with missedAt := some ((s.elapse dt).lateFrom c.die (((s.elapse dt).dueReel d).getD (s.elapse dt).bellTime)) } else c) ∧
      t.queue? q = some {
        k with timedJudged := k.timedJudged ++ [d], missed := if d.point ∈ k.missed then k.missed else k.missed ++ [d.point] } ∧
      t.reg 0x2A00 0x0A 0 = s.reg 0x2A00 0x0A 0 + (if d.point ∈ k.missed then 0 else 1) ∧
      t = { s.elapse dt with cmds := t.cmds, queues := t.queues, dict := t.dict, outbox := t.outbox, obs := t.obs }) ∧
  (∀ (s : State) (q i n dt dl : Nat) (c : Cmd) (tr : Transfer) (x : Slot) (k : Queue),
    s.cmd? q i = some c → s.queue? q = some k → c.transfer = some tr → tr.slots.find? (fun y => y.d == n && y.missed.isNone) = some x →
    (s.elapse dt).slotDeadline (Xfer.ofBytes x.bytes) = some dl → dl ≤ (s.elapse dt).reel c.die → (∀ a, x.landed = some a → dl < a) →
    ∃ t, exec (.transferDeadlineDue q i n dt) s = .next t ∧
      t.cmd? q i = some {
        c with late := true, transfer := some (State.putSlot tr { x with missed := some ((s.elapse dt).lateFrom c.die dl) }) } ∧
      (∀ a b, (a, b) ≠ (q, i) → t.cmd? a b = s.cmd? a b) ∧
      t.reg 0x2700 0x0A 0 = s.reg 0x2700 0x0A 0 + (if (s.slotPoint (Xfer.ofBytes x.bytes)) ∈ k.missed then 0 else 1) ∧
      t = { s.elapse dt with cmds := t.cmds, queues := t.queues, dict := t.dict, outbox := t.outbox, obs := t.obs })

/-- R297, R298, R372: the end of an epoch closes it at the event's reel time and opens the next. The oldest closed epoch is
decided after 16 ms, 20 ms where detection was degraded: it is confirmed unless a recorded fault was exposed while a unit
that it touches worked in the epoch. Model choices in it: log entries 53, 83, 99. -/
def Obligations.Epochs : Prop :=
  (∀ (s : State) (dt : Nat) (x : DueEvent), (s.elapse dt).epochEntries = false →
    (s.elapse dt).firstDue (fun y => y.rank == 0 && !y.owed) = some x → ∃ t, exec (.epochEnd none dt) s = .next t ∧
      t.bell.epoch = s.bell.epoch + 1 ∧ t.bell.epochOpened = x.time ∧
      (∃ e, t.bell.closed = s.bell.closed ++ [e] ∧ e.n = s.bell.epoch ∧ e.opened = s.bell.epochOpened ∧ e.closed = x.time) ∧
      t = { s.elapse dt with bell := t.bell }) ∧
  (∀ (s : State) (n dt : Nat) (x : DueEvent), (s.elapse dt).epochEntries = true →
    (s.elapse dt).firstDue (fun y => y.rank == 0 && y.entry == n) = some x → ∃ t, exec (.epochEnd (some n) dt) s = .next t ∧
      t.bell.epoch = s.bell.epoch + 1 ∧ t.bell.epochOpened = x.time ∧ (x.owed = false → Table.find? n t.bell.fired = some x.frame) ∧
      (∃ e, t.bell.closed = s.bell.closed ++ [e] ∧ e.n = s.bell.epoch ∧ e.opened = s.bell.epochOpened ∧ e.closed = x.time) ∧
      t = { s.elapse dt with bell := t.bell }) ∧
  (∀ (s : State) (dt : Nat) (e : ClosedEpoch) (rest : List ClosedEpoch), s.bell.closed = e :: rest →
    e.closed + (if e.degraded then 20000000 else 16000000) ≤ (s.elapse dt).bellTime →
    ∃ t, exec (.epochDecision dt) s = .next t ∧ t.bell.closed = rest ∧
      ((∃ w ∈ s.bell.work, w.epoch = e.n ∧ ∃ f ∈ s.integ.faults, f.exposed ≤ w.time ∧
          ∃ u ∈ w.units, locHolds (bareLoc f.loc) u = true ∨ locHolds u (bareLoc f.loc) = true) →
        t.bell.denied = some e.n ∧ t.bell.confirmed = s.bell.confirmed) ∧
      (¬(∃ w ∈ s.bell.work, w.epoch = e.n ∧ ∃ f ∈ s.integ.faults, f.exposed ≤ w.time ∧
          ∃ u ∈ w.units, locHolds (bareLoc f.loc) u = true ∨ locHolds u (bareLoc f.loc) = true) →
        t.bell.confirmed = some e.n ∧ t.bell.denied = s.bell.denied) ∧
      t = { s.elapse dt with bell := t.bell, obs := t.obs, dict := t.dict })

/-! ## Bruora: ports and flits -/

/-- R303–R305, R307, R310, R324: on a port that is up, the codewords that the FEC corrected and could not correct are
counted; a flit of a codeword that could not be corrected, or whose CRC fails, is counted and asked for again; one with the
expected sequence number is taken, and any other is dropped. One of the data, response or management channel takes a place
of its channel's receive buffer, whose credit is owed. A link control flit releases the flits that it acknowledges, and its
credits let what waits leave. A replay request for a kept flit frees the flits before it and sends it and those after it
again; after 8 replays of one flit the port retrains. Model choices in it: log entries 71, 74. -/
def Obligations.Flits : Prop :=
  (∀ (s : State) (p : Nat) (flit : List Byte) (bad : Bool) (cor unc : Nat), s.bruora.ports.length = 16 → p < 16 → (s.port p).up = true →
    (bad = true ∨ ¬GoodFlit flit →
      ∃ t, exec (.flitReceived p flit ⟨bad, cor, unc⟩) s = .next t ∧ t.outbox = s.outbox ++ [.replay p (s.port p).rx] ∧
        t.reg 0x2B00 0x11 0 = s.reg 0x2B00 0x11 0 + 1 ∧ t.reg 0x2B00 0x0F 0 = s.reg 0x2B00 0x0F 0 + cor ∧
        t.reg 0x2B00 0x10 0 = s.reg 0x2B00 0x10 0 + unc ∧
        t.reg 0x2B00 0x0E 0 = s.reg 0x2B00 0x0E 0 + (if bad then 0 else 1) ∧
        RegsBut s t [State.key 0x2B00 0x11, State.key 0x2B00 0x0F, State.key 0x2B00 0x10, State.key 0x2B00 0x0E] ∧
        t = { s with dict := t.dict, outbox := t.outbox }) ∧
    (bad = false → GoodFlit flit → ∃ t, exec (.flitReceived p flit ⟨bad, cor, unc⟩) s = .next t ∧
      (flitChannel flit ≠ 3 → t.reg 0x2B00 0x0F 0 = s.reg 0x2B00 0x0F 0 + cor ∧ t.reg 0x2B00 0x10 0 = s.reg 0x2B00 0x10 0 + unc ∧
        RegsBut s t [State.key 0x2B00 0x0F, State.key 0x2B00 0x10] ∧ t = { s with dict := t.dict, bruora := t.bruora }) ∧
      (∀ n, n ≠ p → t.port n = s.port n) ∧
      (field flit 0 1 % 4096 ≠ (s.port p).rx → t.bruora = s.bruora ∧ t.outbox = s.outbox) ∧
      (field flit 0 1 % 4096 = (s.port p).rx → flitChannel flit ≠ 3 → Port.pick (s.port p).owed (flitChannel flit) < 1024 →
        t.port p = { s.port p with rx := ((s.port p).rx + 1) % 4096, owed := Port.onChannel (s.port p).owed (flitChannel flit) (· + 1) }) ∧
      (field flit 0 1 % 4096 = (s.port p).rx → flitChannel flit = 3 → (t.port p).rx = ((s.port p).rx + 1) % 4096 ∧
        ((s.port p).unsent = [] → t.outbox = s.outbox ∧ (t.port p).unsent = [] ∧
          (∀ ch, ch < 3 → Port.pick (t.port p).credits ch =
            min 1024 (Port.pick (s.port p).credits ch + Config.controlCredits (slice flit 4 248) ch)) ∧
          (Config.controlAck (slice flit 4 248) % 4096 = (s.port p).tx → (t.port p).kept = []) ∧
          (∀ before seq b rest, (s.port p).kept = before ++ (seq, b) :: rest → (∀ x ∈ before, x.1 ≠ seq) → seq ≠ (s.port p).tx →
            Config.controlAck (slice flit 4 248) % 4096 = seq → (t.port p).kept = (seq, b) :: rest)) ∧
        (∀ m, (s.port p).unsent = State.unsentOf m → (State.unsentOf m).length ≤
            min 1024 (Port.pick (s.port p).credits (State.channelOf m) + Config.controlCredits (slice flit 4 248) (State.channelOf m)) →
          t.outbox = s.outbox ++ [.message p m] ∧ (t.port p).unsent = [])))) ∧
  (∀ (s : State) (p seq again : Nat) (before rest : List (Nat × List Byte)) (b : List Byte),
    s.bruora.ports.length = 16 → p < 16 → (s.port p).up = true →
    (s.port p).kept = before ++ (seq, b) :: rest → (∀ f ∈ before, f.1 ≠ seq) → again = (if before = [] then (s.port p).replays else 0) →
    (again < 8 → ∃ t, exec (.replayRequest p seq) s = .next t ∧
      t.outbox = s.outbox ++ ((seq, b) :: rest).map (fun f => .flit p f.2) ∧
      t.port p = { s.port p with kept := (seq, b) :: rest, replays := again + 1 } ∧ (∀ n, n ≠ p → t.port n = s.port n) ∧
      t = { s with bruora := t.bruora, outbox := t.outbox }) ∧
    (8 ≤ again → ∃ t, exec (.replayRequest p seq) s = .next t ∧ (t.port p).state = 2 ∧ (t.port p).retrain = true ∧
      (t.port p).kept = [] ∧ (∀ n, n ≠ p → t.port n = s.port n) ∧ t.reg 0x2B00 0x13 0 = s.reg 0x2B00 0x13 0 + 1 ∧
      RegsBut s t [State.key 0x2B00 0x13] ∧ t = { s with bruora := t.bruora, cmds := t.cmds, dict := t.dict }))

/-- R308–R310: light starts the training of a dark or failed port. Training that ends with 16 serviceable lanes leaves the
port up at full width, with 8 to 15 at half width, bound to its partner, and counts it; a port that finds its own package
stays down (0x2B21), as does one whose training fails or that has too few lanes (0x2B32): each with a ledger entry. A lane that a
spare map lists never enters service (R12). A port
without light for 10 µs goes dark, and is counted where it was up. Model choices in it: log entries 74, 76. -/
def Obligations.PortTraining : Prop :=
  ∀ (s : State) (p : Nat), s.bruora.ports.length = 16 → p < 16 →
    ((s.pins.state = .ready ∨ s.pins.state = .booting) → ((s.port p).state = 1 ∨ (s.port p).state = 5) →
      ∃ t, exec (.lightDetected p) s = .next t ∧ t.port p = { s.port p with state := 2, retrain := false } ∧
        (∀ n, n ≠ p → t.port n = s.port n) ∧ t = { s with bruora := t.bruora }) ∧
    (∀ lanes package port inc ok, (s.port p).state = 2 → (s.port p).retrain = false → package ≠ s.packageId →
      ok = (List.range 18).filter (fun n => bit lanes n && !s.listed (s.portLoc p n)) →
      8 ≤ ok.length → ∃ t, exec (.trainingComplete p lanes package port inc true) s = .next t ∧
        (t.port p).state = (if 16 ≤ ok.length then 3 else 4) ∧ (t.port p).width = (if 16 ≤ ok.length then 16 else 8) ∧
        (t.port p).lanes = ok.take (t.port p).width ∧ (t.port p).partner = some (package, port) ∧
        (t.port p).partnerIncarnation = some inc ∧ (t.port p).rx = 0 ∧ (t.port p).tx = 0 ∧ (t.port p).kept = [] ∧
        (t.port p).credits = (1024, 1024, 1024) ∧
        (∀ n, n ≠ p → t.port n = s.port n) ∧ t.reg (0x2B10 + p) 0x07 0 = s.reg (0x2B10 + p) 0x07 0 + 1 ∧
        RegsBut s t [State.key (0x2B10 + p) 0x07] ∧ t = { s with bruora := t.bruora, dict := t.dict }) ∧
    (∀ lanes package port inc ok code, (s.port p).state = 2 → (s.port p).retrain = false →
      (ok = true ∧ package = s.packageId ∧ code = 0x2B21 ∨
        (ok = false ∨ package ≠ s.packageId ∧
          ((List.range 18).filter fun n => bit lanes n && !s.listed (s.portLoc p n)).length < 8) ∧ code = 0x2B32) →
      NoDomain s (bareLoc (s.portLoc p 0xFF)) →
      ∃ t, exec (.trainingComplete p lanes package port inc ok) s = .next t ∧ (t.port p).state = 5 ∧ (t.port p).width = 0 ∧
        (∀ n, n ≠ p → t.port n = s.port n) ∧ (t.ledger (p / 8)).seq = (s.ledger (p / 8)).seq + 1 ∧
        ((s.ledger (p / 8)).count < 1022 → ∃ e, Table.find? (s.ledger (p / 8)).tail (t.ledger (p / 8)).places = some e ∧
          e.code = code ∧ e.severity = 1 ∧ e.phys = s.portLoc p 0xFF) ∧
        t = { s with bruora := t.bruora, integ := t.integ, dict := t.dict, obs := t.obs, outbox := t.outbox }) ∧
    (2 ≤ (s.port p).state → ∃ t, exec (.portDarkTimeout p) s = .next t ∧ (t.port p).state = 1 ∧ (t.port p).partner = none ∧
      (t.port p).kept = [] ∧ (∀ n, n ≠ p → t.port n = s.port n) ∧
      t.reg 0x2B00 0x13 0 = s.reg 0x2B00 0x13 0 + (if (s.port p).up then 1 else 0) ∧ RegsBut s t [State.key 0x2B00 0x13] ∧
      t = { s with bruora := t.bruora, cmds := t.cmds, dict := t.dict })

/-- R311: a lane that is lost leaves service with a ledger entry 0x2B31. A lane in use is replaced by the lowest spare one,
which is counted; without one a full-width port with 8 lanes left goes on at half width; any other port goes down. More
than `LANE_SER_LIMIT` symbol errors in 1 ms lose the lane, and fewer change nothing.
Model choices in it: log entries 73, 76. -/
def Obligations.Lanes : Prop :=
  ∀ (s : State) (p lane : Nat), s.bruora.ports.length = 16 → p < 16 → (s.port p).up = true → bit (s.port p).lanesOk lane = true →
    lane < 18 → NoDomain s (bareLoc (s.portLoc p lane)) → NoDomain s (bareLoc (s.portLoc p 0xFF)) →
    (∃ t, exec (.laneLoss p lane) s = .next t ∧ (∀ b, bit (t.port p).lanesOk b = (bit (s.port p).lanesOk b && b != lane)) ∧
      (∀ n, n ≠ p → t.port n = s.port n) ∧ t = { s with bruora := t.bruora, integ := t.integ, dict := t.dict, obs := t.obs, outbox := t.outbox, cmds := t.cmds, bell := t.bell } ∧
      (lane ∉ (s.port p).lanes → (t.port p).lanes = (s.port p).lanes ∧ (t.port p).state = (s.port p).state ∧
        (t.ledger (p / 8)).seq = (s.ledger (p / 8)).seq + 1) ∧
      (∀ spare, lane ∈ (s.port p).lanes → spare < 18 → spare ≠ lane → bit (s.port p).lanesOk spare = true → spare ∉ (s.port p).lanes →
        (∀ b, b < spare → b ≠ lane → bit (s.port p).lanesOk b = true → b ∈ (s.port p).lanes) →
        (t.port p).lanes = (s.port p).lanes.map (fun n => if n = lane then spare else n) ∧ (t.port p).state = (s.port p).state ∧
        (t.port p).width = (s.port p).width ∧ t.reg 0x2B00 0x12 0 = s.reg 0x2B00 0x12 0 + 1) ∧
      (lane ∈ (s.port p).lanes → (∀ b, b < 18 → b ≠ lane → bit (s.port p).lanesOk b = true → b ∈ (s.port p).lanes) →
        (8 ≤ (setBits (t.port p).lanesOk 18).length → (s.port p).width = 16 →
          (t.port p).state = 4 ∧ (t.port p).width = 8 ∧ (t.port p).lanes = (setBits (t.port p).lanesOk 18).take 8) ∧
        (((setBits (t.port p).lanesOk 18).length < 8 ∨ (s.port p).width ≠ 16) →
          (t.port p).state = 5 ∧ (t.port p).width = 0 ∧ t.reg 0x2B00 0x13 0 = s.reg 0x2B00 0x13 0 + 1))) ∧
    (∀ errors, s.keptReg 0x2B00 0x08 1000 * 22400000 < errors * 10 ^ 9 → exec (.laneErrorRateCheck p lane errors) s = exec (.laneLoss p lane) s) ∧
    (∀ errors, errors * 10 ^ 9 ≤ s.keptReg 0x2B00 0x08 1000 * 22400000 → exec (.laneErrorRateCheck p lane errors) s = .next s)

/-! ## Bruora: messages -/

/-- R315, R318, R319, R211: a write message of another package. One that had landed is only acknowledged again, and one that
its window refuses is answered with a NACK, counted, and changes no memory and no row. A write of one run of rows into a
Loft window lands each row on every cluster of the partition, and each cluster's arrival counter counts it once; one into a
page of a memory window lands its bytes at the page, and no other byte changes.
R318, R319: a read request of another package is answered with the bytes of its window and an acknowledgement: bytes of
memory, or rows of the lowest cluster of the partition; one that meets a bad row is answered with a NACK of R216's codes. One that its window refuses is answered with a NACK and counted; one
that had been served is only acknowledged. No memory and no row changes.
R307, R312, R313: those answers leave at once by the route of their package, on a port that holds credits for them. One for
which the port has no credit waits on it, one whose route is not available waits for it, and one whose package has no route
is not sent. Model choices in it: log entries 59, 71, 72, 75, 157, 164. -/
def Obligations.RemoteMessages : Prop :=
  (∀ (s : State) (m : Message) (out : Nat),
      m.kind = 1 → m.dst = s.packageId → m.src ≠ s.packageId → s.pins.ready = true → s.route m.src = .port out →
      (s.landedBefore m = true → Sends s out [s.reply m 4 0 []] → ∃ t, exec (.remoteWrite m) s = .next t ∧ t.outbox = s.outbox ++ [.message out (s.reply m 4 0 [])] ∧
        t = { s with bruora := t.bruora, dict := t.dict, outbox := t.outbox }) ∧
      (s.landedBefore m = false → s.windowCode m true ≠ 0 → Sends s out [s.reply m 5 (s.windowCode m true) []] → ∃ t, exec (.remoteWrite m) s = .next t ∧
        t.outbox = s.outbox ++ [.message out (s.reply m 5 (s.windowCode m true) [])] ∧
        t.reg 0x2B00 0x14 0 = s.reg 0x2B00 0x14 0 + 1 ∧ t.bruora.landed = s.bruora.landed ∧
        t = { s with bruora := t.bruora, dict := t.dict, outbox := t.outbox }) ∧
      (∀ w off b, s.landedBefore m = false → s.window? m.window = some w → s.windowCode m true = 0 → m.segs = [(off, b)] → w.memory = false →
        Sends s out [s.reply m 4 0 []] →
        (s.part w.region w.part).ctrBase + w.counter < 4096 →
        16 * (s.part w.region w.part).baseUnit + w.base + off / 512 + b.length / 512 ≤ 4096 →
        ∃ t, exec (.remoteWrite m) s = .next t ∧ t.outbox = s.outbox ++ [.message out (s.reply m 4 0 [])] ∧
        Table.find? m.src t.bruora.landed = some (m.seq, m.incarnation) ∧
        (∀ c i, c < 16 → bit (s.part w.region w.part).mask c = true → i < b.length / 512 →
          t.loftRow (loftKey w.region c (16 * (s.part w.region w.part).baseUnit + (w.base + off / 512 + i))) =
            { LoftRow.ofBytes (slice b (512 * i) 512) with pending := (s.part w.region w.part).hazard &&
                (s.loftRow (loftKey w.region c (16 * (s.part w.region w.part).baseUnit + (w.base + off / 512 + i)))).pending }) ∧
        (∀ k, (∀ c i, c < 16 → bit (s.part w.region w.part).mask c = true → i < b.length / 512 →
            k ≠ loftKey w.region c (16 * (s.part w.region w.part).baseUnit + (w.base + off / 512 + i))) → t.loftRow k = s.loftRow k) ∧
        (∀ c, c < 16 → bit (s.part w.region w.part).mask c = true →
          t.ctr (loftKey w.region c ((s.part w.region w.part).ctrBase + w.counter)) =
            (s.ctr (loftKey w.region c ((s.part w.region w.part).ctrBase + w.counter)) + 1) % 2 ^ 32) ∧
        t = { s with bruora := t.bruora, dict := t.dict, outbox := t.outbox, loft := t.loft, obs := t.obs }) ∧
      (∀ w off b pa, s.landedBefore m = false → s.window? m.window = some w → s.windowCode m true = 0 → m.segs = [(off, b)] → w.memory = true →
        Sends s out [s.reply m 4 0 []] →
        b ≠ [] → (w.base + off) / 4096 = (w.base + off + b.length - 1) / 4096 → State.heldPhys w (w.base + off) = some pa →
        ∃ t, exec (.remoteWrite m) s = .next t ∧ t.outbox = s.outbox ++ [.message out (s.reply m 4 0 [])] ∧
        Table.find? m.src t.bruora.landed = some (m.seq, m.incarnation) ∧
        t.physRead pa b.length = b ∧
        (pa < hostBase → t.hostMem = s.hostMem ∧ ∀ a, a < pa ∨ pa + b.length ≤ a → memByte t.devMem a = memByte s.devMem a) ∧
        (hostBase ≤ pa → t.devMem = s.devMem ∧ ∀ a, a < pa - hostBase ∨ pa - hostBase + b.length ≤ a → memByte t.hostMem a = memByte s.hostMem a) ∧
        ((s.part w.region w.part).ctrBase + w.counter < 4096 → ∀ c, c < 16 → bit (s.part w.region w.part).mask c = true →
          t.ctr (loftKey w.region c ((s.part w.region w.part).ctrBase + w.counter)) =
            (s.ctr (loftKey w.region c ((s.part w.region w.part).ctrBase + w.counter)) + 1) % 2 ^ 32) ∧ t.loft.rows = s.loft.rows ∧
        t = { s with bruora := t.bruora, dict := t.dict, outbox := t.outbox, loft := t.loft, devMem := t.devMem, hostMem := t.hostMem,
                     poisoned := t.poisoned, barn := t.barn, trans := t.trans, obs := t.obs, free := t.free })) ∧
  (∀ (s : State) (m : Message) (out : Nat),
      m.kind = 2 → m.dst = s.packageId → m.src ≠ s.packageId → s.pins.ready = true → s.route m.src = .port out →
      (s.landedBefore m = true → Sends s out [s.reply m 4 0 []] → ∃ t, exec (.remoteReadRequest m) s = .next t ∧
        t.outbox = s.outbox ++ [.message out (s.reply m 4 0 [])] ∧
        t = { s with bruora := t.bruora, dict := t.dict, outbox := t.outbox }) ∧
      (s.landedBefore m = false → s.windowCode m false ≠ 0 → Sends s out [s.reply m 5 (s.windowCode m false) []] → ∃ t, exec (.remoteReadRequest m) s = .next t ∧
        t.outbox = s.outbox ++ [.message out (s.reply m 5 (s.windowCode m false) [])] ∧
        t.reg 0x2B00 0x14 0 = s.reg 0x2B00 0x14 0 + 1 ∧ t = { s with bruora := t.bruora, dict := t.dict, outbox := t.outbox }) ∧
      (∀ w, s.landedBefore m = false → s.window? m.window = some w → s.windowCode m false = 0 → w.memory = false →
        (∃ r ∈ (s.windowRows w m).2, r.2.2.1 = true) → Sends s out [s.reply m 5 0x2605 []] → ∃ t code, exec (.remoteReadRequest m) s = .next t ∧
        t.outbox = s.outbox ++ [.message out (s.reply m 5 code [])] ∧ 0x2605 ≤ code ∧ code ≤ 0x2607 ∧ t.bruora.landed = s.bruora.landed) ∧
      (∀ w, s.landedBefore m = false → s.window? m.window = some w → s.windowCode m false = 0 →
        (w.memory = false → ∀ r ∈ (s.windowRows w m).2, r.2.2.1 = false) →
        Sends s out [s.reply m 3 0 (List.replicate m.length 0), s.reply m 4 0 []] →
        ∃ t data, exec (.remoteReadRequest m) s = .next t ∧
        t.outbox = s.outbox ++ [.message out (s.reply m 3 0 data), .message out (s.reply m 4 0 [])] ∧
        (w.memory = true → data = (s.readHeld w (w.base + m.offset) m.length).1) ∧
        (w.memory = false → ∀ c, c < 16 → bit (s.part w.region w.part).mask c = true →
          (∀ b, b < c → bit (s.part w.region w.part).mask b = false) →
          data = ((List.range (m.length / 512)).map fun i =>
            (s.readRow (s.part w.region w.part) w.region c (w.base + m.offset / 512 + i)).1).flatten) ∧
        Table.find? m.src t.bruora.landed = some (m.seq, m.incarnation) ∧
        (w.memory = false → t.barn = s.barn ∧ t.trans = s.trans) ∧
        t = { s with bruora := t.bruora, dict := t.dict, obs := t.obs, barn := t.barn, trans := t.trans, outbox := t.outbox })) ∧
  (∀ (s : State) (m : Message), m.kind = 1 → m.dst = s.packageId → m.src ≠ s.packageId → s.pins.ready = true → s.landedBefore m = true →
    (∀ out, s.route m.src = .port out → (s.port out).unsent = [] → (s.port out).credits.2.1 = 0 → ∃ t, exec (.remoteWrite m) s = .next t ∧
      t.outbox = s.outbox ∧ (t.port out).unsent = State.unsentOf (s.reply m 4 0 []) ∧ t = { s with bruora := t.bruora, dict := t.dict }) ∧
    (s.route m.src = .wait → ∃ t, exec (.remoteWrite m) s = .next t ∧
      t.bruora = { s.bruora with held := s.bruora.held ++ [s.reply m 4 0 []] } ∧ t = { s with bruora := t.bruora, dict := t.dict }) ∧
    (s.route m.src = .noRoute → ∃ t, exec (.remoteWrite m) s = .next t ∧ t = { s with dict := t.dict }))

/-- R170, R234, R312–R315, R319: answers to messages that this package sent. The last acknowledgement of a `SEND` completes its
command; an acknowledgement and the data of a read are given to the slot of their MOVE, which goes on, or, where its task is
parked, stands at its cursor. A NACK ends the command of a `SEND` with its code, and fails a MOVE at its descriptor's cursor.
A message in transit leaves on the link to its target, marked; one that was marked, or whose target is no neighbour, is
answered with a NACK 0x2B02. Model choices in it: log entries 71, 72. -/
def Obligations.Answers : Prop :=
  (∀ (s : State) (m : Message) (x : Sent) (c : Cmd), m.dst = s.packageId → m.src ≠ s.packageId → s.pins.ready = true →
    s.sentBy m = some x → s.cmd? x.q x.i = some c → (∀ h ∈ s.bruora.held, h.dst ≠ m.src) →
    (∀ z ∈ s.cmds, ¬(z.q = x.q ∧ z.i = x.i) → z ∉ s.linkUsers m.src) →
    (∀ ref st, m.kind = 4 → c.wait = .link ref → c.sends = [] → c.transfer = none → sendStage c = some st → s.mayRun c = true →
      (∀ z ∈ s.bruora.sent, z.q = x.q → z.i = x.i → z = x) → ∃ t, exec (.acknowledge m) s = .next t ∧
      t.cmd? x.q x.i = some { c with wait := .done } ∧ t.bruora.sent = s.bruora.sent.filter (· != x) ∧
      t = { s with cmds := t.cmds, bruora := t.bruora, obs := t.obs, dict := t.dict }) ∧
    (∀ (tr : Transfer) (y : Slot), c.transfer = some tr → c.wait = .transfer → tr.slots = [y] → y.d = x.d →
      (m.kind = 4 → ∃ (u : State) (c' : Cmd), exec (.acknowledge m) s = .next ((u.advanceMove c').retryRoutes m.src) ∧
        u.cmd? x.q x.i = some c' ∧ u.bruora.sent = s.bruora.sent.filter (· != x) ∧
        c' = { c with transfer := some { tr with slots := [
          { y with unacked := y.unacked.filter fun e => e.1 != m.seq, cursor := match y.unacked, y.unacked.filter fun e => e.1 != m.seq with
              | [], _ => y.cursor | _, [] => y.formed | _, e :: _ => e.2.1 }] } } ∧
        u = { s with cmds := u.cmds, bruora := u.bruora, dict := u.dict }) ∧
      (∀ n, m.kind = 3 → y.reads.find? (fun r => r.1 == m.seq) = some (m.seq, n) →
        ∃ (u : State) (c' : Cmd), exec (.readData m) s = .next (u.advanceMove c') ∧ u.cmd? x.q x.i = some c' ∧
        c' = { c with transfer := some { tr with slots := [
          { y with reads := y.reads.filter (fun e => e.1 != m.seq), got := y.got ++ [(n, (m.segs.map Prod.snd).flatten)] }] } } ∧
        u = { s with cmds := u.cmds, dict := u.dict }) ∧
      (s.mayRun c = true → y.started = true → y.failed = false → y.landed = none → y.faulted = none → tr.failure = none →
        tr.completed < tr.count → y.group = [] →
        (∀ lo hi rest, m.kind = 4 → (Xfer.ofBytes y.bytes).rows ≤ y.formed → y.unacked = (m.seq, lo, hi) :: rest →
          (∀ e ∈ rest, e.1 ≠ m.seq) → (rest ≠ [] ∨ (Xfer.ofBytes y.bytes).signals = false) → ∃ t, exec (.acknowledge m) s = .next t ∧
          t.cmd? x.q x.i = some { c with transfer := some { tr with slots := [
            { y with unacked := rest, cursor := (match rest with | [] => (Xfer.ofBytes y.bytes).rows | e :: _ => e.2.1),
                     landed := if rest = [] then some (s.reel c.die) else none }] } } ∧
          t.bruora.sent = s.bruora.sent.filter (· != x) ∧ t.reg 0x2700 0x06 0 = s.reg 0x2700 0x06 0 + (hi - lo) ∧
          t = { s with cmds := t.cmds, bruora := t.bruora, dict := t.dict }) ∧
        (∀ n, m.kind = 3 → (Xfer.ofBytes y.bytes).srcKind = 2 → y.formed < (Xfer.ofBytes y.bytes).rows →
          y.reads.find? (fun r => r.1 == m.seq) = some (m.seq, n) → y.reads.filter (fun e => e.1 != m.seq) ≠ [] →
          ∃ t, exec (.readData m) s = .next t ∧
          t.cmd? x.q x.i = some { c with transfer := some { tr with slots := [
            { y with reads := y.reads.filter (fun e => e.1 != m.seq), got := y.got ++ [(n, (m.segs.map Prod.snd).flatten)] }] } } ∧
          t = { s with cmds := t.cmds, dict := t.dict })) ∧
      (∀ k, s.queue? c.q = some k → k.parked = true → y.started = true → y.failed = false → y.landed = none → y.faulted = none →
        tr.failure = none → tr.completed < tr.count →
        (∀ lo hi, m.kind = 4 → y.unacked = [(m.seq, lo, hi)] → ∃ t, exec (.acknowledge m) s = .next t ∧
          t.cmd? x.q x.i = some { c with transfer := some { tr with slots := [
            { y with unacked := [], cursor := y.formed, stopped := true }] } } ∧
          t.bruora.sent = s.bruora.sent.filter (· != x) ∧ t.reg 0x2700 0x06 0 = s.reg 0x2700 0x06 0 + (hi - lo) ∧
          t = { s with cmds := t.cmds, bruora := t.bruora, dict := t.dict }) ∧
        (∀ n, m.kind = 3 → y.reads.find? (fun r => r.1 == m.seq) = some (m.seq, n) → ∃ t, exec (.readData m) s = .next t ∧
          t.cmd? x.q x.i = some { c with transfer := some { tr with slots := [
            { y with reads := y.reads.filter (fun e => e.1 != m.seq), got := y.got ++ [(n, (m.segs.map Prod.snd).flatten)],
                     stopped := true }] } } ∧
          t = { s with cmds := t.cmds, dict := t.dict })))) ∧
  (∀ (s : State) (m : Message) (x : Sent) (c : Cmd), m.kind = 5 → m.dst = s.packageId → m.src ≠ s.packageId → s.pins.ready = true →
    s.nackedBy m = some x → s.cmd? x.q x.i = some c → State.openCmd c = true → (∀ h ∈ s.bruora.held, h.dst ≠ x.msg.dst) →
    (∀ z ∈ s.cmds, ¬(z.q = x.q ∧ z.i = x.i) → z ∉ s.linkUsers x.msg.dst) →
    (c.transfer = none → ∃ t, exec (.nack m) s = .next t ∧
      t.cmd? x.q x.i = some { c with sends := [], status := m.offset % 65536, detail := 0, wait := .done } ∧
      (∀ y ∈ t.bruora.sent, ¬(y.q = x.q ∧ y.i = x.i)) ∧ FailsAlone s t) ∧
    (∀ (tr : Transfer) (y : Slot), c.transfer = some tr → tr.slots = [y] → y.d = x.d → y.failed = false → tr.failure = none →
      ∃ t, exec (.nack m) s = .next t ∧
      t.cmd? x.q x.i = some {
        c with transfer := some { tr with failure := some { d := y.d, code := m.offset % 65536, cursor := y.cursor }, slots := [] },
               ratio := (tr.first + y.d) % 2 ^ tr.log2, mb := y.cursor % 65536, spill := y.cursor / 65536,
               status := m.offset % 65536, wait := .done } ∧
      (∀ y ∈ t.bruora.sent, ¬(y.q = x.q ∧ y.i = x.i)) ∧ FailsAlone s t)) ∧
  (∀ (s : State) (m : Message) (p : Nat), m.dst ≠ s.packageId → s.pins.ready = true → p < 16 → (s.port p).up = true →
    (s.port p).partner.map Prod.fst = some m.dst →
    (∀ n, n < p → ¬((s.port n).up = true ∧ (s.port n).partner.map Prod.fst = some m.dst)) →
    (m.transit = false → Sends s p [{ m with transit := true }] → ∃ t, exec (.transitForward m) s = .next t ∧
      t.outbox = s.outbox ++ [.message p { m with transit := true }] ∧ t = { s with bruora := t.bruora, dict := t.dict, outbox := t.outbox }) ∧
    (∀ out, m.transit = true → s.route m.src = .port out → Sends s out [s.reply m 5 0x2B02 []] → ∃ t, exec (.transitForward m) s = .next t ∧
      t.outbox = s.outbox ++ [.message out (s.reply m 5 0x2B02 [])] ∧ t = { s with bruora := t.bruora, dict := t.dict, outbox := t.outbox })) ∧
  (∀ (s : State) (m : Message) (out : Nat), m.dst ≠ s.packageId → s.pins.ready = true → s.route m.src = .port out →
    (∀ n, n < 16 → ¬((s.port n).up = true ∧ (s.port n).partner.map Prod.fst = some m.dst)) → Sends s out [s.reply m 5 0x2B02 []] →
    ∃ t, exec (.transitForward m) s = .next t ∧
      t.outbox = s.outbox ++ [.message out (s.reply m 5 0x2B02 [])] ∧ t = { s with bruora := t.bruora, dict := t.dict, outbox := t.outbox })

/-- R321: a destination that stays unreachable beyond the timeout loses what was sent to it and not acknowledged, and a
command whose `SEND` waits on it fails with 0x2B06; while it can be reached nothing happens. Once it can be reached again,
its unacknowledged messages leave in their order on the port that reaches it, where that holds credits for them, and the
commands that wait on it go on; until then no new message goes to it.
Model choices in it: log entry 64. -/
def Obligations.Links : Prop :=
  (∀ (s : State) (dst : Nat),
    (∀ p, s.reachable dst = some p → exec (.linkRecoveryTimeout dst) s = .next s) ∧
    (s.reachable dst = none → s.linkUsers dst = [] → ∃ t, exec (.linkRecoveryTimeout dst) s = .next t ∧
      t.bruora = {
        s.bruora with sent := s.bruora.sent.filter (fun m => m.msg.dst != dst), lost := s.bruora.lost.filter (· != dst),
                      held := s.bruora.held.filter (fun m => m.dst != dst) } ∧
      t = { s with bruora := t.bruora }) ∧
    (∀ c, s.reachable dst = none → s.linkUsers dst = [c] → s.cmd? c.q c.i = some c → c.transfer = none → State.openCmd c = true →
      ∃ t, exec (.linkRecoveryTimeout dst) s = .next t ∧
      t.cmd? c.q c.i = some { c with sends := [], status := 0x2B06, detail := 0, wait := .done } ∧
      (∀ m ∈ t.bruora.sent, m.msg.dst ≠ dst ∧ ¬(m.q = c.q ∧ m.i = c.i)) ∧ dst ∉ t.bruora.lost ∧
      FailsAlone s t)) ∧
  (∀ (s : State) (dst p : Nat), s.reachable dst = some p → dst ∈ s.bruora.lost → (∀ h ∈ s.bruora.held, h.dst ≠ dst) →
    Sends s p ((s.bruora.sent.filter fun m => m.msg.dst == dst).map Sent.msg) → ∃ (u : State),
    exec (.linkRecovered dst) s = .next (u.resumeThose fun c => (s.linkUsers dst).any fun x => x.q == c.q && x.i == c.i) ∧
    u.outbox = s.outbox ++ ((s.bruora.sent.filter fun m => m.msg.dst == dst).map fun m => .message p m.msg) ∧
    (∀ m ∈ u.bruora.sent, m.msg.dst = dst → m.port = p) ∧ dst ∉ u.bruora.lost ∧
    u = { s with bruora := u.bruora, dict := u.dict, outbox := u.outbox }) ∧
  (∀ (s : State) (dst p : Nat), s.reachable dst = some p → dst ∈ s.bruora.lost → s.linkUsers dst = [] →
    ∃ t, exec (.linkRecovered dst) s = .next t ∧ dst ∉ t.bruora.lost ∧ t = { s with bruora := t.bruora, dict := t.dict, outbox := t.outbox }) ∧
  (∀ (s : State) (dst : Nat) (q i d ref off len elem : Nat) (w : Bool) (segs : List (Nat × List Byte)), dst ∈ s.bruora.lost →
    refPackage ref = dst → dst < s.keptReg 0x2000 0x02 1 → dst ≠ s.packageId → s.routeByte false dst < 16 →
    s.sendTo q i d ref w off len segs elem = (.wait, s))

/-! ## Units, faults and repair -/

/-- R356–R360: sabbaticals. A rotation step begins the probation of the unit whose self-test has passed. A Thresher or
Gleaner that passes its self-test waits for its probation; one with few failed columns has them steered out and does too;
one that fails is retired with a ledger entry. A completed probation lets the unit take its slot; one that is late makes
`DETECT_INTERVAL_MAX` read 20,000. A known-answer tile changes nothing.
Model choices in it: log entries 82, 91, 95, 175. -/
def Obligations.SelfTests : Prop :=
  (∀ (s : State) (r c i : Nat) (g : Bool), r < 16 → c < 18 → i < 5 →
    (∀ j, j < 5 → s.phase? (unitLoc r c (if g then 2 else 1) j 0xFF) ≠ some .probation) →
    s.phase? (unitLoc r c (if g then 2 else 1) i 0xFF) = some .tested →
    (∀ j, j < i → s.phase? (unitLoc r c (if g then 2 else 1) j 0xFF) ≠ some .tested) →
    ∃ t, exec (.rotationStep r c g) s = .next t ∧ t.phase? (unitLoc r c (if g then 2 else 1) i 0xFF) = some .probation ∧
      (∀ j, j < 5 → j ≠ i → t.phase? (unitLoc r c (if g then 2 else 1) j 0xFF) = s.phase? (unitLoc r c (if g then 2 else 1) j 0xFF)) ∧
      t.hostsOf r c = { s.hostsOf r c with step := (s.hostsOf r c).step + (if g then 0 else 1) } ∧ t = { s with integ := t.integ }) ∧
  (∀ (s : State) (l : Nat), s.inSelfTest l = true → (locKind l = 1 ∨ locKind l = 2) →
    (s.containerOut l = false → ∃ t, exec (.selfTestComplete l .pass) s = .next t ∧ t.phase? l = some .tested ∧
      Table.find? (bareLoc l) t.integ.passed = some (s.reel (locDie l)) ∧ t.integ.hosts = s.integ.hosts ∧
      t.integ.field = s.integ.field ∧ t = { s with integ := t.integ }) ∧
    (∃ t, exec (.selfTestComplete l .fail) s = .next t ∧ t.listedLocs.any (samePlace l) = true ∧
      (s.ledger (locDie l)).seq < (t.ledger (locDie l)).seq ∧
      t = { s with integ := t.integ, dict := t.dict, obs := t.obs, outbox := t.outbox, bell := t.bell }) ∧
    (∀ cs, locKind l = 1 → cs ≠ [] → (∀ x ∈ cs, x < 67 ∧ x ∉ s.columnsOf l) → cs.Nodup → (s.columnsOf l).length + cs.length ≤ 2 →
      ∃ t, exec (.selfTestComplete l (.columns cs)) s = .next t ∧ t.phase? l = some .tested ∧
      (∀ x ∈ cs, t.listedLocs.any (samePlace (bareLoc l - 0xFF + x)) = true) ∧
      t = { s with integ := t.integ, dict := t.dict, obs := t.obs, outbox := t.outbox })) ∧
  (∀ (s : State) (l : Nat), s.phase? l = some .probation → ∃ t, exec (.probationComplete l) s = .next t ∧
    t.phase? l = some .passed ∧ Table.find? (bareLoc l) t.integ.passed = some (s.reel (locDie l)) ∧
    t.integ.hosts = s.integ.hosts ∧ t = { s with integ := t.integ }) ∧
  (∀ (s : State) (r c i : Nat) (g : Bool), i < 5 → s.phase? (unitLoc r c (if g then 2 else 1) i 0xFF) = some .probation →
    ∃ t, exec (.probationOverrun r c g) s = .next t ∧ t.detectMax = 20000 ∧
      t.hostsOf r c = (if g then { s.hostsOf r c with overrunGleaner := true } else { s.hostsOf r c with overrunThresher := true }) ∧
      t = { s with integ := t.integ, bell := t.bell }) ∧
  (∀ (s : State) (l : Nat), exec (.knownAnswerTile l) s = .next s)

/-- R13, R14: at the command boundary of a slot a unit that has passed its probation takes the slot; a unit ordered out leaves
there, retired or quarantined; before the boundary nothing happens. A logical cluster without a physical one, or on one with
3 Threshers or 1 Gleaner left, moves at its boundary to the lowest unused serviceable one, whose units begin their tests;
a pinned partition on it is never saved, so that it does not move. A Loft bank that fails its self-test leaves its logical
bank to the spare one, and no row changes. Model choices in it: log entries 89, 94, 156, 159, 160. -/
def Obligations.SlotsAndClusters : Prop :=
  (∀ (s : State) (l : Nat),
    (s.atBoundary l = false → exec (.slotHandover l) s = .next s) ∧
    (s.atBoundary l = true → s.integ.leaving.find? (fun e => samePlace e.1 l) = none → s.phase? l = some .passed →
      (locKind l = 1 → ∃ t, exec (.slotHandover l) s = .next t ∧
        (t.hostsOf (locRegion16 l) (locCluster l)).threshers = (s.hostsOf (locRegion16 l) (locCluster l)).threshers.set
          (State.slotFor (s.hostsOf (locRegion16 l) (locCluster l)).threshers (locIndex l)) (some (locIndex l)) ∧
        (t.hostsOf (locRegion16 l) (locCluster l)).gleaners = (s.hostsOf (locRegion16 l) (locCluster l)).gleaners ∧
        (t.hostsOf (locRegion16 l) (locCluster l)).overrunThresher = false ∧ t.phase? l = none ∧
        t = { s with integ := t.integ, dict := t.dict, obs := t.obs, outbox := t.outbox, bell := t.bell }) ∧
      (locKind l = 2 → ∃ t, exec (.slotHandover l) s = .next t ∧
        (t.hostsOf (locRegion16 l) (locCluster l)).gleaners = (s.hostsOf (locRegion16 l) (locCluster l)).gleaners.set
          (State.slotFor (s.hostsOf (locRegion16 l) (locCluster l)).gleaners (locIndex l)) (some (locIndex l)) ∧
        (t.hostsOf (locRegion16 l) (locCluster l)).threshers = (s.hostsOf (locRegion16 l) (locCluster l)).threshers ∧
        (t.hostsOf (locRegion16 l) (locCluster l)).overrunGleaner = false ∧ t.phase? l = none ∧
        t = { s with integ := t.integ, dict := t.dict, obs := t.obs, outbox := t.outbox, bell := t.bell })) ∧
    (∀ x q, s.atBoundary l = true → s.integ.leaving.find? (fun e => samePlace e.1 l) = some (x, q) →
      ∃ t, exec (.slotHandover l) s = .next t ∧ (t.integ.leaving.any fun e => samePlace e.1 x) = false ∧
        (if q then t.integ.quarantined.any (samePlace x) = true else t.listedLocs.any (samePlace x) = true) ∧
        (locKind x ≠ 10 → t.cmds = s.cmds ∧ t.bruora = s.bruora) ∧
        t = { s with integ := t.integ, dict := t.dict, obs := t.obs, outbox := t.outbox, bell := t.bell, cmds := t.cmds,
                     bruora := t.bruora })) ∧
  (∀ (s : State) (r n c : Nat), r < 16 → n < 16 → s.regionOk r = true → (s.mapOf r).length = 16 →
    ((s.mapOf r).getD n none = none ∧ (s.integ.away.any fun a => a.1 == r && a.2.1 == n) = false ∨
      ∃ o, (s.mapOf r).getD n none = some o ∧ ((s.threshersOk r o).length ≤ 3 ∨ (s.gleanersOk r o).length ≤ 1)) →
    (s.cmds.any fun x => x.begun && x.wait != .done && x.region == r && bit x.clusters n) = false →
    (s.clustersOk r).find? (fun c => !(s.mapOf r).contains (some c) && !s.quarantinedAt (unitLoc r c 0 0 0xFF) &&
      !s.integ.away.any fun a => a.1 == r && a.2.2 == c) = some c →
    (∀ e ∈ s.queues, e.2.region = r → (s.partOf e.2).state = 1 → bit (s.partOf e.2).mask n = true →
      (s.partOf e.2).pinned = false ∧ s.areaReach e.1 e.2 = (s, true)) →
    ∃ t, exec (.clusterMove r n) s = .next t ∧ (t.mapOf r).getD n none = some c ∧ s.integ.remaps < t.integ.remaps ∧
      (t.hostsOf r c).threshers = List.replicate 4 none ∧ (t.hostsOf r c).gleaners = List.replicate 2 none ∧
      (t.hostsOf r c).banks = (List.range 16).map (fun b => (s.banksOk r c)[b]?) ∧
      (∀ u ∈ s.clusterUnits r c, s.quarantinedAt u = false → t.phase? u = some .selfTest) ∧
      t = { s with integ := t.integ, bell := t.bell, devMem := t.devMem, hostMem := t.hostMem, poisoned := t.poisoned, free := t.free }) ∧
  (∀ (s : State) (r n : Nat) (e : Nat × Queue), e ∈ s.queues → e.2.region = r → (s.partOf e.2).state = 1 → bit (s.partOf e.2).mask n = true →
    (s.partOf e.2).pinned = true → ∃ t, exec (.clusterMove r n) s = .next t ∧ t.integ = s.integ ∧ t.loft = s.loft) ∧
  (∀ (s : State) (l : Nat), locKind l = 4 → locSub l ≠ 0xFF → s.phase? l = some .selfTest → s.atBoundary l = true →
    s.integ.leaving = [] → ∃ t, exec (.selfTestComplete l .fail) s = .next t ∧ t.listedLocs.any (samePlace l) = true ∧
      ((t.hostsOf (locRegion16 l) (locCluster l)).banks.contains (some (locSub l))) = false ∧ t.loft = s.loft ∧
      (∀ b, (s.hostsOf (locRegion16 l) (locCluster l)).banks = (List.range 16).map some → locSub l = b → b < 16 →
        s.serviceable (locRegion16 l) (locCluster l) 4 0 16 = true → s.quarantinedAt (unitLoc (locRegion16 l) (locCluster l) 4 0 16) = false →
        s.phase? (unitLoc (locRegion16 l) (locCluster l) 4 0 16) = none →
        (t.hostsOf (locRegion16 l) (locCluster l)).banks = ((List.range 16).map some).set b (some 16)))

/-- R216, R354, R360–R362, R368: a fault at unit severity, met in use where no containment domain is open, writes one entry
that names it. Without a command it changes nothing else. One of a
Thresher or Gleaner that holds no slot affects no command (R360). A command that it affects waits to be run again; one that cannot
be run again, that has signalled or sent, or that has reached its limit fails with 0x2C20, 0x2C21 or, by the limit, 0x2C22.
Model choices in it: log entries 90, 98, 172, 175. -/
def Obligations.FaultsDetected : Prop :=
  ∀ (s : State) (code l detail : Nat), code ∈ [0x2C01, 0x2C02, 0x2C04, 0x2C05, 0x2C06, 0x2C07, 0x2C0D] → locOk l = true → locPhys l = true →
    bit s.pins.dies (locDie l) = true → NoDomain s (bareLoc (s.fullLoc l)) →
    (locKind l = 1 ∨ locKind l = 2 → ∀ ph cmd, s.phase? (containerAt 1 (s.fullLoc l)) = some ph →
      ∃ t, exec (.faultDetected code l detail cmd true) s = .next t ∧ (t.ledger (locDie l)).seq = (s.ledger (locDie l)).seq + 1 ∧
      t = { s with integ := t.integ, dict := t.dict, obs := t.obs, outbox := t.outbox }) ∧
    ((locKind l = 1 ∨ locKind l = 2 → s.phase? (containerAt 1 (s.fullLoc l)) = none) →
    (∃ t, exec (.faultDetected code l detail none true) s = .next t ∧ (t.ledger (locDie l)).seq = (s.ledger (locDie l)).seq + 1 ∧
      ((s.ledger (locDie l)).count < 1022 → ∃ e, Table.find? (s.ledger (locDie l)).tail (t.ledger (locDie l)).places = some e ∧
        e.code = code ∧ e.severity = 1 ∧ e.nested = false ∧ e.state = 3 ∧ e.phys = s.fullLoc l ∧ e.detail = detail ∧
        e.seq = (s.ledger (locDie l)).seq ∧ e.time = s.reel (locDie l)) ∧
      t.integ.domains = s.integ.domains ∧ t.ledger (1 - locDie l) = s.ledger (1 - locDie l) ∧
      t = { s with integ := t.integ, dict := t.dict, obs := t.obs, outbox := t.outbox }) ∧
    (∀ q i c, s.cmd? q i = some c → State.openCmd c = true →
      (c.nonRerunnable = false → c.released = false → c.reruns < s.keptReg 0x2600 0x07 2 →
        ∃ t, exec (.faultDetected code l detail (some (q, i)) true) s = .next t ∧
        t.cmd? q i = some { c with lastFault := some (bareLoc (containerAt 1 (s.fullLoc l))), wait := .rerun false } ∧
        (∀ a b, (a, b) ≠ (q, i) → t.cmd? a b = s.cmd? a b) ∧ (t.ledger (locDie l)).seq = (s.ledger (locDie l)).seq + 1 ∧
        (∃ d ∈ t.integ.domains, d.cmd = some (q, i) ∧ d.severity = 1) ∧
        t = { s with cmds := t.cmds, integ := t.integ, dict := t.dict, obs := t.obs, outbox := t.outbox }) ∧
      (c.nonRerunnable = true ∨ c.released = true → ∃ t, exec (.faultDetected code l detail (some (q, i)) true) s = .next t ∧
        t.cmd? q i = some {
          c with lastFault := some (bareLoc (containerAt 1 (s.fullLoc l))), status := if c.nonRerunnable then 0x2C20 else 0x2C21, detail := 0, wait := .done } ∧
        (∀ a b, (a, b) ≠ (q, i) → t.cmd? a b = s.cmd? a b) ∧ (t.ledger (locDie l)).seq = (s.ledger (locDie l)).seq + 1 ∧
        FailsAlone { s with integ := t.integ, outbox := t.outbox } t) ∧
      (c.nonRerunnable = false → c.released = false → s.keptReg 0x2600 0x07 2 ≤ c.reruns →
        ∃ t c', exec (.faultDetected code l detail (some (q, i)) true) s = .next t ∧ t.cmd? q i = some c' ∧ c'.status = 0x2C22 ∧
        c'.wait = .done ∧ FailsAlone { s with integ := t.integ, outbox := t.outbox, bell := t.bell } t)))

/-- R354, R355, R361, R376: more corrected errors of a unit than the limit are counted, and send it to its self-test; the limit
or fewer change nothing. A scrub sweep counts what it corrected, and marks a bad Loft row without affecting a command. A die
that stopped and passes its self-test serves again; one that fails stays stopped. A yard access outside its context is not
performed, writes an entry 0x2D30 and fails the command that the Gleaner serves with 0x2D31.
Model choices in it: log entry 96. -/
def Obligations.Repairs : Prop :=
  (∀ (s : State) (l n : Nat), n ≤ s.keptReg 0x2C00 0x0A 1000 → exec (.correctedLimitExceeded l n) s = .next s) ∧
  (∀ (s : State) (l n : Nat), s.keptReg 0x2C00 0x0A 1000 < n → locOk l = true → locPhys l = true → bit s.pins.dies (locDie l) = true →
    NoDomain s (bareLoc (s.fullLoc l)) → s.atBoundary (containerAt 1 (s.fullLoc l)) = true → locKind l = 1 ∨ locKind l = 2 →
    s.listed (unitLoc (locRegion16 l) (locCluster l) (locKind l) (locIndex l) 0xFF) = false →
    ∃ t, exec (.correctedLimitExceeded l n) s = .next t ∧ t.reg 0x2C00 0x0D 0 = s.reg 0x2C00 0x0D 0 + n ∧
      t.phase? (unitLoc (locRegion16 l) (locCluster l) (locKind l) (locIndex l) 0xFF) = some .selfTest ∧
      (t.ledger (locDie l)).seq = (s.ledger (locDie l)).seq + 1 ∧
      t = { s with integ := t.integ, dict := t.dict, obs := t.obs, outbox := t.outbox }) ∧
  (∀ (s : State) (die n : Nat) (what : Scrubbed) (bad : List (Nat × Nat × Nat)), bit s.pins.dies die = true → what ≠ .loft →
    ∃ t, exec (.scrubSweep die what n bad) s = .next t ∧ t.reg 0x2C00 0x0D 0 = s.reg 0x2C00 0x0D 0 + n ∧
      RegsBut s t [State.key 0x2C00 0x0D] ∧ t = { s with dict := t.dict }) ∧
  (∀ (s : State) (n r c row : Nat), bit s.pins.dies (r / 8) = true → r < 16 → c < 16 → row < 3072 →
    NoDomain s (bareLoc (s.bankLoc r c row)) →
    ∃ t, exec (.scrubSweep (r / 8) .loft n [(r, c, row)]) s = .next t ∧ t.reg 0x2C00 0x0D 0 = s.reg 0x2C00 0x0D 0 + n ∧
      t.reg 0x2600 0x0C 0 = s.reg 0x2600 0x0C 0 + 1 ∧ t.loftRow (loftKey r c row) = { s.loftRow (loftKey r c row) with mark := true } ∧
      (∀ k, k ≠ loftKey r c row → t.loftRow k = s.loftRow k) ∧
      t = { s with loft := t.loft, integ := t.integ, dict := t.dict, obs := t.obs, outbox := t.outbox }) ∧
  (∀ (s : State) (die : Nat), die ≤ 1 → bit s.pins.dies die = true → bit s.pins.stopped die = true → bit s.pins.fatal die = false →
    exec (.dieSelfTestComplete die false) s = .next s ∧
    ∃ t, exec (.dieSelfTestComplete die true) s = .next t ∧ bit t.pins.stopped die = false ∧
      bit t.pins.stopped (1 - die) = bit s.pins.stopped (1 - die) ∧
      (∀ d ∈ t.integ.domains, ¬(d.severity = 4 ∧ locDie d.loc = die)) ∧
      t = { s with pins := { s.pins with stopped := t.pins.stopped }, integ := t.integ }) ∧
  (∀ (s : State) (l q i : Nat) (c : Cmd), s.cmd? q i = some c → State.openCmd c = true → c.wait ≠ .done → locOk l = true → locPhys l = true →
    locKind l = 2 → s.worksOn c.region c.clusters l = true →
    ∃ t, exec (.yardAccessViolation l q i) s = .next t ∧ t.cmd? q i = some { c with status := 0x2D31, detail := 0, wait := .done } ∧
      (∀ a b, (a, b) ≠ (q, i) → t.cmd? a b = s.cmd? a b) ∧ (t.ledger (locDie l)).seq = (s.ledger (locDie l)).seq + 1 ∧
      ((s.ledger (locDie l)).count < 1022 → ∃ e, Table.find? (s.ledger (locDie l)).tail (t.ledger (locDie l)).places = some e ∧
        e.code = 0x2D30 ∧ e.phys = s.fullLoc l ∧ e.queue = c.q ∧ e.index = c.i) ∧
      FailsAlone { s with integ := t.integ, outbox := t.outbox } t)

/-! ## Freezes, trace and breakpoints -/

/-- R399, R402, R404, R405, R413–R415: a die takes its part of a freeze once its copy has reached the time; the last one freezes the
counters. A sync is put into the die's buffer 1 ms after the last. As the clk of an empty queue passes, the oldest event of a
buffer leaves by the Daybook port, of either die in turn where both hold one: it takes an even data block, which is no
alignment marker, and the next one, each on the lane of its number. A hit of a breakpoint halts its task with a record,
stops its queues, and holds the command that it names; with the debug scope closed it does nothing.
Model choices in it: log entries 1, 3, 68, 69, 173, 176. -/
def Obligations.TraceAndBreakpoints : Prop :=
  (∀ (s : State) (a b : List Nat) (x die p : Nat), s.pending = [] → s.pins.state = .ready → s.keptReg 0x2E00 0x0C 0 = 1 →
    s.obs.daybook0.events = a → s.obs.daybook1.events = b →
    ((die = 0 ∧ a.head? = some x ∧ (b = [] ∨ s.obs.dayPort.turn = 0)) ∨ (die = 1 ∧ b.head? = some x ∧ (a = [] ∨ s.obs.dayPort.turn ≠ 0))) →
    (p % 2 = 0 ∧ 4 ≤ p % 65536 ∧ max s.obs.dayPort.next s.obs.dayPort.blocks ≤ p ∧
      ∀ n, n % 2 = 0 → 4 ≤ n % 65536 → max s.obs.dayPort.next s.obs.dayPort.blocks ≤ n → p ≤ n) →
    s.obs.dayPort.frac < 33 → p < s.obs.dayPort.blocks + (s.obs.dayPort.frac + 35) / 33 → ∃ t, step s = .next t ∧
      t.outbox = s.outbox ++ [.daybook (p % 4) p ((leBytes 16 x).take 8), .daybook ((p + 1) % 4) (p + 1) ((leBytes 16 x).drop 8)] ∧
      t.obs.daybook0.events = (if die = 0 then a.tail else a) ∧ t.obs.daybook1.events = (if die = 1 then b.tail else b) ∧
      t.obs.sent = s.obs.sent + 1 ∧ t.obs.dayPort.turn = 1 - die) ∧
  (∀ (s : State) (die dt time mask : Nat), s.obs.due = some (time, mask) → bit mask die = true →
    ((s.elapse dt).reel die < time → exec (.freezeSnapshot die dt) s = .next s) ∧
    (time ≤ (s.elapse dt).reel die → mask ≠ 2 ^ die → ∃ t, exec (.freezeSnapshot die dt) s = .next t ∧
      t.obs.due = some (time, mask - 2 ^ die) ∧ t.obs.frozen = s.obs.frozen ∧ t = { s.elapse dt with obs := t.obs }) ∧
    (time ≤ (s.elapse dt).reel die → mask = 2 ^ die → ∃ t, exec (.freezeSnapshot die dt) s = .next t ∧
      t.obs.due = none ∧ t.obs.frozen = true ∧ t.obs.freezeTime = time ∧ t.obs.snapshotTasks = s.obs.tasks ∧
      t.obs.snapshot = (s.elapse dt).snapshotAll ∧ t = { s.elapse dt with obs := t.obs, dict := t.dict })) ∧
  (∀ (s : State) (die dt : Nat), die ≤ 1 → (s.elapse dt).eventFormed 1 = true → ((s.elapse dt).daybook die).lost = false →
    ((s.elapse dt).daybook die).events.length < 16384 → ((s.elapse dt).daybook die).lastSync + 1000000 ≤ (s.elapse dt).reel die →
    ∃ t, exec (.daybookSync die dt) s = .next t ∧ (t.daybook die).lastSync = (s.elapse dt).reel die ∧
      (t.daybook die).events = ((s.elapse dt).daybook die).events ++
        [State.eventWord ((s.elapse dt).reel die) die 0 0 0 1 ((s.elapse dt).reel die) false] ∧
      t.daybook (1 - die) = (s.elapse dt).daybook (1 - die) ∧ t = { s.elapse dt with obs := t.obs }) ∧
  (∀ (s : State) (b w l off : Nat) (image : List Byte), Inv s → bit s.fw.scopes 3 = true → Table.find? b s.obs.breakpoints = some w →
    bits w 21 20 = 1 → bits w 63 32 = off → locKind l = 2 → (∃ e ∈ s.queues, e.2.pasid = bits w 19 0) → bits w 19 0 ∉ s.obs.halted →
    ∃ t h, exec (.breakpointHit b l off image none) s = .next t ∧ t.obs.halted = s.obs.halted ++ [bits w 19 0] ∧
      h ∈ t.obs.halts ∧ h.pasid = bits w 19 0 ∧ h.breakpoint = b ∧ h.loc = l ∧ h.offset = off ∧ h.image = slice image 0 512 ∧
      (∀ e ∈ t.queues, e.2.pasid = bits w 19 0 → e.2.halted = true) ∧
      (∀ q k, s.queue? q = some k → k.pasid ≠ bits w 19 0 → t.queue? q = some k) ∧
      t = { s with queues := t.queues, obs := t.obs, dict := t.dict }) ∧
  (∀ (s : State) (b w l off q i : Nat) (image : List Byte) (c : Cmd), bit s.fw.scopes 3 = true → Table.find? b s.obs.breakpoints = some w →
    bits w 21 20 = 2 → s.cmd? q i = some c → c.pasid = bits w 19 0 → q = bits w 83 64 → c.recs.tag = bits w 63 32 → c.begun = false →
    c.hit = false → c.wait = .parked → bits w 19 0 ∉ s.obs.halted →
    ∃ t, exec (.breakpointHit b l off image (some (q, i))) s = .next t ∧ t.obs.halted = s.obs.halted ++ [bits w 19 0] ∧
      t.cmd? q i = some { c with hit := true } ∧ (∀ e ∈ t.queues, e.2.pasid = bits w 19 0 → e.2.halted = true) ∧
      t = { s with cmds := t.cmds, queues := t.queues, obs := t.obs, dict := t.dict }) ∧
  (∀ (s : State) (b l off : Nat) (image : List Byte) (cmd : Option (Nat × Nat)), bit s.fw.scopes 3 = false →
    exec (.breakpointHit b l off image cmd) s = .next s)

/-! ## Translation -/

/-- R242–R244, R246, R421: a translation completion removes its request; a range that holds the address is installed first in
both levels, so that the access is served by it, and what waited on the page goes on. A request that an invalidation
overlapped is sent again. A completion that nothing asked for, or that meets an isolated port, changes nothing.
R239, R244: bytes that a task writes where one translation allows it stand at the address that it gives, and are what a read
of the task finds; no other byte of device or host memory changes, and nothing else of the state but marks of lost data.
Model choices in it: log entries 63, 120, 161. -/
def Obligations.Translations : Prop :=
  (∀ (s : State) (die pasid va : Nat) (answer : TransAnswer),
      (s.pins.isolated = true → exec (.translationCompletion die pasid va answer) s = .next s) ∧
      (s.pins.isolated = false → (∀ r ∈ s.trans.requests, ¬(r.die = die ∧ r.pasid = pasid ∧ r.va / 4096 = va / 4096)) →
        exec (.translationCompletion die pasid va answer) s = .next s) ∧
      (∀ r, s.pins.isolated = false →
        s.trans.requests.find? (fun r => r.die == die && r.pasid == pasid && r.va / 4096 == va / 4096) = some r →
        (r.discard = true →
          (∀ x ∈ s.trans.requests.erase r, ¬(x.region = r.region ∧ x.pasid = pasid ∧ x.va = r.va ∧ x.access = r.access ∧ x.who = r.who)) →
          ∃ t, exec (.translationCompletion die pasid va answer) s = .next t ∧
            t.trans.requests = s.trans.requests.erase r ++
              [{ die := dieOfPort r.region, region := r.region, pasid := pasid, va := r.va, access := r.access, who := r.who }] ∧
            t.outbox = s.outbox ++ [.translationRequest (dieOfPort r.region) pasid r.va r.access] ∧
            t = { s with trans := t.trans, dict := t.dict, outbox := t.outbox }) ∧
        (∀ va0 bytes pa rd wr at_ e, r.discard = false → answer = .range va0 bytes pa rd wr at_ → rangeOk va0 bytes pa r.va = true →
          (∀ p ∈ s.trans.pages, p.answered = true → ¬(p.pasid = pasid ∧ p.page = va / 4096)) →
          e = { pasid := pasid, va := va0, bytes := bytes, pa := pa, read := rd, write := wr, atomic := at_, asked := r.access != 0 : Entry } →
          ∃ (u : State), exec (.translationCompletion die pasid va answer) s = .next (u.wake r.region pasid (va / 4096)) ∧
            u.entryFor r.region pasid r.va r.access = some e ∧ (u.dieEntries (dieOfPort r.region)).head? = some e ∧
            (r.region < 16 → (u.carterEntries r.region).head? = some e) ∧ u.trans.requests = s.trans.requests.erase r ∧
            u.trans.pages = s.trans.pages ∧ u = { s with trans := u.trans } ∧
            ((∀ c ∈ s.cmds, State.waitsTranslation c r.region pasid (va / 4096) = false) → (∀ x ∈ s.queues, x.2.issueWait = none) →
              exec (.translationCompletion die pasid va answer) s = .next u)))) ∧
  (∀ (s : State) (port pasid va access pa : Nat) (bs : List Byte), memOk s → bs ≠ [] →
    va / 4096 = (va + bs.length - 1) / 4096 → s.physOf port pasid va bs.length access = some pa →
    (s.writeVA port pasid va access bs).physRead pa bs.length = bs ∧
    (s.physOf port pasid va bs.length 0 = some pa → (s.writeVA port pasid va access bs).readVA port pasid va bs.length = bs) ∧
    (∀ a, a < hostBase → (a < pa ∨ pa + bs.length ≤ a) → memByte (s.writeVA port pasid va access bs).devMem a = memByte s.devMem a) ∧
    (∀ a, hostBase ≤ a → (a < pa ∨ pa + bs.length ≤ a) →
      memByte (s.writeVA port pasid va access bs).hostMem (a - hostBase) = memByte s.hostMem (a - hostBase)) ∧
    memOk (s.writeVA port pasid va access bs) ∧
    s.writeVA port pasid va access bs = { s with devMem := (s.writeVA port pasid va access bs).devMem,
                                                 hostMem := (s.writeVA port pasid va access bs).hostMem,
                                                 poisoned := (s.writeVA port pasid va access bs).poisoned })

/-- R245, R246, R421: an invalidation removes every entry of its PASID that overlaps its range from every Carter and both
dies, and no other; requests on their way there are asked again when answered. It is complete at once where no entry of
the PASID was held, else it is when its completion says so. An isolated port completes it at once.
Model choices in it: log entry 120. -/
def Obligations.Invalidations : Prop :=
  ∀ (s : State) (pasid va bytes : Nat),
    (s.pins.isolated = true →
      exec (.invalidation pasid va bytes) s = .next { s with outbox := s.outbox ++ [.invalidationComplete pasid va bytes] }) ∧
    (s.pins.isolated = false → ∃ t, exec (.invalidation pasid va bytes) s = .next t ∧
      (∀ port, t.carterEntries port = (s.carterEntries port).filter fun e => !(e.pasid == pasid && State.meets e.va e.bytes va bytes)) ∧
      (∀ die, t.dieEntries die = (s.dieEntries die).filter fun e => !(e.pasid == pasid && State.meets e.va e.bytes va bytes)) ∧
      (∀ r ∈ t.trans.requests, r.pasid = pasid → State.meets r.va 4096 va bytes = true → r.discard = true) ∧
      (s.holdsEntries pasid = true → t.outbox = s.outbox ∧ (pasid, va, bytes) ∈ t.trans.invalidations) ∧
      (s.holdsEntries pasid = false → t.outbox = s.outbox ++ [.invalidationComplete pasid va bytes] ∧
        t.reg 0x2800 0x0C 0 = s.reg 0x2800 0x0C 0 + 1) ∧
      RegsBut s t [State.key 0x2800 0x0C] ∧ t = { s with trans := t.trans, bruora := t.bruora, dict := t.dict, outbox := t.outbox }) ∧
    ((pasid, va, bytes) ∈ s.trans.invalidations → ∃ t, exec (.invalidationCompletion pasid va bytes) s = .next t ∧
      t.trans.invalidations = s.trans.invalidations.erase (pasid, va, bytes) ∧
      t.outbox = s.outbox ++ [.invalidationComplete pasid va bytes] ∧ t.reg 0x2800 0x0C 0 = s.reg 0x2800 0x0C 0 + 1 ∧
      RegsBut s t [State.key 0x2800 0x0C] ∧ t = { s with trans := t.trans, dict := t.dict, outbox := t.outbox }) ∧
    ((pasid, va, bytes) ∉ s.trans.invalidations → exec (.invalidationCompletion pasid va bytes) s = .next s)

/-- R248, R250: a page request answered with success has its page translated anew, and entries without its rights give
way. One answered as invalid, one that times out and one that the host fails (which ends page requests) fail the command
that waits on the page with 0x2803, 0x2804 and 0x2805; with no page request left the task unparks.
Model choices in it: log entries 64, 119, 120, 165, 168. -/
def Obligations.PageRequests : Prop :=
  ∀ (s : State) (die pasid page : Nat) (p : PageReq), s.pins.isolated = false →
    s.trans.pages.find? (fun p => p.die == die && p.pasid == pasid && p.page == page && !p.queued && !p.answered) = some p →
    ((∀ r ∈ s.trans.requests, ¬(r.region = 16 + die ∧ r.pasid = pasid ∧ r.va = page * 4096)) →
      ∃ t, exec (.pageRequestResponse die pasid page .success) s = .next t ∧
        t.trans.pages = s.trans.pages.map (fun x => if x.pasid = pasid ∧ x.page = page then { x with answered := true } else x) ∧
        t.outbox = s.outbox ++ [.translationRequest die pasid (page * 4096) (accessOf p.rights)] ∧
        (∀ d e, e ∈ t.dieEntries d → e.covers pasid (page * 4096) = true → e.carries p.rights = true) ∧
        (∀ port e, e ∈ t.carterEntries port → e.covers pasid (page * 4096) = true → e.carries p.rights = true) ∧
        t = { s with trans := t.trans, dict := t.dict, outbox := t.outbox }) ∧
    (∀ (c : Cmd) (va kind code : Nat) (event : Instr),
      (event, code) ∈ [(.pageRequestResponse die pasid page .invalid, 0x2803), (.pageRequestTimeout die pasid page, 0x2804),
        (.pageRequestResponse die pasid page .failure, 0x2805)] →
      (code = 0x2805 → ∀ y ∈ s.trans.pages, y.die = die → y.pasid = pasid ∧ y.page = page) →
      s.cmd? c.q c.i = some c → c.pasid = pasid → c.wait = .page va kind → va / 4096 = page →
      (∀ x ∈ s.cmds, x.pasid = pasid → x = c) → (∀ x ∈ s.queues, x.2.pasid = pasid → x.2.issueWait = none) →
      ∃ t, exec event s = .next t ∧
        t.cmd? c.q c.i = some { c with status := code, detail := if code = 0x2805 then 0 else faultDetail va kind, wait := .done } ∧
        (∀ x ∈ t.trans.pages, ¬(x.pasid = pasid ∧ x.page = page)) ∧ t.trans.priState = (if code = 0x2805 then 1 else s.trans.priState) ∧
        ((∀ x ∈ s.trans.pages, x.pasid = pasid → x.page = page) → ∀ x ∈ t.queues, x.2.pasid = pasid → x.2.parked = false) ∧
        FailsAlone { s with trans := t.trans, queues := t.queues, outbox := t.outbox, cursors := t.cursors, issued := t.issued } t)

/-! ## Loft space, completion and waits -/

/-- R275–R278: the oldest request of a region gets its units where the pool has room, and stands where it has not; in mutual
wait the youngest borrowing queue is ordered to yield, and is counted; a queue so ordered gives its borrowed units back at
its boundary, its partition saved, and asks for them again. Model choices in it: log entries 54, 64, 115, 166, 169. -/
def Obligations.LoftSpace : Prop :=
  (∀ (s s1 : State) (q e : Nat) (k : Queue), s.queue? q = some k → s.oldestRequest q k = true → k.saved = none →
    s.poolRoom k (s.unitsAsked k - k.floor - k.borrowed) = true → s.giveUnits k (s.unitsAsked k) = some (s1, e) →
    (∀ c ∈ s.cmds, c.q = q → c.wait ≠ .transfer) →
    ∃ t k', exec (.borrowGrant q) s = .next t ∧ t.queue? q = some k' ∧ k'.wants = none ∧ k'.part = some e ∧
      k'.borrowed = s.unitsAsked k - k.floor ∧ k'.state = k.state ∧ k'.head = k.head ∧ k'.tail = k.tail ∧
      (t.part k.region e).units = s.unitsAsked k ∧ (∀ n, n ≠ q → t.queue? n = s.queue? n) ∧
      t = { s with queues := t.queues, loft := t.loft, issued := t.issued, free := t.free }) ∧
  (∀ (s : State) (q : Nat) (k : Queue), s.queue? q = some k → s.oldestRequest q k = true → k.saved = none →
    s.poolRoom k (s.unitsAsked k - k.floor - k.borrowed) = false →
    (∀ x ∈ s.queues, x.2.region = k.region → (x.2.parked = true ∨ x.2.halted = true) → x.2.borrowed = 0) →
    ∃ t, exec (.borrowGrant q) s = .next t ∧ RegsBut s t [State.key 0x2900 0x0A] ∧ t = { s with dict := t.dict, free := t.free }) ∧
  (∀ (s : State) (q : Nat) (k : Queue), s.queue? q = some k → s.oldestRequest q k = false → exec (.borrowGrant q) s = .next s) ∧
  (∀ (s : State) (g q : Nat) (k : Queue), s.youngest g = some (q, k) →
    ((q, k) ∈ s.queues ∧ k.region = g ∧ k.borrowed ≠ 0 ∧
      ∀ x ∈ s.queues, x.2.region = g → x.2.borrowed ≠ 0 → x.2.saved = none → x.2.yieldOrdered = false → (s.partOf x.2).pinned = false →
        x.2.borrowTime ≤ k.borrowTime) ∧
    (s.mutualWait g = true → ∃ t, exec (.mutualWaitYield g) s = .next t ∧ t.queue? q = some { k with yieldOrdered := true } ∧
      (∀ n, n ≠ q → t.queue? n = s.queue? n) ∧ t.reg 0x2900 0x0B 0 = s.reg 0x2900 0x0B 0 + 1 ∧
      RegsBut s t [State.key 0x2900 0x0B] ∧ t = { s with queues := t.queues, dict := t.dict }) ∧
    (s.mutualWait g = false → exec (.mutualWaitYield g) s = .next s)) ∧
  (∀ (s : State) (q : Nat) (k : Queue), s.queue? q = some k →
    (k.yieldOrdered = false → exec (.queueYield q) s = .next s) ∧
    (k.yieldOrdered = true → k.borrowed = 0 → ∃ t, exec (.queueYield q) s = .next t ∧ t.queue? q = some { k with yieldOrdered := false } ∧
      (∀ n, n ≠ q → t.queue? n = s.queue? n) ∧ t = { s with queues := t.queues }) ∧
    (∀ e, k.yieldOrdered = true → k.borrowed ≠ 0 → k.part = some e → (s.part k.region e).pinned = false → (s.part k.region e).state = 1 →
      s.reach k.region k.pasid (bits k.image 255 204 * 4096) (State.areaBytes k) 1 = .ok →
      s.reach k.region k.pasid (bits k.image 255 204 * 4096) (State.areaBytes k) 0 = .ok →
      ∃ t k', exec (.queueYield q) s = .next t ∧ t.queue? q = some k' ∧ k'.yieldOrdered = false ∧ k'.borrowed = 0 ∧
        k'.saved = some (s.savePart k.region (s.part k.region e)) ∧
        k'.wants = some (max (k.wants.getD 0) (s.part k.region e).units) ∧
        t.part k.region e = { s.part k.region e with state := 2 } ∧ (∀ n, n ≠ q → t.queue? n = s.queue? n) ∧
        t.loft.rows = s.loft.rows ∧ t.loft.sems = s.loft.sems ∧ t.loft.ctrs = s.loft.ctrs ∧ RegsBut s t [State.key 0x2200 0x07] ∧
        t = { s with queues := t.queues, loft := t.loft, issued := t.issued, devMem := t.devMem, hostMem := t.hostMem,
                     poisoned := t.poisoned, free := t.free, dict := t.dict } ∧
        ((∀ c ∈ s.cmds, c.q = q → State.liveTiles c = false) → t.dict = s.dict ∧ k'.images = k.images)))

/-- R260, R272: a finished command whose record can be written leaves the engine: its 64 bytes stand at the completion tail,
which advances, no other byte of memory changes, and it is counted as completed, or as failed. A command that has not
finished stays. R270: a refused command has finished with its code, touched no row and no sequence, and is counted; with a
record that can be written it leaves at once. Model choices in it: log entries 48, 50, 152. -/
def Obligations.Completion : Prop :=
  (∀ (s : State) (q i : Nat) (c : Cmd), s.cmd? q i = some c →
      (c.wait ≠ .done → (∀ va b, c.wait ≠ .recordWrite va b) → exec (.commandCompletion q i) s = .next s) ∧
      (∀ k va pa, c.wait = .done → s.queue? q = some k → k.complBase % 4096 = 0 →
        va = k.complBase + 64 * (k.complTail % 2 ^ k.complLog2) → s.reach (16 + c.die) c.pasid va 64 1 = .ok →
        s.physOf (16 + c.die) c.pasid va 64 1 = some pa →
        (∀ x ∈ s.obs.captures, State.captures x c = false) →
        (∀ x ∈ s.cmds, ¬(x.recs.cls = 10 ∧ x.wait = .fence) ∧ x.wait ≠ .shadow ∧ x.wait ≠ .dictionary) →
        ∃ t k', exec (.commandCompletion q i) s = .next t ∧ t.cmd? q i = none ∧ (∀ a b, (a, b) ≠ (q, i) → t.cmd? a b = s.cmd? a b) ∧
          t.queue? q = some k' ∧ k'.complTail = (k.complTail + 1) % 2 ^ 32 ∧ k'.complHead = k.complHead ∧ k'.head = k.head ∧
          k'.tail = k.tail ∧ k'.state = k.state ∧ (∀ n, n ≠ q → t.queue? n = s.queue? n) ∧
          t.physRead pa 64 = leBytes 64 (s.recordNat k c (c.recs.sealed && c.status == 0 && !c.refused)) ∧
          (∀ a, a < pa ∨ pa + 64 ≤ a → (pa < hostBase → memByte t.devMem a = memByte s.devMem a) ∧
            (hostBase ≤ pa → hostBase ≤ a → memByte t.hostMem (a - hostBase) = memByte s.hostMem (a - hostBase))) ∧
          (pa < hostBase → t.hostMem = s.hostMem) ∧ (hostBase ≤ pa → t.devMem = s.devMem) ∧
          (c.refused = false → t.reg 0x2E00 0x0A 0 = s.reg 0x2E00 0x0A 0 + (if c.status = 0 then 1 else 0) ∧
            t.reg 0x2E00 0x0B 0 = s.reg 0x2E00 0x0B 0 + (if c.status = 0 then 0 else 1)) ∧
          t.mills = s.mills ∧ t.fw = s.fw ∧ t.fuses = s.fuses ∧ t.pins = s.pins ∧ t.bruora = s.bruora)) ∧
  (∀ (s : State) (q : Nat) (k : Queue) (c : Cmd) (code pa : Nat), s.queue? q = some k → c.q = q → c.recs.cls ≠ 7 → k.complBase % 4096 = 0 →
      s.reach (16 + c.die) c.pasid (k.complBase + 64 * (k.complTail % 2 ^ k.complLog2)) 64 1 = .ok →
      s.physOf (16 + c.die) c.pasid (k.complBase + 64 * (k.complTail % 2 ^ k.complLog2)) 64 1 = some pa →
      ∃ r, (s.refuse c code).physRead pa 64 = leBytes 64 r ∧ (s.refuse c code).cmd? q c.i = none ∧
        (c.recs.tag < 2 ^ 32 → r % 2 ^ 32 = c.recs.tag) ∧ (c.recs.tag < 2 ^ 32 → r / 2 ^ 64 % 2 ^ 16 = code % 2 ^ 16) ∧
        (s.refuse c code).reg 0x2900 0x09 0 = s.reg 0x2900 0x09 0 + 1 ∧ (s.refuse c code).granary = s.granary ∧
        (s.refuse c code).loft.rows = s.loft.rows ∧ (s.refuse c code).loft.sems = s.loft.sems ∧ (s.refuse c code).mills = s.mills)

/-- R216, R362: a command that a detected error affects starts again from its first tile where it may, which is counted;
else it fails with the code of the first row that applies: it is marked, it has signalled or sent, it has reached its limit.
Model choices in it: log entry 49. -/
def Obligations.Reruns : Prop :=
  ∀ (s : State) (q i : Nat) (p given : Bool) (c : Cmd), s.cmd? q i = some c → State.openCmd c = true → c.unchecked = false →
    c.wait = .rerun p →
    (c.nonRerunnable = false → c.released = false → c.reruns < s.keptReg 0x2600 0x07 2 →
      ∃ (u : State) (c' : Cmd), exec (.commandRerun q i given) s = .next (u.attempt c') ∧ u.cmd? q i = some c' ∧
        c' = { c with wait := .parked, tiles := 0, ringData := [], begun := false, sends := [], transfer := none, reruns := c.reruns + 1 } ∧
        (∀ a b, (a, b) ≠ (q, i) → u.cmd? a b = s.cmd? a b) ∧ (∀ m ∈ u.bruora.sent, ¬(m.q = q ∧ m.i = i)) ∧
        u.reg (if p then 0x2600 else 0x2C00) (if p then 0x0D else 0x0E) 0 = s.reg (if p then 0x2600 else 0x2C00) (if p then 0x0D else 0x0E) 0 + 1 ∧
        u = { s with cmds := u.cmds, bruora := u.bruora, dict := u.dict, obs := u.obs }) ∧
    (∀ code, (c.nonRerunnable = true ∧ code = 0 ∨ c.nonRerunnable = false ∧ c.released = true ∧ code = 1 ∨
        c.nonRerunnable = false ∧ c.released = false ∧ s.keptReg 0x2600 0x07 2 ≤ c.reruns ∧ code = 2) →
      (code = 2 → c.lastFault = none) →
      ∃ t, exec (.commandRerun q i given) s = .next t ∧
        t.cmd? q i = some { c with status := (if p then 0x2605 else 0x2C20) + code, detail := 0, wait := .done } ∧
        (∀ a b, (a, b) ≠ (q, i) → t.cmd? a b = s.cmd? a b) ∧
        FailsAlone s t)

/-- R208, R210, R269: a waiting SYNC command whose wait is satisfied has finished: a semaphore's amount is taken on every
cluster of the mask, an arrival counter stands unchanged, and a memory word has reached its operand; else it waits on.
Model choices in it: log entries 43, 64. -/
def Obligations.Waits : Prop :=
  ∀ (s : State) (q i : Nat) (c : Cmd), s.cmd? q i = some c → s.mayRun c = true → s.breakHolds c = false → c.recs.cls = 10 →
    (c.wait = .semaphore → c.recs.form = 0 → bits (c.recs.b 24 27) 15 14 = 1 →
      (s.cmdPart c).semBase + bits (c.recs.b 24 27) 7 0 < 4096 →
      (∀ n, bit c.semGot n = true → n < 16 ∧ bit (c.recs.b 20 21) n = true) →
      ∃ t c', exec (.semaphoreWaitSatisfied q i none) s = .next t ∧ t.cmd? q i = some c' ∧
        (c'.wait = .done ↔ ∀ n, n < 16 → bit (c.recs.b 20 21) n = true → bit c.semGot n = true ∨
          bits (c.recs.b 24 27) 31 16 ≤ s.sem (loftKey c.region n ((s.cmdPart c).semBase + bits (c.recs.b 24 27) 7 0))) ∧
        (∀ n, n < 16 → t.sem (loftKey c.region n ((s.cmdPart c).semBase + bits (c.recs.b 24 27) 7 0)) =
          if bit (c.recs.b 20 21) n = true ∧ bit c.semGot n = false ∧
              bits (c.recs.b 24 27) 31 16 ≤ s.sem (loftKey c.region n ((s.cmdPart c).semBase + bits (c.recs.b 24 27) 7 0))
          then s.sem (loftKey c.region n ((s.cmdPart c).semBase + bits (c.recs.b 24 27) 7 0)) - bits (c.recs.b 24 27) 31 16
          else s.sem (loftKey c.region n ((s.cmdPart c).semBase + bits (c.recs.b 24 27) 7 0))) ∧
        t.loft.rows = s.loft.rows ∧ t.loft.ctrs = s.loft.ctrs ∧ t.loft.parts = s.loft.parts ∧
        t = { s with cmds := t.cmds, loft := t.loft }) ∧
    (c.wait = .counter → c.recs.form = 1 → ∃ t w, exec (.arrivalWaitSatisfied q i) s = .next t ∧
      t.cmd? q i = some { c with wait := w } ∧ (w = .done ∨ w = .counter) ∧
      (w = .done ↔ ∀ n, n < 16 → bit (c.recs.b 20 21) n = true →
        c.recs.b 32 35 ≤ s.arrived (s.cmdPart c) c.region n (c.recs.b 24 24) (c.recs.b 28 31)) ∧
      t = { s with cmds := t.cmds }) ∧
    (c.wait = .memory → c.recs.form = 2 → Clear s c [{ va := c.recs.b 40 47, len := 8, kind := 0 }] →
      ∃ t, exec (.memoryWaitPoll q i) s = .next t ∧
      t.cmd? q i = some { c with wait := if c.recs.b 32 39 ≤ leNat (s.readVA c.region c.pasid (c.recs.b 40 47) 8) then .done else .memory } ∧
      t = { s with cmds := t.cmds, trans := t.trans, barn := t.barn, dict := t.dict, obs := t.obs })

/-- R167, R168: a gated tile whose arrivals have counted on every cluster begins: the next one is then waited for, and a ring's
rows are read and its slot is released on every cluster, under two-pass only in the second sweep. One whose arrivals have not counted changes nothing. A gate that
stands still beyond its timeout fails the command with 0x2227, and is a missed deadline in cadence mode.
Model choices in it: log entries 64, 118. -/
def Obligations.Gates : Prop :=
  ∀ (s : State) (q i tile : Nat) (c : Cmd), s.cmd? q i = some c → s.mayRun c = true → c.wait = .gate tile →
    (s.tileArrived c (gateRec c) tile = false → exec (.gatedTileStart q i tile) s = .next s) ∧
    (s.tileArrived c (gateRec c) tile = true → c.tiles = tile → (s.breakHolds c = false ∨ c.begun = true) → (gateRec c).ringed = false →
      tile + 1 < gateTiles (gateRec c) → ∃ t, exec (.gatedTileStart q i tile) s = .next t ∧
        t.cmd? q i = some { c with begun := true, tiles := tile + 1, wait := .gate (tile + 1) } ∧
        t = { s with cmds := t.cmds, dict := t.dict, obs := t.obs, free := t.free }) ∧
    (s.tileArrived c (gateRec c) tile = true → c.tiles = tile → (s.breakHolds c = false ∨ c.begun = true) → (gateRec c).ringed = true →
      (s.ringTile c (gateRec c) tile).2.1 = none → (s.ringTile c (gateRec c) tile).2.2 = [] →
      (SemWord.ofWord (gateRec c).ringRelease).op = 2 →
      State.releasesAt c tile = 1 → (s.signalMask (s.cmdPart c) c.region c.clusters (SemWord.ofWord (gateRec c).ringRelease)).2 = true →
      tile + 1 < gateTiles (gateRec c) → ∃ t, exec (.gatedTileStart q i tile) s = .next t ∧
        t.cmd? q i = some {
          c with begun := true, tiles := tile + 1, released := true, ringData := c.ringData ++ [(s.ringTile c (gateRec c) tile).1],
                 wait := .gate (tile + 1) } ∧
        t.loft = (s.signalMask (s.cmdPart c) c.region c.clusters (SemWord.ofWord (gateRec c).ringRelease)).1.loft ∧
        t = { s with cmds := t.cmds, loft := t.loft, dict := t.dict, obs := t.obs, free := t.free }) ∧
    (s.tileArrived c (gateRec c) tile = true → c.tiles = tile → (s.breakHolds c = false ∨ c.begun = true) → (gateRec c).ringed = true →
      (s.ringTile c (gateRec c) tile).2.1 = none → (s.ringTile c (gateRec c) tile).2.2 = [] →
      (gateRec c).isAttend = true → c.form = 1 → tile + 1 < gateTiles (gateRec c) → ∃ t, exec (.gatedTileStart q i tile) s = .next t ∧
        t.cmd? q i = some {
          c with begun := true, tiles := tile + 1, ringData := c.ringData ++ [(s.ringTile c (gateRec c) tile).1], wait := .gate (tile + 1) } ∧
        t = { s with cmds := t.cmds, dict := t.dict, obs := t.obs, free := t.free }) ∧
    (s.cadence = false → ∃ t, exec (.gateTimeout q i) s = .next t ∧
        t.cmd? q i = some { c with status := 0x2227, detail := 0, wait := .done } ∧ t.reg 0x2210 0x07 0 = s.reg 0x2210 0x07 0 + 1 ∧ FailsAlone s t) ∧
    (s.cadence = true → ∃ t c', exec (.gateTimeout q i) s = .next t ∧ t.cmd? q i = some c' ∧ c'.status = 0x2227 ∧ c'.wait = .done ∧
        c'.late = true ∧ t.reg 0x2210 0x07 0 = s.reg 0x2210 0x07 0 + 1 ∧
        (∀ k, s.queue? q = some k → t.reg 0x2A00 0x0A 0 = s.reg 0x2A00 0x0A 0 +
          (if (c.deadline.map Due.point).any k.missed.contains then 0 else 1)) ∧
        FailsAlone { s with outbox := t.outbox, queues := t.queues } t)

/-- R219, R220, R226: descriptors of a MOVE. A burst is fetched whole where its slots are free: each descriptor takes the next
slot, up to one that a rule refuses. The last descriptor that has landed frees its slot and finishes the MOVE.
Model choices in it: log entry 51. -/
def Obligations.Transfers : Prop :=
  (∀ (s : State) (q i : Nat) (c : Cmd) (k : Queue) (tr : Transfer), s.cmd? q i = some c → s.mayRun c = true → c.wait = .transfer →
    c.transfer = some tr → s.queue? c.q = some k →
    (s.burstSize c tr = none → exec (.descriptorBurstArrival q i) s = .next s) ∧
    (∀ n bs u c' tr', s.burstSize c tr = some n → Clear s c (State.burstRanges tr n) →
      bs = (State.burstRanges tr n).map (fun a => s.readVA c.region c.pasid a.va 128) →
      State.burstNeed bs (s.burstEnv c) (s.keptReg 0x2000 0x02 1) ≤ (s.partOf k).units →
      State.takeBurst bs (s.noteAll c.region c.pasid (State.burstRanges tr n)) c { tr with burst := false, burstPage := none } = (u, c', tr') →
      exec (.descriptorBurstArrival q i) s = .next (u.advanceMove { c' with transfer := some tr' }) ∧
      u = { s with trans := u.trans, barn := u.barn, dict := u.dict, obs := u.obs, outbox := u.outbox, free := u.free } ∧
      ((∀ b ∈ bs, lowest ((Xfer.ofBytes b).codes (s.burstEnv c) (s.keptReg 0x2000 0x02 1)) = none) → tr.failure = none →
        tr'.fetched = tr.fetched + n ∧ tr'.slots.length = tr.slots.length + n ∧ tr'.failure = none) ∧
      (∀ b bs' code, bs = b :: bs' → lowest ((Xfer.ofBytes b).codes (s.burstEnv c) (s.keptReg 0x2000 0x02 1)) = some code → tr.failure = none →
        tr'.failure = some { d := tr.fetched, code := code, cursor := 0 } ∧ tr'.slots = tr.slots))) ∧
  (∀ (s : State) (q i d : Nat) (c : Cmd) (tr : Transfer) (x : Slot), s.cmd? q i = some c → c.transfer = some tr → tr.slots = [x] → x.d = d →
    x.landed.isSome = true → x.failed = false → tr.failure = none → tr.completed + 1 = tr.count → c.wait = .transfer →
    ∃ t c', exec (.descriptorCompletion q i d) s = .next t ∧ t.cmd? q i = some c' ∧ c'.wait = .done ∧
      c'.transfer = some { tr with slots := [], completed := tr.count } ∧ c'.status = c.status ∧
      (∀ dl a, x.missed = some dl → x.landed = some a → c'.lateness = max c.lateness (a - dl)) ∧
      (∀ a b, (a, b) ≠ (q, i) → t.cmd? a b = s.cmd? a b) ∧ t = { s with cmds := t.cmds, obs := t.obs, dict := t.dict }) ∧
  (∀ (s : State) (q i n : Nat) (c : Cmd) (tr : Transfer), s.cmd? q i = some c → s.mayRun c = true → c.wait = .transfer → c.transfer = some tr →
    (tr.slots.any fun x => x.d == n && !x.started) = true →
    exec (.semaphoreWaitSatisfied q i (some n)) s = .next (s.advanceMove c))

/-- R193, R260, R268, R293, R411: what waits for others goes on: a FENCE with nothing before it in flight completes, and its record
stands at the completion tail; a TIMED whose point
has passed has finished; a FREE whose last reader has left frees its sequence; a DUMP whose watched queue has issued
`EXPIRE` commands without a match fails with 0x2E03. Before that, nothing changes.
Model choices in it: log entries 64, 78. -/
def Obligations.LateReleases : Prop :=
  ∀ (s : State) (q i : Nat) (c : Cmd), s.cmd? q i = some c →
    (c.recs.cls = 14 → c.wait = .fence → s.fenceOpen c = true →
      exec (.fenceRelease q i) s = exec (.commandCompletion q i) (s.setCmd { c with wait := .done })) ∧
    (∀ k va pa, c.recs.cls = 14 → c.wait = .fence → s.fenceOpen c = true → s.queue? q = some k → k.complBase % 4096 = 0 →
      va = k.complBase + 64 * (k.complTail % 2 ^ k.complLog2) → s.reach (16 + c.die) c.pasid va 64 1 = .ok →
      s.physOf (16 + c.die) c.pasid va 64 1 = some pa → (∀ x ∈ s.obs.captures, State.captures x c = false) →
      (∀ x ∈ s.cmds, ¬(x.recs.cls = 10 ∧ x.wait = .fence) ∧ x.wait ≠ .shadow ∧ x.wait ≠ .dictionary) →
      ∃ t k', exec (.fenceRelease q i) s = .next t ∧ t.cmd? q i = none ∧ (∀ a b, (a, b) ≠ (q, i) → t.cmd? a b = s.cmd? a b) ∧
        t.queue? q = some k' ∧ k'.complTail = (k.complTail + 1) % 2 ^ 32 ∧ k'.head = k.head ∧ k'.tail = k.tail ∧ k'.state = k.state ∧
        t.physRead pa 64 = leBytes 64 (s.recordNat k { c with wait := .done } (c.recs.sealed && c.status == 0 && !c.refused)) ∧
        (∀ a, a < hostBase → (a < pa ∨ pa + 64 ≤ a) → memByte t.devMem a = memByte s.devMem a) ∧
        t.loft = s.loft ∧ t.granary = s.granary ∧ t.mills = s.mills ∧ t.fw = s.fw ∧ t.pins = s.pins) ∧
    (s.fenceOpen c = false → exec (.fenceRelease q i) s = .next s) ∧
    (∀ dt, c.wait = .release → (s.elapse dt).pointPassed c = true → ∃ t, exec (.timedReleasePoint q i dt) s = .next t ∧
      t.cmd? q i = some { c with wait := .done } ∧ (∀ a b, (a, b) ≠ (q, i) → t.cmd? a b = s.cmd? a b) ∧
      t = { s.elapse dt with cmds := t.cmds }) ∧
    (∀ dt, (s.elapse dt).pointPassed c = false → exec (.timedReleasePoint q i dt) s = .next s) ∧
    (∀ k sq, s.queue? q = some k → c.wait = .granary → s.mayRun c = true → c.unchecked = false → s.breakHolds c = false → c.recs.cls = 9 →
      c.recs.kvOp = 2 → s.seq? (c.recs.b 20 21) = some sq → sq.readers = 0 → ∃ t n, exec (.granaryWriterRelease q i) s = .next t ∧
      t.cmd? q i = some { c with wait := .done, detail := n } ∧ t.seq? (c.recs.b 20 21) = none ∧
      (∀ id x, id ≠ c.recs.b 20 21 → s.seq? id = some x → t.seq? id = some x) ∧ t = { s with cmds := t.cmds, granary := t.granary }) ∧
    (∀ x place, s.obs.captures.find? (fun k => k.place == place && k.matched.isNone && k.rec_.expire ≤ k.issued) = some x →
      x.q = q → x.i = i → ∃ t, exec (.dumpLapse place) s = .next t ∧
      t.cmd? q i = some { c with status := 0x2E03, detail := 0, wait := .done } ∧
      (∀ y ∈ t.obs.captures, ¬(y.q = q ∧ y.i = i)) ∧ FailsAlone s t)

/-! ## Commands of a queue -/

/-- R259, R262, R270: the row of a queue's next command takes it where the queue is ready and its turn has come: an aged queue's,
the lowest number first, else that of the queue at or after the cursor of the highest ready class. A command that no code refuses
leaves its ring, is sampled, stands in flight with the ring's index and begins its work; one that a code refuses leaves its ring
and is refused with the lowest. A queue that is not bound, not ready or not next, and a descriptor of another row, change
nothing. Model choices in it: log entries 6, 41, 167. -/
def Obligations.QueueCommandsIssue : Prop :=
  ∀ (s : State) (q : Nat) (row : Instr) (takes : Recs → Bool), (row, takes) ∈ rowOf q →
    (s.queue? q = none → exec row s = .next s) ∧
    (∀ k, s.queue? q = some k → s.ready q k = false ∨ s.turn q k = false → exec row s = .next s) ∧
    (∀ k a x, Table.rising s.queues = true → s.queue? q = some k → s.turn q k = true → s.queue? a = some x →
      x.region / 8 = k.region / 8 → s.servable (a, x) = true →
      (s.aged a = true → s.aged q = true ∧ q ≤ a) ∧
      ((∀ n, s.aged n = false) → State.classOfQueue x ≤ State.classOfQueue k)) ∧
    (∀ k, s.queue? q = some k → s.reach (16 + k.region / 8) k.pasid (descAt k) 64 0 = .ok → takes { desc := nextDesc s k } = false →
      exec row s = .next s) ∧
    (∀ k code, Checked s q k → takes { desc := nextDesc s k } = true →
      lowest ((afterReads s k).allCodes k (nextCmd s q k)) = some code →
      ((afterReads s k).kvShort (nextCmd s q k) code = none →
        exec row s = .next (((afterReads s k).served q k).refuse (nextCmd s q k) code)) ∧
      (∀ s1 e, (afterReads s k).kvShort (nextCmd s q k) code = some (s1, e) → e.code < code ∧
        exec row s = .next ((s1.served q k).refuse { nextCmd s q k with detail := e.detail } e.code))) ∧
    (∀ v c, Issues s q v c → takes { desc := c.recs.desc } = true → ∃ t, exec row s = .next t ∧ t = v.attempt c) ∧
    (∀ k v c, Issues s q v c → s.queue? q = some k → ∃ k', v.cmd? q c.i = some c ∧ c.q = q ∧ c.i = k.head ∧ c.pasid = k.pasid ∧
      c.region = k.region ∧ c.status = 0 ∧ c.refused = false ∧ c.begun = false ∧ c.tiles = 0 ∧ c.semGot = 0 ∧ c.transfer = none ∧
      c.recs.desc = nextDesc s k ∧
      v.queue? q = some k' ∧ k'.head = (k.head + 1) % 2 ^ 32 ∧ k'.tail = k.tail ∧ k'.state = k.state ∧
      v.reg 0x2900 0x08 0 = s.reg 0x2900 0x08 0 + 1 ∧
      v = { s with trans := v.trans, barn := v.barn, dict := v.dict, obs := v.obs, cursors := v.cursors, waiting := v.waiting, queues := v.queues,
                   granary := v.granary, cmds := v.cmds, issued := v.issued })

/-- R65, R91, R165–R168, R276: GEMM, ATTEND, CHAIN2, NORM, FUNC and the convert form of MOVE. A gated command waits for its
first tile. An ungated one whose accesses all hit runs its plan over the bytes read: the plan's writes are made in task
memory, and the command has finished with the plan's flags, or with 0x2228 where its plan meets a position that is refused.
Model choices in it: log entries 129, 145. -/
def Obligations.ArithmeticCommands : Prop :=
  ∀ (s v : State) (q : Nat) (c : Cmd) (row : Instr), Issues s q v c →
    (row, c.recs.cls) ∈ [(.attend q, 1), (.gemm q, 2), (.chain2 q, 3), (.norm q, 4), (.func q, 5)] ∨
      row = .moveConvert q ∧ c.recs.cls = 6 ∧ c.recs.form = 3 →
    (gateTiles (gateRec c) ≠ 0 → c.sends = [] → ∃ t, exec row s = .next t ∧ t.cmd? q c.i = some { c with wait := .gate 0 } ∧
      t = { v with cmds := t.cmds }) ∧
    (∀ as p, gateTiles (gateRec c) = 0 → c.sends = [] → splitRanges c = [] →
      as = readsOf (planReads (v.cmdReader c) c) ++ writesOf (v.outputsOf c) → Clear v c as → p = planOf (v.workEnv c) c → v.kvLost p.kv = none →
      (p.badPos = false → p.sends = [] → ∃ t c', exec row s = .next t ∧ t.cmd? q c.i = some c' ∧ c'.wait = .done ∧ c'.status = 0 ∧
        c'.amax = p.amax ∧ c'.conv = p.g.conv.word ∧ c'.ieee = (if c.recs.strict then p.g.ieee.word else 0) ∧ c'.begun = true ∧
        t.devMem = (p.writes.foldl (fun s w => s.writeVA c.region c.pasid w.1 1 w.2) (v.noteAll c.region c.pasid as)).devMem ∧
        t.hostMem = (p.writes.foldl (fun s w => s.writeVA c.region c.pasid w.1 1 w.2) (v.noteAll c.region c.pasid as)).hostMem ∧
        t.loft.sems = v.loft.sems ∧ t.loft.ctrs = v.loft.ctrs ∧
        t = { v with cmds := t.cmds, devMem := t.devMem, hostMem := t.hostMem, poisoned := t.poisoned, loft := t.loft, trans := t.trans,
                     barn := t.barn, dict := t.dict, obs := t.obs, free := t.free, threshers := t.threshers,
                     granary := { v.granary with walkers := t.granary.walkers } }) ∧
      (p.badPos = true → ∃ t c', exec row s = .next t ∧ t.cmd? q c.i = some c' ∧ c'.wait = .done ∧ c'.status = 0x2228 ∧
        FailsAlone { v with trans := t.trans, barn := t.barn, threshers := t.threshers,
                            granary := { v.granary with walkers := t.granary.walkers } } t))

/-- R208–R210, R269: SYNC commands. A semaphore wait that every cluster satisfies takes its amount and has finished; a signal
adds its amount on every cluster of the mask, and fails with 0x2608 where one would overflow; a counter wait that is satisfied
has finished; a memory wait waits for its first read; an add or a store of eight bytes of memory is made. A signal, add or
store behind an unfinished command of its queue waits. Model choices in it: log entries 43, 44, 169. -/
def Obligations.SyncCommands : Prop :=
  ∀ (s v : State) (q : Nat) (c : Cmd), Issues s q v c → c.recs.cls = 10 →
    (c.recs.form = 0 → bits (c.recs.b 24 27) 15 14 = 1 → (v.cmdPart c).semBase + bits (c.recs.b 24 27) 7 0 < 4096 →
      (∀ n, n < 16 → bit (c.recs.b 20 21) n = true →
        bits (c.recs.b 24 27) 31 16 ≤ v.sem (loftKey c.region n ((v.cmdPart c).semBase + bits (c.recs.b 24 27) 7 0))) →
      ∃ t, exec (.syncSemaphore q) s = .next t ∧ t.cmd? q c.i = some { c with semGot := c.recs.b 20 21, wait := .done } ∧
        (∀ n, n < 16 → t.sem (loftKey c.region n ((v.cmdPart c).semBase + bits (c.recs.b 24 27) 7 0)) =
          v.sem (loftKey c.region n ((v.cmdPart c).semBase + bits (c.recs.b 24 27) 7 0)) -
            (if bit (c.recs.b 20 21) n then bits (c.recs.b 24 27) 31 16 else 0)) ∧
        t.loft.rows = v.loft.rows ∧ t = { v with cmds := t.cmds, loft := t.loft }) ∧
    (c.recs.form = 0 → bits (c.recs.b 24 27) 15 14 = 2 → v.firstOfQueue c = true → (v.cmdPart c).semBase + bits (c.recs.b 24 27) 7 0 < 4096 →
      ((∀ n, n < 16 → bit (c.recs.b 20 21) n = true →
          v.sem (loftKey c.region n ((v.cmdPart c).semBase + bits (c.recs.b 24 27) 7 0)) + bits (c.recs.b 24 27) 31 16 < 2 ^ 32) →
        ∃ t, exec (.syncSemaphore q) s = .next t ∧ t.cmd? q c.i = some { c with released := true, wait := .done } ∧
        (∀ n, n < 16 → t.sem (loftKey c.region n ((v.cmdPart c).semBase + bits (c.recs.b 24 27) 7 0)) =
          v.sem (loftKey c.region n ((v.cmdPart c).semBase + bits (c.recs.b 24 27) 7 0)) +
            (if bit (c.recs.b 20 21) n then bits (c.recs.b 24 27) 31 16 else 0)) ∧
        t.loft.rows = v.loft.rows ∧ t = { v with cmds := t.cmds, loft := t.loft }) ∧
      ((∃ n, n < 16 ∧ bit (c.recs.b 20 21) n = true ∧
          2 ^ 32 ≤ v.sem (loftKey c.region n ((v.cmdPart c).semBase + bits (c.recs.b 24 27) 7 0)) + bits (c.recs.b 24 27) 31 16) →
        ∃ t c', exec (.syncSemaphore q) s = .next t ∧ t.cmd? q c.i = some c' ∧ c'.wait = .done ∧ c'.status = 0x2608 ∧
          t.loft.rows = v.loft.rows ∧ FailsAlone { v with loft := t.loft } t)) ∧
    ((c.recs.form = 0 → bits (c.recs.b 24 27) 15 14 = 2 → v.firstOfQueue c = false →
        ∃ t, exec (.syncSemaphore q) s = .next t ∧ t.cmd? q c.i = some { c with wait := .fence } ∧ t = { v with cmds := t.cmds }) ∧
      (c.recs.form = 3 → v.firstOfQueue c = false →
        ∃ t, exec (.syncMemoryAdd q) s = .next t ∧ t.cmd? q c.i = some { c with wait := .fence } ∧ t = { v with cmds := t.cmds }) ∧
      (c.recs.form = 4 → v.firstOfQueue c = false →
        ∃ t, exec (.syncMemoryStore q) s = .next t ∧ t.cmd? q c.i = some { c with wait := .fence } ∧ t = { v with cmds := t.cmds })) ∧
    (c.recs.form = 1 → ∃ t w, exec (.syncCounterWait q) s = .next t ∧ t.cmd? q c.i = some { c with wait := w } ∧ (w = .done ∨ w = .counter) ∧
      (w = .done ↔ ∀ n, n < 16 → bit (c.recs.b 20 21) n = true →
        c.recs.b 32 35 ≤ v.arrived (v.cmdPart c) c.region n (c.recs.b 24 24) (c.recs.b 28 31)) ∧ t = { v with cmds := t.cmds }) ∧
    (c.recs.form = 2 → ∃ t, exec (.syncMemoryWait q) s = .next t ∧ t.cmd? q c.i = some { c with wait := .memory } ∧
      t = { v with cmds := t.cmds }) ∧
    (∀ a u, c.recs.form = 3 → v.firstOfQueue c = true → a = ({ va := c.recs.b 40 47, len := 8, kind := 2 } : Access) → Clear v c [a] →
      u = (v.noteAll c.region c.pasid [a]).writeVA c.region c.pasid a.va 2
        (leBytes 8 ((leNat (v.readVA c.region c.pasid a.va 8) + c.recs.b 32 39) % 2 ^ 64)) →
      ∃ t, exec (.syncMemoryAdd q) s = .next t ∧ t.cmd? q c.i = some { c with wait := .done } ∧ t = { u with cmds := t.cmds }) ∧
    (∀ a u, c.recs.form = 4 → v.firstOfQueue c = true → a = ({ va := c.recs.b 40 47, len := 8, kind := 1 } : Access) → Clear v c [a] →
      u = (v.noteAll c.region c.pasid [a]).writeVA c.region c.pasid a.va 1 (leBytes 8 (c.recs.b 32 39)) →
      ∃ t, exec (.syncMemoryStore q) s = .next t ∧ t.cmd? q c.i = some { c with wait := .done } ∧ t = { u with cmds := t.cmds })

/-- R182, R184, R189, R191, R192: Granary commands. CREATE makes a sequence with the record's geometry under an identity that was
free; SHARE makes one whose layers have the shorter of `AT` and the source's length; FREE without readers frees its sequence,
and else waits; TRUNCATE shortens its layers; HINT sets the eviction fields; QUERY writes the context record; an append and a
gather whose accesses hit run to their end and touch no queue. Model choices in it: log entries 129, 153. -/
def Obligations.GranaryCommands : Prop :=
  ∀ (s v : State) (q : Nat) (c : Cmd), Issues s q v c →
    (c.recs.cls = 9 → c.recs.kvOp = 0 → ∃ t sq, exec (.kvCreate q) s = .next t ∧ t.cmd? q c.i = some { c with wait := .done } ∧
      s.seq? (c.detail % 2 ^ 16) = none ∧ t.seq? (c.detail % 2 ^ 16) = some sq ∧ sq.pasid = c.pasid ∧ sq.state = 1 ∧ sq.lengths = [] ∧
      sq.kType = c.recs.b 32 33 ∧ sq.vType = c.recs.b 34 35 ∧ sq.dim = c.recs.b 37 37 ∧ sq.heads = c.recs.b 23 23 ∧
      sq.layers = c.recs.b 36 36 ∧ sq.capacity = c.recs.b 28 31 ∧ sq.readers = 0 ∧ t = { v with cmds := t.cmds }) ∧
    (∀ src, c.recs.cls = 9 → c.recs.kvOp = 1 → s.seq? (c.recs.b 20 21) = some src →
      ∃ t sq, exec (.kvSharePrefix q) s = .next t ∧ t.cmd? q c.i = some { c with wait := .done } ∧
      s.seq? (c.detail % 2 ^ 16) = none ∧ t.seq? (c.detail % 2 ^ 16) = some sq ∧ sq.state = 1 ∧ sq.capacity = c.recs.b 28 31 ∧
      sq.kType = src.kType ∧ sq.vType = src.vType ∧ sq.heads = src.heads ∧ sq.layers = src.layers ∧
      (∀ l, l < src.layers → sq.length l = min (c.recs.b 24 27) (src.length l)) ∧ t = { v with cmds := t.cmds }) ∧
    (∀ sq, c.recs.cls = 9 → c.recs.kvOp = 2 → v.seq? (c.recs.b 20 21) = some sq →
      (sq.readers = 0 → ∃ t n, exec (.kvFree q) s = .next t ∧ t.cmd? q c.i = some { c with wait := .done, detail := n } ∧
        t.seq? (c.recs.b 20 21) = none ∧ (∀ id x, id ≠ c.recs.b 20 21 → s.seq? id = some x → t.seq? id = some x) ∧
        t = { v with cmds := t.cmds, granary := t.granary }) ∧
      (sq.readers ≠ 0 → ∃ t, exec (.kvFree q) s = .next t ∧ t.cmd? q c.i = some { c with wait := .granary } ∧
        t.seq? (c.recs.b 20 21) = some sq ∧ sq.state = 2 ∧ t = { v with cmds := t.cmds, dict := t.dict, free := t.free })) ∧
    (∀ old, c.recs.cls = 9 → c.recs.kvOp = 3 → s.seq? (c.recs.b 20 21) = some old → ∃ t sq, exec (.kvTruncate q) s = .next t ∧
      t.cmd? q c.i = some { c with wait := .done } ∧ t.seq? (c.recs.b 20 21) = some sq ∧ sq.generation = old.generation + 1 ∧
      (∀ l, sq.length l = if bit c.recs.kv 12 = true ∧ l < old.layers ∨ bit c.recs.kv 12 = false ∧ l = c.recs.layer then
        min (c.recs.b 24 27) (old.length l) else old.length l) ∧
      (∀ id, id ≠ c.recs.b 20 21 → t.seq? id = s.seq? id) ∧ t = { v with cmds := t.cmds }) ∧
    (∀ old, c.recs.cls = 9 → c.recs.kvOp = 4 → s.seq? (c.recs.b 20 21) = some old → ∃ t, exec (.kvHint q) s = .next t ∧
      t.cmd? q c.i = some { c with wait := .done } ∧
      t.seq? (c.recs.b 20 21) = some { old with evictable := bit c.recs.kv 13, priority := bits c.recs.kv 15 14, hint := bits c.recs.kv 17 16 } ∧
      (∀ id, id ≠ c.recs.b 20 21 → t.seq? id = s.seq? id) ∧ t = { v with cmds := t.cmds }) ∧
    (∀ sq u, c.recs.cls = 9 → c.recs.kvOp = 5 → v.seq? (c.recs.b 20 21) = some sq →
      Clear v c [{ va := c.recs.b 40 47, len := 1024, kind := 1 }] →
      u = (v.noteAll c.region c.pasid [{ va := c.recs.b 40 47, len := 1024, kind := 1 }]).writeVA c.region c.pasid (c.recs.b 40 47) 1
        (sq.record (c.recs.b 20 21)) →
      ∃ t, exec (.kvQuery q) s = .next t ∧ t.cmd? q c.i = some { c with wait := .done } ∧ t = { u with cmds := t.cmds }) ∧
    (∀ sq, c.recs.cls = 7 → v.seq? (c.recs.b 20 21) = some sq → Clear v c (readsOf (State.appendReads c.recs sq)) →
      ∃ t c', exec (.kvAppend q) s = .next t ∧ t.cmd? q c.i = some c' ∧ c'.wait = .done ∧ c'.status = 0 ∧ c'.reserved = c.reserved ∧
      t.seq? (c.recs.b 20 21) = some sq ∧ t.granary.sheaves = v.granary.sheaves ∧
      t = { v with cmds := t.cmds, granary := t.granary, trans := t.trans, barn := t.barn, dict := t.dict, obs := t.obs,
                   poisoned := t.poisoned }) ∧
    (∀ sq, c.recs.cls = 8 → v.seq? (c.recs.b 20 21) = some sq → v.kvLost (State.gatherReads c sq) = none →
      (bit c.recs.kv 4 = false → Clear v c (writesOf (v.outputsOf c)) →
        ∃ t c', exec (.kvGather q) s = .next t ∧ t.cmd? q c.i = some c' ∧ c'.wait = .done ∧ c'.status = 0 ∧
        t = { v with cmds := t.cmds, trans := t.trans, barn := t.barn, dict := t.dict, obs := t.obs, devMem := t.devMem,
                     hostMem := t.hostMem, poisoned := t.poisoned, granary := { v.granary with walkers := t.granary.walkers } }) ∧
      (bit c.recs.kv 4 = true → (v.cmdPart c).ctrBase + c.recs.b 33 33 < 4096 →
        ∃ t c', exec (.kvGather q) s = .next t ∧ t.cmd? q c.i = some c' ∧ c'.wait = .done ∧ c'.status = 0 ∧ c'.released = true ∧
        (∀ n, n < 16 → bit (c.recs.b 34 35) n = true → t.ctr (loftKey c.region n ((v.cmdPart c).ctrBase + c.recs.b 33 33)) % 2 ^ 32 =
          (v.ctr (loftKey c.region n ((v.cmdPart c).ctrBase + c.recs.b 33 33)) + ceilDiv (c.recs.b 28 31) 64) % 2 ^ 32) ∧
        t.loft.sems = v.loft.sems ∧
        t = { v with cmds := t.cmds, loft := t.loft, dict := t.dict, obs := t.obs, barn := t.barn, trans := t.trans,
                     granary := { v.granary with walkers := t.granary.walkers } }))

/-- R207, R209, R213, R219: MOVE in its other forms. A transfer begins with its descriptor ring and waits for its bursts; a fill lands
the pattern in its rows on every cluster of the mask; a copy lands what the source rows held, with their error marks. Fill and
copy have then finished, or signal as their word says; under hazard checking their rows are pending where the signal has
not taken effect (R214). Model choices in it: log entry 37. -/
def Obligations.MoveCommands : Prop :=
  ∀ (s v : State) (q : Nat) (c : Cmd), Issues s q v c → c.recs.cls = 6 →
    (c.recs.form = 0 → ∃ t c', exec (.moveTransfer q) s = .next t ∧ t.cmd? q c.i = some c' ∧ c'.wait = .transfer ∧
      c'.transfer = some { base := c.recs.b 24 31, log2 := c.recs.b 32 32, first := c.recs.b 36 39, count := c.recs.b 40 43 } ∧
      t = { v with cmds := t.cmds, obs := t.obs, dict := t.dict }) ∧
    (c.recs.form = 1 → 16 * (v.cmdPart c).baseUnit + c.recs.b 24 27 + c.recs.b 28 31 ≤ 4096 →
      ∃ t c', exec (.moveFill q) s = .next t ∧ t.cmd? q c.i = some c' ∧ c'.wait = .done ∧
      (∀ n i, n < 16 → bit (c.recs.b 20 21) n = true → i < c.recs.b 28 31 →
        t.loftRow (loftKey c.region n (16 * (v.cmdPart c).baseUnit + (c.recs.b 24 27 + i))) =
          { LoftRow.ofBytes (List.replicate 128 (leBytes 4 (c.recs.b 32 35))).flatten with
            pending := (v.cmdPart c).hazard &&
              (if bits (c.recs.b 36 39) 15 14 = 2
               then !(v.signalOne (v.cmdPart c) c.region n (SemWord.ofWord (c.recs.b 36 39))).2
               else (v.loftRow (loftKey c.region n (16 * (v.cmdPart c).baseUnit + (c.recs.b 24 27 + i)))).pending) }) ∧
      (∀ k, (∀ n i, n < 16 → bit (c.recs.b 20 21) n = true → i < c.recs.b 28 31 →
        k ≠ loftKey c.region n (16 * (v.cmdPart c).baseUnit + (c.recs.b 24 27 + i))) → t.loftRow k = v.loftRow k) ∧
      (bits (c.recs.b 36 39) 15 14 ≠ 2 → c'.status = 0 ∧ c'.released = c.released ∧ t.loft.sems = v.loft.sems) ∧
      (bits (c.recs.b 36 39) 15 14 = 2 → c'.released = true ∧
        t.loft.sems = (v.signalMask (v.cmdPart c) c.region (c.recs.b 20 21) (SemWord.ofWord (c.recs.b 36 39))).1.loft.sems ∧
        c'.status = (if (v.signalMask (v.cmdPart c) c.region (c.recs.b 20 21) (SemWord.ofWord (c.recs.b 36 39))).2 then 0 else 0x2608)) ∧
      t = { v with cmds := t.cmds, loft := t.loft, obs := t.obs, dict := t.dict, bruora := t.bruora }) ∧
    (c.recs.form = 2 → 16 * (v.cmdPart c).baseUnit + c.recs.b 28 31 + c.recs.b 32 35 ≤ 4096 →
      ∃ t c', exec (.moveCopy q) s = .next t ∧ t.cmd? q c.i = some c' ∧ c'.wait = .done ∧
      (∀ n i, n < 16 → bit (c.recs.b 20 21) n = true → i < c.recs.b 32 35 →
        t.loftRow (loftKey c.region n (16 * (v.cmdPart c).baseUnit + c.recs.b 28 31 + i)) =
          { LoftRow.ofBytes (v.readRow (v.cmdPart c) c.region n (c.recs.b 24 27 + i)).1 with
            mark := (v.readRow (v.cmdPart c) c.region n (c.recs.b 24 27 + i)).2.1,
            pending := (v.cmdPart c).hazard &&
              (if bits (c.recs.b 36 39) 15 14 = 2
               then !(v.signalOne (v.cmdPart c) c.region n (SemWord.ofWord (c.recs.b 36 39))).2
               else (v.loftRow (loftKey c.region n (16 * (v.cmdPart c).baseUnit + c.recs.b 28 31 + i))).pending) }) ∧
      ((∀ r ∈ v.loft.rows, r.2.badSector = false) → ∀ k, (∀ n i, n < 16 → bit (c.recs.b 20 21) n = true → i < c.recs.b 32 35 →
        k ≠ loftKey c.region n (16 * (v.cmdPart c).baseUnit + c.recs.b 28 31 + i)) → t.loftRow k = v.loftRow k) ∧
      (bits (c.recs.b 36 39) 15 14 ≠ 2 → c'.status = 0 ∧ t.loft.sems = v.loft.sems) ∧
      (bits (c.recs.b 36 39) 15 14 = 2 →
        t.loft.sems = (v.signalMask (v.cmdPart c) c.region (c.recs.b 20 21) (SemWord.ofWord (c.recs.b 36 39))).1.loft.sems ∧
        c'.status = (if (v.signalMask (v.cmdPart c) c.region (c.recs.b 20 21) (SemWord.ofWord (c.recs.b 36 39))).2 then 0 else 0x2608)) ∧
      ((∀ r ∈ v.loft.rows, r.2.badSector = false) → t.integ = v.integ ∧ t.outbox = v.outbox) ∧
      t = { v with cmds := t.cmds, loft := t.loft, obs := t.obs, dict := t.dict, bruora := t.bruora, integ := t.integ, outbox := t.outbox })

/-- R117, R268, R292, R293, R299, R407: TABLE loads an image that no code rejects as the active bank of the next generation, the
old one stays as its shadow, and a rejected image changes neither; behind an unfinished command of the shadow's generation it
waits. A DUMP arms a capture and waits. A TIMED ends its queue's release, and has finished in free-run, or once its reel time
is reached. A FENCE waits. Model choices in it: log entries 52, 78. -/
def Obligations.ControlCommands : Prop :=
  ∀ (s v : State) (q : Nat) (c : Cmd), Issues s q v c →
    (c.recs.cls = 11 → v.shadowBusy c = true → ∃ t, exec (.table q) s = .next t ∧ t.cmd? q c.i = some { c with wait := .shadow } ∧
      t = { v with cmds := t.cmds }) ∧
    (∀ a a' h b u, c.recs.cls = 11 → v.shadowBusy c = false →
      a = ({ va := c.recs.b 24 31, len := 64, kind := 0 } : Access) → h = v.readVA c.region c.pasid a.va 64 → 64 ≤ field h 8 11 →
      field h 8 11 ≤ 163904 → a' = ({ va := a.va + 64, len := field h 8 11 - 64, kind := 0 } : Access) → Clear v c [a] →
      u = v.noteAll c.region c.pasid [a] → Clear u c [a'] → b = h ++ v.readVA c.region c.pasid a'.va a'.len →
      (lowest (v.loadCodes c.recs.form b) = none → ∃ t, exec (.table q) s = .next t ∧ t.cmd? q c.i = some { c with wait := .done } ∧
        t.mills = { generation := v.mills.generation + 1, active := Table.put c.recs.form (Image.loaded b) v.mills.active,
                    shadow := v.mills.active, shadowGeneration := v.mills.generation } ∧
        t = { v with cmds := t.cmds, mills := t.mills, trans := t.trans, barn := t.barn, dict := t.dict, obs := t.obs }) ∧
      (∀ code, lowest (v.loadCodes c.recs.form b) = some code → ∃ t c', exec (.table q) s = .next t ∧ t.cmd? q c.i = some c' ∧
        c'.wait = .done ∧ c'.status = code ∧ FailsAlone { v with trans := t.trans, barn := t.barn } t)) ∧
    (c.recs.cls = 12 → ∃ t, exec (.dump q) s = .next t ∧ t.cmd? q c.i = some { c with wait := .capture } ∧
      (∃ x ∈ t.obs.captures, x.q = q ∧ x.i = c.i ∧ x.record = c.recs.args ∧ x.matched = none ∧ x.issued = 0) ∧
      t = { v with cmds := t.cmds }) ∧
    (c.recs.cls = 13 → ∃ t k' w, exec (.timed q) s = .next t ∧ t.queue? q = some k' ∧ k'.released = false ∧ k'.releaseFrame = none ∧
      k'.boosted = false ∧ (v.cadence = false → k'.timedDeadline = none ∧ w = .done) ∧
      (v.cadence = true → bit c.recs.form 2 = true → bit c.recs.form 4 = true →
        w = if c.recs.b 24 31 ≤ v.reel c.die then .done else .release) ∧
      (∃ c', t.cmd? q c.i = some c' ∧ c'.wait = w) ∧ (∀ n, n ≠ q → t.queue? n = v.queue? n) ∧
      t = { v with cmds := t.cmds, queues := t.queues, bell := t.bell }) ∧
    (c.recs.cls = 14 → ∃ t, exec (.fence q) s = .next t ∧ t.cmd? q c.i = some { c with wait := .fence } ∧ t = { v with cmds := t.cmds })

/-- R316, R317, R319, R320, R330, R336, R339: DICT commands. One waits while an earlier request to its entry is not complete. A read that nothing aborts writes the entry into its buffer and gives its
bytes; an abort fails the command with its code. A write outside the windows is always aborted: no writable entry of the
tables is open to a DICT command. A window that no code refuses opens and pins its partition; closing it removes it.
Model choices in it: log entries 57, 131, 171. -/
def Obligations.DictCommands : Prop :=
  ∀ (s v : State) (q : Nat) (c : Cmd), Issues s q v c → c.recs.cls = 15 →
    (∀ x ∈ rowOf q, x.2 c.recs = true → v.dictTurn c = false → ∃ t, exec x.1 s = .next t ∧
      t.cmd? q c.i = some { c with wait := .dictionary } ∧ t = { v with cmds := t.cmds }) ∧ (v.dictTurn c = true →
    (∀ e b, State.dictRow c.recs = 0 → lowestAbort (v.accessAborts (State.dictRequest c) false) = none →
      dictEntry? (State.dictRequest c).index (State.dictRequest c).sub = some e → b = v.readBytes (State.dictRequest c) e →
      Clear v c [{ va := c.recs.b 24 31, len := b.length, kind := 1 }] →
      ∃ t, exec (.dictRead q) s = .next t ∧ t.cmd? q c.i = some { c with wait := .done, detail := b.length } ∧
        t.devMem = ((v.noteAll c.region c.pasid [{ va := c.recs.b 24 31, len := b.length, kind := 1 }]).writeVA c.region c.pasid
          (c.recs.b 24 31) 1 b).devMem ∧
        t.hostMem = ((v.noteAll c.region c.pasid [{ va := c.recs.b 24 31, len := b.length, kind := 1 }]).writeVA c.region c.pasid
          (c.recs.b 24 31) 1 b).hostMem ∧
        t = { v with cmds := t.cmds, trans := t.trans, barn := t.barn, dict := t.dict, obs := t.obs, devMem := t.devMem,
                     hostMem := t.hostMem, poisoned := t.poisoned }) ∧
    (∀ a, State.dictRow c.recs = 0 → lowestAbort (v.accessAborts (State.dictRequest c) false) = some a →
      ∃ t, exec (.dictRead q) s = .next t ∧
        t.cmd? q c.i = some { c with status := if a % 65536 = 0x100A then a / 65536 else a % 65536, detail := a, wait := .done } ∧
        FailsAlone v t) ∧
    (State.dictRow c.recs = 1 → ∃ t a, exec (.dictWrite q) s = .next t ∧
        lowestAbort (v.accessAborts (State.dictRequest c) true) = some a ∧
        t.cmd? q c.i = some { c with status := if a % 65536 = 0x100A then a / 65536 else a % 65536, detail := a, wait := .done } ∧
        FailsAlone v t) ∧
    (∀ b w k u, State.dictRow c.recs = 2 → lowestAbort (v.accessAborts (State.dictRequest c) true) = none →
      Clear v c [{ va := c.recs.b 24 31, len := 32, kind := 0 }] → b = v.readVA c.region c.pasid (c.recs.b 24 31) 32 →
      w = State.WindowRecord.ofBytes b → v.queue? q = some k → lowest (v.windowOpenCodes k w) = none →
      u = v.noteAll c.region c.pasid [{ va := c.recs.b 24 31, len := 32, kind := 0 }] →
      (w.memory = true → u.reachAll c.region c.pasid ((if w.read then [{ va := w.base, len := w.size, kind := 0 }] else []) ++
        (if w.write then [{ va := w.base, len := w.size, kind := 1 }] else [])) = none) →
      ∃ t x e, exec (.windowOpen q) s = .next t ∧ t.cmd? q c.i = some { c with wait := .done, detail := 32 } ∧
        t.bruora.windows = v.bruora.windows ++ [x] ∧ x.id = w.id ∧ x.pasid = c.pasid ∧ x.q = q ∧ x.memory = w.memory ∧ x.read = w.read ∧
        x.write = w.write ∧ x.counter = w.counter ∧ x.base = w.base ∧ x.size = w.size ∧ x.peers = w.peers ∧ k.part = some e ∧
        x.region = k.region ∧ x.part = e ∧ (t.part k.region e).pinned = true ∧
        t = { v with cmds := t.cmds, loft := t.loft, bruora := t.bruora, trans := t.trans, barn := t.barn, dict := t.dict, obs := t.obs }) ∧
    (∀ x, State.dictRow c.recs = 3 → lowestAbort (v.accessAborts (State.dictRequest c) true) = none →
      Clear v c [{ va := c.recs.b 24 31, len := 2, kind := 0 }] →
      v.bruora.windows.find? (fun w => w.id == leNat (v.readVA c.region c.pasid (c.recs.b 24 31) 2) && w.pasid == c.pasid) = some x →
      ∃ t, exec (.windowClose q) s = .next t ∧ t.cmd? q c.i = some { c with wait := .done, detail := 2 } ∧
        t.bruora.windows = v.bruora.windows.filter (fun w => w.id != x.id) ∧
        ((∀ w ∈ v.bruora.windows, w.id ≠ x.id → ¬(w.region = x.region ∧ w.part = x.part)) → (t.part x.region x.part).pinned = false) ∧
        t = { v with cmds := t.cmds, loft := t.loft, bruora := t.bruora, trans := t.trans, barn := t.barn, dict := t.dict, obs := t.obs }))

/-! ## Numbers -/

/-- R26: integers are read as two's complement, or as unsigned binary, and their ranges follow. R28, R29: the elements of a
format below a byte stand in their packing groups, two to a byte or four to three bytes. R31: an LNS8 code is its sign and
2 to the eighth part of its log field, but for the zero 0x40 and the NaN 0xC0. R37: an E8M0 code E is 2 to E − 127, and 0xFF
is NaN. -/
def Obligations.CodeValues : Prop :=
  (∀ f ∈ [Fmt.int8, Fmt.int4, Fmt.int32], ∀ c, c < 2 ^ f.width → (decode f true c).val = Val.ofInt c ∧
    (decode f false c).val = Val.ofInt (if c < 2 ^ (f.width - 1) then (c : Int) else (c : Int) - 2 ^ f.width) ∧
    f.intRange true = (0, 2 ^ f.width - 1) ∧ f.intRange false = (-(2 ^ (f.width - 1)), 2 ^ (f.width - 1) - 1) ∧
    (f = .int8 ∧ f.width = 8 ∨ f = .int4 ∧ f.width = 4 ∨ f = .int32 ∧ f.width = 32)) ∧
  (∀ f ∈ [Fmt.e2m1, Fmt.int4], f.group = 2 ∧ f.rowBytes f.group = 1 ∧ ∀ (row : List Byte) (k : Nat), k < row.length →
    elementCode f row (2 * k) = (row.getD k 0).toNat % 16 ∧ elementCode f row (2 * k + 1) = (row.getD k 0).toNat / 16) ∧
  (∀ f ∈ [Fmt.e3m2, Fmt.e2m3], f.group = 4 ∧ f.rowBytes f.group = 3 ∧ ∀ (row : List Byte) (g j : Nat), j < 4 → 3 * g + 3 ≤ row.length →
    elementCode f row (4 * g + j) =
      ((row.getD (3 * g) 0).toNat + 256 * (row.getD (3 * g + 1) 0).toNat + 65536 * (row.getD (3 * g + 2) 0).toNat) / 64 ^ j % 64) ∧
  (∀ f, f.width < 8 → ∀ codes : List Nat, ∀ i, i < codes.length → elementCode f (packRow f codes) i = codes.getD i 0 % 2 ^ f.width) ∧
  (∀ (uns : Bool) (c : Nat), c < 256 →
    (decode .lns8 uns c).val = (if c = 0x40 then .zero false else if c = 0xC0 then .nan NaN.canonical else
      .fin (128 ≤ c) (Mag.exp2 (if c % 128 < 64 then (c % 128 : Nat) else ((c % 128 : Nat) : Int) - 128) 8))) ∧
  (∀ l : Int, ∀ n : Nat, (Mag.exp2 l n).root = n ∧ 0 < (Mag.exp2 l n).den ∧
    (Mag.exp2 l n).num * 2 ^ (-l).toNat = 2 ^ l.toNat * (Mag.exp2 l n).den) ∧
  (∀ (uns : Bool) (c : Nat), (c < 255 → ∃ m, (decode .e8m0 uns c).val = .fin false m ∧ m.root = 1 ∧ 0 < m.den ∧ m.num * 2 ^ 127 = 2 ^ c * m.den) ∧
    (c = 255 → (decode .e8m0 uns c).val = .nan NaN.canonical))

/-- R53, R55, R60, R61: a value that a format holds is delivered into that format as its own code under every rounding
attribute and either saturate bit, without a flag: every zero and finite value, of all fifteen formats, in strict mode.
Model choices in it: log entries 12, 16. -/
def Obligations.ExactValuesAreKept : Prop :=
  ∀ (f : Fmt) (uns : Bool) (r : Round) (sat : Bool) (c : Nat), c < 2 ^ f.width →
    ((∃ neg, (decode f uns c).val = .zero neg) ∨ ∃ neg m, (decode f uns c).val = .fin neg m) →
    deliver f uns r sat true (decode f uns c).val = { code := c }
end

