-- ==== Sys2Proof/Laws/Table.lean ====
section
/-! SUPPORT. Laws/Table.lean: sparse tables: what is put is found, other keys are not touched, and keys stay rising. -/
namespace Sys2Proof.Machine
namespace Table
variable {α : Type}

@[simp] theorem find?_nil (k : Nat) : Table.find? k ([] : Table α) = none := rfl

/-- What is put at a key is found there. -/
@[simp] theorem find?_put_self (k : Nat) (v : α) (t : Table α) : Table.find? k (Table.put k v t) = some v := by
  induction t with
  | nil => simp [Table.put, Table.find?]
  | cons e t ih =>
    obtain ⟨j, w⟩ := e
    unfold Table.put
    split
    · simp [Table.find?]
    · split
      · simp [Table.find?]
      · rename_i h1 h2
        simp only [Table.find?]
        rw [if_neg (by omega), if_neg h1, ih]

/-- Other keys are found as before. -/
theorem find?_put_ne {k n : Nat} (h : n ≠ k) (v : α) (t : Table α) : Table.find? n (Table.put k v t) = Table.find? n t := by
  induction t with
  | nil => simp only [Table.put, Table.find?]; rw [if_neg (by omega)]; split <;> rfl
  | cons e t ih =>
    obtain ⟨j, w⟩ := e
    unfold Table.put
    split
    · simp only [Table.find?]
      rw [if_neg (by omega)]
      split
      · rw [if_neg (by omega), if_pos (by omega)]
      · rfl
    · split
      · subst_vars; simp only [Table.find?]; simp [Ne.symm h]
      · simp only [Table.find?, ih]

/-- A key that was taken out is not found. -/
@[simp] theorem find?_drop_self (k : Nat) (t : Table α) : Table.find? k (Table.drop k t) = none := by
  induction t with
  | nil => rfl
  | cons e t ih =>
    obtain ⟨j, w⟩ := e
    simp only [Table.drop, List.filter] at ih ⊢
    split
    · rename_i h
      simp only [bne_iff_ne, ne_eq] at h
      simp only [Table.find?]
      rw [if_neg h]
      split
      · rfl
      · exact ih
    · exact ih

/-- Every key of a rising table is at least its first. -/
theorem rising_cons {j : Nat} {w : α} {t : Table α} (h : Table.rising ((j, w) :: t) = true) :
    Table.rising t = true ∧ ∀ e ∈ t, j < e.1 := by
  induction t generalizing j w with
  | nil => exact ⟨rfl, by simp⟩
  | cons e t ih =>
    obtain ⟨k, x⟩ := e
    simp only [Table.rising, Bool.and_eq_true, decide_eq_true_eq] at h
    refine ⟨h.2, ?_⟩
    intro e he
    rcases List.mem_cons.1 he with rfl | he
    · exact h.1
    · exact Nat.lt_trans h.1 ((ih h.2).2 e he)

theorem rising_of {j : Nat} {w : α} {t : Table α} (h : Table.rising t = true) (hj : ∀ e ∈ t, j < e.1) :
    Table.rising ((j, w) :: t) = true := by
  cases t with
  | nil => rfl
  | cons e t => simp only [Table.rising, Bool.and_eq_true, decide_eq_true_eq]; exact ⟨hj e (by simp), h⟩

/-- A part of a rising table is rising. -/
theorem rising_filter (p : Nat × α → Bool) {t : Table α} (h : Table.rising t = true) : Table.rising (t.filter p) = true := by
  induction t with
  | nil => rfl
  | cons e t ih =>
    obtain ⟨j, w⟩ := e
    have h2 := rising_cons h
    simp only [List.filter]
    split
    · exact rising_of (ih h2.1) fun e he => h2.2 e (List.mem_filter.1 he).1
    · exact ih h2.1

/-- Two rising tables, the second's keys above the first's, make a rising one. -/
theorem rising_append {a b : Table α} (ha : Table.rising a = true) (hb : Table.rising b = true)
    (h : ∀ x ∈ a, ∀ y ∈ b, x.1 < y.1) : Table.rising (a ++ b) = true := by
  induction a with
  | nil => exact hb
  | cons e a ih =>
    obtain ⟨j, w⟩ := e
    have h2 := rising_cons ha
    refine rising_of (ih h2.1 fun x hx => h x (by simp [hx])) ?_
    intro y hy
    rcases List.mem_append.1 hy with hy | hy
    · exact h2.2 y hy
    · exact h (j, w) (List.mem_cons_self ..) y hy

theorem mem_put {k : Nat} {v : α} {t : Table α} {e : Nat × α} (h : e ∈ Table.put k v t) : e = (k, v) ∨ e ∈ t := by
  induction t with
  | nil => simp [Table.put] at h; exact .inl h
  | cons x t ih =>
    obtain ⟨j, w⟩ := x
    unfold Table.put at h
    split at h
    · simpa using h
    · split at h
      · rcases List.mem_cons.1 h with h | h
        · exact .inl h
        · exact .inr (by simp [h])
      · rcases List.mem_cons.1 h with h | h
        · exact .inr (by simp [h])
        · rcases ih h with h | h
          · exact .inl h
          · exact .inr (by simp [h])

/-- Putting keeps keys rising. -/
theorem rising_put (k : Nat) (v : α) {t : Table α} (h : Table.rising t = true) : Table.rising (Table.put k v t) = true := by
  induction t with
  | nil => rfl
  | cons e t ih =>
    obtain ⟨j, w⟩ := e
    have h2 := rising_cons h
    unfold Table.put
    split
    · rename_i hk
      refine rising_of h ?_
      intro e he
      rcases List.mem_cons.1 he with rfl | he
      · exact hk
      · exact Nat.lt_trans hk (h2.2 e he)
    · split
      · rename_i hk; subst hk; exact rising_of h2.1 h2.2
      · refine rising_of (ih h2.1) ?_
        intro e he
        rcases mem_put he with rfl | he
        · show j < k; omega
        · exact h2.2 e he

/-- In a rising table a listed key is found. -/
theorem find?_of_mem {t : Table α} (h : Table.rising t = true) {k : Nat} {v : α} (hm : (k, v) ∈ t) : Table.find? k t = some v := by
  induction t with
  | nil => simp at hm
  | cons e t ih =>
    obtain ⟨j, w⟩ := e
    have h2 := rising_cons h
    rcases List.mem_cons.1 hm with hm | hm
    · cases hm; simp [Table.find?]
    · have := h2.2 _ hm
      simp only [Table.find?]
      rw [if_neg (by omega), if_neg (by omega)]
      exact ih h2.1 hm

theorem mem_of_find? {t : Table α} {k : Nat} {v : α} (h : Table.find? k t = some v) : (k, v) ∈ t := by
  induction t with
  | nil => simp at h
  | cons e t ih =>
    obtain ⟨j, w⟩ := e
    simp only [Table.find?] at h
    split at h
    · simp_all
    · split at h
      · simp at h
      · exact List.mem_cons_of_mem _ (ih h)

/-- Looking a key up in a part of a rising table. -/
theorem find?_filter {t : Table α} (h : Table.rising t = true) (p : Nat × α → Bool) (k : Nat) (hp : ∀ v, p (k, v) = true) :
    Table.find? k (t.filter p) = Table.find? k t := by
  cases hf : Table.find? k t with
  | some v => exact find?_of_mem (rising_filter p h) (List.mem_filter.2 ⟨mem_of_find? hf, hp v⟩)
  | none =>
    cases hg : Table.find? k (t.filter p) with
    | none => rfl
    | some v => rw [find?_of_mem h (List.mem_filter.1 (mem_of_find? hg)).1] at hf; cases hf

/-- No key of the table, nothing found. -/
theorem find?_none_of {t : Table α} {k : Nat} (h : ∀ e ∈ t, e.1 ≠ k) : Table.find? k t = none := by
  cases hf : Table.find? k t with
  | none => rfl
  | some v => exact absurd rfl (h _ (mem_of_find? hf))

theorem rising_left {a b : Table α} (h : Table.rising (a ++ b) = true) : Table.rising a = true := by
  induction a with
  | nil => rfl
  | cons e a ih =>
    obtain ⟨j, w⟩ := e
    have h2 := rising_cons h
    exact rising_of (ih h2.1) fun e he => h2.2 e (List.mem_append_left _ he)

theorem rising_right {a b : Table α} (h : Table.rising (a ++ b) = true) : Table.rising b = true := by
  induction a with
  | nil => exact h
  | cons e a ih => obtain ⟨j, w⟩ := e; exact ih (rising_cons h).1

/-- Looking a key up in two tables one after the other. -/
theorem find?_append {a b : Table α} (h : Table.rising (a ++ b) = true) (k : Nat) :
    Table.find? k (a ++ b) = (Table.find? k a).or (Table.find? k b) := by
  cases ha : Table.find? k a with
  | some v => rw [find?_of_mem h (List.mem_append_left _ (mem_of_find? ha))]; rfl
  | none =>
    cases hb : Table.find? k b with
    | some v => rw [find?_of_mem h (List.mem_append_right _ (mem_of_find? hb))]; rfl
    | none =>
      refine find?_none_of ?_
      intro e he hk
      obtain ⟨j, w⟩ := e
      subst hk
      rcases List.mem_append.1 he with he | he
      · rw [find?_of_mem (rising_left h) he] at ha; cases ha
      · rw [find?_of_mem (rising_right h) he] at hb; cases hb

end Table
end Sys2Proof.Machine
end

