-- ==== Sys2Proof/Laws/Memory.lean ====
section
/-! SUPPORT. Laws/Memory.lean: memory keeps its canonical form, reads back what was written, and nothing else changes. -/
namespace Sys2Proof.Machine

/-- The canonical form as a proposition. -/
theorem Memory.wf_iff (m : List Host.Cell) : Memory.wf m = true ↔ Table.rising m = true ∧ ∀ c ∈ m, c.2 ≠ 0 := by
  simp [Memory.wf]

theorem cellsAt_mem {a : Nat} {bs : List Byte} {c : Host.Cell} (h : c ∈ cellsAt a bs) : a ≤ c.1 ∧ c.1 < a + bs.length ∧ c.2 ≠ 0 := by
  induction bs generalizing a with
  | nil => simp [cellsAt] at h
  | cons b bs ih =>
    unfold cellsAt at h
    split at h
    · have := ih h; simp only [List.length_cons]; exact ⟨by omega, by omega, this.2.2⟩
    · rename_i hb
      rcases List.mem_cons.1 h with h | h
      · subst h; simp only [List.length_cons]; exact ⟨by omega, by omega, hb⟩
      · have := ih h; simp only [List.length_cons]; exact ⟨by omega, by omega, this.2.2⟩

theorem cellsAt_rising (a : Nat) (bs : List Byte) : Table.rising (cellsAt a bs) = true := by
  induction bs generalizing a with
  | nil => rfl
  | cons b bs ih =>
    unfold cellsAt
    split
    · exact ih _
    · exact Table.rising_of (ih _) fun e he => by have := cellsAt_mem he; omega

/-- Byte i of a byte string, read from its cells. -/
theorem memByte_cellsAt (a : Nat) (bs : List Byte) (i : Nat) : memByte (cellsAt a bs) (a + i) = bs.getD i 0 := by
  induction bs generalizing a i with
  | nil => simp [cellsAt, memByte]
  | cons b bs ih =>
    unfold cellsAt
    split
    · rename_i hb
      cases i with
      | zero =>
        subst hb
        have : Table.find? a (cellsAt (a + 1) bs) = none :=
          Table.find?_none_of fun e he => by have := cellsAt_mem he; omega
        simp [memByte, this]
      | succ i => have := ih (a + 1) i; rw [show a + (i + 1) = a + 1 + i by omega, this]; simp
    · cases i with
      | zero => simp [memByte, Table.find?]
      | succ i =>
        have := ih (a + 1) i
        unfold memByte at this ⊢
        simp only [Table.find?]
        rw [if_neg (by omega), if_neg (by omega), show a + (i + 1) = a + 1 + i by omega, this]
        simp

theorem memWrite_rising {m : List Host.Cell} (h : Table.rising m = true) (a : Nat) (bs : List Byte) :
    Table.rising (memWrite m a bs) = true := by
  unfold memWrite
  refine Table.rising_append (Table.rising_append (Table.rising_filter _ h) (cellsAt_rising _ _) ?_) (Table.rising_filter _ h) ?_
  · intro x hx y hy
    have hx := (List.mem_filter.1 hx).2
    have hy := cellsAt_mem hy
    simp only [decide_eq_true_eq] at hx
    omega
  · intro x hx y hy
    have hy := (List.mem_filter.1 hy).2
    simp only [decide_eq_true_eq] at hy
    rcases List.mem_append.1 hx with hx | hx
    · have hx := (List.mem_filter.1 hx).2
      simp only [decide_eq_true_eq] at hx
      omega
    · have hx := cellsAt_mem hx
      omega

/-- A write keeps the canonical form. -/
theorem memWrite_wf {m : List Host.Cell} (h : Memory.wf m = true) (a : Nat) (bs : List Byte) :
    Memory.wf (memWrite m a bs) = true := by
  rw [Memory.wf_iff] at h ⊢
  refine ⟨memWrite_rising h.1 a bs, ?_⟩
  intro c hc
  unfold memWrite at hc
  rcases List.mem_append.1 hc with hc | hc
  · rcases List.mem_append.1 hc with hc | hc
    · exact h.2 c (List.mem_filter.1 hc).1
    · exact (cellsAt_mem hc).2.2
  · exact h.2 c (List.mem_filter.1 hc).1

/-- Every byte after a write: what was written, or what stood there. -/
theorem memByte_memWrite {m : List Host.Cell} (h : Table.rising m = true) (a : Nat) (bs : List Byte) (x : Nat) :
    memByte (memWrite m a bs) x = if a ≤ x ∧ x < a + bs.length then bs.getD (x - a) 0 else memByte m x := by
  have hr := memWrite_rising h a bs
  unfold memWrite at hr
  unfold memByte memWrite
  rw [Table.find?_append hr, Table.find?_append (Table.rising_left hr)]
  by_cases hx : a ≤ x ∧ x < a + bs.length
  · rw [if_pos hx]
    have h1 : Table.find? x (m.filter fun c => decide (c.1 < a)) = none :=
      Table.find?_none_of fun e he => by have := (List.mem_filter.1 he).2; simp only [decide_eq_true_eq] at this; omega
    have h2 : Table.find? x (m.filter fun c => decide (a + bs.length ≤ c.1)) = none :=
      Table.find?_none_of fun e he => by have := (List.mem_filter.1 he).2; simp only [decide_eq_true_eq] at this; omega
    have h3 := memByte_cellsAt a bs (x - a)
    rw [show a + (x - a) = x by omega] at h3
    rw [h1, h2]
    simpa [memByte] using h3
  · rw [if_neg hx]
    have h3 : Table.find? x (cellsAt a bs) = none := Table.find?_none_of fun e he => by have := cellsAt_mem he; omega
    rw [h3]
    by_cases hlt : x < a
    · have h1 := Table.find?_filter h (fun c => decide (c.1 < a)) x (by simp [hlt])
      have h2 : Table.find? x (m.filter fun c => decide (a + bs.length ≤ c.1)) = none :=
        Table.find?_none_of fun e he => by have := (List.mem_filter.1 he).2; simp only [decide_eq_true_eq] at this; omega
      rw [h1, h2]; simp
    · have h1 : Table.find? x (m.filter fun c => decide (c.1 < a)) = none :=
        Table.find?_none_of fun e he => by have := (List.mem_filter.1 he).2; simp only [decide_eq_true_eq] at this; omega
      have h2 := Table.find?_filter h (fun c => decide (a + bs.length ≤ c.1)) x (by simp; omega)
      rw [h1, h2]; simp

/-- Reading n bytes is reading each. -/
theorem memRead_eq {m : List Host.Cell} (h : Table.rising m = true) (a n : Nat) :
    memRead m a n = (List.range n).map fun i => memByte m (a + i) := by
  unfold memRead
  refine List.map_congr_left fun i hi => ?_
  have hi := List.mem_range.1 hi
  unfold memByte
  rw [Table.find?_filter h]
  intro v
  simp; omega

/-- What was written is read back. -/
theorem memRead_memWrite {m : List Host.Cell} (h : Table.rising m = true) (a : Nat) (bs : List Byte) :
    memRead (memWrite m a bs) a bs.length = bs := by
  rw [memRead_eq (memWrite_rising h a bs)]
  refine List.ext_getElem (by simp) fun i h1 h2 => ?_
  simp only [List.length_map, List.length_range] at h1
  simp only [List.getElem_map, List.getElem_range, memByte_memWrite h]
  rw [if_pos (by omega), show a + i - a = i by omega]
  simp [h1]

/-- The one operation that writes memory keeps the form. -/
theorem State.physWrite_memOk {s : State} (h : Safety.memOk s) (pa : Nat) (bs : List Byte) : Safety.memOk (s.physWrite pa bs) := by
  unfold State.physWrite
  split
  · exact ⟨memWrite_wf h.1 _ _, h.2⟩
  · exact ⟨h.1, memWrite_wf h.2 _ _⟩

end Sys2Proof.Machine
end

