-- ==== Sys2Proof/Laws/State.lean ====
section
/-! SUPPORT. Laws/State.lean: the named updates of State, field by field: what each leaves alone, and what reads back
what it wrote. -/
namespace Sys2Proof.Machine
namespace State
variable (s : State)
/-! `setReg` -/
@[simp] theorem setReg_pending (i u v : Nat) : (s.setReg i u v).pending = s.pending := rfl
@[simp] theorem setReg_free (i u v : Nat) : (s.setReg i u v).free = s.free := rfl
@[simp] theorem setReg_clk (i u v : Nat) : (s.setReg i u v).clk = s.clk := rfl
@[simp] theorem setReg_pins (i u v : Nat) : (s.setReg i u v).pins = s.pins := rfl
@[simp] theorem setReg_fuses (i u v : Nat) : (s.setReg i u v).fuses = s.fuses := rfl
@[simp] theorem setReg_fw (i u v : Nat) : (s.setReg i u v).fw = s.fw := rfl
@[simp] theorem setReg_bell (i u v : Nat) : (s.setReg i u v).bell = s.bell := rfl
@[simp] theorem setReg_devMem (i u v : Nat) : (s.setReg i u v).devMem = s.devMem := rfl
@[simp] theorem setReg_hostMem (i u v : Nat) : (s.setReg i u v).hostMem = s.hostMem := rfl
@[simp] theorem setReg_poisoned (i u v : Nat) : (s.setReg i u v).poisoned = s.poisoned := rfl
@[simp] theorem setReg_threshers (i u v : Nat) : (s.setReg i u v).threshers = s.threshers := rfl
@[simp] theorem setReg_loft (i u v : Nat) : (s.setReg i u v).loft = s.loft := rfl
@[simp] theorem setReg_granary (i u v : Nat) : (s.setReg i u v).granary = s.granary := rfl
@[simp] theorem setReg_mills (i u v : Nat) : (s.setReg i u v).mills = s.mills := rfl
@[simp] theorem setReg_queues (i u v : Nat) : (s.setReg i u v).queues = s.queues := rfl
@[simp] theorem setReg_cursors (i u v : Nat) : (s.setReg i u v).cursors = s.cursors := rfl
@[simp] theorem setReg_waiting (i u v : Nat) : (s.setReg i u v).waiting = s.waiting := rfl
@[simp] theorem setReg_cmds (i u v : Nat) : (s.setReg i u v).cmds = s.cmds := rfl
@[simp] theorem setReg_trans (i u v : Nat) : (s.setReg i u v).trans = s.trans := rfl
@[simp] theorem setReg_bruora (i u v : Nat) : (s.setReg i u v).bruora = s.bruora := rfl
@[simp] theorem setReg_integ (i u v : Nat) : (s.setReg i u v).integ = s.integ := rfl
@[simp] theorem setReg_obs (i u v : Nat) : (s.setReg i u v).obs = s.obs := rfl
@[simp] theorem setReg_barn (i u v : Nat) : (s.setReg i u v).barn = s.barn := rfl
@[simp] theorem setReg_outbox (i u v : Nat) : (s.setReg i u v).outbox = s.outbox := rfl
@[simp] theorem setReg_issued (i u v : Nat) : (s.setReg i u v).issued = s.issued := rfl

/-! `send` -/
@[simp] theorem send_pending (o : Out) : (s.send o).pending = s.pending := rfl
@[simp] theorem send_free (o : Out) : (s.send o).free = s.free := rfl
@[simp] theorem send_clk (o : Out) : (s.send o).clk = s.clk := rfl
@[simp] theorem send_pins (o : Out) : (s.send o).pins = s.pins := rfl
@[simp] theorem send_fuses (o : Out) : (s.send o).fuses = s.fuses := rfl
@[simp] theorem send_fw (o : Out) : (s.send o).fw = s.fw := rfl
@[simp] theorem send_bell (o : Out) : (s.send o).bell = s.bell := rfl
@[simp] theorem send_devMem (o : Out) : (s.send o).devMem = s.devMem := rfl
@[simp] theorem send_hostMem (o : Out) : (s.send o).hostMem = s.hostMem := rfl
@[simp] theorem send_poisoned (o : Out) : (s.send o).poisoned = s.poisoned := rfl
@[simp] theorem send_threshers (o : Out) : (s.send o).threshers = s.threshers := rfl
@[simp] theorem send_loft (o : Out) : (s.send o).loft = s.loft := rfl
@[simp] theorem send_granary (o : Out) : (s.send o).granary = s.granary := rfl
@[simp] theorem send_mills (o : Out) : (s.send o).mills = s.mills := rfl
@[simp] theorem send_queues (o : Out) : (s.send o).queues = s.queues := rfl
@[simp] theorem send_cursors (o : Out) : (s.send o).cursors = s.cursors := rfl
@[simp] theorem send_waiting (o : Out) : (s.send o).waiting = s.waiting := rfl
@[simp] theorem send_cmds (o : Out) : (s.send o).cmds = s.cmds := rfl
@[simp] theorem send_trans (o : Out) : (s.send o).trans = s.trans := rfl
@[simp] theorem send_bruora (o : Out) : (s.send o).bruora = s.bruora := rfl
@[simp] theorem send_dict (o : Out) : (s.send o).dict = s.dict := rfl
@[simp] theorem send_integ (o : Out) : (s.send o).integ = s.integ := rfl
@[simp] theorem send_obs (o : Out) : (s.send o).obs = s.obs := rfl
@[simp] theorem send_barn (o : Out) : (s.send o).barn = s.barn := rfl
@[simp] theorem send_issued (o : Out) : (s.send o).issued = s.issued := rfl

/-! `notify` -/
@[simp] theorem notify_pending (k v : Nat) : (s.notify k v).pending = s.pending := rfl
@[simp] theorem notify_free (k v : Nat) : (s.notify k v).free = s.free := rfl
@[simp] theorem notify_clk (k v : Nat) : (s.notify k v).clk = s.clk := rfl
@[simp] theorem notify_pins (k v : Nat) : (s.notify k v).pins = s.pins := rfl
@[simp] theorem notify_fuses (k v : Nat) : (s.notify k v).fuses = s.fuses := rfl
@[simp] theorem notify_fw (k v : Nat) : (s.notify k v).fw = s.fw := rfl
@[simp] theorem notify_bell (k v : Nat) : (s.notify k v).bell = s.bell := rfl
@[simp] theorem notify_devMem (k v : Nat) : (s.notify k v).devMem = s.devMem := rfl
@[simp] theorem notify_hostMem (k v : Nat) : (s.notify k v).hostMem = s.hostMem := rfl
@[simp] theorem notify_poisoned (k v : Nat) : (s.notify k v).poisoned = s.poisoned := rfl
@[simp] theorem notify_threshers (k v : Nat) : (s.notify k v).threshers = s.threshers := rfl
@[simp] theorem notify_loft (k v : Nat) : (s.notify k v).loft = s.loft := rfl
@[simp] theorem notify_granary (k v : Nat) : (s.notify k v).granary = s.granary := rfl
@[simp] theorem notify_mills (k v : Nat) : (s.notify k v).mills = s.mills := rfl
@[simp] theorem notify_queues (k v : Nat) : (s.notify k v).queues = s.queues := rfl
@[simp] theorem notify_cursors (k v : Nat) : (s.notify k v).cursors = s.cursors := rfl
@[simp] theorem notify_waiting (k v : Nat) : (s.notify k v).waiting = s.waiting := rfl
@[simp] theorem notify_cmds (k v : Nat) : (s.notify k v).cmds = s.cmds := rfl
@[simp] theorem notify_trans (k v : Nat) : (s.notify k v).trans = s.trans := rfl
@[simp] theorem notify_bruora (k v : Nat) : (s.notify k v).bruora = s.bruora := rfl
@[simp] theorem notify_dict (k v : Nat) : (s.notify k v).dict = s.dict := rfl
@[simp] theorem notify_integ (k v : Nat) : (s.notify k v).integ = s.integ := rfl
@[simp] theorem notify_obs (k v : Nat) : (s.notify k v).obs = s.obs := rfl
@[simp] theorem notify_barn (k v : Nat) : (s.notify k v).barn = s.barn := rfl
@[simp] theorem notify_issued (k v : Nat) : (s.notify k v).issued = s.issued := rfl

/-! `setVector` -/
@[simp] theorem setVector_pending (v : Nat) (e : IrqVector) : (s.setVector v e).pending = s.pending := rfl
@[simp] theorem setVector_free (v : Nat) (e : IrqVector) : (s.setVector v e).free = s.free := rfl
@[simp] theorem setVector_clk (v : Nat) (e : IrqVector) : (s.setVector v e).clk = s.clk := rfl
@[simp] theorem setVector_pins (v : Nat) (e : IrqVector) : (s.setVector v e).pins = s.pins := rfl
@[simp] theorem setVector_fuses (v : Nat) (e : IrqVector) : (s.setVector v e).fuses = s.fuses := rfl
@[simp] theorem setVector_fw (v : Nat) (e : IrqVector) : (s.setVector v e).fw = s.fw := rfl
@[simp] theorem setVector_bell (v : Nat) (e : IrqVector) : (s.setVector v e).bell = s.bell := rfl
@[simp] theorem setVector_devMem (v : Nat) (e : IrqVector) : (s.setVector v e).devMem = s.devMem := rfl
@[simp] theorem setVector_hostMem (v : Nat) (e : IrqVector) : (s.setVector v e).hostMem = s.hostMem := rfl
@[simp] theorem setVector_poisoned (v : Nat) (e : IrqVector) : (s.setVector v e).poisoned = s.poisoned := rfl
@[simp] theorem setVector_threshers (v : Nat) (e : IrqVector) : (s.setVector v e).threshers = s.threshers := rfl
@[simp] theorem setVector_loft (v : Nat) (e : IrqVector) : (s.setVector v e).loft = s.loft := rfl
@[simp] theorem setVector_granary (v : Nat) (e : IrqVector) : (s.setVector v e).granary = s.granary := rfl
@[simp] theorem setVector_mills (v : Nat) (e : IrqVector) : (s.setVector v e).mills = s.mills := rfl
@[simp] theorem setVector_queues (v : Nat) (e : IrqVector) : (s.setVector v e).queues = s.queues := rfl
@[simp] theorem setVector_cursors (v : Nat) (e : IrqVector) : (s.setVector v e).cursors = s.cursors := rfl
@[simp] theorem setVector_waiting (v : Nat) (e : IrqVector) : (s.setVector v e).waiting = s.waiting := rfl
@[simp] theorem setVector_cmds (v : Nat) (e : IrqVector) : (s.setVector v e).cmds = s.cmds := rfl
@[simp] theorem setVector_trans (v : Nat) (e : IrqVector) : (s.setVector v e).trans = s.trans := rfl
@[simp] theorem setVector_bruora (v : Nat) (e : IrqVector) : (s.setVector v e).bruora = s.bruora := rfl
@[simp] theorem setVector_integ (v : Nat) (e : IrqVector) : (s.setVector v e).integ = s.integ := rfl
@[simp] theorem setVector_obs (v : Nat) (e : IrqVector) : (s.setVector v e).obs = s.obs := rfl
@[simp] theorem setVector_barn (v : Nat) (e : IrqVector) : (s.setVector v e).barn = s.barn := rfl
@[simp] theorem setVector_outbox (v : Nat) (e : IrqVector) : (s.setVector v e).outbox = s.outbox := rfl
@[simp] theorem setVector_issued (v : Nat) (e : IrqVector) : (s.setVector v e).issued = s.issued := rfl

/-! `setDaybook` -/
@[simp] theorem setDaybook_pending (die : Nat) (b : DaybookBuffer) : (s.setDaybook die b).pending = s.pending := rfl
@[simp] theorem setDaybook_free (die : Nat) (b : DaybookBuffer) : (s.setDaybook die b).free = s.free := rfl
@[simp] theorem setDaybook_clk (die : Nat) (b : DaybookBuffer) : (s.setDaybook die b).clk = s.clk := rfl
@[simp] theorem setDaybook_pins (die : Nat) (b : DaybookBuffer) : (s.setDaybook die b).pins = s.pins := rfl
@[simp] theorem setDaybook_fuses (die : Nat) (b : DaybookBuffer) : (s.setDaybook die b).fuses = s.fuses := rfl
@[simp] theorem setDaybook_fw (die : Nat) (b : DaybookBuffer) : (s.setDaybook die b).fw = s.fw := rfl
@[simp] theorem setDaybook_bell (die : Nat) (b : DaybookBuffer) : (s.setDaybook die b).bell = s.bell := rfl
@[simp] theorem setDaybook_devMem (die : Nat) (b : DaybookBuffer) : (s.setDaybook die b).devMem = s.devMem := rfl
@[simp] theorem setDaybook_hostMem (die : Nat) (b : DaybookBuffer) : (s.setDaybook die b).hostMem = s.hostMem := rfl
@[simp] theorem setDaybook_poisoned (die : Nat) (b : DaybookBuffer) : (s.setDaybook die b).poisoned = s.poisoned := rfl
@[simp] theorem setDaybook_threshers (die : Nat) (b : DaybookBuffer) : (s.setDaybook die b).threshers = s.threshers := rfl
@[simp] theorem setDaybook_loft (die : Nat) (b : DaybookBuffer) : (s.setDaybook die b).loft = s.loft := rfl
@[simp] theorem setDaybook_granary (die : Nat) (b : DaybookBuffer) : (s.setDaybook die b).granary = s.granary := rfl
@[simp] theorem setDaybook_mills (die : Nat) (b : DaybookBuffer) : (s.setDaybook die b).mills = s.mills := rfl
@[simp] theorem setDaybook_queues (die : Nat) (b : DaybookBuffer) : (s.setDaybook die b).queues = s.queues := rfl
@[simp] theorem setDaybook_cursors (die : Nat) (b : DaybookBuffer) : (s.setDaybook die b).cursors = s.cursors := rfl
@[simp] theorem setDaybook_waiting (die : Nat) (b : DaybookBuffer) : (s.setDaybook die b).waiting = s.waiting := rfl
@[simp] theorem setDaybook_cmds (die : Nat) (b : DaybookBuffer) : (s.setDaybook die b).cmds = s.cmds := rfl
@[simp] theorem setDaybook_trans (die : Nat) (b : DaybookBuffer) : (s.setDaybook die b).trans = s.trans := rfl
@[simp] theorem setDaybook_bruora (die : Nat) (b : DaybookBuffer) : (s.setDaybook die b).bruora = s.bruora := rfl
@[simp] theorem setDaybook_dict (die : Nat) (b : DaybookBuffer) : (s.setDaybook die b).dict = s.dict := rfl
@[simp] theorem setDaybook_integ (die : Nat) (b : DaybookBuffer) : (s.setDaybook die b).integ = s.integ := rfl
@[simp] theorem setDaybook_barn (die : Nat) (b : DaybookBuffer) : (s.setDaybook die b).barn = s.barn := rfl
@[simp] theorem setDaybook_outbox (die : Nat) (b : DaybookBuffer) : (s.setDaybook die b).outbox = s.outbox := rfl
@[simp] theorem setDaybook_issued (die : Nat) (b : DaybookBuffer) : (s.setDaybook die b).issued = s.issued := rfl

/-! `setQueue` -/
@[simp] theorem setQueue_pending (q : Nat) (r : Queue) : (s.setQueue q r).pending = s.pending := rfl
@[simp] theorem setQueue_free (q : Nat) (r : Queue) : (s.setQueue q r).free = s.free := rfl
@[simp] theorem setQueue_clk (q : Nat) (r : Queue) : (s.setQueue q r).clk = s.clk := rfl
@[simp] theorem setQueue_pins (q : Nat) (r : Queue) : (s.setQueue q r).pins = s.pins := rfl
@[simp] theorem setQueue_fuses (q : Nat) (r : Queue) : (s.setQueue q r).fuses = s.fuses := rfl
@[simp] theorem setQueue_fw (q : Nat) (r : Queue) : (s.setQueue q r).fw = s.fw := rfl
@[simp] theorem setQueue_bell (q : Nat) (r : Queue) : (s.setQueue q r).bell = s.bell := rfl
@[simp] theorem setQueue_devMem (q : Nat) (r : Queue) : (s.setQueue q r).devMem = s.devMem := rfl
@[simp] theorem setQueue_hostMem (q : Nat) (r : Queue) : (s.setQueue q r).hostMem = s.hostMem := rfl
@[simp] theorem setQueue_poisoned (q : Nat) (r : Queue) : (s.setQueue q r).poisoned = s.poisoned := rfl
@[simp] theorem setQueue_threshers (q : Nat) (r : Queue) : (s.setQueue q r).threshers = s.threshers := rfl
@[simp] theorem setQueue_loft (q : Nat) (r : Queue) : (s.setQueue q r).loft = s.loft := rfl
@[simp] theorem setQueue_granary (q : Nat) (r : Queue) : (s.setQueue q r).granary = s.granary := rfl
@[simp] theorem setQueue_mills (q : Nat) (r : Queue) : (s.setQueue q r).mills = s.mills := rfl
@[simp] theorem setQueue_cursors (q : Nat) (r : Queue) : (s.setQueue q r).cursors = s.cursors := rfl
@[simp] theorem setQueue_waiting (q : Nat) (r : Queue) : (s.setQueue q r).waiting = s.waiting := rfl
@[simp] theorem setQueue_cmds (q : Nat) (r : Queue) : (s.setQueue q r).cmds = s.cmds := rfl
@[simp] theorem setQueue_trans (q : Nat) (r : Queue) : (s.setQueue q r).trans = s.trans := rfl
@[simp] theorem setQueue_bruora (q : Nat) (r : Queue) : (s.setQueue q r).bruora = s.bruora := rfl
@[simp] theorem setQueue_dict (q : Nat) (r : Queue) : (s.setQueue q r).dict = s.dict := rfl
@[simp] theorem setQueue_integ (q : Nat) (r : Queue) : (s.setQueue q r).integ = s.integ := rfl
@[simp] theorem setQueue_obs (q : Nat) (r : Queue) : (s.setQueue q r).obs = s.obs := rfl
@[simp] theorem setQueue_barn (q : Nat) (r : Queue) : (s.setQueue q r).barn = s.barn := rfl
@[simp] theorem setQueue_outbox (q : Nat) (r : Queue) : (s.setQueue q r).outbox = s.outbox := rfl
@[simp] theorem setQueue_issued (q : Nat) (r : Queue) : (s.setQueue q r).issued = s.issued := rfl

/-! `setCmd` -/
@[simp] theorem setCmd_pending (c : Cmd) : (s.setCmd c).pending = s.pending := rfl
@[simp] theorem setCmd_free (c : Cmd) : (s.setCmd c).free = s.free := rfl
@[simp] theorem setCmd_clk (c : Cmd) : (s.setCmd c).clk = s.clk := rfl
@[simp] theorem setCmd_pins (c : Cmd) : (s.setCmd c).pins = s.pins := rfl
@[simp] theorem setCmd_fuses (c : Cmd) : (s.setCmd c).fuses = s.fuses := rfl
@[simp] theorem setCmd_fw (c : Cmd) : (s.setCmd c).fw = s.fw := rfl
@[simp] theorem setCmd_bell (c : Cmd) : (s.setCmd c).bell = s.bell := rfl
@[simp] theorem setCmd_devMem (c : Cmd) : (s.setCmd c).devMem = s.devMem := rfl
@[simp] theorem setCmd_hostMem (c : Cmd) : (s.setCmd c).hostMem = s.hostMem := rfl
@[simp] theorem setCmd_poisoned (c : Cmd) : (s.setCmd c).poisoned = s.poisoned := rfl
@[simp] theorem setCmd_threshers (c : Cmd) : (s.setCmd c).threshers = s.threshers := rfl
@[simp] theorem setCmd_loft (c : Cmd) : (s.setCmd c).loft = s.loft := rfl
@[simp] theorem setCmd_granary (c : Cmd) : (s.setCmd c).granary = s.granary := rfl
@[simp] theorem setCmd_mills (c : Cmd) : (s.setCmd c).mills = s.mills := rfl
@[simp] theorem setCmd_queues (c : Cmd) : (s.setCmd c).queues = s.queues := rfl
@[simp] theorem setCmd_cursors (c : Cmd) : (s.setCmd c).cursors = s.cursors := rfl
@[simp] theorem setCmd_waiting (c : Cmd) : (s.setCmd c).waiting = s.waiting := rfl
@[simp] theorem setCmd_trans (c : Cmd) : (s.setCmd c).trans = s.trans := rfl
@[simp] theorem setCmd_bruora (c : Cmd) : (s.setCmd c).bruora = s.bruora := rfl
@[simp] theorem setCmd_dict (c : Cmd) : (s.setCmd c).dict = s.dict := rfl
@[simp] theorem setCmd_integ (c : Cmd) : (s.setCmd c).integ = s.integ := rfl
@[simp] theorem setCmd_obs (c : Cmd) : (s.setCmd c).obs = s.obs := rfl
@[simp] theorem setCmd_barn (c : Cmd) : (s.setCmd c).barn = s.barn := rfl
@[simp] theorem setCmd_outbox (c : Cmd) : (s.setCmd c).outbox = s.outbox := rfl
@[simp] theorem setCmd_issued (c : Cmd) : (s.setCmd c).issued = s.issued := rfl

/-! `dropCmd` -/
@[simp] theorem dropCmd_pending (q i : Nat) : (s.dropCmd q i).pending = s.pending := rfl
@[simp] theorem dropCmd_free (q i : Nat) : (s.dropCmd q i).free = s.free := rfl
@[simp] theorem dropCmd_clk (q i : Nat) : (s.dropCmd q i).clk = s.clk := rfl
@[simp] theorem dropCmd_pins (q i : Nat) : (s.dropCmd q i).pins = s.pins := rfl
@[simp] theorem dropCmd_fuses (q i : Nat) : (s.dropCmd q i).fuses = s.fuses := rfl
@[simp] theorem dropCmd_fw (q i : Nat) : (s.dropCmd q i).fw = s.fw := rfl
@[simp] theorem dropCmd_bell (q i : Nat) : (s.dropCmd q i).bell = s.bell := rfl
@[simp] theorem dropCmd_devMem (q i : Nat) : (s.dropCmd q i).devMem = s.devMem := rfl
@[simp] theorem dropCmd_hostMem (q i : Nat) : (s.dropCmd q i).hostMem = s.hostMem := rfl
@[simp] theorem dropCmd_poisoned (q i : Nat) : (s.dropCmd q i).poisoned = s.poisoned := rfl
@[simp] theorem dropCmd_threshers (q i : Nat) : (s.dropCmd q i).threshers = s.threshers := rfl
@[simp] theorem dropCmd_loft (q i : Nat) : (s.dropCmd q i).loft = s.loft := rfl
@[simp] theorem dropCmd_granary (q i : Nat) : (s.dropCmd q i).granary = s.granary := rfl
@[simp] theorem dropCmd_mills (q i : Nat) : (s.dropCmd q i).mills = s.mills := rfl
@[simp] theorem dropCmd_queues (q i : Nat) : (s.dropCmd q i).queues = s.queues := rfl
@[simp] theorem dropCmd_cursors (q i : Nat) : (s.dropCmd q i).cursors = s.cursors := rfl
@[simp] theorem dropCmd_waiting (q i : Nat) : (s.dropCmd q i).waiting = s.waiting := rfl
@[simp] theorem dropCmd_trans (q i : Nat) : (s.dropCmd q i).trans = s.trans := rfl
@[simp] theorem dropCmd_bruora (q i : Nat) : (s.dropCmd q i).bruora = s.bruora := rfl
@[simp] theorem dropCmd_dict (q i : Nat) : (s.dropCmd q i).dict = s.dict := rfl
@[simp] theorem dropCmd_integ (q i : Nat) : (s.dropCmd q i).integ = s.integ := rfl
@[simp] theorem dropCmd_obs (q i : Nat) : (s.dropCmd q i).obs = s.obs := rfl
@[simp] theorem dropCmd_barn (q i : Nat) : (s.dropCmd q i).barn = s.barn := rfl
@[simp] theorem dropCmd_outbox (q i : Nat) : (s.dropCmd q i).outbox = s.outbox := rfl
@[simp] theorem dropCmd_issued (q i : Nat) : (s.dropCmd q i).issued = s.issued := rfl

/-! `setLedger` -/
@[simp] theorem setLedger_pending (die : Nat) (l : Ledger) : (s.setLedger die l).pending = s.pending := rfl
@[simp] theorem setLedger_free (die : Nat) (l : Ledger) : (s.setLedger die l).free = s.free := rfl
@[simp] theorem setLedger_clk (die : Nat) (l : Ledger) : (s.setLedger die l).clk = s.clk := rfl
@[simp] theorem setLedger_pins (die : Nat) (l : Ledger) : (s.setLedger die l).pins = s.pins := rfl
@[simp] theorem setLedger_fuses (die : Nat) (l : Ledger) : (s.setLedger die l).fuses = s.fuses := rfl
@[simp] theorem setLedger_fw (die : Nat) (l : Ledger) : (s.setLedger die l).fw = s.fw := rfl
@[simp] theorem setLedger_bell (die : Nat) (l : Ledger) : (s.setLedger die l).bell = s.bell := rfl
@[simp] theorem setLedger_devMem (die : Nat) (l : Ledger) : (s.setLedger die l).devMem = s.devMem := rfl
@[simp] theorem setLedger_hostMem (die : Nat) (l : Ledger) : (s.setLedger die l).hostMem = s.hostMem := rfl
@[simp] theorem setLedger_poisoned (die : Nat) (l : Ledger) : (s.setLedger die l).poisoned = s.poisoned := rfl
@[simp] theorem setLedger_threshers (die : Nat) (l : Ledger) : (s.setLedger die l).threshers = s.threshers := rfl
@[simp] theorem setLedger_loft (die : Nat) (l : Ledger) : (s.setLedger die l).loft = s.loft := rfl
@[simp] theorem setLedger_granary (die : Nat) (l : Ledger) : (s.setLedger die l).granary = s.granary := rfl
@[simp] theorem setLedger_mills (die : Nat) (l : Ledger) : (s.setLedger die l).mills = s.mills := rfl
@[simp] theorem setLedger_queues (die : Nat) (l : Ledger) : (s.setLedger die l).queues = s.queues := rfl
@[simp] theorem setLedger_cursors (die : Nat) (l : Ledger) : (s.setLedger die l).cursors = s.cursors := rfl
@[simp] theorem setLedger_waiting (die : Nat) (l : Ledger) : (s.setLedger die l).waiting = s.waiting := rfl
@[simp] theorem setLedger_cmds (die : Nat) (l : Ledger) : (s.setLedger die l).cmds = s.cmds := rfl
@[simp] theorem setLedger_trans (die : Nat) (l : Ledger) : (s.setLedger die l).trans = s.trans := rfl
@[simp] theorem setLedger_bruora (die : Nat) (l : Ledger) : (s.setLedger die l).bruora = s.bruora := rfl
@[simp] theorem setLedger_dict (die : Nat) (l : Ledger) : (s.setLedger die l).dict = s.dict := rfl
@[simp] theorem setLedger_obs (die : Nat) (l : Ledger) : (s.setLedger die l).obs = s.obs := rfl
@[simp] theorem setLedger_barn (die : Nat) (l : Ledger) : (s.setLedger die l).barn = s.barn := rfl
@[simp] theorem setLedger_outbox (die : Nat) (l : Ledger) : (s.setLedger die l).outbox = s.outbox := rfl
@[simp] theorem setLedger_issued (die : Nat) (l : Ledger) : (s.setLedger die l).issued = s.issued := rfl

/-! `setRow` -/
@[simp] theorem setRow_pending (k : Nat) (r : LoftRow) : (s.setRow k r).pending = s.pending := rfl
@[simp] theorem setRow_free (k : Nat) (r : LoftRow) : (s.setRow k r).free = s.free := rfl
@[simp] theorem setRow_clk (k : Nat) (r : LoftRow) : (s.setRow k r).clk = s.clk := rfl
@[simp] theorem setRow_pins (k : Nat) (r : LoftRow) : (s.setRow k r).pins = s.pins := rfl
@[simp] theorem setRow_fuses (k : Nat) (r : LoftRow) : (s.setRow k r).fuses = s.fuses := rfl
@[simp] theorem setRow_fw (k : Nat) (r : LoftRow) : (s.setRow k r).fw = s.fw := rfl
@[simp] theorem setRow_bell (k : Nat) (r : LoftRow) : (s.setRow k r).bell = s.bell := rfl
@[simp] theorem setRow_devMem (k : Nat) (r : LoftRow) : (s.setRow k r).devMem = s.devMem := rfl
@[simp] theorem setRow_hostMem (k : Nat) (r : LoftRow) : (s.setRow k r).hostMem = s.hostMem := rfl
@[simp] theorem setRow_poisoned (k : Nat) (r : LoftRow) : (s.setRow k r).poisoned = s.poisoned := rfl
@[simp] theorem setRow_threshers (k : Nat) (r : LoftRow) : (s.setRow k r).threshers = s.threshers := rfl
@[simp] theorem setRow_granary (k : Nat) (r : LoftRow) : (s.setRow k r).granary = s.granary := rfl
@[simp] theorem setRow_mills (k : Nat) (r : LoftRow) : (s.setRow k r).mills = s.mills := rfl
@[simp] theorem setRow_queues (k : Nat) (r : LoftRow) : (s.setRow k r).queues = s.queues := rfl
@[simp] theorem setRow_cursors (k : Nat) (r : LoftRow) : (s.setRow k r).cursors = s.cursors := rfl
@[simp] theorem setRow_waiting (k : Nat) (r : LoftRow) : (s.setRow k r).waiting = s.waiting := rfl
@[simp] theorem setRow_cmds (k : Nat) (r : LoftRow) : (s.setRow k r).cmds = s.cmds := rfl
@[simp] theorem setRow_trans (k : Nat) (r : LoftRow) : (s.setRow k r).trans = s.trans := rfl
@[simp] theorem setRow_bruora (k : Nat) (r : LoftRow) : (s.setRow k r).bruora = s.bruora := rfl
@[simp] theorem setRow_dict (k : Nat) (r : LoftRow) : (s.setRow k r).dict = s.dict := rfl
@[simp] theorem setRow_integ (k : Nat) (r : LoftRow) : (s.setRow k r).integ = s.integ := rfl
@[simp] theorem setRow_obs (k : Nat) (r : LoftRow) : (s.setRow k r).obs = s.obs := rfl
@[simp] theorem setRow_barn (k : Nat) (r : LoftRow) : (s.setRow k r).barn = s.barn := rfl
@[simp] theorem setRow_outbox (k : Nat) (r : LoftRow) : (s.setRow k r).outbox = s.outbox := rfl
@[simp] theorem setRow_issued (k : Nat) (r : LoftRow) : (s.setRow k r).issued = s.issued := rfl

/-! `setSem` -/
@[simp] theorem setSem_pending (k v : Nat) : (s.setSem k v).pending = s.pending := rfl
@[simp] theorem setSem_free (k v : Nat) : (s.setSem k v).free = s.free := rfl
@[simp] theorem setSem_clk (k v : Nat) : (s.setSem k v).clk = s.clk := rfl
@[simp] theorem setSem_pins (k v : Nat) : (s.setSem k v).pins = s.pins := rfl
@[simp] theorem setSem_fuses (k v : Nat) : (s.setSem k v).fuses = s.fuses := rfl
@[simp] theorem setSem_fw (k v : Nat) : (s.setSem k v).fw = s.fw := rfl
@[simp] theorem setSem_bell (k v : Nat) : (s.setSem k v).bell = s.bell := rfl
@[simp] theorem setSem_devMem (k v : Nat) : (s.setSem k v).devMem = s.devMem := rfl
@[simp] theorem setSem_hostMem (k v : Nat) : (s.setSem k v).hostMem = s.hostMem := rfl
@[simp] theorem setSem_poisoned (k v : Nat) : (s.setSem k v).poisoned = s.poisoned := rfl
@[simp] theorem setSem_threshers (k v : Nat) : (s.setSem k v).threshers = s.threshers := rfl
@[simp] theorem setSem_granary (k v : Nat) : (s.setSem k v).granary = s.granary := rfl
@[simp] theorem setSem_mills (k v : Nat) : (s.setSem k v).mills = s.mills := rfl
@[simp] theorem setSem_queues (k v : Nat) : (s.setSem k v).queues = s.queues := rfl
@[simp] theorem setSem_cursors (k v : Nat) : (s.setSem k v).cursors = s.cursors := rfl
@[simp] theorem setSem_waiting (k v : Nat) : (s.setSem k v).waiting = s.waiting := rfl
@[simp] theorem setSem_cmds (k v : Nat) : (s.setSem k v).cmds = s.cmds := rfl
@[simp] theorem setSem_trans (k v : Nat) : (s.setSem k v).trans = s.trans := rfl
@[simp] theorem setSem_bruora (k v : Nat) : (s.setSem k v).bruora = s.bruora := rfl
@[simp] theorem setSem_dict (k v : Nat) : (s.setSem k v).dict = s.dict := rfl
@[simp] theorem setSem_integ (k v : Nat) : (s.setSem k v).integ = s.integ := rfl
@[simp] theorem setSem_obs (k v : Nat) : (s.setSem k v).obs = s.obs := rfl
@[simp] theorem setSem_barn (k v : Nat) : (s.setSem k v).barn = s.barn := rfl
@[simp] theorem setSem_outbox (k v : Nat) : (s.setSem k v).outbox = s.outbox := rfl
@[simp] theorem setSem_issued (k v : Nat) : (s.setSem k v).issued = s.issued := rfl

/-! `setCtr` -/
@[simp] theorem setCtr_pending (k v : Nat) : (s.setCtr k v).pending = s.pending := rfl
@[simp] theorem setCtr_free (k v : Nat) : (s.setCtr k v).free = s.free := rfl
@[simp] theorem setCtr_clk (k v : Nat) : (s.setCtr k v).clk = s.clk := rfl
@[simp] theorem setCtr_pins (k v : Nat) : (s.setCtr k v).pins = s.pins := rfl
@[simp] theorem setCtr_fuses (k v : Nat) : (s.setCtr k v).fuses = s.fuses := rfl
@[simp] theorem setCtr_fw (k v : Nat) : (s.setCtr k v).fw = s.fw := rfl
@[simp] theorem setCtr_bell (k v : Nat) : (s.setCtr k v).bell = s.bell := rfl
@[simp] theorem setCtr_devMem (k v : Nat) : (s.setCtr k v).devMem = s.devMem := rfl
@[simp] theorem setCtr_hostMem (k v : Nat) : (s.setCtr k v).hostMem = s.hostMem := rfl
@[simp] theorem setCtr_poisoned (k v : Nat) : (s.setCtr k v).poisoned = s.poisoned := rfl
@[simp] theorem setCtr_threshers (k v : Nat) : (s.setCtr k v).threshers = s.threshers := rfl
@[simp] theorem setCtr_granary (k v : Nat) : (s.setCtr k v).granary = s.granary := rfl
@[simp] theorem setCtr_mills (k v : Nat) : (s.setCtr k v).mills = s.mills := rfl
@[simp] theorem setCtr_queues (k v : Nat) : (s.setCtr k v).queues = s.queues := rfl
@[simp] theorem setCtr_cursors (k v : Nat) : (s.setCtr k v).cursors = s.cursors := rfl
@[simp] theorem setCtr_waiting (k v : Nat) : (s.setCtr k v).waiting = s.waiting := rfl
@[simp] theorem setCtr_cmds (k v : Nat) : (s.setCtr k v).cmds = s.cmds := rfl
@[simp] theorem setCtr_trans (k v : Nat) : (s.setCtr k v).trans = s.trans := rfl
@[simp] theorem setCtr_bruora (k v : Nat) : (s.setCtr k v).bruora = s.bruora := rfl
@[simp] theorem setCtr_dict (k v : Nat) : (s.setCtr k v).dict = s.dict := rfl
@[simp] theorem setCtr_integ (k v : Nat) : (s.setCtr k v).integ = s.integ := rfl
@[simp] theorem setCtr_obs (k v : Nat) : (s.setCtr k v).obs = s.obs := rfl
@[simp] theorem setCtr_barn (k v : Nat) : (s.setCtr k v).barn = s.barn := rfl
@[simp] theorem setCtr_outbox (k v : Nat) : (s.setCtr k v).outbox = s.outbox := rfl
@[simp] theorem setCtr_issued (k v : Nat) : (s.setCtr k v).issued = s.issued := rfl

/-! `setPart` -/
@[simp] theorem setPart_pending (r e : Nat) (p : Partition) : (s.setPart r e p).pending = s.pending := rfl
@[simp] theorem setPart_free (r e : Nat) (p : Partition) : (s.setPart r e p).free = s.free := rfl
@[simp] theorem setPart_clk (r e : Nat) (p : Partition) : (s.setPart r e p).clk = s.clk := rfl
@[simp] theorem setPart_pins (r e : Nat) (p : Partition) : (s.setPart r e p).pins = s.pins := rfl
@[simp] theorem setPart_fuses (r e : Nat) (p : Partition) : (s.setPart r e p).fuses = s.fuses := rfl
@[simp] theorem setPart_fw (r e : Nat) (p : Partition) : (s.setPart r e p).fw = s.fw := rfl
@[simp] theorem setPart_bell (r e : Nat) (p : Partition) : (s.setPart r e p).bell = s.bell := rfl
@[simp] theorem setPart_devMem (r e : Nat) (p : Partition) : (s.setPart r e p).devMem = s.devMem := rfl
@[simp] theorem setPart_hostMem (r e : Nat) (p : Partition) : (s.setPart r e p).hostMem = s.hostMem := rfl
@[simp] theorem setPart_poisoned (r e : Nat) (p : Partition) : (s.setPart r e p).poisoned = s.poisoned := rfl
@[simp] theorem setPart_threshers (r e : Nat) (p : Partition) : (s.setPart r e p).threshers = s.threshers := rfl
@[simp] theorem setPart_granary (r e : Nat) (p : Partition) : (s.setPart r e p).granary = s.granary := rfl
@[simp] theorem setPart_mills (r e : Nat) (p : Partition) : (s.setPart r e p).mills = s.mills := rfl
@[simp] theorem setPart_queues (r e : Nat) (p : Partition) : (s.setPart r e p).queues = s.queues := rfl
@[simp] theorem setPart_cursors (r e : Nat) (p : Partition) : (s.setPart r e p).cursors = s.cursors := rfl
@[simp] theorem setPart_waiting (r e : Nat) (p : Partition) : (s.setPart r e p).waiting = s.waiting := rfl
@[simp] theorem setPart_cmds (r e : Nat) (p : Partition) : (s.setPart r e p).cmds = s.cmds := rfl
@[simp] theorem setPart_trans (r e : Nat) (p : Partition) : (s.setPart r e p).trans = s.trans := rfl
@[simp] theorem setPart_bruora (r e : Nat) (p : Partition) : (s.setPart r e p).bruora = s.bruora := rfl
@[simp] theorem setPart_dict (r e : Nat) (p : Partition) : (s.setPart r e p).dict = s.dict := rfl
@[simp] theorem setPart_integ (r e : Nat) (p : Partition) : (s.setPart r e p).integ = s.integ := rfl
@[simp] theorem setPart_obs (r e : Nat) (p : Partition) : (s.setPart r e p).obs = s.obs := rfl
@[simp] theorem setPart_barn (r e : Nat) (p : Partition) : (s.setPart r e p).barn = s.barn := rfl
@[simp] theorem setPart_outbox (r e : Nat) (p : Partition) : (s.setPart r e p).outbox = s.outbox := rfl
@[simp] theorem setPart_issued (r e : Nat) (p : Partition) : (s.setPart r e p).issued = s.issued := rfl

/-! `setSeq` -/
@[simp] theorem setSeq_pending (i : Nat) (x : Sequence) : (s.setSeq i x).pending = s.pending := rfl
@[simp] theorem setSeq_free (i : Nat) (x : Sequence) : (s.setSeq i x).free = s.free := rfl
@[simp] theorem setSeq_clk (i : Nat) (x : Sequence) : (s.setSeq i x).clk = s.clk := rfl
@[simp] theorem setSeq_pins (i : Nat) (x : Sequence) : (s.setSeq i x).pins = s.pins := rfl
@[simp] theorem setSeq_fuses (i : Nat) (x : Sequence) : (s.setSeq i x).fuses = s.fuses := rfl
@[simp] theorem setSeq_fw (i : Nat) (x : Sequence) : (s.setSeq i x).fw = s.fw := rfl
@[simp] theorem setSeq_bell (i : Nat) (x : Sequence) : (s.setSeq i x).bell = s.bell := rfl
@[simp] theorem setSeq_devMem (i : Nat) (x : Sequence) : (s.setSeq i x).devMem = s.devMem := rfl
@[simp] theorem setSeq_hostMem (i : Nat) (x : Sequence) : (s.setSeq i x).hostMem = s.hostMem := rfl
@[simp] theorem setSeq_poisoned (i : Nat) (x : Sequence) : (s.setSeq i x).poisoned = s.poisoned := rfl
@[simp] theorem setSeq_threshers (i : Nat) (x : Sequence) : (s.setSeq i x).threshers = s.threshers := rfl
@[simp] theorem setSeq_loft (i : Nat) (x : Sequence) : (s.setSeq i x).loft = s.loft := rfl
@[simp] theorem setSeq_mills (i : Nat) (x : Sequence) : (s.setSeq i x).mills = s.mills := rfl
@[simp] theorem setSeq_queues (i : Nat) (x : Sequence) : (s.setSeq i x).queues = s.queues := rfl
@[simp] theorem setSeq_cursors (i : Nat) (x : Sequence) : (s.setSeq i x).cursors = s.cursors := rfl
@[simp] theorem setSeq_waiting (i : Nat) (x : Sequence) : (s.setSeq i x).waiting = s.waiting := rfl
@[simp] theorem setSeq_cmds (i : Nat) (x : Sequence) : (s.setSeq i x).cmds = s.cmds := rfl
@[simp] theorem setSeq_trans (i : Nat) (x : Sequence) : (s.setSeq i x).trans = s.trans := rfl
@[simp] theorem setSeq_bruora (i : Nat) (x : Sequence) : (s.setSeq i x).bruora = s.bruora := rfl
@[simp] theorem setSeq_dict (i : Nat) (x : Sequence) : (s.setSeq i x).dict = s.dict := rfl
@[simp] theorem setSeq_integ (i : Nat) (x : Sequence) : (s.setSeq i x).integ = s.integ := rfl
@[simp] theorem setSeq_obs (i : Nat) (x : Sequence) : (s.setSeq i x).obs = s.obs := rfl
@[simp] theorem setSeq_barn (i : Nat) (x : Sequence) : (s.setSeq i x).barn = s.barn := rfl
@[simp] theorem setSeq_outbox (i : Nat) (x : Sequence) : (s.setSeq i x).outbox = s.outbox := rfl
@[simp] theorem setSeq_issued (i : Nat) (x : Sequence) : (s.setSeq i x).issued = s.issued := rfl

/-! `setMap` -/
@[simp] theorem setMap_pending (r : Nat) (m : List (Option Nat)) : (s.setMap r m).pending = s.pending := rfl
@[simp] theorem setMap_free (r : Nat) (m : List (Option Nat)) : (s.setMap r m).free = s.free := rfl
@[simp] theorem setMap_clk (r : Nat) (m : List (Option Nat)) : (s.setMap r m).clk = s.clk := rfl
@[simp] theorem setMap_pins (r : Nat) (m : List (Option Nat)) : (s.setMap r m).pins = s.pins := rfl
@[simp] theorem setMap_fuses (r : Nat) (m : List (Option Nat)) : (s.setMap r m).fuses = s.fuses := rfl
@[simp] theorem setMap_fw (r : Nat) (m : List (Option Nat)) : (s.setMap r m).fw = s.fw := rfl
@[simp] theorem setMap_bell (r : Nat) (m : List (Option Nat)) : (s.setMap r m).bell = s.bell := rfl
@[simp] theorem setMap_devMem (r : Nat) (m : List (Option Nat)) : (s.setMap r m).devMem = s.devMem := rfl
@[simp] theorem setMap_hostMem (r : Nat) (m : List (Option Nat)) : (s.setMap r m).hostMem = s.hostMem := rfl
@[simp] theorem setMap_poisoned (r : Nat) (m : List (Option Nat)) : (s.setMap r m).poisoned = s.poisoned := rfl
@[simp] theorem setMap_threshers (r : Nat) (m : List (Option Nat)) : (s.setMap r m).threshers = s.threshers := rfl
@[simp] theorem setMap_loft (r : Nat) (m : List (Option Nat)) : (s.setMap r m).loft = s.loft := rfl
@[simp] theorem setMap_granary (r : Nat) (m : List (Option Nat)) : (s.setMap r m).granary = s.granary := rfl
@[simp] theorem setMap_mills (r : Nat) (m : List (Option Nat)) : (s.setMap r m).mills = s.mills := rfl
@[simp] theorem setMap_queues (r : Nat) (m : List (Option Nat)) : (s.setMap r m).queues = s.queues := rfl
@[simp] theorem setMap_cursors (r : Nat) (m : List (Option Nat)) : (s.setMap r m).cursors = s.cursors := rfl
@[simp] theorem setMap_waiting (r : Nat) (m : List (Option Nat)) : (s.setMap r m).waiting = s.waiting := rfl
@[simp] theorem setMap_cmds (r : Nat) (m : List (Option Nat)) : (s.setMap r m).cmds = s.cmds := rfl
@[simp] theorem setMap_trans (r : Nat) (m : List (Option Nat)) : (s.setMap r m).trans = s.trans := rfl
@[simp] theorem setMap_bruora (r : Nat) (m : List (Option Nat)) : (s.setMap r m).bruora = s.bruora := rfl
@[simp] theorem setMap_dict (r : Nat) (m : List (Option Nat)) : (s.setMap r m).dict = s.dict := rfl
@[simp] theorem setMap_obs (r : Nat) (m : List (Option Nat)) : (s.setMap r m).obs = s.obs := rfl
@[simp] theorem setMap_barn (r : Nat) (m : List (Option Nat)) : (s.setMap r m).barn = s.barn := rfl
@[simp] theorem setMap_outbox (r : Nat) (m : List (Option Nat)) : (s.setMap r m).outbox = s.outbox := rfl
@[simp] theorem setMap_issued (r : Nat) (m : List (Option Nat)) : (s.setMap r m).issued = s.issued := rfl

/-! `setHosts` -/
@[simp] theorem setHosts_pending (r c : Nat) (h : ClusterHosts) : (s.setHosts r c h).pending = s.pending := rfl
@[simp] theorem setHosts_free (r c : Nat) (h : ClusterHosts) : (s.setHosts r c h).free = s.free := rfl
@[simp] theorem setHosts_clk (r c : Nat) (h : ClusterHosts) : (s.setHosts r c h).clk = s.clk := rfl
@[simp] theorem setHosts_pins (r c : Nat) (h : ClusterHosts) : (s.setHosts r c h).pins = s.pins := rfl
@[simp] theorem setHosts_fuses (r c : Nat) (h : ClusterHosts) : (s.setHosts r c h).fuses = s.fuses := rfl
@[simp] theorem setHosts_fw (r c : Nat) (h : ClusterHosts) : (s.setHosts r c h).fw = s.fw := rfl
@[simp] theorem setHosts_bell (r c : Nat) (h : ClusterHosts) : (s.setHosts r c h).bell = s.bell := rfl
@[simp] theorem setHosts_devMem (r c : Nat) (h : ClusterHosts) : (s.setHosts r c h).devMem = s.devMem := rfl
@[simp] theorem setHosts_hostMem (r c : Nat) (h : ClusterHosts) : (s.setHosts r c h).hostMem = s.hostMem := rfl
@[simp] theorem setHosts_poisoned (r c : Nat) (h : ClusterHosts) : (s.setHosts r c h).poisoned = s.poisoned := rfl
@[simp] theorem setHosts_threshers (r c : Nat) (h : ClusterHosts) : (s.setHosts r c h).threshers = s.threshers := rfl
@[simp] theorem setHosts_loft (r c : Nat) (h : ClusterHosts) : (s.setHosts r c h).loft = s.loft := rfl
@[simp] theorem setHosts_granary (r c : Nat) (h : ClusterHosts) : (s.setHosts r c h).granary = s.granary := rfl
@[simp] theorem setHosts_mills (r c : Nat) (h : ClusterHosts) : (s.setHosts r c h).mills = s.mills := rfl
@[simp] theorem setHosts_queues (r c : Nat) (h : ClusterHosts) : (s.setHosts r c h).queues = s.queues := rfl
@[simp] theorem setHosts_cursors (r c : Nat) (h : ClusterHosts) : (s.setHosts r c h).cursors = s.cursors := rfl
@[simp] theorem setHosts_waiting (r c : Nat) (h : ClusterHosts) : (s.setHosts r c h).waiting = s.waiting := rfl
@[simp] theorem setHosts_cmds (r c : Nat) (h : ClusterHosts) : (s.setHosts r c h).cmds = s.cmds := rfl
@[simp] theorem setHosts_trans (r c : Nat) (h : ClusterHosts) : (s.setHosts r c h).trans = s.trans := rfl
@[simp] theorem setHosts_bruora (r c : Nat) (h : ClusterHosts) : (s.setHosts r c h).bruora = s.bruora := rfl
@[simp] theorem setHosts_dict (r c : Nat) (h : ClusterHosts) : (s.setHosts r c h).dict = s.dict := rfl
@[simp] theorem setHosts_obs (r c : Nat) (h : ClusterHosts) : (s.setHosts r c h).obs = s.obs := rfl
@[simp] theorem setHosts_barn (r c : Nat) (h : ClusterHosts) : (s.setHosts r c h).barn = s.barn := rfl
@[simp] theorem setHosts_outbox (r c : Nat) (h : ClusterHosts) : (s.setHosts r c h).outbox = s.outbox := rfl
@[simp] theorem setHosts_issued (r c : Nat) (h : ClusterHosts) : (s.setHosts r c h).issued = s.issued := rfl

/-! `setPhase` -/
@[simp] theorem setPhase_pending (l : Nat) (p : UnitPhase) : (s.setPhase l p).pending = s.pending := rfl
@[simp] theorem setPhase_free (l : Nat) (p : UnitPhase) : (s.setPhase l p).free = s.free := rfl
@[simp] theorem setPhase_clk (l : Nat) (p : UnitPhase) : (s.setPhase l p).clk = s.clk := rfl
@[simp] theorem setPhase_pins (l : Nat) (p : UnitPhase) : (s.setPhase l p).pins = s.pins := rfl
@[simp] theorem setPhase_fuses (l : Nat) (p : UnitPhase) : (s.setPhase l p).fuses = s.fuses := rfl
@[simp] theorem setPhase_fw (l : Nat) (p : UnitPhase) : (s.setPhase l p).fw = s.fw := rfl
@[simp] theorem setPhase_bell (l : Nat) (p : UnitPhase) : (s.setPhase l p).bell = s.bell := rfl
@[simp] theorem setPhase_devMem (l : Nat) (p : UnitPhase) : (s.setPhase l p).devMem = s.devMem := rfl
@[simp] theorem setPhase_hostMem (l : Nat) (p : UnitPhase) : (s.setPhase l p).hostMem = s.hostMem := rfl
@[simp] theorem setPhase_poisoned (l : Nat) (p : UnitPhase) : (s.setPhase l p).poisoned = s.poisoned := rfl
@[simp] theorem setPhase_threshers (l : Nat) (p : UnitPhase) : (s.setPhase l p).threshers = s.threshers := rfl
@[simp] theorem setPhase_loft (l : Nat) (p : UnitPhase) : (s.setPhase l p).loft = s.loft := rfl
@[simp] theorem setPhase_granary (l : Nat) (p : UnitPhase) : (s.setPhase l p).granary = s.granary := rfl
@[simp] theorem setPhase_mills (l : Nat) (p : UnitPhase) : (s.setPhase l p).mills = s.mills := rfl
@[simp] theorem setPhase_queues (l : Nat) (p : UnitPhase) : (s.setPhase l p).queues = s.queues := rfl
@[simp] theorem setPhase_cursors (l : Nat) (p : UnitPhase) : (s.setPhase l p).cursors = s.cursors := rfl
@[simp] theorem setPhase_waiting (l : Nat) (p : UnitPhase) : (s.setPhase l p).waiting = s.waiting := rfl
@[simp] theorem setPhase_cmds (l : Nat) (p : UnitPhase) : (s.setPhase l p).cmds = s.cmds := rfl
@[simp] theorem setPhase_trans (l : Nat) (p : UnitPhase) : (s.setPhase l p).trans = s.trans := rfl
@[simp] theorem setPhase_bruora (l : Nat) (p : UnitPhase) : (s.setPhase l p).bruora = s.bruora := rfl
@[simp] theorem setPhase_dict (l : Nat) (p : UnitPhase) : (s.setPhase l p).dict = s.dict := rfl
@[simp] theorem setPhase_obs (l : Nat) (p : UnitPhase) : (s.setPhase l p).obs = s.obs := rfl
@[simp] theorem setPhase_barn (l : Nat) (p : UnitPhase) : (s.setPhase l p).barn = s.barn := rfl
@[simp] theorem setPhase_outbox (l : Nat) (p : UnitPhase) : (s.setPhase l p).outbox = s.outbox := rfl
@[simp] theorem setPhase_issued (l : Nat) (p : UnitPhase) : (s.setPhase l p).issued = s.issued := rfl

/-! `setInput` -/
@[simp] theorem setInput_pending (i : Nat) (x : Input) : (s.setInput i x).pending = s.pending := rfl
@[simp] theorem setInput_free (i : Nat) (x : Input) : (s.setInput i x).free = s.free := rfl
@[simp] theorem setInput_clk (i : Nat) (x : Input) : (s.setInput i x).clk = s.clk := rfl
@[simp] theorem setInput_pins (i : Nat) (x : Input) : (s.setInput i x).pins = s.pins := rfl
@[simp] theorem setInput_fuses (i : Nat) (x : Input) : (s.setInput i x).fuses = s.fuses := rfl
@[simp] theorem setInput_fw (i : Nat) (x : Input) : (s.setInput i x).fw = s.fw := rfl
@[simp] theorem setInput_devMem (i : Nat) (x : Input) : (s.setInput i x).devMem = s.devMem := rfl
@[simp] theorem setInput_hostMem (i : Nat) (x : Input) : (s.setInput i x).hostMem = s.hostMem := rfl
@[simp] theorem setInput_poisoned (i : Nat) (x : Input) : (s.setInput i x).poisoned = s.poisoned := rfl
@[simp] theorem setInput_threshers (i : Nat) (x : Input) : (s.setInput i x).threshers = s.threshers := rfl
@[simp] theorem setInput_loft (i : Nat) (x : Input) : (s.setInput i x).loft = s.loft := rfl
@[simp] theorem setInput_granary (i : Nat) (x : Input) : (s.setInput i x).granary = s.granary := rfl
@[simp] theorem setInput_mills (i : Nat) (x : Input) : (s.setInput i x).mills = s.mills := rfl
@[simp] theorem setInput_queues (i : Nat) (x : Input) : (s.setInput i x).queues = s.queues := rfl
@[simp] theorem setInput_cursors (i : Nat) (x : Input) : (s.setInput i x).cursors = s.cursors := rfl
@[simp] theorem setInput_waiting (i : Nat) (x : Input) : (s.setInput i x).waiting = s.waiting := rfl
@[simp] theorem setInput_cmds (i : Nat) (x : Input) : (s.setInput i x).cmds = s.cmds := rfl
@[simp] theorem setInput_trans (i : Nat) (x : Input) : (s.setInput i x).trans = s.trans := rfl
@[simp] theorem setInput_bruora (i : Nat) (x : Input) : (s.setInput i x).bruora = s.bruora := rfl
@[simp] theorem setInput_dict (i : Nat) (x : Input) : (s.setInput i x).dict = s.dict := rfl
@[simp] theorem setInput_integ (i : Nat) (x : Input) : (s.setInput i x).integ = s.integ := rfl
@[simp] theorem setInput_obs (i : Nat) (x : Input) : (s.setInput i x).obs = s.obs := rfl
@[simp] theorem setInput_barn (i : Nat) (x : Input) : (s.setInput i x).barn = s.barn := rfl
@[simp] theorem setInput_outbox (i : Nat) (x : Input) : (s.setInput i x).outbox = s.outbox := rfl
@[simp] theorem setInput_issued (i : Nat) (x : Input) : (s.setInput i x).issued = s.issued := rfl

/-! `setReel` -/
@[simp] theorem setReel_pending (die : Nat) (r : Reel) : (s.setReel die r).pending = s.pending := rfl
@[simp] theorem setReel_free (die : Nat) (r : Reel) : (s.setReel die r).free = s.free := rfl
@[simp] theorem setReel_clk (die : Nat) (r : Reel) : (s.setReel die r).clk = s.clk := rfl
@[simp] theorem setReel_pins (die : Nat) (r : Reel) : (s.setReel die r).pins = s.pins := rfl
@[simp] theorem setReel_fuses (die : Nat) (r : Reel) : (s.setReel die r).fuses = s.fuses := rfl
@[simp] theorem setReel_fw (die : Nat) (r : Reel) : (s.setReel die r).fw = s.fw := rfl
@[simp] theorem setReel_devMem (die : Nat) (r : Reel) : (s.setReel die r).devMem = s.devMem := rfl
@[simp] theorem setReel_hostMem (die : Nat) (r : Reel) : (s.setReel die r).hostMem = s.hostMem := rfl
@[simp] theorem setReel_poisoned (die : Nat) (r : Reel) : (s.setReel die r).poisoned = s.poisoned := rfl
@[simp] theorem setReel_threshers (die : Nat) (r : Reel) : (s.setReel die r).threshers = s.threshers := rfl
@[simp] theorem setReel_loft (die : Nat) (r : Reel) : (s.setReel die r).loft = s.loft := rfl
@[simp] theorem setReel_granary (die : Nat) (r : Reel) : (s.setReel die r).granary = s.granary := rfl
@[simp] theorem setReel_mills (die : Nat) (r : Reel) : (s.setReel die r).mills = s.mills := rfl
@[simp] theorem setReel_queues (die : Nat) (r : Reel) : (s.setReel die r).queues = s.queues := rfl
@[simp] theorem setReel_cursors (die : Nat) (r : Reel) : (s.setReel die r).cursors = s.cursors := rfl
@[simp] theorem setReel_waiting (die : Nat) (r : Reel) : (s.setReel die r).waiting = s.waiting := rfl
@[simp] theorem setReel_cmds (die : Nat) (r : Reel) : (s.setReel die r).cmds = s.cmds := rfl
@[simp] theorem setReel_trans (die : Nat) (r : Reel) : (s.setReel die r).trans = s.trans := rfl
@[simp] theorem setReel_bruora (die : Nat) (r : Reel) : (s.setReel die r).bruora = s.bruora := rfl
@[simp] theorem setReel_dict (die : Nat) (r : Reel) : (s.setReel die r).dict = s.dict := rfl
@[simp] theorem setReel_integ (die : Nat) (r : Reel) : (s.setReel die r).integ = s.integ := rfl
@[simp] theorem setReel_obs (die : Nat) (r : Reel) : (s.setReel die r).obs = s.obs := rfl
@[simp] theorem setReel_barn (die : Nat) (r : Reel) : (s.setReel die r).barn = s.barn := rfl
@[simp] theorem setReel_outbox (die : Nat) (r : Reel) : (s.setReel die r).outbox = s.outbox := rfl
@[simp] theorem setReel_issued (die : Nat) (r : Reel) : (s.setReel die r).issued = s.issued := rfl

/-! `setPort` -/
@[simp] theorem setPort_pending (p : Nat) (x : Port) : (s.setPort p x).pending = s.pending := rfl
@[simp] theorem setPort_free (p : Nat) (x : Port) : (s.setPort p x).free = s.free := rfl
@[simp] theorem setPort_clk (p : Nat) (x : Port) : (s.setPort p x).clk = s.clk := rfl
@[simp] theorem setPort_pins (p : Nat) (x : Port) : (s.setPort p x).pins = s.pins := rfl
@[simp] theorem setPort_fuses (p : Nat) (x : Port) : (s.setPort p x).fuses = s.fuses := rfl
@[simp] theorem setPort_fw (p : Nat) (x : Port) : (s.setPort p x).fw = s.fw := rfl
@[simp] theorem setPort_bell (p : Nat) (x : Port) : (s.setPort p x).bell = s.bell := rfl
@[simp] theorem setPort_devMem (p : Nat) (x : Port) : (s.setPort p x).devMem = s.devMem := rfl
@[simp] theorem setPort_hostMem (p : Nat) (x : Port) : (s.setPort p x).hostMem = s.hostMem := rfl
@[simp] theorem setPort_poisoned (p : Nat) (x : Port) : (s.setPort p x).poisoned = s.poisoned := rfl
@[simp] theorem setPort_threshers (p : Nat) (x : Port) : (s.setPort p x).threshers = s.threshers := rfl
@[simp] theorem setPort_loft (p : Nat) (x : Port) : (s.setPort p x).loft = s.loft := rfl
@[simp] theorem setPort_granary (p : Nat) (x : Port) : (s.setPort p x).granary = s.granary := rfl
@[simp] theorem setPort_mills (p : Nat) (x : Port) : (s.setPort p x).mills = s.mills := rfl
@[simp] theorem setPort_queues (p : Nat) (x : Port) : (s.setPort p x).queues = s.queues := rfl
@[simp] theorem setPort_cursors (p : Nat) (x : Port) : (s.setPort p x).cursors = s.cursors := rfl
@[simp] theorem setPort_waiting (p : Nat) (x : Port) : (s.setPort p x).waiting = s.waiting := rfl
@[simp] theorem setPort_cmds (p : Nat) (x : Port) : (s.setPort p x).cmds = s.cmds := rfl
@[simp] theorem setPort_trans (p : Nat) (x : Port) : (s.setPort p x).trans = s.trans := rfl
@[simp] theorem setPort_dict (p : Nat) (x : Port) : (s.setPort p x).dict = s.dict := rfl
@[simp] theorem setPort_integ (p : Nat) (x : Port) : (s.setPort p x).integ = s.integ := rfl
@[simp] theorem setPort_obs (p : Nat) (x : Port) : (s.setPort p x).obs = s.obs := rfl
@[simp] theorem setPort_barn (p : Nat) (x : Port) : (s.setPort p x).barn = s.barn := rfl
@[simp] theorem setPort_outbox (p : Nat) (x : Port) : (s.setPort p x).outbox = s.outbox := rfl
@[simp] theorem setPort_issued (p : Nat) (x : Port) : (s.setPort p x).issued = s.issued := rfl

/-! `elapse` -/
@[simp] theorem elapse_pending (n : Nat) : (s.elapse n).pending = s.pending := rfl
@[simp] theorem elapse_free (n : Nat) : (s.elapse n).free = s.free := rfl
@[simp] theorem elapse_pins (n : Nat) : (s.elapse n).pins = s.pins := rfl
@[simp] theorem elapse_fuses (n : Nat) : (s.elapse n).fuses = s.fuses := rfl
@[simp] theorem elapse_fw (n : Nat) : (s.elapse n).fw = s.fw := rfl
@[simp] theorem elapse_devMem (n : Nat) : (s.elapse n).devMem = s.devMem := rfl
@[simp] theorem elapse_hostMem (n : Nat) : (s.elapse n).hostMem = s.hostMem := rfl
@[simp] theorem elapse_poisoned (n : Nat) : (s.elapse n).poisoned = s.poisoned := rfl
@[simp] theorem elapse_threshers (n : Nat) : (s.elapse n).threshers = s.threshers := rfl
@[simp] theorem elapse_loft (n : Nat) : (s.elapse n).loft = s.loft := rfl
@[simp] theorem elapse_granary (n : Nat) : (s.elapse n).granary = s.granary := rfl
@[simp] theorem elapse_mills (n : Nat) : (s.elapse n).mills = s.mills := rfl
@[simp] theorem elapse_queues (n : Nat) : (s.elapse n).queues = s.queues := rfl
@[simp] theorem elapse_cursors (n : Nat) : (s.elapse n).cursors = s.cursors := rfl
@[simp] theorem elapse_cmds (n : Nat) : (s.elapse n).cmds = s.cmds := rfl
@[simp] theorem elapse_trans (n : Nat) : (s.elapse n).trans = s.trans := rfl
@[simp] theorem elapse_bruora (n : Nat) : (s.elapse n).bruora = s.bruora := rfl
@[simp] theorem elapse_dict (n : Nat) : (s.elapse n).dict = s.dict := rfl
@[simp] theorem elapse_integ (n : Nat) : (s.elapse n).integ = s.integ := rfl
@[simp] theorem elapse_barn (n : Nat) : (s.elapse n).barn = s.barn := rfl
@[simp] theorem elapse_issued (n : Nat) : (s.elapse n).issued = s.issued := rfl

/-! `pass` -/
@[simp] theorem pass_pending (n : Nat) : (s.pass n).pending = s.pending := rfl
@[simp] theorem pass_free (n : Nat) : (s.pass n).free = s.free := rfl
@[simp] theorem pass_pins (n : Nat) : (s.pass n).pins = s.pins := rfl
@[simp] theorem pass_fuses (n : Nat) : (s.pass n).fuses = s.fuses := rfl
@[simp] theorem pass_fw (n : Nat) : (s.pass n).fw = s.fw := rfl
@[simp] theorem pass_devMem (n : Nat) : (s.pass n).devMem = s.devMem := rfl
@[simp] theorem pass_hostMem (n : Nat) : (s.pass n).hostMem = s.hostMem := rfl
@[simp] theorem pass_poisoned (n : Nat) : (s.pass n).poisoned = s.poisoned := rfl
@[simp] theorem pass_threshers (n : Nat) : (s.pass n).threshers = s.threshers := rfl
@[simp] theorem pass_loft (n : Nat) : (s.pass n).loft = s.loft := rfl
@[simp] theorem pass_granary (n : Nat) : (s.pass n).granary = s.granary := rfl
@[simp] theorem pass_mills (n : Nat) : (s.pass n).mills = s.mills := rfl
@[simp] theorem pass_queues (n : Nat) : (s.pass n).queues = s.queues := rfl
@[simp] theorem pass_cursors (n : Nat) : (s.pass n).cursors = s.cursors := rfl
@[simp] theorem pass_waiting (n : Nat) : (s.pass n).waiting = s.waiting := rfl
@[simp] theorem pass_cmds (n : Nat) : (s.pass n).cmds = s.cmds := rfl
@[simp] theorem pass_trans (n : Nat) : (s.pass n).trans = s.trans := rfl
@[simp] theorem pass_bruora (n : Nat) : (s.pass n).bruora = s.bruora := rfl
@[simp] theorem pass_dict (n : Nat) : (s.pass n).dict = s.dict := rfl
@[simp] theorem pass_integ (n : Nat) : (s.pass n).integ = s.integ := rfl
@[simp] theorem pass_obs (n : Nat) : (s.pass n).obs = s.obs := rfl
@[simp] theorem pass_barn (n : Nat) : (s.pass n).barn = s.barn := rfl
@[simp] theorem pass_outbox (n : Nat) : (s.pass n).outbox = s.outbox := rfl
@[simp] theorem pass_issued (n : Nat) : (s.pass n).issued = s.issued := rfl

/-! `bump` -/
@[simp] theorem bump_pending (i u n : Nat) : (s.bump i u n).pending = s.pending := rfl
@[simp] theorem bump_free (i u n : Nat) : (s.bump i u n).free = s.free := rfl
@[simp] theorem bump_clk (i u n : Nat) : (s.bump i u n).clk = s.clk := rfl
@[simp] theorem bump_pins (i u n : Nat) : (s.bump i u n).pins = s.pins := rfl
@[simp] theorem bump_fuses (i u n : Nat) : (s.bump i u n).fuses = s.fuses := rfl
@[simp] theorem bump_fw (i u n : Nat) : (s.bump i u n).fw = s.fw := rfl
@[simp] theorem bump_bell (i u n : Nat) : (s.bump i u n).bell = s.bell := rfl
@[simp] theorem bump_devMem (i u n : Nat) : (s.bump i u n).devMem = s.devMem := rfl
@[simp] theorem bump_hostMem (i u n : Nat) : (s.bump i u n).hostMem = s.hostMem := rfl
@[simp] theorem bump_poisoned (i u n : Nat) : (s.bump i u n).poisoned = s.poisoned := rfl
@[simp] theorem bump_threshers (i u n : Nat) : (s.bump i u n).threshers = s.threshers := rfl
@[simp] theorem bump_loft (i u n : Nat) : (s.bump i u n).loft = s.loft := rfl
@[simp] theorem bump_granary (i u n : Nat) : (s.bump i u n).granary = s.granary := rfl
@[simp] theorem bump_mills (i u n : Nat) : (s.bump i u n).mills = s.mills := rfl
@[simp] theorem bump_queues (i u n : Nat) : (s.bump i u n).queues = s.queues := rfl
@[simp] theorem bump_cursors (i u n : Nat) : (s.bump i u n).cursors = s.cursors := rfl
@[simp] theorem bump_waiting (i u n : Nat) : (s.bump i u n).waiting = s.waiting := rfl
@[simp] theorem bump_cmds (i u n : Nat) : (s.bump i u n).cmds = s.cmds := rfl
@[simp] theorem bump_trans (i u n : Nat) : (s.bump i u n).trans = s.trans := rfl
@[simp] theorem bump_bruora (i u n : Nat) : (s.bump i u n).bruora = s.bruora := rfl
@[simp] theorem bump_integ (i u n : Nat) : (s.bump i u n).integ = s.integ := rfl
@[simp] theorem bump_obs (i u n : Nat) : (s.bump i u n).obs = s.obs := rfl
@[simp] theorem bump_barn (i u n : Nat) : (s.bump i u n).barn = s.barn := rfl
@[simp] theorem bump_outbox (i u n : Nat) : (s.bump i u n).outbox = s.outbox := rfl
@[simp] theorem bump_issued (i u n : Nat) : (s.bump i u n).issued = s.issued := rfl

/-! `interrupt` -/
@[simp] theorem interrupt_pending (v : Nat) : (s.interrupt v).pending = s.pending := by unfold State.interrupt; dsimp only; repeat (split <;> try rfl)
@[simp] theorem interrupt_free (v : Nat) : (s.interrupt v).free = s.free := by unfold State.interrupt; dsimp only; repeat (split <;> try rfl)
@[simp] theorem interrupt_clk (v : Nat) : (s.interrupt v).clk = s.clk := by unfold State.interrupt; dsimp only; repeat (split <;> try rfl)
@[simp] theorem interrupt_pins (v : Nat) : (s.interrupt v).pins = s.pins := by unfold State.interrupt; dsimp only; repeat (split <;> try rfl)
@[simp] theorem interrupt_fuses (v : Nat) : (s.interrupt v).fuses = s.fuses := by unfold State.interrupt; dsimp only; repeat (split <;> try rfl)
@[simp] theorem interrupt_fw (v : Nat) : (s.interrupt v).fw = s.fw := by unfold State.interrupt; dsimp only; repeat (split <;> try rfl)
@[simp] theorem interrupt_bell (v : Nat) : (s.interrupt v).bell = s.bell := by unfold State.interrupt; dsimp only; repeat (split <;> try rfl)
@[simp] theorem interrupt_devMem (v : Nat) : (s.interrupt v).devMem = s.devMem := by unfold State.interrupt; dsimp only; repeat (split <;> try rfl)
@[simp] theorem interrupt_hostMem (v : Nat) : (s.interrupt v).hostMem = s.hostMem := by unfold State.interrupt; dsimp only; repeat (split <;> try rfl)
@[simp] theorem interrupt_poisoned (v : Nat) : (s.interrupt v).poisoned = s.poisoned := by unfold State.interrupt; dsimp only; repeat (split <;> try rfl)
@[simp] theorem interrupt_threshers (v : Nat) : (s.interrupt v).threshers = s.threshers := by unfold State.interrupt; dsimp only; repeat (split <;> try rfl)
@[simp] theorem interrupt_loft (v : Nat) : (s.interrupt v).loft = s.loft := by unfold State.interrupt; dsimp only; repeat (split <;> try rfl)
@[simp] theorem interrupt_granary (v : Nat) : (s.interrupt v).granary = s.granary := by unfold State.interrupt; dsimp only; repeat (split <;> try rfl)
@[simp] theorem interrupt_mills (v : Nat) : (s.interrupt v).mills = s.mills := by unfold State.interrupt; dsimp only; repeat (split <;> try rfl)
@[simp] theorem interrupt_queues (v : Nat) : (s.interrupt v).queues = s.queues := by unfold State.interrupt; dsimp only; repeat (split <;> try rfl)
@[simp] theorem interrupt_cursors (v : Nat) : (s.interrupt v).cursors = s.cursors := by unfold State.interrupt; dsimp only; repeat (split <;> try rfl)
@[simp] theorem interrupt_waiting (v : Nat) : (s.interrupt v).waiting = s.waiting := by unfold State.interrupt; dsimp only; repeat (split <;> try rfl)
@[simp] theorem interrupt_cmds (v : Nat) : (s.interrupt v).cmds = s.cmds := by unfold State.interrupt; dsimp only; repeat (split <;> try rfl)
@[simp] theorem interrupt_trans (v : Nat) : (s.interrupt v).trans = s.trans := by unfold State.interrupt; dsimp only; repeat (split <;> try rfl)
@[simp] theorem interrupt_bruora (v : Nat) : (s.interrupt v).bruora = s.bruora := by unfold State.interrupt; dsimp only; repeat (split <;> try rfl)
@[simp] theorem interrupt_integ (v : Nat) : (s.interrupt v).integ = s.integ := by unfold State.interrupt; dsimp only; repeat (split <;> try rfl)
@[simp] theorem interrupt_obs (v : Nat) : (s.interrupt v).obs = s.obs := by unfold State.interrupt; dsimp only; repeat (split <;> try rfl)
@[simp] theorem interrupt_barn (v : Nat) : (s.interrupt v).barn = s.barn := by unfold State.interrupt; dsimp only; repeat (split <;> try rfl)
@[simp] theorem interrupt_issued (v : Nat) : (s.interrupt v).issued = s.issued := by unfold State.interrupt; dsimp only; repeat (split <;> try rfl)

/-! `onQueue` -/
@[simp] theorem onQueue_pending (q : Nat) (f : Queue → Queue) : (s.onQueue q f).pending = s.pending := by unfold State.onQueue; split <;> rfl
@[simp] theorem onQueue_free (q : Nat) (f : Queue → Queue) : (s.onQueue q f).free = s.free := by unfold State.onQueue; split <;> rfl
@[simp] theorem onQueue_clk (q : Nat) (f : Queue → Queue) : (s.onQueue q f).clk = s.clk := by unfold State.onQueue; split <;> rfl
@[simp] theorem onQueue_pins (q : Nat) (f : Queue → Queue) : (s.onQueue q f).pins = s.pins := by unfold State.onQueue; split <;> rfl
@[simp] theorem onQueue_fuses (q : Nat) (f : Queue → Queue) : (s.onQueue q f).fuses = s.fuses := by unfold State.onQueue; split <;> rfl
@[simp] theorem onQueue_fw (q : Nat) (f : Queue → Queue) : (s.onQueue q f).fw = s.fw := by unfold State.onQueue; split <;> rfl
@[simp] theorem onQueue_bell (q : Nat) (f : Queue → Queue) : (s.onQueue q f).bell = s.bell := by unfold State.onQueue; split <;> rfl
@[simp] theorem onQueue_devMem (q : Nat) (f : Queue → Queue) : (s.onQueue q f).devMem = s.devMem := by unfold State.onQueue; split <;> rfl
@[simp] theorem onQueue_hostMem (q : Nat) (f : Queue → Queue) : (s.onQueue q f).hostMem = s.hostMem := by unfold State.onQueue; split <;> rfl
@[simp] theorem onQueue_poisoned (q : Nat) (f : Queue → Queue) : (s.onQueue q f).poisoned = s.poisoned := by unfold State.onQueue; split <;> rfl
@[simp] theorem onQueue_threshers (q : Nat) (f : Queue → Queue) : (s.onQueue q f).threshers = s.threshers := by unfold State.onQueue; split <;> rfl
@[simp] theorem onQueue_loft (q : Nat) (f : Queue → Queue) : (s.onQueue q f).loft = s.loft := by unfold State.onQueue; split <;> rfl
@[simp] theorem onQueue_granary (q : Nat) (f : Queue → Queue) : (s.onQueue q f).granary = s.granary := by unfold State.onQueue; split <;> rfl
@[simp] theorem onQueue_mills (q : Nat) (f : Queue → Queue) : (s.onQueue q f).mills = s.mills := by unfold State.onQueue; split <;> rfl
@[simp] theorem onQueue_cursors (q : Nat) (f : Queue → Queue) : (s.onQueue q f).cursors = s.cursors := by unfold State.onQueue; split <;> rfl
@[simp] theorem onQueue_waiting (q : Nat) (f : Queue → Queue) : (s.onQueue q f).waiting = s.waiting := by unfold State.onQueue; split <;> rfl
@[simp] theorem onQueue_cmds (q : Nat) (f : Queue → Queue) : (s.onQueue q f).cmds = s.cmds := by unfold State.onQueue; split <;> rfl
@[simp] theorem onQueue_trans (q : Nat) (f : Queue → Queue) : (s.onQueue q f).trans = s.trans := by unfold State.onQueue; split <;> rfl
@[simp] theorem onQueue_bruora (q : Nat) (f : Queue → Queue) : (s.onQueue q f).bruora = s.bruora := by unfold State.onQueue; split <;> rfl
@[simp] theorem onQueue_dict (q : Nat) (f : Queue → Queue) : (s.onQueue q f).dict = s.dict := by unfold State.onQueue; split <;> rfl
@[simp] theorem onQueue_integ (q : Nat) (f : Queue → Queue) : (s.onQueue q f).integ = s.integ := by unfold State.onQueue; split <;> rfl
@[simp] theorem onQueue_obs (q : Nat) (f : Queue → Queue) : (s.onQueue q f).obs = s.obs := by unfold State.onQueue; split <;> rfl
@[simp] theorem onQueue_barn (q : Nat) (f : Queue → Queue) : (s.onQueue q f).barn = s.barn := by unfold State.onQueue; split <;> rfl
@[simp] theorem onQueue_outbox (q : Nat) (f : Queue → Queue) : (s.onQueue q f).outbox = s.outbox := by unfold State.onQueue; split <;> rfl
@[simp] theorem onQueue_issued (q : Nat) (f : Queue → Queue) : (s.onQueue q f).issued = s.issued := by unfold State.onQueue; split <;> rfl

/-! `bumpTask` -/
@[simp] theorem bumpTask_pending (p n a : Nat) : (s.bumpTask p n a).pending = s.pending := rfl
@[simp] theorem bumpTask_free (p n a : Nat) : (s.bumpTask p n a).free = s.free := rfl
@[simp] theorem bumpTask_clk (p n a : Nat) : (s.bumpTask p n a).clk = s.clk := rfl
@[simp] theorem bumpTask_pins (p n a : Nat) : (s.bumpTask p n a).pins = s.pins := rfl
@[simp] theorem bumpTask_fuses (p n a : Nat) : (s.bumpTask p n a).fuses = s.fuses := rfl
@[simp] theorem bumpTask_fw (p n a : Nat) : (s.bumpTask p n a).fw = s.fw := rfl
@[simp] theorem bumpTask_bell (p n a : Nat) : (s.bumpTask p n a).bell = s.bell := rfl
@[simp] theorem bumpTask_devMem (p n a : Nat) : (s.bumpTask p n a).devMem = s.devMem := rfl
@[simp] theorem bumpTask_hostMem (p n a : Nat) : (s.bumpTask p n a).hostMem = s.hostMem := rfl
@[simp] theorem bumpTask_poisoned (p n a : Nat) : (s.bumpTask p n a).poisoned = s.poisoned := rfl
@[simp] theorem bumpTask_threshers (p n a : Nat) : (s.bumpTask p n a).threshers = s.threshers := rfl
@[simp] theorem bumpTask_loft (p n a : Nat) : (s.bumpTask p n a).loft = s.loft := rfl
@[simp] theorem bumpTask_granary (p n a : Nat) : (s.bumpTask p n a).granary = s.granary := rfl
@[simp] theorem bumpTask_mills (p n a : Nat) : (s.bumpTask p n a).mills = s.mills := rfl
@[simp] theorem bumpTask_queues (p n a : Nat) : (s.bumpTask p n a).queues = s.queues := rfl
@[simp] theorem bumpTask_cursors (p n a : Nat) : (s.bumpTask p n a).cursors = s.cursors := rfl
@[simp] theorem bumpTask_waiting (p n a : Nat) : (s.bumpTask p n a).waiting = s.waiting := rfl
@[simp] theorem bumpTask_cmds (p n a : Nat) : (s.bumpTask p n a).cmds = s.cmds := rfl
@[simp] theorem bumpTask_trans (p n a : Nat) : (s.bumpTask p n a).trans = s.trans := rfl
@[simp] theorem bumpTask_bruora (p n a : Nat) : (s.bumpTask p n a).bruora = s.bruora := rfl
@[simp] theorem bumpTask_dict (p n a : Nat) : (s.bumpTask p n a).dict = s.dict := rfl
@[simp] theorem bumpTask_integ (p n a : Nat) : (s.bumpTask p n a).integ = s.integ := rfl
@[simp] theorem bumpTask_barn (p n a : Nat) : (s.bumpTask p n a).barn = s.barn := rfl
@[simp] theorem bumpTask_outbox (p n a : Nat) : (s.bumpTask p n a).outbox = s.outbox := rfl
@[simp] theorem bumpTask_issued (p n a : Nat) : (s.bumpTask p n a).issued = s.issued := rfl

/-! `physWrite` -/
@[simp] theorem physWrite_pending (pa : Nat) (bs : List Byte) : (s.physWrite pa bs).pending = s.pending := by unfold State.physWrite; split <;> rfl
@[simp] theorem physWrite_free (pa : Nat) (bs : List Byte) : (s.physWrite pa bs).free = s.free := by unfold State.physWrite; split <;> rfl
@[simp] theorem physWrite_clk (pa : Nat) (bs : List Byte) : (s.physWrite pa bs).clk = s.clk := by unfold State.physWrite; split <;> rfl
@[simp] theorem physWrite_pins (pa : Nat) (bs : List Byte) : (s.physWrite pa bs).pins = s.pins := by unfold State.physWrite; split <;> rfl
@[simp] theorem physWrite_fuses (pa : Nat) (bs : List Byte) : (s.physWrite pa bs).fuses = s.fuses := by unfold State.physWrite; split <;> rfl
@[simp] theorem physWrite_fw (pa : Nat) (bs : List Byte) : (s.physWrite pa bs).fw = s.fw := by unfold State.physWrite; split <;> rfl
@[simp] theorem physWrite_bell (pa : Nat) (bs : List Byte) : (s.physWrite pa bs).bell = s.bell := by unfold State.physWrite; split <;> rfl
@[simp] theorem physWrite_threshers (pa : Nat) (bs : List Byte) : (s.physWrite pa bs).threshers = s.threshers := by unfold State.physWrite; split <;> rfl
@[simp] theorem physWrite_loft (pa : Nat) (bs : List Byte) : (s.physWrite pa bs).loft = s.loft := by unfold State.physWrite; split <;> rfl
@[simp] theorem physWrite_granary (pa : Nat) (bs : List Byte) : (s.physWrite pa bs).granary = s.granary := by unfold State.physWrite; split <;> rfl
@[simp] theorem physWrite_mills (pa : Nat) (bs : List Byte) : (s.physWrite pa bs).mills = s.mills := by unfold State.physWrite; split <;> rfl
@[simp] theorem physWrite_queues (pa : Nat) (bs : List Byte) : (s.physWrite pa bs).queues = s.queues := by unfold State.physWrite; split <;> rfl
@[simp] theorem physWrite_cursors (pa : Nat) (bs : List Byte) : (s.physWrite pa bs).cursors = s.cursors := by unfold State.physWrite; split <;> rfl
@[simp] theorem physWrite_waiting (pa : Nat) (bs : List Byte) : (s.physWrite pa bs).waiting = s.waiting := by unfold State.physWrite; split <;> rfl
@[simp] theorem physWrite_cmds (pa : Nat) (bs : List Byte) : (s.physWrite pa bs).cmds = s.cmds := by unfold State.physWrite; split <;> rfl
@[simp] theorem physWrite_trans (pa : Nat) (bs : List Byte) : (s.physWrite pa bs).trans = s.trans := by unfold State.physWrite; split <;> rfl
@[simp] theorem physWrite_bruora (pa : Nat) (bs : List Byte) : (s.physWrite pa bs).bruora = s.bruora := by unfold State.physWrite; split <;> rfl
@[simp] theorem physWrite_dict (pa : Nat) (bs : List Byte) : (s.physWrite pa bs).dict = s.dict := by unfold State.physWrite; split <;> rfl
@[simp] theorem physWrite_integ (pa : Nat) (bs : List Byte) : (s.physWrite pa bs).integ = s.integ := by unfold State.physWrite; split <;> rfl
@[simp] theorem physWrite_obs (pa : Nat) (bs : List Byte) : (s.physWrite pa bs).obs = s.obs := by unfold State.physWrite; split <;> rfl
@[simp] theorem physWrite_barn (pa : Nat) (bs : List Byte) : (s.physWrite pa bs).barn = s.barn := by unfold State.physWrite; split <;> rfl
@[simp] theorem physWrite_outbox (pa : Nat) (bs : List Byte) : (s.physWrite pa bs).outbox = s.outbox := by unfold State.physWrite; split <;> rfl
@[simp] theorem physWrite_issued (pa : Nat) (bs : List Byte) : (s.physWrite pa bs).issued = s.issued := by unfold State.physWrite; split <;> rfl

end State
end Sys2Proof.Machine
end

