-- ==== Sys2Proof/Laws/Orders.lean ====
section
/-! SUPPORT. Laws/Orders.lean: what serving a dictionary order does: counters, answers, and the write itself. -/
namespace Sys2Proof.Machine
open Safety
namespace State
variable (s : State)

/-! ### Values -/

@[simp] theorem reg_setReg_self (i u v d : Nat) : (s.setReg i u v).reg i u d = v := by simp [reg, setReg]

theorem find?_setReg {i u k : Nat} (h : k ≠ key i u) (v : Nat) :
    Table.find? k (s.setReg i u v).dict.regs = Table.find? k s.dict.regs := Table.find?_put_ne h v _

theorem find?_bump {i u k : Nat} (h : k ≠ key i u) (n : Nat) :
    Table.find? k (s.bump i u n).dict.regs = Table.find? k s.dict.regs := by
  unfold bump; dsimp only; split
  · rfl
  · exact Table.find?_put_ne h _ _

@[simp] theorem setReg_kept (i u v : Nat) : (s.setReg i u v).dict.kept = s.dict.kept := rfl
@[simp] theorem setReg_wearList (i u v : Nat) : (s.setReg i u v).dict.wearList = s.dict.wearList := rfl
@[simp] theorem bump_kept (i u n : Nat) : (s.bump i u n).dict.kept = s.dict.kept := rfl
@[simp] theorem bump_wearList (i u n : Nat) : (s.bump i u n).dict.wearList = s.dict.wearList := rfl
@[simp] theorem bump_busy (i u n : Nat) : (s.bump i u n).dict.busy = s.dict.busy := rfl
@[simp] theorem bump_request (i u n : Nat) : (s.bump i u n).dict.request = s.dict.request := rfl
@[simp] theorem bump_vectors (i u n : Nat) : (s.bump i u n).dict.vectors = s.dict.vectors := rfl

/-- A bump changes the dictionary alone. -/
theorem bump_eq (i u n : Nat) : s.bump i u n = { s with dict := (s.bump i u n).dict } := rfl

/-! ### Answers -/

theorem interrupt_eq (v : Nat) : s.interrupt v = { s with dict := (s.interrupt v).dict, outbox := (s.interrupt v).outbox } := by
  unfold interrupt; dsimp only; repeat (split <;> try rfl)

@[simp] theorem interrupt_regs (v : Nat) : (s.interrupt v).dict.regs = s.dict.regs := by
  unfold interrupt; dsimp only; repeat (split <;> try rfl)
@[simp] theorem interrupt_kept (v : Nat) : (s.interrupt v).dict.kept = s.dict.kept := by
  unfold interrupt; dsimp only; repeat (split <;> try rfl)
@[simp] theorem interrupt_wearList (v : Nat) : (s.interrupt v).dict.wearList = s.dict.wearList := by
  unfold interrupt; dsimp only; repeat (split <;> try rfl)

theorem mem_interrupt {o : Out} (v : Nat) (h : o ∈ s.outbox) : o ∈ (s.interrupt v).outbox := by
  unfold interrupt; dsimp only; repeat (split <;> try exact h)
  exact List.mem_append_left _ h

/-- An answer that goes to no peer package changes the dictionary's mailbox and vectors, and what is sent. -/
theorem respond_eq {r : Request} (h : ∀ p, r.path ≠ .peer p) (op : Nat) (a : Nat) (b : List Byte) :
    s.respond op r a b = { s with dict := (s.respond op r a b).dict, outbox := (s.respond op r a b).outbox } := by
  unfold respond; dsimp only; split
  · rfl
  · rfl
  · exact absurd ‹_› (h _)
  · rw [interrupt_eq]; rfl
  · rfl

/-- Its answer stands in what was sent, under the `OP` that its request carried. -/
theorem respond_mem {r : Request} (h : ∀ p, r.path ≠ .peer p) (op : Nat) (a : Nat) (b : List Byte) :
    Out.response r.path (r.badOp.getD op) r.tag a b ∈ (s.respond op r a b).outbox := by
  unfold respond; dsimp only; split
  · simp [send]
  · simp [send]
  · exact absurd ‹_› (h _)
  · exact mem_interrupt _ _ (by simp [send])
  · simp [send]

theorem respond_regs {r : Request} (h : ∀ p, r.path ≠ .peer p) (op : Nat) (a : Nat) (b : List Byte) :
    (s.respond op r a b).dict.regs = s.dict.regs := by
  unfold respond; dsimp only; split <;> first | exact absurd ‹_› (h _) | simp [send]
theorem respond_kept {r : Request} (h : ∀ p, r.path ≠ .peer p) (op : Nat) (a : Nat) (b : List Byte) :
    (s.respond op r a b).dict.kept = s.dict.kept := by
  unfold respond; dsimp only; split <;> first | exact absurd ‹_› (h _) | simp [send]
theorem respond_wearList {r : Request} (h : ∀ p, r.path ≠ .peer p) (op : Nat) (a : Nat) (b : List Byte) :
    (s.respond op r a b).dict.wearList = s.dict.wearList := by
  unfold respond; dsimp only; split <;> first | exact absurd ‹_› (h _) | simp [send]

theorem respond_proj {α : Type} (f : State → α) (hf : ∀ s d o, f { s with dict := d, outbox := o } = f s) {r : Request}
    (h : ∀ p, r.path ≠ .peer p) (op : Nat) (a : Nat) (b : List Byte) : f (s.respond op r a b) = f s := by
  rw [respond_eq s h]; exact hf _ _ _

/-! ### The checks do not see the counters -/

theorem counted_eq : counted s = { s with dict := (counted s).dict } := bump_eq _ _ _ _

@[simp] theorem counted_stuck : (counted s).dict.stuck = s.dict.stuck := rfl
@[simp] theorem counted_kept : (counted s).dict.kept = s.dict.kept := bump_kept ..
@[simp] theorem counted_wearList : (counted s).dict.wearList = s.dict.wearList := bump_wearList ..

theorem counted_keptReg (i u d : Nat) : (counted s).keptReg i u d = s.keptReg i u d := by
  unfold keptReg; rw [counted_kept]

theorem counted_accessAborts (r : Request) (w : Bool) : (counted s).accessAborts r w = s.accessAborts r w := by
  have h (x : DictPath) : (counted s).admitted x = s.admitted x := by cases x <;> simp only [admitted, counted_keptReg]
  unfold accessAborts headerAborts dictReady
  simp only [h]
  rw [counted_kept, counted_eq]

theorem counted_orderStuck (r : Request) : (counted s).orderStuck r = s.orderStuck r := by
  unfold orderStuck commitFails stuckCopies
  simp only [counted_keptReg, counted_stuck]

theorem lowestAbort_nil : lowestAbort [] = none := rfl

/-! ### Serving -/

/-- An order that is admitted, unrivalled and applied without an abort is answered with success. -/
theorem serveWrite_ok {s s1 : State} {r : Request} {rivals : List Request} {e : DictEntry} (h : Admitted s r)
    (hu : Unrivalled s r rivals) (he : dictEntry? r.index r.sub = some e)
    (ha : (counted s).applyEntry r e (rivals.filter (counted s).passes) = (s1, 0)) :
    s.serveWrite r rivals = (notePrior (counted s) s1 r.index r.sub e).respond 1 r 0 [] := by
  have h1 : (counted s).tryWrite r (rivals.filter (counted s).passes) = (s1, 0) := by
    unfold tryWrite
    rw [counted_accessAborts, h.1.2, he]
    exact ha
  unfold serveWrite
  rw [h.1.1]
  have hu' : (s.bump 0x1010 0x05 1).loses r rivals = false := hu
  have h1' : (s.bump 0x1010 0x05 1).tryWrite r (rivals.filter (s.bump 0x1010 0x05 1).passes) = (s1, 0) := h1
  have hs : ((s.bump 0x1010 0x05 1).orderStuck r != 0) = false := by
    rw [show (s.bump 0x1010 0x05 1).orderStuck r = 0 from (counted_orderStuck s r).trans h.2]; rfl
  simp only [h1', hu', hs, he, Bool.not_true, Bool.false_eq_true, if_false, bne_self_eq_false]
  rfl

/-- An order that is admitted and aborted by its value changes nothing but the counters of requests. -/
theorem serveWrite_abort {s s1 : State} {r : Request} {rivals : List Request} {e : DictEntry} {a : Nat} (h : Admitted s r)
    (he : dictEntry? r.index r.sub = some e) (hne : a ≠ 0)
    (ha : (counted s).applyEntry r e (rivals.filter (counted s).passes) = (s1, a)) :
    s.serveWrite r rivals = s1.abortWith 1 r a := by
  have h1 : (counted s).tryWrite r (rivals.filter (counted s).passes) = (s1, a) := by
    unfold tryWrite
    rw [counted_accessAborts, h.1.2, he]
    exact ha
  unfold serveWrite
  rw [h.1.1]
  have h1' : (s.bump 0x1010 0x05 1).tryWrite r (rivals.filter (s.bump 0x1010 0x05 1).passes) = (s1, a) := h1
  have hb : (a != 0) = true := by simp [hne]
  simp only [h1', hb, Bool.not_true, Bool.false_eq_true, if_false, if_true]

/-- A row of one entry serves the order. -/
theorem ownRow_eq {s : State} {r : Request} {rivals : List Request} {base : Nat} {subs : List Nat}
    (h : (dictFamily r.index).1 = base) (hs : subs.contains r.sub = true) : s.ownRow r rivals base subs = s.serveWrite r rivals := by
  unfold ownRow; rw [if_pos ⟨h, hs⟩]

end State
end Sys2Proof.Machine
end

