-- ==== Sys2Proof/Machine/Catalogue.lean ====
section
/-! DEFINITION. Machine/Catalogue.lean: the accuracy of the shipped catalogue (R109), as a property of the published images'
words, which are constants of the part (Config.shippedWord): a claim on accuracy takes `ShippedBounds` as its premise. -/
namespace Sys2Proof.Machine

/-- `y` is the real number that a value stands for. -/
def Val.IsReal (v : Val) (y : ℝ) : Prop :=
  match v with
  | .zero _ => y = 0
  | .fin s m => (if s then y < 0 else 0 < y) ∧ |y| ^ m.root * m.den = m.num
  | _ => False

/-- `r` lies within `e` FP32 ulps of the exact result `y`. -/
def WithinUlps (e y r : ℝ) : Prop := ∃ k : ℤ, (2 : ℝ) ^ k ≤ |y| ∧ |y| < (2 : ℝ) ^ (k + 1) ∧ |r - y| ≤ e * (2 : ℝ) ^ (k - 23)

/-- R109: the exact function of a shipped slot. -/
def CatalogueFunction (slot : Nat) (x y : ℝ) : Prop :=
  let erf : ℝ := 2 / Real.sqrt Real.pi * ∫ t in (0 : ℝ)..(x / Real.sqrt 2), Real.exp (-t ^ 2)
  match slot with
  | 0 => y = (2 : ℝ) ^ x
  | 1 => y = Real.exp x
  | 2 => y = Real.logb 2 x
  | 3 => y = Real.log x
  | 4 => y = 1 / x
  | 5 => y = 1 / Real.sqrt x
  | 6 => y = Real.sin x
  | 7 => y = Real.cos x
  | 8 => y = 1 / (1 + Real.exp (-x))
  | 9 => y = Real.tanh x
  | 10 => y = x * (1 + erf) / 2
  | 11 => y = x * (1 + Real.tanh (Real.sqrt (2 / Real.pi) * (x + 0.044715 * x ^ 3))) / 2
  | 12 => y = x / (1 + Real.exp (-x))
  | _ => y = Real.log (1 + Real.exp x)

/-- The normal range of FP32. -/
def NormalReal (y : ℝ) : Prop := (2 : ℝ) ^ (-126 : ℤ) ≤ |y| ∧ |y| < (2 : ℝ) ^ (128 : ℤ)

/-- R109: the range of a slot, and the bound that its result `r` meets there; an exact result of 0 is delivered as 0. -/
def CatalogueBound (slot : Nat) (x y r : ℝ) : Prop :=
  let ulps (e : ℝ) : Prop := if y = 0 then r = 0 else WithinUlps e y r
  match slot with
  | 0 => NormalReal y → ulps 1.5
  | 1 => NormalReal y → ulps 2
  | 2 => 0 < x → NormalReal x → ulps 1.5
  | 3 => 0 < x → NormalReal x → ulps 2
  | 4 => 0 < x → NormalReal x → NormalReal y → ulps 1
  | 5 => 0 < x → NormalReal x → ulps 1.5
  | 6 | 7 => ulps 2
  | 8 => if 0 ≤ x then ulps 1.5 else |r - y| ≤ (2 : ℝ) ^ (-24 : ℤ)
  | 9 => ulps 1.5
  | 10 | 11 | 12 => if 0 ≤ x then ulps 2 else |r - y| ≤ |x| * (2 : ℝ) ^ (-24 : ℤ)
  | _ => if -88 ≤ x then ulps 2 else |r - y| ≤ (2 : ℝ) ^ (-126 : ℤ)

/-- R109: the shipped tables meet the bounds of the catalogue, on every finite FP32 input that is not subnormal. -/
def ShippedBounds : Prop :=
  ∀ slot < 14, ∀ code < 2 ^ 32, (readElem .fp32 false false code).conv.flushed = false →
    ∀ x : ℝ, (decodeFloat .fp32 code).IsReal x → ∀ y : ℝ, CatalogueFunction slot x y →
      ∀ r : ℝ, (evalFast (Image.shipped slot).inService (decodeFloat .fp32 code)).val.IsReal r → CatalogueBound slot x y r

end Sys2Proof.Machine
end

