-- ==== Sys2Proof/WellFormed.lean ====
section
/-! DEFINITION. WellFormed.lean: which commands have operands that the spec's own fields can hold. A command whose
operand lies outside its field cannot arise; `exec` stays total on it. -/
namespace Sys2Proof

/-- A queue number (R255). -/
def queueOk (q : Nat) : Bool := q < 2 ^ 20

/-- A free-running 32-bit ring index (R259). -/
def ringOk (i : Nat) : Bool := i < 2 ^ 32

/-- One of the two dies (R1). -/
def dieOk (die : Nat) : Bool := die < 2

/-- A region: 8 × die + region (R1). -/
def regionOk (region : Nat) : Bool := region < 16

/-- A logical cluster of a region (R1, R9). -/
def clusterOk (cluster : Nat) : Bool := cluster < 16

/-- A physical cluster of a region (R9). -/
def physicalOk (cluster : Nat) : Bool := cluster < 18

/-- A unit locator (R10). -/
def locOk (loc : Nat) : Bool := loc < 2 ^ 32

/-- A PASID (R239). -/
def pasidOk (pasid : Nat) : Bool := pasid < 2 ^ 20

/-- A byte address of 57 bits (R241). -/
def addressOk (va : Nat) : Bool := va < 2 ^ 57

/-- A cadence input (R285). -/
def inputOk (c : Nat) : Bool := c < 4

/-- A schedule entry (R289). -/
def entryOk (e : Nat) : Bool := e < 4096

/-- An engine port (R302). -/
def portOk (p : Nat) : Bool := p < 16

/-- A package number (R1). -/
def packageOk (p : Nat) : Bool := p < 64

/-- The requesters of a dictionary path (R329). -/
def pathOk : DictPath → Bool
  | .dictCommand q => queueOk q
  | .peer p => packageOk p
  | _ => true

/-- A request header's fields (R332). -/
def requestOk (r : Request) : Bool :=
  pathOk r.path && r.tag < 2 ^ 8 && r.index < 2 ^ 16 && r.sub < 2 ^ 8 && r.length < 2 ^ 16 && r.offset < 2 ^ 32 &&
    r.endpoint < 2 ^ 8 && (r.badOp.all fun op => 2 < op && op < 2 ^ 8) && r.cut.all fun dies => dies < 4

/-- A write with the other orders of its clk. -/
def ordersOk (r : Request) (rivals : List Request) : Bool := requestOk r && rivals.all requestOk

/-- A Bruora transaction message's fields (R314). -/
def messageOk (m : Message) : Bool :=
  m.kind < 2 ^ 8 && packageOk m.src && packageOk m.dst && m.seq < 2 ^ 32 && m.segs.all fun g => !g.2.isEmpty

/-- An affected command: its queue and its ring index. -/
def commandOk : Option (Nat × Nat) → Bool
  | some (q, i) => queueOk q && ringOk i
  | none => true

/-- Operands within the fields that the spec gives them. -/
def wellFormed : Instr → Bool
  | .attend q => queueOk q
  | .gemm q => queueOk q
  | .chain2 q => queueOk q
  | .norm q => queueOk q
  | .func q => queueOk q
  | .moveTransfer q => queueOk q
  | .moveFill q => queueOk q
  | .moveCopy q => queueOk q
  | .moveConvert q => queueOk q
  | .kvAppend q => queueOk q
  | .kvGather q => queueOk q
  | .kvCreate q => queueOk q
  | .kvSharePrefix q => queueOk q
  | .kvFree q => queueOk q
  | .kvTruncate q => queueOk q
  | .kvHint q => queueOk q
  | .kvQuery q => queueOk q
  | .syncSemaphore q => queueOk q
  | .syncCounterWait q => queueOk q
  | .syncMemoryWait q => queueOk q
  | .syncMemoryAdd q => queueOk q
  | .syncMemoryStore q => queueOk q
  | .table q => queueOk q
  | .dump q => queueOk q
  | .dumpLapse place => place < 16
  | .timed q => queueOk q
  | .timedReleasePoint q i _ => queueOk q && ringOk i
  | .fence q => queueOk q
  | .fenceRelease q i => queueOk q && ringOk i
  | .dictRead q => queueOk q
  | .dictWrite q => queueOk q
  | .commandCompletion q i => queueOk q && ringOk i
  | .commandRerun q i _ => queueOk q && ringOk i
  | .doorbellDescTail q value => queueOk q && ringOk value
  | .doorbellComplHead q value => queueOk q && ringOk value
  | .queueBind r rivals => ordersOk r rivals
  | .queueUnbind r rivals => ordersOk r rivals
  | .queueStop r rivals => ordersOk r rivals
  | .queueStart r rivals => ordersOk r rivals
  | .borrowGrant q => queueOk q
  | .mutualWaitYield region => regionOk region
  | .queueYield q => queueOk q
  | .retireUnit r rivals => ordersOk r rivals
  | .returnUnit r rivals => ordersOk r rivals
  | .slotHandover loc => locOk loc
  | .clusterMove region cluster => regionOk region && clusterOk cluster
  | .quarantineUnit r rivals => ordersOk r rivals
  | .releaseUnit r rivals => ordersOk r rivals
  | .rotationStep region cluster _ => regionOk region && physicalOk cluster
  | .selfTestComplete loc result => locOk loc && (match result with
      | .columns failed => failed.all fun n => n < 67
      | _ => true)
  | .probationComplete loc => locOk loc
  | .probationOverrun region cluster _ => regionOk region && physicalOk cluster
  | .knownAnswerTile loc => locOk loc
  | .faultDetected code loc detail affected _ => code < 2 ^ 16 && locOk loc && detail < 2 ^ 64 && commandOk affected
  | .correctedLimitExceeded loc _ => locOk loc
  | .scrubSweep die _ _ bad => dieOk die && bad.all fun x => regionOk x.1 && clusterOk x.2.1 && x.2.2 < 3072
  | .dieSelfTestComplete die _ => dieOk die
  | .yardAccessViolation loc q i => locOk loc && queueOk q && ringOk i
  | .ledgerHead r rivals => ordersOk r rivals
  | .ledgerOverflowClear r rivals => ordersOk r rivals
  | .worstClear r rivals => ordersOk r rivals
  | .descriptorBurstArrival q i => queueOk q && ringOk i
  | .descriptorCompletion q i _ => queueOk q && ringOk i
  | .semaphoreWaitSatisfied q i _ => queueOk q && ringOk i
  | .arrivalWaitSatisfied q i => queueOk q && ringOk i
  | .memoryWaitPoll q i => queueOk q && ringOk i
  | .gatedTileStart q i _ => queueOk q && ringOk i
  | .gateTimeout q i => queueOk q && ringOk i
  | .granaryWriterRelease q i => queueOk q && ringOk i
  | .translationCompletion die pasid va _ => dieOk die && pasidOk pasid && addressOk va
  | .invalidation pasid va _ => pasidOk pasid && addressOk va
  | .invalidationCompletion pasid va _ => pasidOk pasid && addressOk va
  | .pageRequestResponse die pasid page _ => dieOk die && pasidOk pasid && addressOk (4096 * page)
  | .pageRequestTimeout die pasid page => dieOk die && pasidOk pasid && addressOk (4096 * page)
  | .timeBusUpdate die bus _ => dieOk die && bus < 2 ^ 64
  | .timeBusLoss die _ => dieOk die
  | .cadencePulse c _ => inputOk c
  | .pulseWindowEnd c _ => inputOk c
  | .inputEnable r rivals => ordersOk r rivals
  | .nextFrame r rivals => ordersOk r rivals
  | .cadenceRate r rivals => ordersOk r rivals
  | .scheduleEntry r rivals => ordersOk r rivals
  | .bellmanMode r rivals => ordersOk r rivals
  | .scheduleRelease e _ => entryOk e
  | .prefetchLaunch e _ => entryOk e
  | .deadlineCheck e q _ => (match e with
      | some n => entryOk n
      | none => true) && queueOk q
  | .transferDeadlineDue q i _ _ => queueOk q && ringOk i
  | .counterSnapshot e _ => entryOk e
  | .epochEnd e _ => (match e with
      | some n => entryOk n
      | none => true)
  | .epochDecision _ => true
  | .flitReceived p flit _ => portOk p && flit.length == 256
  | .replayRequest p _ => portOk p
  | .lightDetected p => portOk p
  | .trainingComplete p lanes package port _ _ => portOk p && lanes < 2 ^ 18 && packageOk package && portOk port
  | .portDarkTimeout p => portOk p
  | .laneLoss p lane => portOk p && lane < 18
  | .laneErrorRateCheck p lane _ => portOk p && lane < 18
  | .remoteWrite m => messageOk m
  | .remoteReadRequest m => messageOk m
  | .readData m => messageOk m
  | .acknowledge m => messageOk m
  | .nack m => messageOk m
  | .transitForward m => messageOk m
  | .linkRecoveryTimeout dst => packageOk dst
  | .linkRecovered dst => packageOk dst
  | .windowOpen q => queueOk q
  | .windowClose q => queueOk q
  | .requestRead r => requestOk r
  | .requestWrite r rivals => ordersOk r rivals
  | .requestDescribe r => requestOk r
  | .mailboxGo header data => header.length == 16 && data.length ≤ 1024
  | .mailboxDoneClear value => value < 2 ^ 32
  | .mmioStrayAccess _ offset => offset < 2 ^ 24
  | .vectorTableWrite v address data _ => v < 4096 && address < 2 ^ 64 && data < 2 ^ 32
  | .fwUpdate r rivals => ordersOk r rivals
  | .rollbackCommit r rivals => ordersOk r rivals
  | .keyRevoke r rivals => ordersOk r rivals
  | .debugLockRaise r rivals => ordersOk r rivals
  | .ownerHashProgram r rivals => ordersOk r rivals
  | .decommission r rivals => ordersOk r rivals
  | .scopeClose r rivals => ordersOk r rivals
  | .debugNonceRead r => requestOk r
  | .debugResponse r rivals => ordersOk r rivals
  | .ownerPassword r rivals => ordersOk r rivals
  | .recoveryStatus endpoint => endpoint < 2 ^ 8
  | .recoveryBegin endpoint length => endpoint < 2 ^ 8 && length < 2 ^ 32
  | .recoveryData endpoint offset data => endpoint < 2 ^ 8 && offset < 2 ^ 32 && data.length < 2 ^ 16
  | .recoveryEnd endpoint => endpoint < 2 ^ 8
  | .recoveryAbort endpoint => endpoint < 2 ^ 8
  | .counterFreeze r rivals => ordersOk r rivals
  | .freezeSnapshot die _ => dieOk die
  | .counterThaw r rivals => ordersOk r rivals
  | .daybookSync die _ => dieOk die
  | .breakpoint r rivals => ordersOk r rivals
  | .breakpointHit b loc _ _ cmd => 1 ≤ b && b ≤ 8 && locOk loc && commandOk cmd
  | .breakResume r rivals => ordersOk r rivals
  | .powerCap r rivals => ordersOk r rivals
  | .throttleAssert => true
  | .throttleRelease => true
  | .resetOrderWarm r rivals => ordersOk r rivals
  | .resetOrderCold r rivals => ordersOk r rivals
  | .pwrGoodFall => true
  | .pwrGoodRise => true
  | .coldResetAssert => true
  | .coldResetRelease _ dies light => dies < 4 && light < 2 ^ 16
  | .warmResetEntry _ => true
  | .warmResetRelease _ dies => dies < 4
  | .bruoraTrainingBudgetEnd => true
  | .startupTimeout => true
  | .fwSlotWriteComplete _ => true

end Sys2Proof
end

