-- ==== Sys2Proof/Tests/Slice0.lean ====
section
/-! SUPPORT. Tests/Slice0.lean: operands that WellFormed refuses; for each statement a state and operands that meet the
hypotheses of each of its clauses together, at boundary values; and results worked out by hand from the spec. -/
open Sys2Proof Sys2Proof.Machine Sys2Proof.Safety
namespace Sys2Proof.Tests
set_option Elab.async false

/-! ### Small states -/

/-- A write of an entry over the management path. -/
def ord (i u v : Nat) : Request :=
  { path := .management, tag := 7, index := i, sub := u, length := ((dictEntry? i u).map DictEntry.len).getD 1, offset := 0,
    reserved := false, data := leBytes (((dictEntry? i u).map DictEntry.len).getD 1) v }
/-- A read of n bytes. -/
def ask (i u n : Nat) : Request :=
  { path := .hostMctp, tag := 7, index := i, sub := u, length := n, offset := 0, reserved := false, data := [] }
/-- The order has a response, no check refuses it, and no order of its clk wins over it. -/
abbrev fits (s : State) (r : Request) : Prop := Admitted s r ∧ Unrivalled s r []

/-- A queue record: PASID 5, rings of 64 at 0x10000 and 0x11000, 64 units, 8 to borrow, 2 clusters. -/
def qword : Nat :=
  5 + 3 * 2 ^ 20 + 6 * 2 ^ 64 + 0x10 * 2 ^ 76 + 6 * 2 ^ 128 + 0x11 * 2 ^ 140 + 0x100 * 2 ^ 204 + 64 * 2 ^ 384 + 8 * 2 ^ 392 +
    2 * 2 ^ 400 + 8 * 2 ^ 408 + 8 * 2 ^ 417 + 4 * 2 ^ 432
def page : Entry := { pasid := 5, va := 0, bytes := 2 ^ 30, pa := 0, read := true, write := true, atomic := true, asked := true }
/-- Queue 3 bound and running, its task's first GiB translated. -/
def bound : State :=
  { State.reset with
    queues := [(3, { queueOf qword 0 with part := some 0 })], trans := { die0 := [page] },
    loft := { parts := [(0, { state := 1, pasid := 5, ctrCount := 8, semCount := 8, units := 64, mask := 3 })] },
    granary := { staged := 4 } }
def withQ (s : State) (f : Queue → Queue) : State := s.onQueue 3 f
/-- n bytes with numbers at byte offsets. -/
def bytes (n : Nat) (fs : List (Nat × Nat)) : List Byte := leBytes n ((fs.map fun f => f.2 * 2 ^ (8 * f.1)).sum)
def desc (fs : List (Nat × Nat)) : List Byte := bytes 64 fs
def mems (s : State) (ms : List (Nat × List Byte)) : State := ms.foldl (fun s m => s.physWrite m.1 m.2) s
/-- One command in queue 3's ring, with memory. -/
def next (s : State) (fs : List (Nat × Nat)) (ms : List (Nat × List Byte) := []) : State :=
  withQ (mems s ((0x10000, desc fs) :: ms)) fun k => { k with tail := 1 }
/-- A command of queue 3 in flight, and the state with it. -/
def flying (fs : List (Nat × Nat)) (w : Wait) : Cmd :=
  { q := 3, i := 0, pasid := 5, die := 0, region := 0, clusters := 3, recs := { desc := desc fs }, wait := w }
def flight (s : State) (c : Cmd) : State := { withQ s (fun k => { k with head := 1, tail := 1 }) with cmds := [c] }
def unit0 : Nat := unitLoc 0 0 1 0 0xFF
def unit4 : Nat := unitLoc 0 0 1 4 0xFF
def withKept (s : State) (i u v : Nat) : State := { s with dict := { kept := [(State.key i u, { value := v, writes := 1 })] } }

/-! ### Issue, computed -/

/-- `Checked`, as a computation. -/
def checked (s : State) (q : Nat) (k : Queue) : Bool :=
  s.queue? q == some k && s.ready q k && s.turn q k && decide (s.reach (16 + k.region / 8) k.pasid (descAt k) 64 0 = .ok) &&
    decide (s.poisonAt (16 + k.region / 8) k.pasid (descAt k) 64 = none) && decide (k.issueFailure = none) &&
    decide (s.reachAll (16 + k.region / 8) k.pasid (checkReads s k) = none) &&
    decide (s.poisonIn (16 + k.region / 8) k.pasid (checkReads s k) = none) &&
    !(afterReads s k).granaryHeld (nextCmd s q k) (afterReads s k).cmds

theorem checked_sound {s : State} {q : Nat} {k : Queue} (h : checked s q k = true) : Checked s q k := by
  simp only [checked, Bool.and_eq_true, decide_eq_true_eq, beq_iff_eq, Bool.not_eq_true'] at h
  obtain ⟨⟨⟨⟨⟨⟨⟨⟨h1, h2⟩, h3⟩, h4⟩, h5⟩, h6⟩, h7⟩, h8⟩, h9⟩ := h
  exact ⟨h1, h2, h3, h4, h5, h6, h7, h8, h9⟩

/-- What queue q issues. -/
def issued (s : State) (q : Nat) : Option (State × Cmd) :=
  match s.queue? q with
  | none => none
  | some k =>
    if checked s q k = true ∧ lowest ((afterReads s k).allCodes k (nextCmd s q k)) = none ∧
        min (needUnits ((afterReads s k).issueEnv k (nextCmd s q k).recs.strict) (nextCmd s q k).recs (nextCmd s q k).prods)
          (k.floor + k.borrow) ≤ ((afterReads s k).partOf k).units then
      match (afterReads s k).kvAtIssue (nextCmd s q k) with
      | (s1, .ok c0) => match (taken s1 q k c0).queue? q with
        | some k1 =>
          if ((taken s1 q k c0).sampleIssue k1 c0).1.mayRun ((taken s1 q k c0).sampleIssue k1 c0).2 = true ∧
              ((taken s1 q k c0).sampleIssue k1 c0).1.breakHolds ((taken s1 q k c0).sampleIssue k1 c0).2 = false then
            some ((taken s1 q k c0).sampleIssue k1 c0)
          else none
        | none => none
      | (_, .error _) => none
    else none

theorem issued_sound {s : State} {q : Nat} {x : State × Cmd} (h : issued s q = some x) : Issues s q x.1 x.2 := by
  unfold issued at h
  split at h
  · cases h
  · rename_i k hk
    split at h
    · rename_i hc
      split at h
      · rename_i s1 c0 hg
        split at h
        · rename_i k1 hk1
          split at h
          · rename_i hr
            obtain rfl := Option.some.inj h
            exact ⟨k, s1, c0, k1, ⟨checked_sound hc.1, hc.2.1, hc.2.2, hg⟩, hk1, rfl, hr.1, hr.2⟩
          · cases h
        · cases h
      · cases h
    · cases h

/-- A queue that issues a command with a property: by evaluation. -/
theorem issues_with {s : State} {q : Nat} {P : State → Cmd → Prop} [∀ v c, Decidable (P v c)]
    (h : (issued s q).any (fun x => decide (P x.1 x.2)) = true) : ∃ v c, Issues s q v c ∧ P v c := by
  obtain ⟨x, hx, hp⟩ := Option.any_eq_true _ _ |>.mp h
  exact ⟨x.1, x.2, issued_sound hx, of_decide_eq_true hp⟩

/-! ### Operands that are refused as ill formed -/

/-- One operand past its field for each check of WellFormed. -/
theorem test_ill_formed : ([.gemm (2 ^ 20), .commandCompletion 3 (2 ^ 32), .daybookSync 2 0, .mutualWaitYield 16, .clusterMove 0 16,
    .slotHandover (2 ^ 32), .invalidation (2 ^ 20) 0 4096, .invalidation 5 (2 ^ 57) 4096, .cadencePulse 4 0, .scheduleRelease 4096 0,
    .lightDetected 16, .linkRecovered 64, .requestRead { ask 0x1000 1 4 with path := .dictCommand (2 ^ 20) },
    .requestRead { ask 0x1000 1 4 with path := .peer 64 }, .requestRead (ask (2 ^ 16) 1 4), .requestRead { ask 0x1000 1 4 with endpoint := 256 },
    .requestRead { ask 0x1000 1 4 with badOp := some 2 }, .requestWrite { ord 0x2600 7 3 with cut := some 4 } [], .requestWrite (ord 0x1000 256 4) [],
    .queueStop (ord 0x2900 0x12 3) [ask 0x1000 1 (2 ^ 16)],
    .remoteWrite { kind := 256, src := 0, dst := 0, window := 0, seq := 0, offset := 0, transit := false, length := 0, incarnation := 0, segs := [] },
    .nack { kind := 5, src := 64, dst := 0, window := 0, seq := 0, offset := 0, transit := false, length := 0, incarnation := 0, segs := [] },
    .readData { kind := 3, src := 1, dst := 0, window := 0, seq := 0, offset := 0, transit := false, length := 0, incarnation := 0, segs := [(0, [])] },
    .faultDetected 0x2C01 0 0 (some (2 ^ 20, 0)) true] : List Instr).map wellFormed = List.replicate 24 false := by decide

/-- The last value of each field is well formed. -/
theorem test_well_formed : ([.gemm (2 ^ 20 - 1), .commandCompletion 3 (2 ^ 32 - 1), .daybookSync 1 0, .mutualWaitYield 15,
    .clusterMove 15 15, .slotHandover (2 ^ 32 - 1), .cadencePulse 3 0, .scheduleRelease 4095 0, .lightDetected 15, .linkRecovered 63,
    .queueStop (ord 0x2900 0x12 3) [ord 0x2900 0x13 3]] : List Instr).map wellFormed = List.replicate 11 true := by decide

/-- No row of the table gives bits (log entry 8), so no word spells a command, and nothing is put into the queue. -/
theorem test_no_word_spells_a_command (s : State) (nbits w : Nat) : decodeTableWord nbits w = none ∧ s.withFetchWord nbits w = s :=
  ⟨rfl, rfl⟩

/-! ### Witnesses: states and operands that meet each clause's hypotheses together -/

theorem witness_StepRunsTheFrontCommand :
    ({ State.reset with pending := [.gemm 3, .fence 3] } : State).pending = .gemm 3 :: [.fence 3] ∧ State.reset.pending = [] := by decide

theorem inv_of {s : State} (h : (Memory.wf s.devMem = true ∧ Memory.wf s.hostMem = true) ∧ Safety.ringOk s.integ.ledger0 ∧ Safety.ringOk s.integ.ledger1 ∧
    s.bruora.ports.length = 16 ∧ s.bell.inputs.length = 4 ∧ s.pins.dies < 4 ∧ (s.obs.halts.length ≤ 16 ∧ s.obs.haltNext < 16) ∧
    Table.rising s.bell.schedule = true) : Inv s :=
  ⟨h.1, h.2.1, h.2.2.1, h.2.2.2.1, h.2.2.2.2.1, h.2.2.2.2.2.1, h.2.2.2.2.2.2.1, h.2.2.2.2.2.2.2⟩

/-- A state beyond reset that meets the invariant: memory, a schedule, a full and turned ledger. -/
def invState : State :=
  { mems bound [(0x20000, [1, 2, 3])] with
    bell := { schedule := [(0, 1), (4095, 2)] }, integ := { ledger0 := { head := 1023, count := 1024, tail := 1023 } } }
theorem witness_EveryStepKeepsTheInvariant : Inv invState ∧ ∃ t, step invState = .next t :=
  ⟨inv_of (by simp only [Safety.ringOk]; decide +kernel), _, rfl⟩

def stopped : State := withQ bound fun k => { k with state := 2 }
theorem witness_QueueOrders :
    (fits bound (ord 0x2900 0x12 3) ∧ written (ord 0x2900 0x12 3) = 3 ∧ bound.queue? 3 ≠ none) ∧
    (fits stopped (ord 0x2900 0x13 3) ∧ written (ord 0x2900 0x13 3) = 3 ∧ stopped.queue? 3 ≠ none) ∧
    (fits stopped (ord 0x2900 0x11 3) ∧ (stopped.queue? 3).map Queue.state = some 2 ∧ stopped.cmds = []) ∧
    (fits bound (ord 0x2900 0x11 3) ∧ (bound.queue? 3).map Queue.state = some 1) ∧
    (fits State.reset (ord 0x2900 0x10 (qword * 2 ^ 32 + (2 ^ 20 - 1))) ∧ written (ord 0x2900 0x10 (qword * 2 ^ 32 + (2 ^ 20 - 1))) % 2 ^ 32 = 2 ^ 20 - 1 ∧
      written (ord 0x2900 0x10 (qword * 2 ^ 32 + (2 ^ 20 - 1))) / 2 ^ 32 = qword ∧ State.reset.queue? (2 ^ 20 - 1) = none ∧ bindMalformed qword = false ∧
      bits qword 19 0 ≠ 0 ∧ State.reset.queues = [] ∧ bits qword 455 432 ≤ (counted State.reset).freeSheaves ∧
      ((counted State.reset).place (2 ^ 20 - 1) qword).2 = true) ∧
    (fits bound (ord 0x2900 0x10 (qword * 2 ^ 32 + 3)) ∧ ((counted bound).tryBind 3 qword).toBool = false) := by decide +kernel

def begun : State := { bound with cmds := [{ flying [(0, 2)] .parked with begun := true }] }
def away : State := { State.reset with integ := { field := [unit4], quarantined := [unit4] } }
theorem witness_UnitOrders :
    (fits State.reset (ord 0x2000 0x10 unit4) ∧ written (ord 0x2000 0x10 unit4) = unit4 ∧ (counted State.reset).unitLocBad unit4 = false) ∧
    (fits begun (ord 0x2000 0x10 unit0) ∧ (counted begun).unitLocBad unit0 = false ∧ begun.holdsSlot unit0 = true ∧ begun.atBoundary unit0 = false) ∧
    (fits away (ord 0x2000 0x11 unit4) ∧ (counted away).unitLocBad unit4 = false ∧ away.fuses.spare.any (samePlace unit4) = false) ∧
    (fits begun (ord 0x2C00 0x06 unit0)) ∧
    (fits away (ord 0x2C00 0x07 unit4) ∧ away.inQuarantine unit4 = true) := by decide +kernel

def anEntry (n : Nat) : LedgerEntry :=
  { code := 0x2C01, severity := 1, nested := false, action := 0, state := 3, seq := n, phys := unit0, log := 0, time := 0, exposed := 0, root := 0 }
def ledger3 : Ledger :=
  { places := [(0, anEntry 0), (1022, anEntry 2), (1023, anEntry 1)], head := 1022, tail := 1, count := 3, seq := 3, overflow := true, worst := 2 }
def withLedger : State := { State.reset with integ := { ledger0 := ledger3 } }
def freshWorst : State := { withLedger with integ := { ledger0 := { ledger3 with newest := some (0, anEntry 3) } } }
theorem witness_LedgerOrders :
    (fits withLedger (ord 0x2C10 0x01 1) ∧ written (ord 0x2C10 0x01 1) = 1 ∧ (1 + 1024 - ledger3.head) % 1024 ≤ ledger3.count) ∧
    (fits withLedger (ord 0x2C10 0x01 2) ∧ ledger3.count < (2 + 1024 - ledger3.head) % 1024) ∧
    (fits withLedger (ord 0x2C10 0x01 1024) ∧ 1024 ≤ written (ord 0x2C10 0x01 1024)) ∧
    (fits withLedger (ord 0x2C10 0x04 1) ∧ written (ord 0x2C10 0x04 1) = 1) ∧
    (fits withLedger (ord 0x2C11 0x08 1) ∧ written (ord 0x2C11 0x08 1) = 1 ∧ (withLedger.ledger 1).newest = none) ∧
    (fits freshWorst (ord 0x2C10 0x08 1) ∧ ((freshWorst.ledger 0).newest.map Prod.fst) = some freshWorst.clk) := by decide +kernel

theorem witness_BellmanInputs :
    (fits State.reset (ord 0x2A13 0x03 1) ∧ written (ord 0x2A13 0x03 1) = 1) ∧ (fits State.reset (ord 0x2A10 0x03 0) ∧ written (ord 0x2A10 0x03 0) = 0) ∧
    (fits State.reset (ord 0x2A13 0x04 (2 ^ 64 - 1)) ∧ written (ord 0x2A13 0x04 (2 ^ 64 - 1)) = 2 ^ 64 - 1) ∧
    (fits State.reset (ord 0x2A10 0x01 480) ∧ State.rateBad 480 (State.reset.rateOf 0).2 = false) ∧
    (fits State.reset (ord 0x2A10 0x02 50) ∧ State.rateBad (State.reset.rateOf 0).1 50 = false) ∧
    (fits State.reset (ord 0x2A10 0x01 481) ∧ State.rateBad 481 (State.reset.rateOf 0).2 = true) ∧
    State.reset.bell.inputs.length = 4 := by decide +kernel

def inCadence : State := { bound with dict := { kept := [(State.key 0x2A00 0x01, { value := 1, writes := 1 })] } }
theorem witness_BellmanSchedule :
    (fits State.reset (ord 0x2A00 0x0F 1) ∧ written (ord 0x2A00 0x0F 1) = 1 ∧ State.reset.scheduleBad (State.reset.reg 0x2A00 0x0E 0) 1 = false) ∧
    (fits State.reset (ord 0x2A00 0x0F (2 ^ 88)) ∧ State.reset.scheduleBad (State.reset.reg 0x2A00 0x0E 0) (2 ^ 88) = true) ∧
    (fits bound (ord 0x2A00 0x01 1) ∧ bit bound.fuses.features 16 = true ∧ bound.cadence = false) ∧
    (fits inCadence (ord 0x2A00 0x01 0) ∧ inCadence.cadence = true) := by decide +kernel
theorem witness_BellmanSchedule_inv : Inv State.reset := inv_of (by simp only [Safety.ringOk]; decide +kernel)

/-- Every field scope open by challenge. -/
def opened : State := { State.reset with fw := { scopes := 15, byChallenge := 15 } }
def worn : State := withKept State.reset 0x2D00 0x0A 200000
def updating : State := { State.reset with fw := { updateState := 3 } }
theorem witness_FirmwareOrders :
    (fits State.reset (ord 0x2D00 0x07 (2 ^ 96 - 1)) ∧ written (ord 0x2D00 0x07 (2 ^ 96 - 1)) = 2 ^ 96 - 1 ∧ bits (2 ^ 96 - 1) 127 96 = 0 ∧
      State.reset.fw.updateState = 0 ∧ State.reset.keptReg 0x2D00 0x0A 0 < 200000) ∧
    (fits updating (ord 0x2D00 0x07 0) ∧ 1 ≤ updating.fw.updateState ∧ updating.fw.updateState ≤ 3) ∧
    (fits worn (ord 0x2D00 0x07 0) ∧ worn.fw.updateState = 0 ∧ 200000 ≤ worn.keptReg 0x2D00 0x0A 0) ∧
    (fits State.reset (ord 0x2D00 0x0C 1)) ∧
    (fits State.reset (ord 0x2D00 0x0F 3) ∧ State.reset.fuses.debugLock < 3) ∧
    (fits State.reset (ord 0x2D00 0x0F State.reset.fuses.debugLock)) ∧
    (fits State.reset (ord 0x2D00 0x15 77) ∧ State.reset.fuses.ownerHash = none) ∧
    (fits opened (ord 0x2D00 0x16 1) ∧ opened.fw.scopes &&& opened.fw.byChallenge &&& 15 = 15) ∧
    (fits opened (ord 0x2D00 0x11 1) ∧ opened.fw.scopes < 16 ∧ opened.obs.halted = [] ∧ opened.obs.captures = []) := by decide +kernel

def twoKeys : State := { State.reset with fuses := { keysProgrammed := 3 } }
theorem witness_KeyRevoke :
    (fits twoKeys (ord 0x2D00 0x0D 1) ∧ written (ord 0x2D00 0x0D 1) = 1 ∧ 1 ≠ twoKeys.fw.runningKey ∧
      bit twoKeys.fuses.keysProgrammed 0 = true ∧ bit twoKeys.fuses.keysRevoked 0 = false) ∧
    (fits twoKeys (ord 0x2D00 0x0D 3) ∧ written (ord 0x2D00 0x0D 3) = 3 ∧ 3 ≠ twoKeys.fw.runningKey) ∧
    (fits twoKeys (ord 0x2D00 0x0D 0) ∧ 0 = twoKeys.fw.runningKey) ∧
    (fits { State.reset with fw := { runningKey := 1 } } (ord 0x2D00 0x0D 0) ∧
      ∀ k, k < 4 → k ≠ 0 → bit State.reset.fuses.keysProgrammed k = true → bit State.reset.fuses.keysRevoked k = true) := by decide +kernel

def owned : State :=
  { State.reset with fuses := { ownerHash := some (Config.sha384 (State.serialBytes ++ slice (leBytes 65 8) 1 (8 % 256))) } }
theorem witness_FieldAccess :
    (State.reset.arrives 0 (ask 0x2D00 0x12 48) = true ∧ State.reset.accessAborts (ask 0x2D00 0x12 48) false = []) ∧
    (fits { State.reset with fw := { attempts := 8 } } (ord 0x2D00 0x13 15) ∧ written (ord 0x2D00 0x13 15) = 15 ∧
      field (leBytes 200 15) 0 0 ≤ 15 ∧ zeroBytes (leBytes 200 15) 1 3 = true ∧ zeroBytes (leBytes 200 15) 101 103 = true) ∧
    (fits { State.reset with fw := { attempts := 7, nonce := some 4 } } (ord 0x2D00 0x13 15)) ∧
    (({ State.reset with fw := { attempts := 7, nonce := some 4, drawn := some (State.reset.clk, some 9) } } : State).usedNonce = some 9) ∧
    (written (ord 0x2D00 0x14 8) = 8 ∧ zeroBytes (leBytes 65 8) (8 % 256 + 1) 64 = true ∧ State.reset.fuses.debugLock < 2) ∧
    (fits State.reset (ord 0x2D00 0x14 8) ∧ State.reset.fuses.ownerHash = none) := by decide +kernel
theorem witness_FieldAccess_password : fits owned (ord 0x2D00 0x14 8) ∧
    owned.fuses.ownerHash = some (Config.sha384 (State.serialBytes ++ slice (leBytes 65 8) 1 (8 % 256))) := ⟨by decide +kernel, rfl⟩

theorem witness_ObserveOrders :
    (fits opened (ord 0x2E00 0x01 1) ∧ written (ord 0x2E00 0x01 1) = 1 ∧ opened.obs.frozen = false ∧ opened.obs.due = none) ∧
    (fits { opened with obs := { frozen := true } } (ord 0x2E00 0x01 1)) ∧
    (fits { opened with obs := { due := some (2000, 3) } } (ord 0x2E00 0x01 1)) ∧
    (fits { opened with obs := { frozen := true } } (ord 0x2E00 0x02 1)) ∧
    (fits { opened with obs := { frozen := true, missed := some (opened.clk, 2000) } } (ord 0x2E00 0x02 1)) ∧
    (fits opened (ord 0x2E60 0x08 (2 ^ 20 + 5)) ∧ State.breakpointMalformed (2 ^ 20 + 5) = false) ∧
    (fits opened (ord 0x2E60 0x01 (3 * 2 ^ 20)) ∧ State.breakpointMalformed (3 * 2 ^ 20) = true) ∧
    (fits { opened with obs := { halted := [2 ^ 20 - 1] } } (ord 0x2E00 0x12 (2 ^ 20 - 1)) ∧ written (ord 0x2E00 0x12 (2 ^ 20 - 1)) = 2 ^ 20 - 1) ∧
    (fits opened (ord 0x2E00 0x12 0) ∧ 0 ∉ opened.obs.halted ∧ opened.obs.hits = []) ∧
    (fits { opened with obs := { halted := [5], hits := [(opened.clk, 5, true)] } } (ord 0x2E00 0x12 5)) ∧
    (fits { opened with obs := { halted := [5], hits := [(opened.clk, 5, false)] } } (ord 0x2E00 0x12 5)) := by decide +kernel

theorem witness_PowerAndResetOrders :
    (fits State.reset (ord 0x2F00 0x07 1000) ∧ written (ord 0x2F00 0x07 1000) = 1000) ∧ (fits State.reset (ord 0x2F00 0x07 3200)) ∧
    (fits State.reset (ord 0x2F00 0x07 999) ∧ written (ord 0x2F00 0x07 999) = 999) ∧ (fits State.reset (ord 0x2F00 0x07 3201)) ∧
    (fits State.reset (ord 0x2F00 0x07 1001)) ∧ (fits State.reset (ord 0x2F00 0x03 1) ∧ written (ord 0x2F00 0x03 1) = 1) ∧
    (fits { State.reset with pins := { ordered := 2 } } (ord 0x2F00 0x03 1)) ∧ (fits State.reset (ord 0x2F00 0x03 2)) := by decide +kernel

theorem witness_PlainWriteIsReadBack : ∀ x ∈ [(0x2000, 0x01, 63), (0x2600, 0x07, 3), (0x2600, 0x07, 2), (0x2A00, 0x0E, 4095), (0x2E00, 0x0D, 3)],
    fits State.reset (ord x.1 x.2.1 x.2.2) ∧ (x.1, x.2.1) ∈ plainEntries ∧ written (ord x.1 x.2.1 x.2.2) = x.2.2 ∧
      ∃ e, dictEntry? x.1 x.2.1 = some e ∧ (e.ty = 1 → x.2.2 ≤ 1) ∧
        ∀ y, entryRange (dictFamily x.1).1 x.2.1 = some y → y.1 ≤ x.2.2 ∧ x.2.2 ≤ y.2 := by
  intro x hx
  simp only [List.mem_cons, List.not_mem_nil, or_false] at hx
  rcases hx with rfl | rfl | rfl | rfl | rfl <;> exact ⟨by decide +kernel, by decide +kernel, by decide +kernel, _, rfl, by decide +kernel, by
    intro y hy
    obtain rfl : (_ : Nat × Nat) = y := Option.some.inj hy; decide⟩

theorem witness_RefusedOrdersChangeNothing :
    (State.reset.arrives 1 (ord 0x1000 1 0) = true ∧ lowestAbort (State.reset.accessAborts (ord 0x1000 1 0) true) = some 0x1003) ∧
    ((counted State.reset).passes { ord 0x2600 7 3 with path := .mailbox } = true ∧ (counted State.reset).loses { ord 0x2600 7 3 with path := .mailbox } [ord 0x2600 7 4] = true ∧
      ((counted State.reset).tryWrite { ord 0x2600 7 3 with path := .mailbox } ([ord 0x2600 7 4].filter (counted State.reset).passes)).2 = 0) ∧
    (State.reset.arrives 1 (ord 0x2E60 8 5) = true ∧ (dictFamily 0x2E60).1 = 0x2E60) ∧
    (let s : State := { State.reset with dict := { stuck := [(State.key 0x2600 7, 2)] } }
     Accessible s (ord 0x2600 7 3) ∧ Unrivalled s (ord 0x2600 7 3) [] ∧ (0x2600, 7) ∈ plainEntries ∧ written (ord 0x2600 7 3) = 3 ∧
       s.orderStuck (ord 0x2600 7 3) = 2 ∧ (s.ledger 1).count < 1022) := by
  decide +kernel

/-- On a path other than a DICT command. -/
theorem not_dict : ∀ q, DictPath.hostMctp ≠ .dictCommand q := fun _ h => by cases h
theorem witness_ReadAnswers :
    (State.reset.arrives 0 (ask 0x2A00 0x02 1024) = true ∧ State.reset.accessAborts (ask 0x2A00 0x02 1024) false = [] ∧
      (dictEntry? 0x2A00 0x02).isSome = true) ∧
    (State.reset.arrives 0 { ask 0x2A00 0x02 1024 with offset := 7 } = true ∧ State.reset.accessAborts { ask 0x2A00 0x02 1024 with offset := 7 } false = []) ∧
    (State.reset.arrives 0 (ask 0x2A00 0x02 1025) = true ∧ lowestAbort (State.reset.accessAborts (ask 0x2A00 0x02 1025) false) = some 0x1005) ∧
    ((dictEntry? 0x2A00 0x02).map DictEntry.len = some 8 ∧ lowestAbort (State.reset.accessAborts { ask 0x2A00 0x02 1 with offset := 8 } false) = some 0x1005) ∧
    (State.reset.accessAborts (ord 0x2600 7 3) true = [] ∧ (dictEntry? 0x2600 7).isSome = true) := by decide +kernel

theorem witness_DescribeAnswers : State.reset.arrives 2 (ask 0x2D00 0x13 0) = true ∧ State.reset.dictReady 0x2D00 0x13 false = true ∧
    (ask 0x2D00 0x13 0).reserved = false ∧ (dictEntry? 0x2D00 0x13).isSome = true := by decide +kernel

def maskedVector : State := { State.reset with dict := { vectors := [(4095, { address := 0, data := 0, mask := true, pending := true })] } }
theorem witness_Aperture :
    (State.reset.pins.isolated = false ∧ State.reset.dict.busy = false ∧ field (leBytes 16 2) 0 0 = 2) ∧
    (2 < field (leBytes 16 (3 + 2 ^ 16 * 0x1000 + 2 ^ 32)) 0 0 ∧ State.reset.headerAborts { (State.pageRequest
      (slice (leBytes 16 (3 + 2 ^ 16 * 0x1000 + 2 ^ 32)) 0 16 ++ slice [] 0 1024)).2 with badOp := none } false = []) ∧
    (({ State.reset with dict := { busy := true } } : State).pins.isolated = false) ∧ bit 2 1 = true ∧
    (State.reset.isStray true 0x800410 = true ∧ State.reset.isStray false 0xFFFFF8 = true) ∧
    (({ State.reset with pins := { isolated := true } } : State).pins.isolated = true) ∧
    (State.reset.vector 4095).pending = false ∧ (maskedVector.vector 4095).pending = true ∧ maskedVector.pins.isolated = false := by decide +kernel

def complAhead (n : Nat) : State := withQ bound fun k => { k with complTail := n }
theorem witness_Doorbells : State.reset.queue? 3 = none ∧ bound.pins.isolated = false ∧
    (bound.queue? 3).map (fun k => (k.head, 2 ^ k.descLog2)) = some (0, 64) ∧ (64 + 2 ^ 32 - 0) % 2 ^ 32 ≤ 64 ∧ 64 < (65 + 2 ^ 32 - 0) % 2 ^ 32 ∧
    ((complAhead 64).queue? 3).map (fun k => (k.complTail, 2 ^ k.complLog2)) = some (64, 64) ∧ (64 + 2 ^ 32 - 0 % 2 ^ 32) % 2 ^ 32 ≤ 64 ∧
    ((complAhead 65).queue? 3).map (fun k => (k.complTail, 2 ^ k.complLog2)) = some (65, 64) ∧ 64 < (65 + 2 ^ 32 - 0 % 2 ^ 32) % 2 ^ 32 := by
  decide +kernel

/-- In reset, held by the cold pin. -/
def held : State := { State.reset with pins := { state := .inReset, coldHeld := true, isolated := true, ready := false } }
def unpowered : State := { held with pins := { state := .unpowered, pwrGood := false, isolated := true, ready := false } }
theorem witness_ThrottleAndColdReset :
    (bound.pins.state = .ready) ∧ (held.pins.state = .inReset) ∧ (unpowered.pins.state = .unpowered) ∧
    (Accessible State.reset (ord 0x2600 7 3) ∧ (0x2600, 7) ∈ plainEntries ∧ written (ord 0x2600 7 3) = 3 ∧
      (dictEntry? 0x2600 7).any (fun e => e.kept && State.reset.keptReg 0x2600 7 e.default == 2) = true ∧
      State.reset.orderStuck (ord 0x2600 7 3) = 0 ∧ State.reset.loses (ord 0x2600 7 3) [ord 0x2600 7 2] = false) ∧
    (bound.pins.coldHeld = false ∧ updating.pins.coldHeld = false ∧ updating.fw.updateState = 3) := by decide +kernel

/-- In reset with dark ports. -/
def dark : State := { held with bruora := { ports := List.replicate 16 { state := 1 } } }
def training : State := { dark with pins := { state := .booting, startupStep := 5 } }
theorem witness_ColdStartUp :
    (held.pins.state = .inReset ∧ held.pins.warm = false) ∧
    (({ held with fuses := { lifecycle := 0 } } : State).fuses.lifecycle = 0 ∧ ({ held with fuses := { lifecycle := 3 } } : State).fuses.lifecycle = 3) ∧
    (({ held with fw := { slot := .empty } } : State).fw.slot = .empty ∧ held.fuses.lifecycle = 2) ∧
    (held.stuckCopies (State.key 0x2D00 0x0B) = 0 ∧ held.keptWorn (State.key 0x2D00 0x0B) = false) ∧
    (({ held with dict := { kept := [(5, { value := 1, writes := 1, later := some 2 })] } } : State).reconcileKept.dict.kept =
      [(5, { value := 2, writes := 1 })]) ∧
    (held.fw.slot = .factory ∧ held.fuses.keyAccepted 0 = true ∧ held.fuses.rollback = 0 ∧ held.reconcileKept.keptReg 0x2D00 0x0B 0 = 0 ∧ 1 % 4 ≠ 0 ∧
      ∀ p, p < 16 → bit 0 p = false) ∧
    (dark.reconcileKept.portOn 15 = true ∧ bit 0x8000 15 = true ∧ dark.bruora.ports.length = 16 ∧ dark.fw.slot = .factory ∧ dark.fuses.keyAccepted 0 = true) ∧
    (training.pins.state = .booting ∧ training.pins.startupStep = 5) ∧ (training.pins.dies = 3 ∧ training.pins.faultLow = false) := by decide +kernel

def inWarm : State := { bound with pins := { state := .inReset, warm := true, isolated := true, ready := false } }
def recovering : State := { held with pins := { state := .recovery, ready := false } }
theorem witness_WarmReset :
    (bound.pins.state = .ready ∧ bound.fw.updateState ≠ 3) ∧ (({ bound with pins := { ordered := 1 } } : State).pins.ordered = 1) ∧
    (updating.pins.state = .ready ∧ updating.fw.updateState = 3) ∧ (training.pins.state = .booting ∧ recovering.pins.state = .recovery) ∧
    (inWarm.pins.state = .inReset ∧ inWarm.pins.warm = true ∧ inWarm.fuses.lifecycle ≠ 3 ∧ 2 % 4 ≠ 0) ∧
    (({ inWarm with fuses := { lifecycle := 3 } } : State).pins.warm = true ∧ ({ inWarm with fuses := { lifecycle := 3 } } : State).fuses.lifecycle = 3) := by decide +kernel

def staged (n : Nat) : State := { State.reset with fw := { updateState := n, staged := (0, 17039872), fetched := [1] } }
theorem witness_UpdatePhases : (staged 1).fw.heldWarm = 0 ∧ (staged 1).fw.updateState = 1 ∧
    (isDevice (staged 1).fw.staged.1 (staged 1).fw.staged.2 || isHost (staged 1).fw.staged.1 (staged 1).fw.staged.2) = true ∧
    (staged 1).fw.staged.2 ≤ 17039872 ∧ (staged 2).fw.updateState = 2 ∧ (staged 3).fw.updateState = 3 := by decide +kernel
/-- An image too short for its header fails its checks; the image of an update that passes rests on the free signature check. -/
theorem witness_UpdatePhases_fails : ((staged 2).fuses.verify (staged 2).fw.fetched (some (staged 2).fw.staged.2)).isSome = true := by rfl

def session (n : Nat) : State :=
  { recovering with fw := { session := some 9, sessionLength := 4, received := n, slot := .bytes [1, 2, 3] } }
theorem witness_Recovery :
    ((session 4).pins.state = .recovery ∧ (session 4).fw.session = some 9 ∧ 9 ≠ 255) ∧ (recovering.fw.session = none) ∧
    ([BitVec.ofNat 8 7, 8] ≠ [] ∧ (session 2).fw.received + 2 ≤ (session 2).fw.sessionLength ∧ (session 2).fw.received ≤ (session 2).slotNow.length) ∧
    ((session 0).fw.received + 4 ≤ (session 0).fw.sessionLength) ∧ ((session 4).fw.slot = .bytes [1, 2, 3]) := by decide +kernel
theorem witness_Recovery_end : ((session 4).fuses.verify [1, 2, 3] none).isSome = true := by rfl

/-! The Bellman -/

def reel (t : Nat) : State := { State.reset with bell := { reel0 := { time := t, state := 1 }, reel1 := { time := t, state := 1 } } }
theorem witness_TimeBus :
    ((reel 1000).hearsBus = true ∧ ((reel 1000).elapse 0).reel 1 + 64 < 1065) ∧ (935 + 64 < ((reel 1000).elapse 0).reel 0) ∧
    (1064 ≤ ((reel 1000).elapse 0).reel 0 + 64 ∧ ((reel 1000).elapse 0).reel 0 ≤ 936 + 64) ∧ (((reel 1000).elapse 3).reelOf 1).state = 1 ∧
    ((reel 1000).pending = [] ∧ ((reel 1000).reelOf 1).delta = 0) := by decide +kernel

/-- Input 0 on frame 4, which began at 100; the reels at t. -/
def pulsed (t : Nat) : State :=
  { reel t with bell := { (reel t).bell with inputs := [{ state := 2, frame := 4, t := 100, lastRx := 100 }, {}, {}, {}] } }
/-- 50 frames a second: a period of 20 ms, and an eighth of it is 2.5 ms (R286). -/
theorem witness_CadencePulses :
    ((reel 0).bell.inputs.length = 4 ∧ (reel 0).pins.state = .ready ∧ ((reel 0).input 3).state = 0) ∧
    (({ reel 0 with bell := { inputs := [{}, {}, {}, { state := 1, next := some 8 }] } } : State).input 3).state = 1 ∧
    (8 * ((pulsed 22500100).input 0).n * (((pulsed 22500100).elapse 0).bellTime - State.expected ((pulsed 22500100).input 0)) ≤
        10 ^ 9 * ((pulsed 22500100).input 0).den ∧
      8 * ((pulsed 17500100).input 0).n * (State.expected ((pulsed 17500100).input 0) - ((pulsed 17500100).elapse 0).bellTime) ≤
        10 ^ 9 * ((pulsed 17500100).input 0).den ∧ 2 ≤ ((pulsed 0).input 0).state) ∧
    (10 ^ 9 * ((pulsed 17500099).input 0).den <
      8 * ((pulsed 17500099).input 0).n * (State.expected ((pulsed 17500099).input 0) - ((pulsed 17500099).elapse 0).bellTime)) ∧
    (State.expected ((pulsed 22500100).input 0) ≤ ((pulsed 22500100).elapse 0).bellTime ∧ 10 ^ 9 * ((pulsed 22500100).input 0).den ≤
      8 * ((pulsed 22500100).input 0).n * (((pulsed 22500100).elapse 0).bellTime - State.expected ((pulsed 22500100).input 0))) := by decide +kernel

/-- In cadence mode, input 0 on frame 4, which began at 100; the reels at t; the given schedule. -/
def sched (t : Nat) (es : List (Nat × Nat)) (more : Bellman → Bellman := id) : State :=
  { inCadence with
    bell := more {
      inputs := [{ state := 2, frame := 4, t := 100, lastRx := 100, times := [(4, (100, 50, 1))] }, {}, {}, {}], schedule := es,
      reel0 := { time := t, state := 1 }, reel1 := { time := t, state := 1 }, epoch := 7 } }
def slotOne (s : State) : State := withQ s fun k => { k with cadenceBound := true, slot := 1 }
/-- Entry 1 of a kind, 1,000 phase units in. -/
def kindOf (k : Nat) : List (Nat × Nat) := [(1, k + 1000 * 2 ^ 32)]
theorem witness_ScheduleEvents :
    ((slotOne (sched 4000000 (kindOf 1))).firstDue fun y => y.rank == 4 && y.entry == 1).isSome = true ∧
    (((slotOne (sched 4000000 (kindOf 1))).elapse 0).firstDue fun y => y.rank == (if false then 3 else 4) && y.entry == 1).isSome = true ∧
    (((slotOne (sched 4000000 (kindOf 2))).elapse 0).firstDue fun y => y.rank == (if true then 3 else 4) && y.entry == 1).isSome = true ∧
    ((sched 4000000 (kindOf 4)).elapse 0).firstDue (fun y => y.rank == 2 && y.entry == 1) ≠ none ∧
    (sched 4000000 (kindOf 4)).obs.frozen = false ∧ (sched 4000000 (kindOf 4)).obs.due = none ∧
    ({ sched 4000000 (kindOf 4) with obs := { frozen := true } } : State).obs.frozen = true := by decide +kernel

/-- Entry 1 released on frame 4 and not yet judged; its deadline check is entry 2, 2,000 units in. -/
def judged : State := slotOne (sched 4000000 [(1, 1 + 1000 * 2 ^ 32), (2, 3 + 2000 * 2 ^ 32 + 2 ^ 64)] fun b =>
  { b with fired := [(1, 4)], releases := [{ entry := 1, input := 0, frame := 4, queues := [3] }] })
def due1 : Due := { input := 0, frame := 4, phase := 1000, check := none }
def timedDue : State := flight (slotOne (sched 4000000 [])) { flying [(0, 2)] .parked with deadline := some due1 }
/-- A transfer of 2 rows of 512 bytes from memory to row 0 on clusters 0 and 1, with control bits. -/
def xfer (ctl : Nat) : List Byte :=
  bytes 128 [(0, 0x10 + ctl + 3 * 2 ^ 32), (16, 0x20000), (48, 512 + 2 ^ 26 + 2 ^ 40), (58, 2 + 512 * 2 ^ 40 + 512 * 2 ^ 26),
    (68, 1 + 3 * 2 ^ 24), (78, 1 + 3 * 2 ^ 24), (88, 1 + 3 * 2 ^ 24), (98, 2 ^ 40)]
def moving (tr : Transfer) : Cmd := { flying [(0, 6)] .transfer with transfer := some tr, begun := true }
/-- A slot with a deadline on frame 4 that lies behind. -/
def lateSlot : Slot := { d := 0, bytes := leBytes 128 (leNat (xfer (2 ^ 18)) + 4 * 2 ^ 352) }
theorem witness_Deadlines :
    (((judged.elapse 0).firstDue fun y => y.rank == 1 && y.entry == 2).any fun x =>
      (judged.bell.releases.find? fun y => y.frame == x.frame && (((judged.elapse 0).releaseDue y).map Prod.fst) == some 2).any fun r =>
        (((judged.elapse 0).releaseDue r).map Prod.fst) == some 2) = true ∧
    (((timedDue.elapse 0).firstDue fun y => y.rank == 1 && y.entry == 4096 + 3).any fun x =>
      (((timedDue.elapse 0).timedDues 3).find? fun y => (timedDue.elapse 0).dueAt y 1 (4096 + 3) 0 == [x]).isSome) = true ∧
    (((sched 90000000 []).elapse 0).slotDeadline (Xfer.ofBytes lateSlot.bytes)).any (fun dl => decide (dl ≤ ((sched 90000000 []).elapse 0).reel 0)) = true ∧
    ((flight (sched 90000000 []) (moving { slots := [lateSlot] })).cmd? 3 0).isSome = true ∧
    ((flight (sched 90000000 []) (moving { slots := [lateSlot] })).queue? 3).isSome = true ∧
    ([lateSlot].find? fun y => y.d == 0 && y.missed.isNone) = some lateSlot ∧ lateSlot.landed = none := by decide +kernel

def closedAt (t : Nat) (degraded : Bool) (work : List SealedWork := []) : State :=
  sched t [] fun b => { b with closed := [{ n := 6, opened := 0, closed := 0, degraded := degraded }], work := work }
def exposed50 : State :=
  { closedAt 20000000 true [{ epoch := 6, units := [unit4], time := 50 }] with
    integ := { faults := [{ loc := unit4, severity := 1, exposed := 50 }] } }
theorem witness_Epochs :
    (((sched 20000100 []).elapse 0).epochEntries = false ∧ (((sched 20000100 []).elapse 0).firstDue fun y => y.rank == 0 && !y.owed).isSome = true) ∧
    (((sched 4000000 (kindOf 5)).elapse 0).epochEntries = true ∧
      (((sched 4000000 (kindOf 5)).elapse 0).firstDue fun y => y.rank == 0 && y.entry == 1).isSome = true) ∧
    (0 + 16000000 ≤ ((closedAt 16000000 false).elapse 0).bellTime ∧ (closedAt 16000000 false).bell.work = []) ∧
    (0 + 20000000 ≤ (exposed50.elapse 0).bellTime ∧ ∃ w ∈ exposed50.bell.work, w.epoch = 6 ∧ ∃ f ∈ exposed50.integ.faults, f.exposed ≤ w.time ∧
      ∃ u ∈ w.units, locHolds (bareLoc f.loc) u = true ∨ locHolds u (bareLoc f.loc) = true) := by decide +kernel

/-! Bruora -/

/-- A flit of 256 bytes with a sequence number and its CRC. -/
def flit (seq : Nat) : List Byte := leBytes 252 (seq + 7 * 2 ^ 32) ++ leBytes 4 (crcBytes (leBytes 252 (seq + 7 * 2 ^ 32)))
def port0 (s : State) (x : Port) : State := { s with bruora := { s.bruora with ports := s.bruora.ports.set 0 x } }
def up0 : Port := { state := 3, partner := some (5, 2) }
/-- Port 0 up to package 5; packages 5 and 6 are routed by the link map. -/
def linked : State :=
  port0 { bound with dict := { kept := [(State.key 0x2B00 0x05, { value := 2 ^ 512 - 1 - 0xFF * 256 ^ 5 - 0xFF * 256 ^ 6, writes := 1 })] } } up0
/-- A link control flit of sequence number 0. -/
def controlFlit : List Byte := leBytes 252 (3 * 2 ^ 12) ++ leBytes 4 (crcBytes (leBytes 252 (3 * 2 ^ 12)))
theorem witness_Flits :
    (linked.bruora.ports.length = 16 ∧ (linked.port 0).up = true ∧ (leBytes 256 1).length = 256 ∧
      crcBytes ((leBytes 256 1).take 252) ≠ field (leBytes 256 1) 252 255) ∧
    (((flit 4095).length = 256 ∧ crcBytes ((flit 4095).take 252) = field (flit 4095) 252 255) ∧
      field (flit 4095) 0 1 % 4096 = ((port0 linked { up0 with rx := 4095 }).port 0).rx ∧ field (flit 4095) 0 1 % 4096 ≠ (linked.port 0).rx ∧
      flitChannel (flit 4095) ≠ 3 ∧ Port.pick ((port0 linked { up0 with owed := (1023, 1024, 0) }).port 0).owed (flitChannel (flit 4095)) < 1024) ∧
    ((controlFlit.length = 256 ∧ crcBytes (controlFlit.take 252) = field controlFlit 252 255) ∧ flitChannel controlFlit = 3 ∧
      field controlFlit 0 1 % 4096 = (linked.port 0).rx ∧ (linked.port 0).unsent = [] ∧
      (State.unsentOf (linked.reply { kind := 1, src := 5, dst := 0, window := 9, seq := 0, offset := 0, transit := false, length := 0, incarnation := 4, segs := [] } 4 0 [])).length ≤ 1024) ∧
    (((port0 linked { up0 with kept := [(4094, [1]), (4095, [2]), (0, [3])] }).port 0).kept = [(4094, [1])] ++ (4095, [2]) :: [(0, [3])] ∧
      ∀ f ∈ [(4094, [(1 : Byte)])], f.1 ≠ 4095) ∧
    ((port0 linked { up0 with kept := [(4094, [1])], replays := 8 }).port 0).kept = [] ++ (4094, [1]) :: [] ∧
    ((port0 linked { up0 with kept := [(4094, [1])], replays := 7 }).port 0).replays < 8 := by
  refine ⟨?_, ?_, ?_, ?_, ?_, ?_⟩ <;> decide +kernel

def trains : State := port0 linked { state := 2 }
theorem witness_PortTraining :
    ((State.reset.port 15).state = 1 ∧ State.reset.pins.state = .ready) ∧ ((port0 linked { up0 with state := 5 }).port 0).state = 5 ∧
    ((trains.port 0).state = 2 ∧ (trains.port 0).retrain = false ∧ 5 ≠ trains.packageId) ∧
    (([0x3FFFF, 0xFFFF, 0x7FFF, 0xFF, 0x7F].map fun l =>
      ((List.range 18).filter fun n => bit l n && !trains.listed (trains.portLoc 0 n)).length) = [18, 16, 15, 8, 7]) ∧
    (0 = trains.packageId ∧ NoDomain trains (bareLoc (trains.portLoc 0 0xFF))) ∧ 2 ≤ (linked.port 0).state ∧ 2 ≤ (trains.port 0).state := by
  decide +kernel

def sixteen : State := port0 linked { up0 with lanesOk := 0xFFFF }
def half (ok : Nat) : State := port0 linked { up0 with state := 4, width := 8, lanes := List.range 8, lanesOk := ok }
theorem witness_Lanes :
    ((linked.port 0).up = true ∧ bit (linked.port 0).lanesOk 17 = true ∧ NoDomain linked (bareLoc (linked.portLoc 0 17)) ∧
      NoDomain linked (bareLoc (linked.portLoc 0 0xFF)) ∧ 17 ∉ (linked.port 0).lanes) ∧
    (0 ∈ (linked.port 0).lanes ∧ bit (linked.port 0).lanesOk 16 = true ∧ 16 ∉ (linked.port 0).lanes ∧
      ∀ b, b < 16 → b ≠ 0 → bit (linked.port 0).lanesOk b = true → b ∈ (linked.port 0).lanes) ∧
    (15 ∈ (sixteen.port 0).lanes ∧ (∀ b, b < 18 → b ≠ 15 → bit (sixteen.port 0).lanesOk b = true → b ∈ (sixteen.port 0).lanes) ∧
      (sixteen.port 0).width = 16) ∧
    (0 ∈ ((half 0xFF).port 0).lanes ∧ (∀ b, b < 18 → b ≠ 0 → bit ((half 0xFF).port 0).lanesOk b = true → b ∈ ((half 0xFF).port 0).lanes) ∧
      ((half 0xFF).port 0).width ≠ 16) ∧
    (linked.keptReg 0x2B00 0x08 1000 * 22400000 < 23 * 10 ^ 9 ∧ 22 * 10 ^ 9 ≤ linked.keptReg 0x2B00 0x08 1000 * 22400000) := by
  refine ⟨?_, ?_, ?_, ?_, ?_⟩ <;> decide +kernel

/-- A message of package 5 for window 9 of this package. -/
def msg (kind seq off len : Nat) (segs : List (Nat × List Byte)) : Message :=
  { kind := kind, src := 5, dst := 0, window := 9, seq := seq, offset := off, transit := false, length := len, incarnation := 4, segs := segs }
def win (mem : Bool) : Window :=
  { id := 9, pasid := 5, q := 3, memory := mem, read := true, write := true, counter := 1, base := if mem then 0x20000 else 2, size := 4096,
    peers := 0x20, region := 0, part := 0, held := if mem then [page] else [] }
def opened9 (mem : Bool) : State := { linked with bruora := { linked.bruora with windows := [win mem] } }
def seen (s : State) : State := { s with bruora := { s.bruora with landed := [(5, (7, 4))] } }
def lastRow : Message := msg 1 0 0 0 [(3584, List.replicate 512 1)]
def marked9 : State := (opened9 false).setRow (loftKey 0 0 4) { LoftRow.ofBytes (List.replicate 512 3) with mark := true }
theorem witness_RemoteMessages :
    ((opened9 false).route 5 = .port 0 ∧ (opened9 false).pins.ready = true ∧ 5 ≠ (opened9 false).packageId ∧ lastRow.dst = (opened9 false).packageId) ∧
    ((seen (opened9 false)).landedBefore (msg 1 7 0 0 [(0, [1])]) = true ∧ (seen (opened9 false)).landedBefore (msg 1 8 0 0 [(0, [1])]) = false) ∧
    ((opened9 false).windowCode (msg 1 0 0 0 [(3584, List.replicate 1024 1)]) true ≠ 0 ∧ linked.windowCode lastRow true ≠ 0) ∧
    ((opened9 false).landedBefore lastRow = false ∧ (opened9 false).window? 9 = some (win false) ∧ (opened9 false).windowCode lastRow true = 0 ∧
      ((opened9 false).part 0 0).ctrBase + 1 < 4096 ∧ 16 * ((opened9 false).part 0 0).baseUnit + 2 + 3584 / 512 + 512 / 512 ≤ 4096) ∧
    ((opened9 true).window? 9 = some (win true) ∧ (opened9 true).windowCode (msg 1 0 0 0 [(4095, [1])]) true = 0 ∧
      (0x20000 + 4095) / 4096 = (0x20000 + 4095 + 1 - 1) / 4096 ∧ (State.heldPhys (win true) (0x20000 + 4095)).isSome = true) ∧
    ((opened9 true).windowCode (msg 2 7 4095 1 []) false = 0 ∧ (opened9 true).windowCode (msg 2 7 4096 1 []) false ≠ 0 ∧
      (opened9 false).windowCode (msg 2 7 512 1024 []) false = 0 ∧ (opened9 false).landedBefore (msg 2 7 512 1024 []) = false ∧
      (seen (opened9 false)).landedBefore (msg 2 7 0 512 []) = true ∧
      ((opened9 false).windowRows (win false) (msg 2 7 512 1024 [])).2.all fun r => !r.2.2.1) ∧
    (((opened9 true).port 0).unsent = [] ∧ ∀ ch, ch < 3 →
      (([(opened9 true).reply (msg 2 7 4095 1 []) 3 0 (List.replicate 1 0), (opened9 true).reply (msg 2 7 4095 1 []) 4 0 []].map State.unsentOf).flatten.filter
        fun u => u.channel == ch).length ≤ Port.pick ((opened9 true).port 0).credits ch) ∧
    (((seen (port0 (opened9 false) { up0 with credits := (1024, 0, 1024) })).port 0).unsent = [] ∧
      ((seen (port0 (opened9 false) { up0 with credits := (1024, 0, 1024) })).port 0).credits.2.1 = 0 ∧
      (seen (port0 (opened9 false) { up0 with credits := (1024, 0, 1024) })).route 5 = .port 0 ∧
      (seen (port0 (opened9 false) { up0 with state := 1 })).route 5 = .wait ∧ (opened9 false).route 7 = .noRoute) ∧
    ((marked9.windowRows (win false) (msg 2 7 512 1024 [])).2.any fun r => r.2.2.1) = true ∧
    marked9.windowCode (msg 2 7 512 1024 []) false = 0 ∧ marked9.landedBefore (msg 2 7 512 1024 []) = false := by
  refine ⟨?_, ?_, ?_, ?_, ?_, ?_, ?_, ?_, ?_, ?_, ?_⟩ <;> decide +kernel

def sentTo (s : State) (l : List Sent) : State := { s with bruora := { s.bruora with sent := l } }
def mine (k : Nat) : Message := { msg k 3 0 0 [] with src := 0, dst := 5 }
def oneSent (k port : Nat) : Sent := { msg := mine k, q := 3, i := 0, d := 0, port := port }
/-- A GEMM whose `SEND` waits on the link to package 5. -/
def sendCmd : Cmd :=
  { flying [(0, 2)] (.link 5) with recs := { desc := desc [(0, 2)], args := bytes 256 [(56, 0x40000)], chain := bytes 256 [(0, 0x10), (40, 10)] } }
def sending : State := sentTo (flight linked sendCmd) [oneSent 1 0]
def reading : Slot := { d := 0, bytes := bytes 128 [(0, 2)], reads := [(3, 64)] }
def fetching : State := sentTo (flight linked (moving { slots := [reading] })) [oneSent 2 0]
/-- A descriptor that has written rows 4 to 6 to a window, in a MOVE of one descriptor whose task is parked. -/
def writing : Slot := { d := 0, bytes := bytes 128 [(0, 2)], started := true, formed := 7, unacked := [(3, 4, 7)] }
def parkedMove : State := sentTo (flight { linked with queues := linked.queues.map fun k => (k.1, { k.2 with parked := true }) }
  (moving { slots := [writing], count := 1 })) [oneSent 1 0]
def runningMove : State := sentTo (flight linked (moving { slots := [writing], count := 1 })) [oneSent 1 0]
/-- A descriptor that reads a row of 2 runs from a window. -/
def reading2 : Slot := { d := 0, bytes := leBytes 128 (leNat (xfer 0) + 2), started := true, reads := [(3, 64), (4, 128)] }
def twoReads : State := sentTo (flight linked (moving { slots := [reading2], count := 1 })) [oneSent 2 0]
theorem witness_Answers :
    (sending.sentBy (msg 4 3 0 0 []) = some (oneSent 1 0) ∧ sending.cmd? 3 0 = some sendCmd ∧ sendCmd.wait = .link 5 ∧ sendCmd.sends = [] ∧
      sendCmd.transfer = none ∧ (sendStage sendCmd).isSome = true ∧ sending.mayRun sendCmd = true ∧
      (∀ y ∈ sending.bruora.sent, y.q = 3 → y.i = 0 → y = oneSent 1 0) ∧ ∀ y ∈ sending.cmds, ¬(y.q = 3 ∧ y.i = 0) → y ∉ sending.linkUsers 5) ∧
    (fetching.sentBy (msg 3 3 64 0 [(64, [1, 2])]) = some (oneSent 2 0) ∧ fetching.cmd? 3 0 = some (moving { slots := [reading] }) ∧
      (moving { slots := [reading] }).wait = .transfer ∧ reading.d = 0 ∧ reading.reads.find? (fun r => r.1 == 3) = some (3, 64)) ∧
    (parkedMove.sentBy (msg 4 3 0 0 []) = some (oneSent 1 0) ∧ parkedMove.cmd? 3 0 = some (moving { slots := [writing], count := 1 }) ∧
      (parkedMove.queue? 3).any (fun k => k.parked) = true ∧ ∀ z ∈ parkedMove.cmds, z.q = 3 ∧ z.i = 0) ∧
    (sending.nackedBy (msg 5 3 0x2B05 0 []) = some (oneSent 1 0) ∧ State.openCmd sendCmd = true ∧
      (sentTo (port0 sending { up0 with partner := some (6, 0) }) [oneSent 1 0]).nackedBy { msg 5 3 0x2B02 0 [] with src := 6 } = some (oneSent 1 0)) ∧
    (parkedMove.nackedBy (msg 5 3 0x2B05 0 []) = some (oneSent 1 0) ∧ writing.failed = false) ∧
    (5 ≠ linked.packageId ∧ (linked.port 0).partner.map Prod.fst = some 5 ∧ linked.route 6 = .port 0) ∧
    (9 ≠ linked.packageId ∧ ∀ n, n < 16 → ¬((linked.port n).up = true ∧ (linked.port n).partner.map Prod.fst = some 9)) := by decide +kernel
theorem witness_Answers_running :
    (runningMove.sentBy (msg 4 3 0 0 []) = some (oneSent 1 0) ∧ runningMove.mayRun (moving { slots := [writing], count := 1 }) = true ∧
      (Xfer.ofBytes writing.bytes).rows ≤ writing.formed ∧ writing.unacked = [(3, 4, 7)] ∧ writing.group = [] ∧
      (Xfer.ofBytes writing.bytes).signals = false ∧ writing.started = true ∧ ∀ z ∈ runningMove.cmds, z.q = 3 ∧ z.i = 0) ∧
    (twoReads.sentBy (msg 3 3 64 0 [(64, [1, 2])]) = some (oneSent 2 0) ∧ twoReads.mayRun (moving { slots := [reading2], count := 1 }) = true ∧
      (Xfer.ofBytes reading2.bytes).srcKind = 2 ∧ reading2.formed < (Xfer.ofBytes reading2.bytes).rows ∧
      reading2.reads.filter (fun e => e.1 != 3) ≠ [] ∧ ∀ z ∈ twoReads.cmds, z.q = 3 ∧ z.i = 0) := by decide +kernel

def cut : State := port0 linked { up0 with state := 1 }
def cutSending : State := sentTo (port0 (flight linked sendCmd) { up0 with state := 1 }) [oneSent 1 0]
def lostSending : State := { flight linked sendCmd with bruora := { linked.bruora with sent := [oneSent 1 3], lost := [5] } }
/-- A system of 8 packages. -/
def eight (s : State) : State := { s with dict := { s.dict with kept := Table.put (State.key 0x2000 0x02) { value := 8, writes := 1 } s.dict.kept } }
def lostIdle : State := { linked with bruora := { linked.bruora with lost := [5] } }
theorem witness_Links :
    (linked.reachable 5 = some 0) ∧ (cut.reachable 5 = none ∧ cut.linkUsers 5 = []) ∧
    (cutSending.reachable 5 = none ∧ cutSending.linkUsers 5 = [sendCmd] ∧ cutSending.cmd? 3 0 = some sendCmd ∧ sendCmd.transfer = none ∧
      State.openCmd sendCmd = true) ∧
    (lostSending.reachable 5 = some 0 ∧ 5 ∈ lostSending.bruora.lost) ∧ (lostIdle.reachable 5 = some 0 ∧ 5 ∈ lostIdle.bruora.lost ∧ lostIdle.linkUsers 5 = []) ∧
    ((lostSending.port 0).unsent = [] ∧ lostSending.bruora.held = [] ∧ ((lostSending.bruora.sent.filter fun m => m.msg.dst == 5).map Sent.msg) = [mine 1] ∧
      ∀ ch, ch < 3 → ((([mine 1].map State.unsentOf).flatten).filter fun u => u.channel == ch).length ≤ Port.pick (lostSending.port 0).credits ch) ∧
    (5 < (eight lostIdle).keptReg 0x2000 0x02 1 ∧ 5 ∈ (eight lostIdle).bruora.lost ∧ (eight lostIdle).routeByte false 5 < 16) := by
  decide +kernel

/-! Units, faults, trace -/

def phased (ps : List (Nat × UnitPhase)) : State := { State.reset with integ := { phases := ps.map fun p => (bareLoc p.1, p.2) } }
def spareG : Nat := unitLoc 0 0 2 2 0xFF
def far : Nat := unitLoc 15 17 1 4 0xFF
theorem witness_SelfTests :
    ((phased [(far, .tested)]).phase? (unitLoc 15 17 (if false then 2 else 1) 4 0xFF) = some .tested ∧
      (∀ j, j < 4 → (phased [(far, .tested)]).phase? (unitLoc 15 17 (if false then 2 else 1) j 0xFF) ≠ some .tested) ∧
      ∀ j, j < 5 → (phased [(far, .tested)]).phase? (unitLoc 15 17 (if false then 2 else 1) j 0xFF) ≠ some .probation) ∧
    ((phased [(spareG, .tested)]).phase? (unitLoc 0 0 (if true then 2 else 1) 2 0xFF) = some .tested) ∧
    ((phased [(far, .selfTest)]).inSelfTest far = true ∧ locKind far = 1 ∧ (phased [(far, .selfTest)]).containerOut far = false ∧
      (phased [(spareG, .selfTest)]).inSelfTest spareG = true ∧ locKind spareG = 2) ∧
    ((∀ x ∈ [0, 66], x < 67 ∧ x ∉ (phased [(far, .selfTest)]).columnsOf far) ∧ [0, 66].Nodup ∧
      ((phased [(far, .selfTest)]).columnsOf far).length + [0, 66].length ≤ 2) ∧
    ((phased [(far, .probation)]).phase? far = some .probation ∧
      (phased [(spareG, .probation)]).phase? (unitLoc 0 0 (if true then 2 else 1) 2 0xFF) = some .probation) := by
  refine ⟨?_, ?_, ?_, ?_, ?_⟩ <;> decide +kernel

def leaver (q : Bool) : State := { State.reset with integ := { leaving := [(unit0, q)] } }
def busyPassed : State := { flight bound { flying [(0, 2)] .parked with begun := true } with integ := (phased [(unit4, .passed)]).integ }
/-- Logical cluster 0 of region 0 has no physical one. -/
def homeless : State := { State.reset with integ := { maps := [(0, none :: (List.range 15).map some)] } }
/-- Physical cluster 0 has 3 Threshers left. -/
def reduced : State := { State.reset with integ := { field := [unitLoc 0 0 1 0 0xFF, unitLoc 0 0 1 1 0xFF] } }
def freeCluster (s : State) : Option Nat :=
  (s.clustersOk 0).find? fun c => !(s.mapOf 0).contains (some c) && !s.quarantinedAt (unitLoc 0 c 0 0 0xFF) &&
    !s.integ.away.any fun a => a.1 == 0 && a.2.2 == c
def reducedQ : State := { bound with integ := reduced.integ }
def pinnedQ : State := { reducedQ with loft := { reducedQ.loft with parts := reducedQ.loft.parts.map fun e => (e.1, { e.2 with pinned := true }) } }
def bank3 : Nat := unitLoc 0 0 4 0 3
theorem witness_SlotsAndClusters :
    (busyPassed.atBoundary unit0 = false) ∧
    ((phased [(unit4, .passed)]).atBoundary unit4 = true ∧ ((phased [(unit4, .passed)]).integ.leaving.find? fun e => samePlace e.1 unit4) = none ∧
      (phased [(unit4, .passed)]).phase? unit4 = some .passed ∧ locKind unit4 = 1 ∧ (phased [(spareG, .passed)]).phase? spareG = some .passed ∧
      (phased [(spareG, .passed)]).atBoundary spareG = true) ∧
    ((leaver true).atBoundary unit0 = true ∧ ((leaver true).integ.leaving.find? fun e => samePlace e.1 unit0) = some (unit0, true) ∧
      ((leaver false).integ.leaving.find? fun e => samePlace e.1 unit0) = some (unit0, false)) ∧
    (homeless.regionOk 0 = true ∧ (homeless.mapOf 0).length = 16 ∧ (homeless.mapOf 0).getD 0 none = none ∧ homeless.cmds = [] ∧
      (homeless.integ.away.any fun a => a.1 == 0 && a.2.1 == 0) = false ∧ (freeCluster homeless).isSome = true) ∧
    ((reduced.mapOf 0).length = 16 ∧ (reduced.mapOf 0).getD 0 none = some 0 ∧ (reduced.threshersOk 0 0).length ≤ 3 ∧
      (freeCluster reduced).isSome = true) ∧
    (reducedQ.queues.all fun e => e.2.region == 0 && (reducedQ.partOf e.2).state == 1 && bit (reducedQ.partOf e.2).mask 0 &&
      !(reducedQ.partOf e.2).pinned && decide (reducedQ.areaReach e.1 e.2 = (reducedQ, true))) = true ∧
    (reducedQ.threshersOk 0 0).length ≤ 3 ∧ reducedQ.cmds = [] ∧ (freeCluster reducedQ).isSome = true ∧
    (pinnedQ.queues.any fun e => e.2.region == 0 && (pinnedQ.partOf e.2).state == 1 && bit (pinnedQ.partOf e.2).mask 0 &&
      (pinnedQ.partOf e.2).pinned) = true ∧
    (locKind bank3 = 4 ∧ locSub bank3 ≠ 0xFF ∧ (phased [(bank3, .selfTest)]).phase? bank3 = some .selfTest ∧
      (phased [(bank3, .selfTest)]).atBoundary bank3 = true ∧ (phased [(bank3, .selfTest)]).integ.leaving = [] ∧
      ((phased [(bank3, .selfTest)]).hostsOf 0 0).banks = (List.range 16).map some ∧
      (phased [(bank3, .selfTest)]).serviceable 0 0 4 0 16 = true ∧
      (phased [(bank3, .selfTest)]).quarantinedAt (unitLoc 0 0 4 0 16) = false ∧
      (phased [(bank3, .selfTest)]).phase? (unitLoc 0 0 4 0 16) = none) := by
  refine ⟨?_, ?_, ?_, ?_, ?_, ?_, ?_, ?_, ?_, ?_, ?_⟩ <;> decide +kernel

def hurt (f : Cmd → Cmd := id) : State := flight bound (f { flying [(0, 2)] .parked with begun := true })
theorem witness_FaultsDetected :
    (locOk unit0 = true ∧ locPhys unit0 = true ∧ bit hurt.pins.dies (locDie unit0) = true ∧
      NoDomain hurt (bareLoc (hurt.fullLoc unit0)) ∧ hurt.phase? (containerAt 1 (hurt.fullLoc unit0)) = none ∧ (hurt.ledger 0).count < 1022) ∧
    (locKind unit0 = 1 ∧ (phased [(unit0, .probation)]).phase? (containerAt 1 (State.reset.fullLoc unit0)) = some .probation) ∧
    ((hurt.cmd? 3 0).any fun c => State.openCmd c && !c.nonRerunnable && !c.released && decide (c.reruns < hurt.keptReg 0x2600 0x07 2)) = true ∧
    (((hurt fun c => { c with nonRerunnable := true }).cmd? 3 0).any fun c => State.openCmd c && c.nonRerunnable) = true ∧
    (((hurt fun c => { c with released := true }).cmd? 3 0).any fun c => State.openCmd c && c.released) = true ∧
    (((hurt fun c => { c with reruns := 2 }).cmd? 3 0).any fun c => State.openCmd c && decide (hurt.keptReg 0x2600 0x07 2 ≤ c.reruns)) = true := by
  refine ⟨?_, ?_, ?_, ?_, ?_, ?_⟩ <;> decide +kernel

def stopped3 : State := { State.reset with pins := { stopped := 3 } }
def gleaner1 : Nat := unitLoc 0 1 2 0 0xFF
theorem witness_Repairs :
    (1000 ≤ State.reset.keptReg 0x2C00 0x0A 1000 ∧ State.reset.keptReg 0x2C00 0x0A 1000 < 1001) ∧
    (locOk spareG = true ∧ locPhys spareG = true ∧ NoDomain State.reset (bareLoc (State.reset.fullLoc spareG)) ∧ State.reset.atBoundary (containerAt 1 (State.reset.fullLoc spareG)) = true ∧ locKind spareG = 2 ∧
      State.reset.listed (unitLoc (locRegion16 spareG) (locCluster spareG) (locKind spareG) (locIndex spareG) 0xFF) = false) ∧
    (bit bound.pins.dies (15 / 8) = true ∧ NoDomain bound (bareLoc (bound.bankLoc 15 15 3071))) ∧
    (bit stopped3.pins.dies 1 = true ∧ bit stopped3.pins.stopped 1 = true ∧ bit stopped3.pins.fatal 1 = false) ∧
    (((hurt.cmd? 3 0).any fun c => State.openCmd c && c.wait != .done && hurt.worksOn c.region c.clusters gleaner1) = true ∧ locKind gleaner1 = 2 ∧
      locOk gleaner1 = true ∧ locPhys gleaner1 = true) := by
  refine ⟨?_, ?_, ?_, ?_, ?_⟩ <;> decide +kernel

def freezing (mask : Nat) : State := { reel 1000 with obs := { due := some (1001, mask) } }
def syncing (t : Nat) : State := { pulsed t with dict := { kept := [(State.key 0x2E00 0x0C, { value := 1, writes := 1 })] } }
/-- Breakpoint 8 on PASID 5 at yard offset 12; breakpoint 2 on its commands of queue 3 with tag 77. -/
def stepping : State := { hurt with fw := { scopes := 8 }, obs := { breakpoints := [(8, 5 + 2 ^ 20 + 12 * 2 ^ 32)] } }
def marked : Cmd := flying [(0, 2), (4, 77)] .parked
def tagged : State := { flight bound marked with fw := { scopes := 8 }, obs := { breakpoints := [(2, 5 + 2 * 2 ^ 20 + 77 * 2 ^ 32 + 3 * 2 ^ 64)] } }
/-- Each die has one event, and an alignment marker stands before the next pair of blocks. -/
def tracing (turn : Nat) : State :=
  { syncing 0 with obs := { daybook0 := { events := [5] }, daybook1 := { events := [6] }, dayPort := { blocks := 65540, next := 65535, turn := turn } } }
theorem witness_TraceAndBreakpoints_port :
    ((tracing 0).pending = [] ∧ (tracing 0).pins.state = .ready ∧ (tracing 0).keptReg 0x2E00 0x0C 0 = 1) ∧
    (max 65535 65540 = 65540 ∧ State.pairFrom 65540 = 65540 ∧ State.pairFrom 65535 = 65540 ∧ State.pairFrom 65536 = 65540 ∧ 65540 < 65540 + (0 + 35) / 33) ∧
    (match step (tracing 0), step (tracing 1) with
      | .next t, .next u => t.outbox == [.daybook 0 65540 (leBytes 8 5), .daybook 1 65541 (leBytes 8 0)] && t.obs.daybook1.events == [6] &&
          u.outbox == [.daybook 0 65540 (leBytes 8 6), .daybook 1 65541 (leBytes 8 0)] && u.obs.daybook0.events == [5]
      | _, _ => false) = true := by
  refine ⟨?_, ?_, ?_⟩ <;> decide +kernel
theorem witness_TraceAndBreakpoints :
    (((freezing 3).elapse 0).reel 0 < 1001 ∧ 1001 ≤ ((freezing 3).elapse 2).reel 0 ∧ bit 3 0 = true ∧ 3 ≠ 2 ^ 0 ∧
      1001 ≤ ((freezing 2).elapse 2).reel 1 ∧ 2 = 2 ^ 1) ∧
    (((syncing 1000000).elapse 0).eventFormed 1 = true ∧ (((syncing 1000000).elapse 0).daybook 1).lost = false ∧
      (((syncing 1000000).elapse 0).daybook 1).events.length < 16384 ∧
      (((syncing 1000000).elapse 0).daybook 1).lastSync + 1000000 ≤ ((syncing 1000000).elapse 0).reel 1) ∧
    (bit stepping.fw.scopes 3 = true ∧ Table.find? 8 stepping.obs.breakpoints = some (5 + 2 ^ 20 + 12 * 2 ^ 32) ∧
      bits (5 + 2 ^ 20 + 12 * 2 ^ 32) 21 20 = 1 ∧ bits (5 + 2 ^ 20 + 12 * 2 ^ 32) 63 32 = 12 ∧ locKind gleaner1 = 2 ∧
      (∃ e ∈ stepping.queues, e.2.pasid = bits (5 + 2 ^ 20 + 12 * 2 ^ 32) 19 0) ∧ 5 ∉ stepping.obs.halted) ∧
    (Table.find? 2 tagged.obs.breakpoints = some (5 + 2 * 2 ^ 20 + 77 * 2 ^ 32 + 3 * 2 ^ 64) ∧
      bits (5 + 2 * 2 ^ 20 + 77 * 2 ^ 32 + 3 * 2 ^ 64) 21 20 = 2 ∧ tagged.cmd? 3 0 = some marked ∧ marked.pasid = 5 ∧
      3 = bits (5 + 2 * 2 ^ 20 + 77 * 2 ^ 32 + 3 * 2 ^ 64) 83 64 ∧ marked.recs.tag = 77 ∧ marked.begun = false ∧ marked.hit = false) ∧
    bit State.reset.fw.scopes 3 = false := by
  refine ⟨?_, ?_, ?_, ?_, ?_⟩ <;> decide +kernel
theorem witness_TraceAndBreakpoints_inv : Inv stepping := inv_of (by simp only [Safety.ringOk]; decide +kernel)

/-! Translation, Loft space, completion, waits -/

def asking (r : TransReq) : State := { bound with trans := { bound.trans with requests := [r] } }
def req0 : TransReq := { die := 0, region := 0, pasid := 5, va := 2 ^ 30 + 8, access := 1 }
def isolated : State := { bound with pins := { isolated := true } }
theorem witness_Translations :
    (isolated.pins.isolated = true) ∧ (bound.pins.isolated = false ∧ bound.trans.requests = []) ∧
    (((asking { req0 with discard := true }).trans.requests.find? fun r => r.die == 0 && r.pasid == 5 && r.va / 4096 == 2 ^ 30 / 4096) =
        some { req0 with discard := true } ∧ (asking { req0 with discard := true }).trans.requests.erase { req0 with discard := true } = []) ∧
    (((asking req0).trans.requests.find? fun r => r.die == 0 && r.pasid == 5 && r.va / 4096 == (2 ^ 30 + 4095) / 4096) = some req0 ∧
      req0.discard = false ∧ rangeOk (2 ^ 30) 4096 0x5000 req0.va = true ∧ (asking req0).trans.pages = [] ∧ (asking req0).cmds = [] ∧
      ∀ x ∈ (asking req0).queues, x.2.issueWait = none) ∧
    ((Memory.wf bound.devMem = true ∧ Memory.wf bound.hostMem = true) ∧ 4095 / 4096 = (4095 + [(1 : Byte)].length - 1) / 4096 ∧
      bound.physOf 0 5 4095 [(1 : Byte)].length 1 = some 4095 ∧ bound.physOf 0 5 4095 [(1 : Byte)].length 0 = some 4095) := by
  refine ⟨?_, ?_, ?_, ?_, ?_⟩ <;> decide +kernel

theorem witness_Invalidations : isolated.pins.isolated = true ∧ bound.pins.isolated = false ∧ bound.holdsEntries 5 = true ∧
    bound.holdsEntries 6 = false ∧ (5, 0, 4096) ∈ ({ bound with trans := { invalidations := [(5, 0, 4096)] } } : State).trans.invalidations ∧
    (5, 0, 4096) ∉ bound.trans.invalidations := by decide +kernel

def pg : PageReq := { die := 0, pasid := 5, page := 2 ^ 18, rights := 3 }
def paged (c : List Cmd) : State := { bound with cmds := c, trans := { bound.trans with pages := [pg] } }
def onPage (kind : Nat) : Cmd := flying [(0, 14)] (.page (2 ^ 30 + 8) kind)
theorem witness_PageRequests :
    ((paged []).pins.isolated = false ∧ ((paged []).trans.pages.find? fun p =>
      p.die == 0 && p.pasid == 5 && p.page == 2 ^ 18 && !p.queued && !p.answered) = some pg ∧ (paged []).trans.requests = []) ∧
    ((paged [onPage 1]).cmd? 3 0 = some (onPage 1) ∧ (onPage 1).pasid = 5 ∧ (2 ^ 30 + 8) / 4096 = 2 ^ 18 ∧
      (∀ y ∈ (paged [onPage 1]).trans.pages, y.die = 0 → y.pasid = 5 ∧ y.page = 2 ^ 18) ∧
      (∀ x ∈ (paged [onPage 1]).cmds, x.pasid = 5 → x = onPage 1) ∧ ∀ x ∈ (paged [onPage 1]).queues, x.2.pasid = 5 → x.2.issueWait = none) := by
  refine ⟨?_, ?_⟩ <;> decide +kernel

/-- Queue 3 with 8 units, asking for n. -/
def wanting (n : Nat) : State :=
  withQ { bound with loft := { parts := [(0, { state := 1, pasid := 5, units := 8, baseUnit := 0, mask := 3 })] } } fun k =>
    { k with floor := 8, borrow := 248, wants := some n, wantsSince := 4 }
def borrowing : State :=
  withQ { bound with loft := { parts := [(0, { state := 1, pasid := 5, units := 16, baseUnit := 0, mask := 3 })] } } fun k =>
    { k with floor := 8, borrowed := 8, borrowTime := 3 }
def full : State := withQ borrowing fun k => { k with wants := some 256 }
def yielding (s : State) : State := withQ s fun k => { k with yieldOrdered := true }
theorem witness_LoftSpace :
    (((wanting 192).queue? 3).any fun k => (wanting 192).oldestRequest 3 k && k.saved.isNone &&
      (wanting 192).poolRoom k ((wanting 192).unitsAsked k - k.floor - k.borrowed) && ((wanting 192).giveUnits k ((wanting 192).unitsAsked k)).isSome) = true ∧
    (((wanting 193).queue? 3).any fun k => (wanting 193).oldestRequest 3 k && k.saved.isNone &&
      !(wanting 193).poolRoom k ((wanting 193).unitsAsked k - k.floor - k.borrowed)) = true ∧ (wanting 193).cmds = [] ∧
    ((bound.queue? 3).any fun k => !bound.oldestRequest 3 k) = true ∧
    (full.youngest 0).isSome = true ∧ full.mutualWait 0 = true ∧ (borrowing.youngest 0).isSome = true ∧ borrowing.mutualWait 0 = false ∧
    ((borrowing.queue? 3).any fun k => !k.yieldOrdered) = true ∧
    (((yielding bound).queue? 3).any fun k => k.yieldOrdered && k.borrowed == 0) = true ∧
    (((yielding borrowing).queue? 3).any fun k => k.yieldOrdered && k.borrowed != 0 && k.part == some 0 && !((yielding borrowing).part k.region 0).pinned &&
      ((yielding borrowing).part k.region 0).state == 1 &&
      decide ((yielding borrowing).reach k.region k.pasid (bits k.image 255 204 * 4096) (State.areaBytes k) 1 = .ok) &&
      decide ((yielding borrowing).reach k.region k.pasid (bits k.image 255 204 * 4096) (State.areaBytes k) 0 = .ok)) = true := by
  refine ⟨?_, ?_, ?_, ?_, ?_, ?_, ?_, ?_, ?_, ?_, ?_⟩ <;> decide +kernel

def fence3 (w : Wait) : Cmd := flying [(0, 14), (4, 9)] w
def complHost : State := { complAhead (2 ^ 32 - 1) with trans := { die0 := [{ page with pa := hostBase }] } }
theorem witness_Completion :
    ((flight bound (fence3 .fence)).cmd? 3 0 = some (fence3 .fence) ∧ (fence3 .fence).wait = .fence) ∧
    ((flight bound (fence3 .done)).cmd? 3 0 = some (fence3 .done) ∧ (bound.queue? 3).map Queue.complBase = some 0x11000 ∧ 0x11000 % 4096 = 0 ∧
      (flight bound (fence3 .done)).reach (16 + 0) 5 0x11000 64 1 = .ok ∧ (flight bound (fence3 .done)).physOf (16 + 0) 5 0x11000 64 1 = some 0x11000 ∧
      (flight bound (fence3 .done)).obs.captures = [] ∧
      ∀ x ∈ (flight bound (fence3 .done)).cmds, ¬(x.recs.cls = 10 ∧ x.wait = .fence) ∧ x.wait ≠ .shadow) ∧
    ((flight complHost (fence3 .done)).reach (16 + 0) 5 (0x11000 + 64 * ((2 ^ 32 - 1) % 64)) 64 1 = .ok ∧
      (flight complHost (fence3 .done)).physOf (16 + 0) 5 (0x11000 + 64 * ((2 ^ 32 - 1) % 64)) 64 1 = some (hostBase + 0x11000 + 64 * 63)) ∧
    ((fence3 .done).q = 3 ∧ (fence3 .done).recs.cls ≠ 7 ∧ (fence3 .done).recs.tag = 9) := by
  refine ⟨?_, ?_, ?_, ?_⟩ <;> decide +kernel

def again (f : Cmd → Cmd := id) : State := hurt fun c => f { c with wait := .rerun true }
theorem witness_Reruns :
    ((again.cmd? 3 0).any fun c => State.openCmd c && !c.unchecked && c.wait == .rerun true && !c.nonRerunnable && !c.released &&
      decide (c.reruns < again.keptReg 0x2600 0x07 2)) = true ∧
    (((again fun c => { c with nonRerunnable := true }).cmd? 3 0).any fun c => State.openCmd c && c.nonRerunnable) = true ∧
    (((again fun c => { c with released := true }).cmd? 3 0).any fun c => State.openCmd c && c.released && !c.nonRerunnable) = true ∧
    (((again fun c => { c with reruns := 2 }).cmd? 3 0).any fun c => State.openCmd c && decide (again.keptReg 0x2600 0x07 2 ≤ c.reruns) &&
      c.lastFault.isNone) = true := by
  refine ⟨?_, ?_, ?_, ?_⟩ <;> decide +kernel

def syncing3 (op : Nat) (w : Wait) (f : List (Nat × Nat)) : Cmd := flying ([(0, 10), (16, op), (20, 3)] ++ f) w
def semd : State := { bound with loft := { bound.loft with sems := [(0, 3), (4096, 2)] } }
def semWait : Cmd := syncing3 0 .semaphore [(24, 0x34000)]
def ctrWait : Cmd := syncing3 1 .counter [(24, 1), (28, 2 ^ 32 - 1), (32, 1)]
def memWait : Cmd := syncing3 2 .memory [(32, 77), (40, 0x20000)]
theorem witness_Waits :
    ((flight semd semWait).cmd? 3 0 = some semWait ∧ (flight semd semWait).mayRun semWait = true ∧ (flight semd semWait).breakHolds semWait = false ∧
      semWait.recs.cls = 10 ∧ semWait.recs.form = 0 ∧ bits (semWait.recs.b 24 27) 15 14 = 1 ∧ semWait.semGot = 0 ∧
      ((flight semd semWait).cmdPart semWait).semBase + bits (semWait.recs.b 24 27) 7 0 < 4096) ∧
    ((flight bound ctrWait).cmd? 3 0 = some ctrWait ∧ (flight bound ctrWait).mayRun ctrWait = true ∧ ctrWait.recs.cls = 10 ∧ ctrWait.recs.form = 1) ∧
    ((flight bound memWait).cmd? 3 0 = some memWait ∧ (flight bound memWait).mayRun memWait = true ∧ memWait.recs.form = 2 ∧
      (flight bound memWait).reachAll 0 5 [{ va := memWait.recs.b 40 47, len := 8, kind := 0 }] = none ∧
      (flight bound memWait).poisonIn 0 5 [{ va := memWait.recs.b 40 47, len := 8, kind := 0 }] = none) := by
  refine ⟨?_, ?_, ?_⟩ <;> decide +kernel

/-- A GEMM of 128 rows, gated in 2 tiles on counter 1. -/
def gated (ring : Nat) : Cmd :=
  { flying [(0, 2)] (.gate 0) with
    recs := { desc := desc [(0, 2), (24, 0), (32, 128), (36, 16), (40, 16)], args := bytes 256 [(56, 0x40000)],
              chain := bytes 256 [(96, 1 + 64 * 2 ^ 16), (104, ring)] } }
def arrived (n : Nat) : State := { bound with loft := { bound.loft with ctrs := [(1, n), (4097, n)] } }
def ringed : Cmd := gated (2 * 2 ^ 16 + 0x18000 * 2 ^ 32)
/-- A two-pass ATTEND of two key tiles that reads a ring of two slots. -/
def ringedAttend : Cmd :=
  { flying [(0, 1)] (.gate 0) with
    form := 1,
    recs := { desc := desc [(0, 1), (36, 16)], args := bytes 256 [(56, 0x40000)],
              mask := bytes 128 [(0, 256), (64, 2 ^ 16 + 128 * 2 ^ 64)],
              chain := bytes 256 [(96, 1 + 64 * 2 ^ 16), (104, 2 * 2 ^ 16 + 0x18000 * 2 ^ 32)] } }
theorem witness_Gates :
    ((flight bound (gated 0)).cmd? 3 0 = some (gated 0) ∧ (flight bound (gated 0)).mayRun (gated 0) = true ∧ (gated 0).wait = .gate 0 ∧
      (flight bound (gated 0)).tileArrived (gated 0) (gateRec (gated 0)) 0 = false) ∧
    ((flight (arrived 64) (gated 0)).tileArrived (gated 0) (gateRec (gated 0)) 0 = true ∧ (gated 0).tiles = 0 ∧
      (flight (arrived 64) (gated 0)).breakHolds (gated 0) = false ∧ (gateRec (gated 0)).ringed = false ∧ 0 + 1 < gateTiles (gateRec (gated 0))) ∧
    ((flight (arrived 64) ringed).cmd? 3 0 = some ringed ∧ (flight (arrived 64) ringed).tileArrived ringed (gateRec ringed) 0 = true ∧
      (gateRec ringed).ringed = true ∧ ((flight (arrived 64) ringed).ringTile ringed (gateRec ringed) 0).2.1 = none ∧
      ((flight (arrived 64) ringed).ringTile ringed (gateRec ringed) 0).2.2 = [] ∧ (SemWord.ofWord (gateRec ringed).ringRelease).op = 2 ∧
      ((flight (arrived 64) ringed).signalMask ((flight (arrived 64) ringed).cmdPart ringed) 0 3 (SemWord.ofWord (gateRec ringed).ringRelease)).2 = true ∧
      State.releasesAt ringed 0 = 1 ∧ 0 + 1 < gateTiles (gateRec ringed)) ∧
    (let c : Cmd := ringedAttend
     let s := flight (arrived 64) c
     s.cmd? 3 0 = some c ∧ s.mayRun c = true ∧ c.wait = .gate 0 ∧ s.tileArrived c (gateRec c) 0 = true ∧ c.tiles = 0 ∧ s.breakHolds c = false ∧
      (gateRec c).ringed = true ∧ (s.ringTile c (gateRec c) 0).2.1 = none ∧ (s.ringTile c (gateRec c) 0).2.2 = [] ∧
      (gateRec c).isAttend = true ∧ c.form = 1 ∧ 0 + 1 < gateTiles (gateRec c)) ∧
    (bound.cadence = false ∧ inCadence.cadence = true) := by
  refine ⟨?_, ?_, ?_, ?_, ?_⟩ <;> decide +kernel

def tr0 : Transfer := { base := 0x20000, log2 := 3, first := 0, count := 2 }
/-- A MOVE that is to take n descriptors. -/
def bursting (n : Nat) (ctl : Nat) : State :=
  flight (mems bound [(0x20000, xfer ctl), (0x20080, xfer 0)]) (moving { tr0 with count := n })
def landedSlot : Slot := { d := 0, bytes := xfer 0, started := true, landed := some 500, missed := some 400, cursor := 2, formed := 2 }
def oneLeft : Transfer := { tr0 with count := 1, fetched := 1, slots := [landedSlot] }
def waitingSlot : Slot := { d := 0, bytes := leBytes 128 (leNat (xfer 0) + 0x14000 * 2 ^ 64) }
theorem witness_Transfers :
    ((flight bound (moving { tr0 with fetched := 2 })).burstSize (moving { tr0 with fetched := 2 }) { tr0 with fetched := 2 } = none) ∧
    ((bursting 2 0).cmd? 3 0 = some (moving tr0) ∧ (bursting 2 0).mayRun (moving tr0) = true ∧
      ((bursting 2 0).burstSize (moving tr0) tr0).any (fun n =>
        decide ((bursting 2 0).reachAll 0 5 (State.burstRanges tr0 n) = none ∧ (bursting 2 0).poisonIn 0 5 (State.burstRanges tr0 n) = none) &&
        ((State.burstRanges tr0 n).map fun a => (bursting 2 0).readVA 0 5 a.va 128).all fun b =>
          lowest ((Xfer.ofBytes b).codes ((bursting 2 0).burstEnv (moving tr0)) ((bursting 2 0).keptReg 0x2000 0x02 1)) == none) = true) ∧
    (lowest ((Xfer.ofBytes ((bursting 1 15).readVA 0 5 0x20000 128)).codes ((bursting 1 15).burstEnv (moving { tr0 with count := 1 }))
      ((bursting 1 15).keptReg 0x2000 0x02 1))).isSome = true ∧
    (oneLeft.slots = [landedSlot] ∧ landedSlot.landed.isSome = true ∧ landedSlot.failed = false ∧ oneLeft.failure = none ∧
      oneLeft.completed + 1 = oneLeft.count ∧ (flight bound (moving oneLeft)).cmd? 3 0 = some (moving oneLeft)) ∧
    ((flight bound (moving { oneLeft with slots := [waitingSlot] })).mayRun (moving { oneLeft with slots := [waitingSlot] }) = true ∧
      ([waitingSlot].any fun x => x.d == 0 && !x.started) = true) := by
  refine ⟨?_, ?_, ?_, ?_, ?_⟩ <;> decide +kernel

def behind : State := { flight bound (fence3 .fence) with cmds := [{ flying [(0, 2)] .parked with i := 2 ^ 32 - 1 }, { fence3 .fence with order := 1 }] }
def atPoint (p : Nat) : Cmd := { flying [(0, 13)] .release with releaseReel := some p }
def freeing : Cmd := { flying [(0, 9), (17, 2), (20, 7)] .granary with writer := true }
def twoSeqs : State := flight { bound with granary := { seqs := [(7, { state := 2, pasid := 5 }), (9, { pasid := 5 })] } } freeing
def watching : State :=
  flight { bound with obs := { captures := [{ place := 0, q := 3, i := 0, record := bytes 64 [], issued := 1 }] } } (flying [(0, 12)] .capture)
theorem witness_LateReleases :
    ((fence3 .fence).recs.cls = 14 ∧ (flight bound (fence3 .fence)).fenceOpen (fence3 .fence) = true) ∧
    ((flight bound (fence3 .fence)).cmd? 3 0 = some (fence3 .fence) ∧ ((flight bound (fence3 .fence)).queue? 3).any (fun k =>
      k.complBase % 4096 == 0 && decide ((flight bound (fence3 .fence)).reach 16 5 (k.complBase + 64 * (k.complTail % 2 ^ k.complLog2)) 64 1 = .ok) &&
      ((flight bound (fence3 .fence)).physOf 16 5 (k.complBase + 64 * (k.complTail % 2 ^ k.complLog2)) 64 1).isSome) = true) ∧
    (behind.cmd? 3 0).any (fun c => !behind.fenceOpen c) = true ∧
    ((({ flight (reel 1000) (atPoint 1000) with queues := bound.queues } : State).elapse 0).pointPassed (atPoint 1000) = true ∧
      (({ flight (reel 1000) (atPoint 1001) with queues := bound.queues } : State).elapse 0).pointPassed (atPoint 1001) = false) ∧
    (twoSeqs.cmd? 3 0 = some freeing ∧ freeing.wait = .granary ∧ twoSeqs.mayRun freeing = true ∧ freeing.unchecked = false ∧
      twoSeqs.breakHolds freeing = false ∧ freeing.recs.cls = 9 ∧ freeing.recs.kvOp = 2 ∧ freeing.recs.b 20 21 = 7 ∧
      (twoSeqs.seq? 7).map Sequence.readers = some 0) ∧
    ((watching.obs.captures.find? fun k => k.place == 0 && k.matched.isNone && decide (k.rec_.expire ≤ k.issued)).isSome = true ∧
      (watching.cmd? 3 0).isSome = true) := by
  refine ⟨?_, ?_, ?_, ?_, ?_, ?_⟩ <;> decide +kernel

/-! Commands of a queue as they issue -/

/-- A BF16 GEMM of M = N = 1, K = 2 into BF16, with its arguments at 0x20000. -/
def gemmF : List (Nat × Nat) := [(0, 2), (4, 9), (8, 0x20000), (16, 2), (18, 2), (22, 2), (32, 1), (36, 1), (40, 2)]
def args (l : List Nat) : List Byte := (l.map (leBytes 8)).flatten ++ List.replicate (128 - 8 * l.length) 0
def gemmM : List (Nat × List Byte) := [(0x20000, args [0x30000, 0x31000, 0, 0x32000]), (0x30000, [0x80, 0x3F, 0, 0x40]), (0x31000, [0x80, 0x3F, 0, 0x40])]
def gemmS : State := next bound gemmF gemmM
/-- The same with an unpaired right type, INT8, refused by its pair of formats. -/
def badGemm : State := next bound ((0, 2) :: (18, 9) :: gemmF.tail) gemmM
/-- A CREATE with a reserved byte set, over a pool of one sheaf. -/
def shortS : State :=
  next { bound with granary := { pool := 1 } } [(0, 9), (23, 1), (28, 64), (32, 2), (34, 2), (36, 1), (60, 1)]
/-- Two ready queues of one class: 3, and 4 beside it, which the cursor and the age choose between. -/
def pair34 (cursor since : Nat) : State :=
  match gemmS.queue? 3 with
  | some k => { (gemmS.setQueue 4 k) with cursors := [(classCursor, cursor)], waiting := [(4, since)], clk := 3300000 }
  | none => gemmS
where classCursor : Nat := match gemmS.queue? 3 with
  | some k => k.region / 8 * 8 + State.classOfQueue k
  | none => 0
def turnOf (s : State) (q : Nat) : Bool := (s.queue? q).any (s.turn q)
theorem witness_QueueCommandsIssue_turn :
    (Table.rising (pair34 0 200000).queues = true ∧ turnOf (pair34 0 200000) 3 = true ∧ turnOf (pair34 0 200000) 4 = false) ∧
    (turnOf (pair34 4 200000) 4 = true ∧ (pair34 4 200000).aged 4 = false) ∧
    (turnOf (pair34 0 100000) 4 = true ∧ turnOf (pair34 0 100000) 3 = false ∧ (pair34 0 100000).aged 4 = true) ∧
    ((pair34 0 100000).queue? 4).any (fun k => (pair34 0 100000).servable (4, k)) = true := by decide +kernel
theorem witness_QueueCommandsIssue :
    (State.reset.queue? 3 = none) ∧ ((bound.queue? 3).any fun k => !bound.ready 3 k) = true ∧
    ((gemmS.queue? 3).any fun k => decide (gemmS.reach (16 + k.region / 8) k.pasid (descAt k) 64 0 = .ok) &&
      !State.takesClass 4 { desc := nextDesc gemmS k }) = true ∧
    ((badGemm.queue? 3).any fun k => checked badGemm 3 k && State.takesClass 2 { desc := nextDesc badGemm k } &&
      (lowest ((afterReads badGemm k).allCodes k (nextCmd badGemm 3 k))).any fun code =>
        ((afterReads badGemm k).kvShort (nextCmd badGemm 3 k) code).isNone) = true ∧
    ((shortS.queue? 3).any fun k => checked shortS 3 k && State.takesForm 9 5 0 Recs.kvOp { desc := nextDesc shortS k } &&
      (lowest ((afterReads shortS k).allCodes k (nextCmd shortS 3 k))).any fun code =>
        ((afterReads shortS k).kvShort (nextCmd shortS 3 k) code).any fun x => x.2.code == 0x2507 && code == 0x2901) = true := by
  refine ⟨?_, ?_, ?_, ?_, ?_⟩ <;> decide +kernel
theorem witness_QueueCommandsIssue_issues : ∃ v c, Issues gemmS 3 v c ∧ State.takesClass 2 { desc := c.recs.desc } = true :=
  issues_with (by decide +kernel)

/-- What a clause about an ungated plan asks of the command. -/
def plain (cls : Nat) (bad : Bool) (v : State) (c : Cmd) : Bool :=
  let as := readsOf (planReads (v.cmdReader c) c) ++ writesOf (v.outputsOf c)
  c.recs.cls == cls && gateTiles (gateRec c) == 0 && c.sends.isEmpty && (splitRanges c).isEmpty &&
    (v.reachAll c.region c.pasid as).isNone && (v.poisonIn c.region c.pasid as).isNone &&
    (v.kvLost (planOf (v.workEnv c) c).kv).isNone && (planOf (v.workEnv c) c).badPos == bad && (planOf (v.workEnv c) c).sends.isEmpty
/-- A sequence of 4 tokens in one data sheaf of zeros, with its arguments. -/
def kept4 : Sequence :=
  { pasid := 5, kType := 2, vType := 2, heads := 1, perSheaf := 1, layers := 1, capacity := 64, generation := 1, lengths := [(0, 4)],
    tally := [(0, 2)], tallySheaves := [0], dirSheaves := [1] }
def appended : State :=
  { bound with
    granary := {
      seqs := [(0, kept4)], staged := 4,
      sheaves := [(0, { kind := 2, pasid := 5 }), (1, { kind := 3, pasid := 5 }), (2, { kind := 1, pasid := 5 })],
      data := ((List.range 512).map fun i => (131072 + i, 0)) ++ ((List.range 512).map fun i => (139264 + i, 0)) } }
def attendS (pos : Nat) : State := next appended [(0, 1), (8, 0x20000), (16, 2), (18, 2), (20, 2), (22, 2), (32, 1)]
  [(0x20000, args [0x30000, 0x32000, 0x21000]), (0x21000, bytes 128 [(1, 1), (64, 2 ^ 16), (72, pos)])]
/-- A BF16 GEMM of 128 rows gated in 2 tiles. -/
def gatedS : State := next bound [(0, 2), (8, 0x20000), (16, 2), (18, 2), (22, 2), (32, 128), (36, 1), (40, 2)]
  [(0x20000, args [0x30000, 0x31000, 0, 0x32000, 0, 0, 0, 0x23000]), (0x23000, bytes 256 [(1, 1), (96, 1 + 64 * 2 ^ 16)])]
def prod (a m n k ta : Nat) : List Byte := desc [(0, 2), (8, a), (16, ta), (18, 2), (22, 2), (32, m), (36, n), (40, k)]
/-- A CHAIN2 needs 72 units here (R276); its queue has borrowed 8. -/
def chainS : State := next { withQ bound (fun k => { k with borrowed := 8 }) with loft := { parts := [(0, { state := 1, pasid := 5, units := 72, mask := 3 })] } } [(0, 3), (16, 0x21000), (24, 0x22000)]
  [(0x21000, prod 0x20000 1 64 1 2), (0x22000, prod 0x20400 1 1 64 2), (0x20000, args [0x30000, 0x31000, 0, 0]), (0x20400, args [0, 0x31000, 0, 0x32000])]
def normS : State := next bound [(0, 4), (8, 0x20000), (16, 1), (18, 1), (28, 1), (32, 2)] [(0x20000, args [0x30000, 0x32000])]
/-- A FUNC whose operand table names a bias row: stage kind 1 of 2 columns. -/
def funcS : State := next bound [(0, 5), (8, 0x20000), (16, 1 + 2 * 256), (24, 2), (32, 1), (36, 2)]
  [(0x20000, args [0x30000, 0x32000, 0x21000]), (0x21000, bytes 128 [(0, 0x40000), (8, 2), (16, 0x41000), (24, 2)])]
/-- A FUNC that rotates by a position beyond its table. -/
def lostS : State := next bound [(0, 5), (8, 0x20000), (16, 2 + 2 * 256 + 0x44 * 2 ^ 40), (24, 2), (32, 1), (36, 16)]
  [(0x20000, args [0x30000, 0x32000, 0x21000]), (0x21000, bytes 128 [(0, 0x40000), (8, 2), (12, 4), (16, 0x41000), (24, 0x0B)]), (0x41000, leBytes 4 4)]
def convertS : State := next bound [(0, 6), (8, 0x20000), (16, 3), (24, 2 * 256 + 255 * 2 ^ 48), (32, 2), (36, 1), (40, 2)] [(0x20000, args [0x30000, 0x32000])]
theorem witness_ArithmeticCommands :
    (∃ v c, Issues gatedS 3 v c ∧ (c.recs.cls = 2 ∧ gateTiles (gateRec c) = 2 ∧ c.sends = [])) ∧
    (∃ v c, Issues gemmS 3 v c ∧ plain 2 false v c = true) ∧ (∃ v c, Issues (attendS 4) 3 v c ∧ plain 1 false v c = true) ∧
    (∃ v c, Issues chainS 3 v c ∧ plain 3 false v c = true) ∧ (∃ v c, Issues normS 3 v c ∧ plain 4 false v c = true) ∧
    (∃ v c, Issues funcS 3 v c ∧ plain 5 false v c = true) ∧ (∃ v c, Issues lostS 3 v c ∧ plain 5 true v c = true) ∧
    (∃ v c, Issues convertS 3 v c ∧ (c.recs.form = 3 ∧ plain 6 false v c = true)) := by
  refine ⟨?_, ?_, ?_, ?_, ?_, ?_, ?_, ?_⟩ <;> exact issues_with (by decide +kernel)

def sems (n : Nat) : State := { bound with loft := { bound.loft with sems := [(0, n), (4096, 3)] } }
/-- An unfinished command of queue 3 before the next. -/
def before (s : State) : State := { s with cmds := [{ flying [(0, 2)] .parked with i := 2 ^ 32 - 1 }] }
def ctrs (n : Nat) : State := { bound with loft := { bound.loft with ctrs := [(1, n), (4097, n)] } }
def signalF : List (Nat × Nat) := [(0, 10), (20, 3), (24, 0x38000)]
def wordF (form : Nat) : List (Nat × Nat) := [(0, 10), (16, form), (32, 5), (40, 0x50000)]
def clear (v : State) (c : Cmd) (as : List Access) : Bool := (v.reachAll c.region c.pasid as).isNone && (v.poisonIn c.region c.pasid as).isNone
/-- Each cluster's semaphore under a command's word. -/
def semOf (v : State) (c : Cmd) (n : Nat) : Nat := v.sem (loftKey c.region n ((v.cmdPart c).semBase + bits (c.recs.b 24 27) 7 0))
theorem witness_SyncCommands :
    (∃ v c, Issues (next (sems 3) [(0, 10), (20, 3), (24, 0x34000)]) 3 v c ∧ (c.recs.cls = 10 ∧ c.recs.form = 0 ∧ bits (c.recs.b 24 27) 15 14 = 1 ∧
      (v.cmdPart c).semBase + bits (c.recs.b 24 27) 7 0 < 4096 ∧ ∀ n, n < 16 → bit (c.recs.b 20 21) n = true → bits (c.recs.b 24 27) 31 16 ≤ semOf v c n)) ∧
    (∃ v c, Issues (next (sems (2 ^ 32 - 4)) signalF) 3 v c ∧ (c.recs.form = 0 ∧ bits (c.recs.b 24 27) 15 14 = 2 ∧ v.firstOfQueue c = true ∧
      ∀ n, n < 16 → bit (c.recs.b 20 21) n = true → semOf v c n + bits (c.recs.b 24 27) 31 16 < 2 ^ 32)) ∧
    (∃ v c, Issues (next (sems (2 ^ 32 - 3)) signalF) 3 v c ∧ (bits (c.recs.b 24 27) 15 14 = 2 ∧ v.firstOfQueue c = true ∧
      ∃ n, n < 16 ∧ bit (c.recs.b 20 21) n = true ∧ 2 ^ 32 ≤ semOf v c n + bits (c.recs.b 24 27) 31 16)) ∧
    (∃ v c, Issues (before (next (sems 3) signalF)) 3 v c ∧ (c.recs.form = 0 ∧ bits (c.recs.b 24 27) 15 14 = 2 ∧ v.firstOfQueue c = false)) ∧
    (∃ v c, Issues (before (next bound (wordF 3))) 3 v c ∧ (c.recs.form = 3 ∧ v.firstOfQueue c = false)) ∧
    (∃ v c, Issues (before (next bound (wordF 4))) 3 v c ∧ (c.recs.form = 4 ∧ v.firstOfQueue c = false)) ∧
    (∃ v c, Issues (next (ctrs 7) [(0, 10), (16, 1), (20, 3), (24, 1), (28, 2), (32, 5)]) 3 v c ∧ (c.recs.cls = 10 ∧ c.recs.form = 1)) ∧
    (∃ v c, Issues (next bound (wordF 2)) 3 v c ∧ (c.recs.cls = 10 ∧ c.recs.form = 2)) ∧
    (∃ v c, Issues (next bound (wordF 3)) 3 v c ∧ (c.recs.form = 3 ∧ v.firstOfQueue c = true ∧
      clear v c [{ va := c.recs.b 40 47, len := 8, kind := 2 }] = true)) ∧
    (∃ v c, Issues (next bound (wordF 4)) 3 v c ∧ (c.recs.form = 4 ∧ v.firstOfQueue c = true ∧
      clear v c [{ va := c.recs.b 40 47, len := 8, kind := 1 }] = true)) := by
  refine ⟨?_, ?_, ?_, ?_, ?_, ?_, ?_, ?_, ?_, ?_⟩ <;> exact issues_with (by decide +kernel)

def seqF (op : Nat) (f : List (Nat × Nat)) : List (Nat × Nat) := [(0, 9), (16, op * 256)] ++ f
def readS : State := { appended with granary := { appended.granary with seqs := [(0, { kept4 with readers := 1 })] } }
def appM : List (Nat × List Byte) := [(0x20000, args [0x30000, 0x31000])]
theorem witness_GranaryCommands :
    (∃ v c, Issues (next bound (seqF 0 [(23, 1), (28, 64), (32, 2), (34, 2), (36, 1), (37, 0)])) 3 v c ∧ (c.recs.cls = 9 ∧ c.recs.kvOp = 0)) ∧
    (∃ v c, Issues (next appended (seqF 1 [(24, 64), (28, 128)])) 3 v c ∧ (c.recs.kvOp = 1 ∧ (appended.seq? (c.recs.b 20 21)).isSome = true)) ∧
    (∃ v c, Issues (next appended (seqF 2 [])) 3 v c ∧ (c.recs.kvOp = 2 ∧ (v.seq? (c.recs.b 20 21)).map Sequence.readers = some 0)) ∧
    (∃ v c, Issues (next readS (seqF 2 [])) 3 v c ∧ (c.recs.kvOp = 2 ∧ (v.seq? (c.recs.b 20 21)).map Sequence.readers = some 1)) ∧
    (∃ v c, Issues (next appended (seqF (3 + 16) [(24, 9)])) 3 v c ∧ (c.recs.kvOp = 3 ∧ (appended.seq? (c.recs.b 20 21)).isSome = true)) ∧
    (∃ v c, Issues (next appended (seqF (4 + 2 ^ 5 + 2 ^ 6 + 2 ^ 8) [])) 3 v c ∧ (c.recs.kvOp = 4 ∧ (appended.seq? (c.recs.b 20 21)).isSome = true)) ∧
    (∃ v c, Issues (next appended (seqF 5 [(40, 0x50000)])) 3 v c ∧ (c.recs.kvOp = 5 ∧ (v.seq? (c.recs.b 20 21)).isSome = true ∧
      clear v c [{ va := c.recs.b 40 47, len := 1024, kind := 1 }] = true)) ∧
    (∃ v c, Issues (next appended [(0, 7), (8, 0x20000), (24, 4), (28, 60), (32, 2), (34, 2)] appM) 3 v c ∧ (c.recs.cls = 7 ∧
      (v.seq? (c.recs.b 20 21)).any (fun sq => clear v c (readsOf (State.appendReads c.recs sq))) = true)) ∧
    (∃ v c, Issues (next appended [(0, 8), (8, 0x20000), (24, 1), (28, 3), (32, 1)] appM) 3 v c ∧ (c.recs.cls = 8 ∧ bit c.recs.kv 4 = false ∧
      ((v.seq? (c.recs.b 20 21)).any fun sq => (v.kvLost (State.gatherReads c sq)).isNone) = true ∧
      clear v c (writesOf (v.outputsOf c)) = true)) ∧
    (∃ v c, Issues (next appended [(0, 8), (16, 16), (28, 3), (32, 1), (33, 2), (34, 3), (36, 5)]) 3 v c ∧ (c.recs.cls = 8 ∧ bit c.recs.kv 4 = true ∧
      ((v.seq? (c.recs.b 20 21)).any fun sq => (v.kvLost (State.gatherReads c sq)).isNone) = true ∧
      (v.cmdPart c).ctrBase + c.recs.b 33 33 < 4096)) := by
  refine ⟨?_, ?_, ?_, ?_, ?_, ?_, ?_, ?_, ?_, ?_⟩ <;> exact issues_with (by decide +kernel)

/-- A fill of the last rows of the partition with a signal; a copy of two rows. -/
def fillF : List (Nat × Nat) := [(0, 6), (16, 1), (20, 1), (24, 1022), (28, 2), (32, 1), (36, 0x28001)]
theorem witness_MoveCommands :
    (∃ v c, Issues (next bound [(0, 6), (24, 0x20000), (32, 4), (36, 7), (40, 2)]) 3 v c ∧ (c.recs.cls = 6 ∧ c.recs.form = 0)) ∧
    (∃ v c, Issues (next bound fillF) 3 v c ∧ (c.recs.form = 1 ∧ 16 * (v.cmdPart c).baseUnit + c.recs.b 24 27 + c.recs.b 28 31 ≤ 4096 ∧
      bits (c.recs.b 36 39) 15 14 = 2)) ∧
    (∃ v c, Issues (next bound [(0, 6), (16, 1), (20, 3), (24, 5), (28, 2)]) 3 v c ∧ (c.recs.form = 1 ∧ bits (c.recs.b 36 39) 15 14 ≠ 2)) ∧
    (∃ v c, Issues (next bound [(0, 6), (16, 2), (20, 3), (24, 5), (28, 7), (32, 2)]) 3 v c ∧ (c.recs.form = 2 ∧
      16 * (v.cmdPart c).baseUnit + c.recs.b 28 31 + c.recs.b 32 35 ≤ 4096 ∧ bits (c.recs.b 36 39) 15 14 ≠ 2)) ∧
    (∃ v c, Issues (next bound [(0, 6), (16, 2), (20, 1), (24, 5), (32, 1), (36, 0x18000)]) 3 v c ∧ (c.recs.form = 2 ∧
      bits (c.recs.b 36 39) 15 14 = 2)) := by
  refine ⟨?_, ?_, ?_, ?_, ?_⟩ <;> exact issues_with (by decide +kernel)

/-- A function-table image of 8 segments, its CRC right or off by `more`. -/
def image1 (more : Nat) : List Byte :=
  let h := bytes 576 [(0, 4), (5, 1), (7, 0xFF), (8, 576), (16, 0x3FF0000000000000)]
  h.take 12 ++ leBytes 4 (crcBytes (crcInput h) + more) ++ h.drop 16
def loader : State := { bound with dict := { kept := [(State.key 0x2300 0x10, { value := 5, writes := 1 })] } }
def tableF : List (Nat × Nat) := [(0, 11), (16, 31), (24, 0x50000)]
def shadowed : State :=
  { next loader tableF [(0x50000, image1 0)] with
    mills := { generation := 2, shadow := [], shadowGeneration := 1 }, cmds := [{ flying [(0, 2)] .parked with i := 9, q := 4, gen := 1 }] }
def headOf (v : State) (c : Cmd) : List Byte := v.readVA c.region c.pasid (c.recs.b 24 31) 64
/-- What the clauses about a load ask: the reads are clear, and the image's codes are as told. -/
def loads (ok : Bool) (v : State) (c : Cmd) : Bool :=
  let h := headOf v c
  let a : Access := { va := c.recs.b 24 31, len := 64, kind := 0 }
  let a' : Access := { va := a.va + 64, len := field h 8 11 - 64, kind := 0 }
  let u := v.noteAll c.region c.pasid [a]
  c.recs.cls == 11 && !v.shadowBusy c && decide (64 ≤ field h 8 11 ∧ field h 8 11 ≤ 163904) && clear v c [a] && clear u c [a'] &&
    (lowest (v.loadCodes c.recs.form (h ++ v.readVA c.region c.pasid a'.va a'.len))).isNone == ok
def dumpS : State := next { bound with fw := { scopes := 15 } } [(0, 12), (16, 0x50000)] [(0x50000, bytes 64 [(0, 3), (14, 1), (16, 0x60000)])]
def timedF (t : Nat) : List (Nat × Nat) := [(0, 13), (16, 20), (24, t)]
theorem witness_ControlCommands :
    (∃ v c, Issues shadowed 3 v c ∧ (c.recs.cls = 11 ∧ v.shadowBusy c = true)) ∧
    (∃ v c, Issues (next loader tableF [(0x50000, image1 0)]) 3 v c ∧ loads true v c = true) ∧
    (∃ v c, Issues (next loader tableF [(0x50000, image1 1)]) 3 v c ∧ loads false v c = true) ∧
    (∃ v c, Issues dumpS 3 v c ∧ c.recs.cls = 12) ∧
    (∃ v c, Issues (next bound (timedF 5)) 3 v c ∧ (c.recs.cls = 13 ∧ v.cadence = false)) ∧
    (∃ v c, Issues (next (sched 90000 []) (timedF 90000)) 3 v c ∧ (v.cadence = true ∧ bit c.recs.form 2 = true ∧ bit c.recs.form 4 = true)) ∧
    (∃ v c, Issues (next bound [(0, 14)]) 3 v c ∧ c.recs.cls = 14) := by
  refine ⟨?_, ?_, ?_, ?_, ?_, ?_, ?_⟩ <;> exact issues_with (by decide +kernel)

def dictF (i u op len : Nat) : List (Nat × Nat) := [(0, 15), (16, i), (18, u), (19, op), (20, len), (24, 0x20000)]
/-- A window record: window 9, Loft or memory, for package 5. -/
def winRec (mem : Bool) : List Byte :=
  bytes 32 [(0, 9 + (if mem then 2 ^ 16 else 0) + 6 * 2 ^ 16 + 2 ^ 32), (8, if mem then 0x40000 else 2), (16, 4096), (24, 0x20)]
/-- What the clause about an opening asks. -/
def opens (mem : Bool) (v : State) (c : Cmd) : Bool :=
  let w := State.WindowRecord.ofBytes (v.readVA c.region c.pasid (c.recs.b 24 31) 32)
  let a : Access := { va := c.recs.b 24 31, len := 32, kind := 0 }
  State.dictRow c.recs == 2 && (lowestAbort (v.accessAborts (State.dictRequest c) true)).isNone && clear v c [a] && w.memory == mem &&
    ((v.queue? 3).any fun k => (lowest (v.windowOpenCodes k w)).isNone) &&
    (!mem || ((v.noteAll c.region c.pasid [a]).reachAll c.region c.pasid ((if w.read then [{ va := w.base, len := w.size, kind := 0 }] else []) ++
        (if w.write then [{ va := w.base, len := w.size, kind := 1 }] else []))).isNone)
/-- Another queue's order of `WINDOW_OPEN`, issued before, that waits for a page. -/
def opening (s : State) : State :=
  { s with issued := 1, cmds := [{ fence3 (.page 0x60000 0) with q := 4, recs := { desc := desc (dictF 0x2B00 9 1 32) } }] }
theorem witness_DictCommands :
    (∃ v c, Issues (next (opening bound) (dictF 0x2B00 9 1 32)) 3 v c ∧ (c.recs.cls = 15 ∧ v.dictTurn c = false)) ∧
    (∃ v c, Issues (next bound (dictF 0x2B00 9 1 32)) 3 v c ∧ (c.recs.cls = 15 ∧ v.dictTurn c = true)) ∧
    (∃ v c, Issues (next bound (dictF 0x2E00 0x10 0 0x80)) 3 v c ∧ (c.recs.cls = 15 ∧ State.dictRow c.recs = 0 ∧
      lowestAbort (v.accessAborts (State.dictRequest c) false) = none ∧
      (dictEntry? (State.dictRequest c).index (State.dictRequest c).sub).any (fun e =>
        clear v c [{ va := c.recs.b 24 31, len := (v.readBytes (State.dictRequest c) e).length, kind := 1 }]) = true)) ∧
    (∃ v c, Issues (next bound (dictF 0x1000 0xEE 0 4)) 3 v c ∧ (State.dictRow c.recs = 0 ∧
      (lowestAbort (v.accessAborts (State.dictRequest c) false)).isSome = true)) ∧
    (∃ v c, Issues (next bound (dictF 0x2A00 0x0E 1 4)) 3 v c ∧ (c.recs.cls = 15 ∧ State.dictRow c.recs = 1)) ∧
    (∃ v c, Issues (next bound (dictF 0x2B00 9 1 32) [(0x20000, winRec false)]) 3 v c ∧ opens false v c = true) ∧
    (∃ v c, Issues (next bound (dictF 0x2B00 9 1 32) [(0x20000, winRec true)]) 3 v c ∧ opens true v c = true) ∧
    (∃ v c, Issues (next (opened9 false) (dictF 0x2B00 10 1 2) [(0x20000, leBytes 2 9)]) 3 v c ∧ (State.dictRow c.recs = 3 ∧
      lowestAbort (v.accessAborts (State.dictRequest c) true) = none ∧ clear v c [{ va := c.recs.b 24 31, len := 2, kind := 0 }] = true ∧
      (v.bruora.windows.find? fun w => w.id == leNat (v.readVA c.region c.pasid (c.recs.b 24 31) 2) && w.pasid == c.pasid).isSome = true)) := by
  refine ⟨?_, ?_, ?_, ?_, ?_, ?_, ?_, ?_⟩ <;> exact issues_with (by decide +kernel)

/-! Numbers -/

theorem witness_CodeValues : (Fmt.int4 ∈ [Fmt.int8, Fmt.int4, Fmt.int32] ∧ 15 < 2 ^ Fmt.int4.width ∧ 8 < 2 ^ Fmt.int4.width) ∧
    (Fmt.e2m1 ∈ [Fmt.e2m1, Fmt.int4] ∧ 0 < [(0x21 : Byte)].length) ∧ (Fmt.e2m3 ∈ [Fmt.e3m2, Fmt.e2m3] ∧ 3 * 0 + 3 ≤ [(1 : Byte), 2, 3].length) ∧
    Fmt.e3m2.width < 8 ∧ (0xC0 < 256 ∧ 0x40 % 128 < 256) ∧ (254 < 255 ∧ 255 = 255) := by decide
/-- A negative zero and the least value of E2M3; the greatest of LNS8; 2 to −127 of E8M0. -/
theorem witness_ExactValuesAreKept : (0x20 < 2 ^ Fmt.e2m3.width ∧ (decode .e2m3 false 0x20).val = .zero true) ∧
    (0x01 < 2 ^ Fmt.e2m3.width ∧ ∃ n m, (decode .e2m3 false 0x01).val = .fin n m) ∧ (∃ n m, (decode .lns8 false 0x3F).val = .fin n m) ∧
    ∃ n m, (decode .e8m0 false 0).val = .fin n m :=
  ⟨by decide +kernel, ⟨by decide, _, _, rfl⟩, ⟨_, _, rfl⟩, _, _, rfl⟩

/-! ### Results worked out by hand from the spec -/

def done (i : Instr) (s : State) : State := match exec i s with
  | .next t => t
  | _ => s
def stored (t : State) (a n : Nat) : Nat := leNat (t.physRead a n)

/-- R78, the group of its example: 1.5 × 2^20, 0x3F81 × (0x3F81 × 2^-30) and −1.5 × 2^20 sum to 0x30820000 in FP32. -/
theorem test_gemm_group_example : stored (done (.gemm 3) (next bound
    [(0, 2), (8, 0x20000), (16, 2), (18, 2), (22, 1), (32, 1), (36, 1), (40, 3)]
    [(0x20000, args [0x30000, 0x31000, 0, 0x32000]), (0x30000, leBytes 6 0xC9C03F8149C0), (0x31000, leBytes 6 0x3F8030813F80)]))
    0x32000 4 = 0x30820000 := by decide +kernel

/-- R81: 2 × 3 + (−1) × 4 in INT8 into INT32. -/
theorem test_gemm_signed_integers : stored (done (.gemm 3) (next bound
    [(0, 2), (8, 0x20000), (16, 9), (18, 9), (22, 11), (28, 0x2000), (32, 1), (36, 1), (40, 2)]
    [(0x20000, args [0x30000, 0x31000, 0, 0x32000]), (0x30000, [2, 0xFF]), (0x31000, [3, 4])])) 0x32000 4 = 2 := by decide +kernel

/-- R55, the FP64 example: 1 + 2^-8 + 2^-30 into FP32 by round-to-odd, and that into BF16 by ties to even. -/
theorem test_round_to_odd_example : deliver .fp32 false .rto true true (decode .fp64 false 0x3FF0100000400000).val =
      { code := 0x3F808001, ieee := { inexact := true } } ∧
    deliver .bf16 false .rne true true (decode .fp32 false 0x3F808001).val = { code := 0x3F81, ieee := { inexact := true } } := by
  decide +kernel

/-- R57: 70,000 into FP16 toward zero raises the flag, 65,510 to nearest does not; 464 ties out of FP8 E4M3. -/
theorem test_largest_value_examples :
    deliver .fp16 false .rtz true false (Val.ofInt 70000) = { code := 0x7BFF, conv := { saturated := true } } ∧
    deliver .fp16 false .rna true false (Val.ofInt 65510) = { code := 0x7BFF } ∧
    deliver .e4m3 false .rne true false (Val.ofInt 464) = { code := 0x7E, conv := { saturated := true } } ∧
    deliver .e4m3 false .rne true false (Val.ofInt 463) = { code := 0x7E } := by decide +kernel

/-- R207: a fill lands its 32-bit pattern in both rows of both clusters. -/
theorem test_fill_rows : let t := done (.moveFill 3) (next bound [(0, 6), (16, 1), (20, 3), (24, 5), (28, 2), (32, 0xABCD)])
    (t.loftRow (loftKey 0 1 6)).data = .known (List.replicate 128 [0xCD, 0xAB, 0, 0]).flatten ∧ (t.loftRow (loftKey 0 1 7)).data ≠
      .known (List.replicate 128 [0xCD, 0xAB, 0, 0]).flatten := by decide +kernel

/-- R269: an add of 5 to 2^64 − 2 wraps to 3. -/
theorem test_memory_add_wraps : stored (done (.syncMemoryAdd 3) (next bound (wordF 3) [(0x50000, leBytes 8 (2 ^ 64 - 2))])) 0x50000 8 = 3 := by
  decide +kernel

/-- R208: a wait for 3 takes 3 of 3 on cluster 0 and of 3 on cluster 1; a signal of 3 adds it. -/
theorem test_semaphores : let t := done (.syncSemaphore 3) (next (sems 4) [(0, 10), (20, 3), (24, 0x34000)])
    let u := done (.syncSemaphore 3) (next (sems 4) signalF)
    t.sem (loftKey 0 0 0) = 1 ∧ t.sem (loftKey 0 1 0) = 0 ∧ u.sem (loftKey 0 0 0) = 7 ∧ u.sem (loftKey 0 1 0) = 6 := by decide +kernel

/-- R272: tag 9 at byte 0, status 0x2601 at byte 8, class 14 in bits 83–80, phase 1 on the first pass. -/
theorem test_completion_record : let t := done (.commandCompletion 3 0) (flight bound { fence3 .done with status := 0x2601 })
    stored t 0x11000 4 = 9 ∧ stored t 0x11008 2 = 0x2601 ∧ bits (stored t 0x11000 16) 83 80 = 14 ∧ bit (stored t 0x11000 16) 111 = true ∧
      (t.queue? 3).map Queue.complTail = some 1 := by decide +kernel

/-- R258: with the head at 0 in a ring of 64, a tail of 64 is taken and 65 is an error 0x2905. -/
theorem test_doorbell_bounds : ((done (.doorbellDescTail 3 64) bound).queue? 3).map (fun k => (k.tail, k.state)) = some (64, 1) ∧
    ((done (.doorbellDescTail 3 65) bound).queue? 3).map (fun k => (k.tail, k.state, k.lastError)) = some (0, 3, 0x2905) := by decide +kernel

/-- R182: a sequence of 1 layer and 1 head, 64 tokens of BF16, under the lowest free identity. -/
theorem test_create_sequence :
    ((done (.kvCreate 3) (next bound (seqF 0 [(23, 1), (28, 64), (32, 2), (34, 2), (36, 1), (37, 0)]))).seq? 0).map
      (fun q => (q.pasid, q.capacity, q.length 0, q.readers)) = some (5, 64, 0, 0) := by decide +kernel

/-- R354, R368: the entry names the unit and its detail, and the ledger's tail moves on by one place. -/
theorem test_fault_entry : let t := done (.faultDetected 0x2C01 unit0 3 none true) State.reset
    (t.ledger 0).tail = 1 ∧ ((Table.find? 0 (t.ledger 0).places).map fun e => (e.code, e.severity, e.detail)) = some (0x2C01, 1, 3) := by
  decide +kernel

/-- R286: at 50 frames a second a pulse 17.5 ms on is taken; one a nanosecond earlier is early. -/
theorem test_pulse_window : ((done (.cadencePulse 0 0) (pulsed 17500100)).input 0).frame = 5 ∧
    ((done (.cadencePulse 0 0) (pulsed 17500099)).input 0).frame = 4 ∧ (done (.cadencePulse 0 0) (pulsed 17500099)).reg 0x2A10 0x08 0 = 1 := by
  decide +kernel

/-- R384: slot 1 is revoked while slot 0 stays usable; the slot that signed the running image is not. -/
theorem test_key_revoke : (done (.keyRevoke (ord 0x2D00 0x0D 1) []) twoKeys).fuses.keysRevoked = 2 ∧
    (done (.keyRevoke (ord 0x2D00 0x0D 0) []) twoKeys).fuses.keysRevoked = 0 := by decide +kernel

/-- R341: the loss of power cuts a commit that one die has made. -/
theorem test_cut_commit : ((done (.requestWrite { ord 0x2600 7 3 with cut := some 1 } []) State.reset).pins.state = .unpowered ∧
    (done (.requestWrite { ord 0x2600 7 3 with cut := some 1 } []) State.reset).reconcileKept.keptReg 0x2600 7 2 = 3 ∧
    (done (.requestWrite { ord 0x2600 7 3 with cut := some 0 } []) State.reset).reconcileKept.keptReg 0x2600 7 2 = 2) := by
  decide +kernel

/-- R310: the flit with the expected number is taken; one out of turn is not. -/
theorem test_flits_in_turn : ((done (.flitReceived 0 (flit 0) ⟨false, 2, 0⟩) linked).port 0).rx = 1 ∧
    ((done (.flitReceived 0 (flit 1) ⟨false, 0, 0⟩) linked).port 0).rx = 0 := by decide +kernel

/-- R319: a remote write of the last row of a window whose base is row 2: offset 3,584 is its row 7, which is row 9. -/
theorem test_remote_row : ((done (.remoteWrite lastRow) (opened9 false)).loftRow (loftKey 0 0 9)).data = .known (List.replicate 512 1) ∧
    (done (.remoteWrite lastRow) (opened9 false)).ctr (loftKey 0 1 1) = 1 := by decide +kernel

/-- R245: an invalidation of PASID 5 removes its entry; one of PASID 6 does not. -/
theorem test_invalidation : (done (.invalidation 5 0 4096) bound).trans.die0 = [] ∧ (done (.invalidation 6 0 4096) bound).trans.die0 = [page] := by
  decide +kernel

end Sys2Proof.Tests
end

section
namespace Sys2Proof.Machine

/-! ### What reset leaves (R12, R328, R418, R432) -/

namespace State

@[simp] theorem reset_ledger (die : Nat) : State.reset.ledger die = {} := by
  unfold ledger; split <;> rfl

@[simp] theorem reset_vector_mask (v : Nat) : (State.reset.vector v).mask = true := rfl

@[simp] theorem reset_reg (i n d : Nat) : State.reset.reg i n d = d := rfl

@[simp] theorem reset_keptReg (i n d : Nat) : State.reset.keptReg i n d = d := rfl

@[simp] theorem reset_sem (k : Nat) : State.reset.sem k = 0 := rfl

@[simp] theorem reset_ctr (k : Nat) : State.reset.ctr k = 0 := rfl

/-- Neither die is fatal, stopped or left out. -/
theorem reset_diesServing : State.reset.diesServing = 3 := by decide

theorem reset_freeSheaves : State.reset.freeSheaves = 8388608 := by decide

end State

/-- An unlisted byte reads 0 (log entry 4). -/
@[simp] theorem memByte_nil (a : Nat) : memByte [] a = 0 := rfl

/-- Settles O2: the fields that reset names stand in `State.reset`, and every table is empty, so that each of its reads
answers the default. -/
theorem resetState : Obligations.ResetState :=
  ⟨rfl, rfl, State.reset_diesServing, rfl, rfl, rfl, rfl, rfl, State.reset_freeSheaves, rfl, rfl,
    State.reset_ledger, State.reset_vector_mask, fun i n d => ⟨State.reset_reg i n d, State.reset_keptReg i n d⟩,
    fun k => ⟨State.reset_sem k, State.reset_ctr k⟩, fun a => ⟨memByte_nil a, memByte_nil a⟩⟩

/-! ### A leaver whose port goes down stops its die (R311, R365)

The frame that O38 gives a unit ordered out leaves `cmds` and `bruora` free for a port or a lane (kind 10), but not
`pins`. A lane that leaves a port of 8 lanes takes the port down with 0x2B32. Where a unit domain about that port is open,
the entry is nested in it and raises it to die severity, and the die stops. The model's own orders take a port or a lane
out at once; O38 speaks of every state with a leaver. -/

/-- Physical locator of lane 0 of port 0. -/
def lane0OfPort0 : Nat := mkLoc true 0 0 0 0x1F 10 0 0

/-- Port 0 runs on its last 8 lanes within an open domain of unit severity, and its lane 0 is ordered out. -/
def narrowPortLaneLeaving : State :=
  { State.reset with
    bruora := { ports := { state := 4, width := 8, lanes := List.range 8, lanesOk := 0xFF } :: List.replicate 15 {} }
    integ := {
      leaving := [(lane0OfPort0, false)]
      domains := [{ loc := containerAt 1 lane0OfPort0, severity := 1, root := 0, entries := [(0, 0)] }] } }

/-- The lane is one that software can name, it is found among the leavers, and its slot is at its boundary. -/
theorem narrowPortLaneLeaving_leaves :
    locOk lane0OfPort0 = true ∧ narrowPortLaneLeaving.atBoundary lane0OfPort0 = true ∧
      narrowPortLaneLeaving.integ.leaving.find? (fun e => samePlace e.1 lane0OfPort0) = some (lane0OfPort0, false) := by
  decide +kernel

/-- The port is down (state 5), its domain has die severity, and die 0 has stopped. -/
theorem handover_narrowPortLaneLeaving :
    ((narrowPortLaneLeaving.handover lane0OfPort0).port 0).state = 5 ∧
      (narrowPortLaneLeaving.handover lane0OfPort0).integ.domains.map Domain.severity = [4] ∧
      (narrowPortLaneLeaving.handover lane0OfPort0).pins.stopped = 1 := by
  decide +kernel

/-- Refutes O38: the clause of a unit ordered out frames all of `pins`, but a lane of the last 8 of a port with an open
domain leaves with the stop of its die. -/
theorem not_slotsAndClusters : ¬ Obligations.SlotsAndClusters := by
  intro h
  obtain ⟨-, hboundary, hfound⟩ := narrowPortLaneLeaving_leaves
  obtain ⟨t, ht, -, -, -, hframe⟩ :=
    (h.1 narrowPortLaneLeaving lane0OfPort0).2.2 lane0OfPort0 false hboundary hfound
  obtain ⟨-, -, hstopped⟩ := handover_narrowPortLaneLeaving
  have hresult : narrowPortLaneLeaving.handover lane0OfPort0 = t := by injection ht
  have hpins : t.pins = narrowPortLaneLeaving.pins := by rw [hframe]
  rw [hresult, hpins] at hstopped
  exact absurd hstopped (by decide)

end Sys2Proof.Machine
end

section
namespace Sys2Proof.Machine

/-! ### Little-endian numbers: the rules of their byte strings -/

/-- Dropping `k` bytes divides by 256 to the `k`. -/
theorem leNat_drop (bs : List Byte) (k : Nat) : leNat (bs.drop k) = leNat bs / 256 ^ k := by
  induction k generalizing bs with
  | zero => simp
  | succ k ih =>
    cases bs with
    | nil => simp [leNat]
    | cons b bs =>
      have hb : (b.toNat + 256 * leNat bs) / 256 = leNat bs := by omega
      rw [List.drop_succ_cons, ih, leNat, pow_succ', ← Nat.div_div_eq_div_mul, hb]

/-- The first `n` bytes hold the number modulo 256 to the `n`. -/
theorem leNat_take (bs : List Byte) (n : Nat) : leNat (bs.take n) = leNat bs % 256 ^ n := by
  induction n generalizing bs with
  | zero => simp [leNat, Nat.mod_one]
  | succ n ih =>
    cases bs with
    | nil => simp [leNat]
    | cons b bs =>
      have hdiv : (b.toNat + 256 * leNat bs) / 256 = leNat bs := by omega
      have hmod : (b.toNat + 256 * leNat bs) % 256 = b.toNat := by omega
      rw [List.take_succ_cons, leNat, leNat, ih, pow_succ', Nat.mod_mul, hdiv, hmod]

/-- Zero bytes at the top add nothing. -/
@[simp] theorem leNat_append_zeros (bs : List Byte) (n : Nat) : leNat (bs ++ List.replicate n 0) = leNat bs := by
  induction bs with
  | nil =>
    induction n with
    | zero => rfl
    | succ n ih => simpa [List.replicate_succ, leNat] using ih
  | cons b bs ih => rw [List.cons_append, leNat, leNat, ih]

/-- A slice is the bytes of the quotient; past the end it reads zero, as the number does. -/
theorem leNat_slice (bs : List Byte) (off n : Nat) : leNat (slice bs off n) = leNat bs / 256 ^ off % 256 ^ n := by
  rw [slice, leNat_append_zeros, leNat_take, leNat_drop]

theorem leNat_leBytes (n x : Nat) : leNat (leBytes n x) = x % 256 ^ n := by
  induction n generalizing x with
  | zero => simp [leBytes, leNat, Nat.mod_one]
  | succ n ih =>
    have hbyte : (BitVec.ofNat 8 (x % 256)).toNat = x % 256 := by simp
    rw [leBytes, leNat, hbyte, ih, pow_succ', Nat.mod_mul]

/-- From byte `k` on, a number is that byte and the bytes above it. -/
theorem leNat_div_pow (bs : List Byte) (k : Nat) :
    leNat bs / 256 ^ k = (bs.getD k 0).toNat + 256 * (leNat bs / 256 ^ (k + 1)) := by
  rw [← leNat_drop, ← leNat_drop]
  by_cases hk : k < bs.length
  · rw [List.drop_eq_getElem_cons hk, leNat, List.getD_eq_getElem _ _ hk]
  · rw [List.drop_eq_nil_of_le (by omega), List.drop_eq_nil_of_le (by omega), List.getD_eq_default _ _ (by omega)]
    rfl

/-! ### Packed rows (R28–R30) -/

/-- The bytes that `elementCode` slices out of a row hold the whole element: element `i` is the bits
[w·i + w − 1 : w·i] of the row's number. -/
theorem elementCode_eq (f : Fmt) (row : List Byte) (i : Nat) :
    elementCode f row i = leNat row / 2 ^ (i * f.width) % 2 ^ f.width := by
  have hfits : 256 ^ (f.width / 8 + 2) =
      2 ^ (i * f.width % 8) * (2 ^ f.width * 2 ^ (8 * (f.width / 8 + 2) - i * f.width % 8 - f.width)) := by
    rw [← pow_add, ← pow_add, show (256 : Nat) = 2 ^ 8 by rfl, ← pow_mul]
    congr 1
    omega
  have hlo : 256 ^ (i * f.width / 8) * 2 ^ (i * f.width % 8) = 2 ^ (i * f.width) := by
    rw [show (256 : Nat) = 2 ^ 8 by rfl, ← pow_mul, ← pow_add, Nat.div_add_mod]
  simp only [elementCode]
  rw [leNat_slice, hfits, Nat.mod_mul_right_div_self, Nat.mod_mul_right_mod, Nat.div_div_eq_div_mul, hlo]

/-- `n` packed codes stay below 2 to the bits that they take. -/
theorem packNat_lt (f : Fmt) (codes : List Nat) : packNat f codes < 2 ^ (codes.length * f.width) := by
  induction codes with
  | nil => simp [packNat]
  | cons c cs ih =>
    have hc : c % 2 ^ f.width < 2 ^ f.width := Nat.mod_lt _ (by positivity)
    calc packNat f (c :: cs) < 2 ^ f.width * (packNat f cs + 1) := by rw [packNat]; linarith
      _ ≤ 2 ^ f.width * 2 ^ (cs.length * f.width) := Nat.mul_le_mul_left _ ih
      _ = 2 ^ ((c :: cs).length * f.width) := by rw [← pow_add, List.length_cons]; congr 1; ring

/-- Place `i` of the packed number is the low bits of code `i`. -/
theorem packNat_place (f : Fmt) (codes : List Nat) (i : Nat) :
    packNat f codes / 2 ^ (i * f.width) % 2 ^ f.width = codes.getD i 0 % 2 ^ f.width := by
  induction codes generalizing i with
  | nil => simp [packNat]
  | cons c cs ih =>
    cases i with
    | zero => simp [packNat]
    | succ i =>
      have hpos : 0 < 2 ^ f.width := by positivity
      have hnext : packNat f (c :: cs) / 2 ^ f.width = packNat f cs := by
        rw [packNat, Nat.add_mul_div_left _ _ hpos, Nat.div_eq_of_lt (Nat.mod_lt _ hpos), Nat.zero_add]
      rw [Nat.succ_mul, Nat.add_comm, pow_add, ← Nat.div_div_eq_div_mul, hnext, ih, List.getD_cons_succ]

/-- The bytes of a row have room for its codes. -/
theorem leNat_packRow (f : Fmt) (codes : List Nat) : leNat (packRow f codes) = packNat f codes := by
  have hroom : codes.length * f.width ≤ 8 * f.rowBytes codes.length := by
    unfold Fmt.rowBytes ceilDiv
    omega
  rw [packRow, leNat_leBytes, show (256 : Nat) = 2 ^ 8 by rfl, ← pow_mul]
  exact Nat.mod_eq_of_lt ((packNat_lt f codes).trans_le (Nat.pow_le_pow_right (by norm_num) hroom))

/-- A packed row gives back each code at its width: of every format, not only of those below a byte. -/
theorem elementCode_packRow (f : Fmt) (codes : List Nat) (i : Nat) :
    elementCode f (packRow f codes) i = codes.getD i 0 % 2 ^ f.width := by
  rw [elementCode_eq, leNat_packRow, packNat_place]

/-- R28: the low half of byte `k` is element 2k, the high half element 2k + 1. -/
theorem elementCode_of_width_four {f : Fmt} (hw : f.width = 4) (row : List Byte) (k : Nat) :
    elementCode f row (2 * k) = (row.getD k 0).toNat % 16 ∧ elementCode f row (2 * k + 1) = (row.getD k 0).toNat / 16 := by
  have hbyte := leNat_div_pow row k
  have hlow : 2 ^ (2 * k * 4) = 256 ^ k := by rw [show (256 : Nat) = 2 ^ 8 by rfl, ← pow_mul]; congr 1; ring
  have hhigh : 2 ^ ((2 * k + 1) * 4) = 256 ^ k * 16 := by rw [← hlow, show (16 : Nat) = 2 ^ 4 by rfl, ← pow_add]; congr 1; ring
  rw [elementCode_eq, elementCode_eq, hw, hlow, hhigh, ← Nat.div_div_eq_div_mul, hbyte]
  omega

/-- R29: bytes 3g to 3g + 2 hold elements 4g to 4g + 3, in ascending bits. -/
theorem elementCode_of_width_six {f : Fmt} (hw : f.width = 6) (row : List Byte) (g : Nat) {j : Nat} (hj : j < 4) :
    elementCode f row (4 * g + j) =
      ((row.getD (3 * g) 0).toNat + 256 * (row.getD (3 * g + 1) 0).toNat + 65536 * (row.getD (3 * g + 2) 0).toNat) / 64 ^ j % 64 := by
  have hbyte₀ := leNat_div_pow row (3 * g)
  have hbyte₁ := leNat_div_pow row (3 * g + 1)
  have hbyte₂ := leNat_div_pow row (3 * g + 2)
  have hplace : 2 ^ ((4 * g + j) * 6) = 256 ^ (3 * g) * 64 ^ j := by
    rw [show (256 : Nat) = 2 ^ 8 by rfl, show (64 : Nat) = 2 ^ 6 by rfl, ← pow_mul, ← pow_mul, ← pow_add]; congr 1; ring
  rw [elementCode_eq, hw, hplace, ← Nat.div_div_eq_div_mul, hbyte₀, hbyte₁, hbyte₂]
  interval_cases j <;> omega

/-! ### Integer codes (R26) -/

/-- The two's-complement reading of a code of `w + 1` bits, by its top bit. -/
theorem signed_succ {c w : Nat} (hc : c < 2 ^ (w + 1)) :
    signed c (w + 1) = if c < 2 ^ w then (c : Int) else (c : Int) - 2 ^ (w + 1) := by
  have htop : 2 * c < 2 ^ (w + 1) ↔ c < 2 ^ w := by rw [pow_succ]; omega
  simp only [signed, Nat.mod_eq_of_lt hc, htop]

/-- An integer code is read by the operand's `UNSIGNED` bit. -/
theorem decode_int {f : Fmt} (hf : f.isInt = true) (uns : Bool) {c : Nat} (hc : c < 2 ^ f.width) :
    (decode f uns c).val = Val.ofInt (if uns then (c : Int) else signed c f.width) := by
  have hcode : c % 2 ^ f.width = c := Nat.mod_eq_of_lt hc
  cases f with
  | int8 | int4 | int32 => simp only [decode, hcode]
  | _ => cases hf

theorem decode_int_signed {f : Fmt} (hf : f.isInt = true) {c : Nat} (hc : c < 2 ^ f.width) :
    (decode f false c).val = Val.ofInt (if c < 2 ^ (f.width - 1) then (c : Int) else (c : Int) - 2 ^ f.width) := by
  have hwidth : f.width = (f.width - 1) + 1 := by cases f <;> rfl
  have hread : (decode f false c).val = Val.ofInt (signed c f.width) := decode_int hf false hc
  rw [hwidth] at hc
  rw [hread, hwidth, signed_succ hc, Nat.add_sub_cancel]

/-! ### Logarithmic codes (R31) and scale codes (R37) -/

/-- Cross-multiplied, so that it says the value without a quotient: 2^l for either sign of `l`, under the `n`-th root. -/
theorem Mag.exp2_value (l : Int) (n : Nat) : (Mag.exp2 l n).root = n ∧ 0 < (Mag.exp2 l n).den ∧
    (Mag.exp2 l n).num * 2 ^ (-l).toNat = 2 ^ l.toNat * (Mag.exp2 l n).den := by
  unfold Mag.exp2
  split
  · have hneg : (-l).toNat = 0 := by omega
    simp [hneg]
  · have hpos : l.toNat = 0 := by omega
    simp [hpos]

theorem Mag.pow2_eq_exp2 (e : Int) : Mag.pow2 e = Mag.exp2 e 1 := rfl

/-- The log field of an LNS8 code. -/
theorem signed_seven (c : Nat) : signed c 7 = if c % 128 < 64 then ((c % 128 : Nat) : Int) else ((c % 128 : Nat) : Int) - 128 := by
  have hlow : signed c 7 = signed (c % 128) 7 := by simp [signed]
  exact hlow.trans (signed_succ (w := 6) (Nat.mod_lt c (by norm_num)))

theorem bit_seven_of_lt {c : Nat} (hc : c < 256) : bit c 7 = decide (128 ≤ c) := by
  unfold bit
  rw [Bool.eq_iff_iff, beq_iff_eq, decide_eq_true_iff]
  omega

theorem decode_lns8 (uns : Bool) {c : Nat} (hc : c < 256) :
    (decode .lns8 uns c).val = (if c = 0x40 then .zero false else if c = 0xC0 then .nan NaN.canonical else
      .fin (128 ≤ c) (Mag.exp2 (if c % 128 < 64 then (c % 128 : Nat) else ((c % 128 : Nat) : Int) - 128) 8)) := by
  have hleast : signed c 7 = -64 ↔ c = 0x40 ∨ c = 0xC0 := by rw [signed_seven]; split <;> omega
  have hread : (decode .lns8 uns c).val = if signed c 7 = -64 then (if bit c 7 then .nan NaN.canonical else .zero false)
      else .fin (bit c 7) (Mag.exp2 (signed c 7) 8) := by
    simp only [decode, Fmt.width, show (2 : Nat) ^ 8 = 256 by rfl, Nat.mod_eq_of_lt hc]
    split <;> rfl
  rw [hread, bit_seven_of_lt hc]
  by_cases hzero : c = 0x40
  · subst hzero; rfl
  by_cases hnan : c = 0xC0
  · subst hnan; rfl
  rw [if_neg (by rw [hleast]; omega), if_neg hzero, if_neg hnan, signed_seven]

theorem decode_e8m0 (uns : Bool) {c : Nat} (hc : c < 255) :
    (decode .e8m0 uns c).val = .fin false (Mag.exp2 ((c : Int) - 127) 1) := by
  have hcode : c % 2 ^ 8 = c := by omega
  simp only [decode, Fmt.width, hcode, if_neg (show c ≠ 255 by omega), Mag.pow2_eq_exp2]

/-- The value 2^(c − 127) of an E8M0 code without a negative exponent: 2^127 times it is 2^c. -/
theorem Mag.exp2_biased (c : Nat) :
    (Mag.exp2 ((c : Int) - 127) 1).num * 2 ^ 127 = 2 ^ c * (Mag.exp2 ((c : Int) - 127) 1).den := by
  obtain ⟨-, -, hvalue⟩ := Mag.exp2_value ((c : Int) - 127) 1
  obtain hle | hlt := le_total 127 c
  · have hup : ((c : Int) - 127).toNat = c - 127 := by omega
    have hdown : (-((c : Int) - 127)).toNat = 0 := by omega
    rw [hup, hdown, pow_zero, Nat.mul_one] at hvalue
    rw [hvalue, Nat.mul_right_comm, ← pow_add, Nat.sub_add_cancel hle]
  · have hup : ((c : Int) - 127).toNat = 0 := by omega
    have hdown : (-((c : Int) - 127)).toNat = 127 - c := by omega
    rw [hup, hdown, pow_zero, Nat.one_mul] at hvalue
    rw [← hvalue, Nat.mul_left_comm, ← pow_add, Nat.add_sub_cancel' hlt]

/-- Settles O59: each group of formats by its reading rule. The packing clauses are places of the row's little-endian
number. -/
theorem codeValues : Obligations.CodeValues := by
  unfold Obligations.CodeValues
  refine ⟨fun f hf => ?_, fun f hf => ?_, fun f hf => ?_, fun f _ codes i _ => elementCode_packRow f codes i,
    fun uns c hc => decode_lns8 uns hc, Mag.exp2_value, fun uns c => ⟨fun hc => ?_, ?_⟩⟩
  · have hformat : f.isInt = true ∧ (f = .int8 ∧ f.width = 8 ∨ f = .int4 ∧ f.width = 4 ∨ f = .int32 ∧ f.width = 32) := by
      revert f; decide
    obtain ⟨hint, hwidth⟩ := hformat
    exact fun c hc => ⟨decode_int hint true hc, decode_int_signed hint hc, rfl, rfl, hwidth⟩
  · have hgroup : f.width = 4 ∧ f.group = 2 ∧ f.rowBytes f.group = 1 := by revert f; decide
    obtain ⟨hw, htwo, hbytes⟩ := hgroup
    exact ⟨htwo, hbytes, fun row k _ => elementCode_of_width_four hw row k⟩
  · have hgroup : f.width = 6 ∧ f.group = 4 ∧ f.rowBytes f.group = 3 := by revert f; decide
    obtain ⟨hw, hfour, hbytes⟩ := hgroup
    exact ⟨hfour, hbytes, fun row g j hj _ => elementCode_of_width_six hw row g hj⟩
  · obtain ⟨hroot, hden, -⟩ := Mag.exp2_value ((c : Int) - 127) 1
    exact ⟨_, decode_e8m0 uns hc, hroot, hden, Mag.exp2_biased c⟩
  · rintro rfl
    rfl

end Sys2Proof.Machine
end

section
namespace Sys2Proof.Machine
open Safety
namespace State

/-! ### Counters and traces

A step of a command's work that is only counted or traced. -/

/-- From `s` to `t` only dictionary values, what is observed and the count of free values have changed. -/
def Counts (s t : State) : Prop := ∃ dict obs free, t = { s with dict := dict, obs := obs, free := free }

theorem Counts.refl (s : State) : Counts s s := ⟨_, _, _, rfl⟩

theorem Counts.trans {s t u : State} (hst : Counts s t) (htu : Counts t u) : Counts s u := by
  obtain ⟨_, _, _, rfl⟩ := hst
  obtain ⟨_, _, _, rfl⟩ := htu
  exact ⟨_, _, _, rfl⟩

theorem Counts.foldl {α : Type} {f : State → α → State} (h : ∀ s a, Counts s (f s a)) (l : List α) (s : State) :
    Counts s (l.foldl f s) :=
  List.foldlRecOn l f (Counts.refl s) fun t ht a _ => ht.trans (h t a)

variable (s : State)

theorem counts_bump (i n a : Nat) : Counts s (s.bump i n a) := ⟨_, _, _, rfl⟩
theorem counts_bumpTask (p n a : Nat) : Counts s (s.bumpTask p n a) := ⟨_, _, _, rfl⟩
theorem counts_bumpFree (i n : Nat) : Counts s (s.bumpFree i n) := ⟨_, _, _, rfl⟩
theorem counts_draw : Counts s s.draw.2 := ⟨_, _, _, rfl⟩

theorem counts_dayEvent (die place region cluster kind payload : Nat) :
    Counts s (s.dayEvent die place region cluster kind payload) := by
  unfold dayEvent
  dsimp only
  repeat' split
  all_goals exact ⟨_, _, _, rfl⟩

theorem counts_traceBegin (c : Cmd) : Counts s (s.traceBegin c) := by
  unfold traceBegin
  dsimp only
  split
  · exact Counts.foldl (fun s _ => counts_dayEvent ..) _ s
  · exact counts_dayEvent ..

theorem counts_traceEnd (c : Cmd) : Counts s (s.traceEnd c) := by
  unfold traceEnd
  split
  · exact counts_dayEvent ..
  · split
    · exact Counts.foldl (fun s _ => counts_dayEvent ..) _ s
    · exact counts_dayEvent ..

theorem counts_beginTrace (c : Cmd) : Counts s (s.beginTrace c).1 := by
  unfold beginTrace
  split
  · exact Counts.refl s
  · exact counts_traceBegin s c

theorem beginTrace_cmd (c : Cmd) : (s.beginTrace c).2 = { c with begun := true } := by
  unfold beginTrace
  split
  · rename_i hbegun
    rw [← hbegun]
  · rfl

theorem counts_countCode (code : Nat) (refused : Bool) : Counts s (s.countCode code refused) := by
  unfold countCode
  repeat' split
  all_goals exact ⟨_, _, _, rfl⟩

theorem counts_countGather (g : Gather) : Counts s (s.countGather g) := Counts.foldl (fun s _ => counts_bump s ..) _ s

theorem counts_countBusy (c : Cmd) : Counts s (s.countBusy c) := by
  have hunit (s : State) (n : Nat) : Counts s
      ([0, 1, 2, 3].foldl (fun s j => s.bumpFree (0x2E50 + c.region + 65536 * j) (n + 1)) s) :=
    Counts.foldl (fun s _ => counts_bumpFree s ..) _ s
  unfold countBusy
  dsimp only
  exact ((((((Counts.foldl (fun s _ => counts_bumpFree s ..) _ s).trans (Counts.foldl hunit _ _)).trans (counts_draw _)).trans
    (counts_bumpTask ..)).trans (counts_bumpTask ..)).trans (counts_draw _))

theorem counts_countSpill (c : Cmd) (images : Nat) : Counts s (s.countSpill c images) :=
  (counts_bump s ..).trans (counts_bumpTask ..)

theorem counts_countMacs (c : Cmd) (r : Recs) (macs : Nat) : Counts s (s.countMacs c r macs) :=
  (counts_bump s ..).trans (counts_bumpTask ..)

theorem counts_captureRun (pre : State) (c : Cmd) : Counts s (s.captureRun pre c) := ⟨_, _, _, rfl⟩

/-! ### What the work of a command touches beside memory

It is served by the Barn and the Granary's walkers, holds tracking entries, drives Threshers, and is counted. -/

/-- From `s` to `t` only the tracking entries of the Carters, the Barn, the Threshers, the walkers' held entries, and what
`Counts` names have changed. -/
def Serves (s t : State) : Prop :=
  ∃ tracking barn dict obs free threshers walkers, t = { s with
    trans := { s.trans with tracking := tracking }, barn := barn, dict := dict, obs := obs, free := free, threshers := threshers,
    granary := { s.granary with walkers := walkers } }

theorem Serves.refl : Serves s s := ⟨_, _, _, _, _, _, _, rfl⟩

theorem Counts.serves {s t : State} (h : Counts s t) : Serves s t := by
  obtain ⟨_, _, _, rfl⟩ := h
  exact ⟨_, _, _, _, _, _, _, rfl⟩

theorem Serves.trans {s t u : State} (hst : Serves s t) (htu : Serves t u) : Serves s u := by
  obtain ⟨_, _, _, _, _, _, _, rfl⟩ := hst
  obtain ⟨_, _, _, _, _, _, _, rfl⟩ := htu
  exact ⟨_, _, _, _, _, _, _, rfl⟩

theorem Serves.foldl {α : Type} {f : State → α → State} (h : ∀ s a, Serves s (f s a)) (l : List α) (s : State) :
    Serves s (l.foldl f s) :=
  List.foldlRecOn l f (Serves.refl s) fun t ht a _ => ht.trans (h t a)

theorem serves_bump (i n a : Nat) : Serves s (s.bump i n a) := (counts_bump s i n a).serves
theorem serves_putThresher (k : Nat) (u : Thresher) : Serves s { s with threshers := Table.put k u s.threshers } :=
  ⟨_, _, _, _, _, _, _, rfl⟩

/-! The Barn and the Carters -/

theorem Serves.bump {s t : State} (h : Serves s t) (i n a : Nat) : Serves s (t.bump i n a) := h.trans (serves_bump ..)

theorem Serves.putBarn {s t : State} (h : Serves s t) (barn : List BarnLine) : Serves s { t with barn := barn } :=
  h.trans ⟨_, _, _, _, _, _, _, rfl⟩

theorem serves_barnLine (line hint : Nat) (write : Bool) (n : Nat) : Serves s (s.barnLine line hint write n) := by
  unfold barnLine
  extract_lets hit s1 bytes rest
  have hs1 : Serves s s1 := serves_bump ..
  have hbytes {t : State} (ht : Serves s t) : Serves s (bytes t) := by
    simp only [bytes]
    split <;> split
    · exact ht
    · exact ht.bump ..
    · exact ht
    · exact ht.bump ..
  clear_value hit
  split
  · split
    · exact hs1.bump ..
    · split
      · exact hbytes (hs1.putBarn _)
      · exact hbytes hs1
  · split
    rename_i kept out _
    extract_lets held keeps
    split
    rename_i final demoted _
    extract_lets s2 s3 s4
    have hs2 : Serves s s2 := hbytes (hs1.putBarn _)
    have hs3 : Serves s s3 := by
      simp only [s3]
      split
      · exact hs2.bump ..
      · exact hs2
    have hs4 : Serves s s4 := by
      simp only [s4]
      split
      · split
        · exact hs3.bump ..
        · exact hs3
      · exact hs3
    exact hs4.bump ..

theorem serves_track (region n : Nat) : Serves s (s.track region n) := ⟨_, _, _, _, _, _, _, rfl⟩

theorem serves_countCarter (port pasid pa n : Nat) (write : Bool) : Serves s (s.countCarter port pasid pa n write) := by
  unfold countCarter
  dsimp only
  split
  · exact ((serves_track s ..).bump ..).trans (counts_bumpTask ..).serves
  · exact ((counts_bump s ..).trans (counts_bumpTask ..)).serves

theorem serves_devTouch (port pa n hint : Nat) (write : Bool) : Serves s (s.devTouch port pa n hint write) :=
  (Serves.foldl (fun s _ => serves_barnLine s ..) _ s).bump ..

theorem serves_memTouch (port pasid pa n hint : Nat) (write carter : Bool) :
    Serves s (s.memTouch port pasid pa n hint write carter) := by
  have hcarter (m : Nat) : Serves s (if carter then s.countCarter port pasid pa m write else s) := by
    split
    · exact serves_countCarter ..
    · exact Serves.refl s
  unfold memTouch
  dsimp only
  split
  · exact (hcarter _).bump ..
  · exact (hcarter _).trans (serves_devTouch ..)

/-! Deliveries of the Granary -/

theorem serves_sheafTouch (region pasid sheaf off n hint : Nat) (write carter : Bool) :
    Serves s (s.sheafTouch region pasid sheaf off n hint write carter) := by
  unfold sheafTouch
  dsimp only
  split
  · exact (serves_countCarter s ..).trans (serves_devTouch ..)
  · exact serves_devTouch ..

theorem Serves.putWalkers {s t : State} (h : Serves s t) (w : Table (List HeldEntry)) :
    Serves s { t with granary := { t.granary with walkers := w } } :=
  h.trans ⟨_, _, _, _, _, _, _, rfl⟩

theorem serves_walk (region id index : Nat) : Serves s (s.walk region id index) := by
  unfold walk
  split
  · exact Serves.refl s
  · extract_lets held rest s1 new
    refine Serves.putWalkers ?_ _
    simp only [s1]
    split
    · exact Serves.refl s
    · split
      · exact (serves_sheafTouch s ..).bump ..
      · exact serves_bump s ..

theorem serves_deliverKv (region pasid : Nat) (rs : List KvRead) : Serves s (s.deliverKv region pasid rs) := by
  refine Serves.foldl (fun s r => ?_) rs s
  split
  · exact Serves.refl s
  · exact (serves_walk s ..).trans (Serves.foldl (fun s _ => serves_sheafTouch s ..) _ _)

/-! ### Accesses that hit (R242)

`Notes`: the entries that served them move to the front of the look-aside buffers too. -/

/-- From `s` to `t` the look-aside buffers have changed, and what `Serves` names. -/
def Notes (s t : State) : Prop := ∃ trans, Serves { s with trans := trans } t

theorem Notes.refl : Notes s s := ⟨s.trans, Serves.refl s⟩

theorem Serves.notes {s t : State} (h : Serves s t) : Notes s t := ⟨s.trans, h⟩

theorem Notes.trans {s t u : State} (hst : Notes s t) (htu : Notes t u) : Notes s u := by
  obtain ⟨_, _, _, _, _, _, _, _, rfl⟩ := hst
  obtain ⟨trans, hu⟩ := htu
  exact ⟨trans, .trans ⟨_, _, _, _, _, _, _, rfl⟩ hu⟩

theorem notes_touchEntry (port pasid va access : Nat) : Notes s (s.touchEntry port pasid va access) := by
  unfold touchEntry setCarterEntries setDieEntries
  dsimp only
  repeat' split
  all_goals exact ⟨_, Serves.refl _⟩

theorem notes_noteVA (port pasid va len access hint : Nat) (carter : Bool) :
    Notes s (s.noteVA port pasid va len access hint carter) := by
  refine List.foldlRecOn _ _ (Notes.refl s) fun t ht p _ => ?_
  split
  · rename_i pa _
    have hread : Notes t (if access = 1 then t.touchEntry port pasid p.1 access
        else (t.touchEntry port pasid p.1 access).memTouch port pasid pa p.2 hint false carter) := by
      split
      · exact notes_touchEntry ..
      · exact (notes_touchEntry ..).trans (serves_memTouch ..).notes
    extract_lets s1 s2
    split
    · exact ht.trans hread
    · exact (ht.trans hread).trans (serves_memTouch ..).notes
  · exact ht

theorem notes_noteAll (port pasid : Nat) (as : List Access) : Notes s (s.noteAll port pasid as) :=
  List.foldlRecOn _ _ (Notes.refl s) fun _ ht _ _ => ht.trans (notes_noteVA ..)

/-! ### Bytes and rows that a command writes -/

/-- From `s` to `t` only memory, its marks and the count of free values have changed. -/
def WritesMemory (s t : State) : Prop :=
  ∃ devMem hostMem poisoned free, t = { s with devMem := devMem, hostMem := hostMem, poisoned := poisoned, free := free }

theorem WritesMemory.refl : WritesMemory s s := ⟨_, _, _, _, rfl⟩

theorem WritesMemory.trans {s t u : State} (hst : WritesMemory s t) (htu : WritesMemory t u) : WritesMemory s u := by
  obtain ⟨_, _, _, _, rfl⟩ := hst
  obtain ⟨_, _, _, _, rfl⟩ := htu
  exact ⟨_, _, _, _, rfl⟩

theorem WritesMemory.foldl {α : Type} {f : State → α → State} (h : ∀ s a, WritesMemory s (f s a)) (l : List α) (s : State) :
    WritesMemory s (l.foldl f s) :=
  List.foldlRecOn l f (WritesMemory.refl s) fun t ht a _ => ht.trans (h t a)

theorem writesMemory_physWrite (pa : Nat) (bs : List Byte) : WritesMemory s (s.physWrite pa bs) := by
  unfold physWrite
  split <;> exact ⟨_, _, _, _, rfl⟩

theorem writesMemory_writeVA (port pasid va access : Nat) (bs : List Byte) :
    WritesMemory s (s.writeVA port pasid va access bs) := by
  refine WritesMemory.foldl (fun s p => ?_) _ s
  split
  · exact writesMemory_physWrite ..
  · exact WritesMemory.refl s

theorem writesMemory_scramble (port pasid va len : Nat) : WritesMemory s (s.scramble port pasid va len) := by
  refine WritesMemory.trans (t := s.draw.2) ⟨_, _, _, _, rfl⟩ (WritesMemory.foldl (fun s p => ?_) _ _)
  split
  · exact writesMemory_physWrite ..
  · exact WritesMemory.refl s

/-- From `s` to `t` only rows of the Lofts and the count of free values have changed. -/
def LaysRows (s t : State) : Prop := ∃ rows free, t = { s with loft := { s.loft with rows := rows }, free := free }

/-- R276: the engine's layout changes rows alone. -/
theorem laysRows_layoutUndef (c : Cmd) (first named : Nat) : LaysRows s (s.layoutUndef c first named) := by
  unfold layoutUndef
  split
  · exact ⟨_, _, rfl⟩
  · refine List.foldlRecOn (motive := LaysRows s) _ _ ⟨_, _, rfl⟩ fun t ht n _ => ?_
    refine List.foldlRecOn (motive := LaysRows s) _ _ ht fun u hu i _ => ?_
    split
    · exact hu
    · obtain ⟨_, _, rfl⟩ := hu
      exact ⟨_, _, rfl⟩

/-! ### The command in flight -/

/-- A command that stands in flight is found as it was put back. -/
theorem cmd?_setCmd {s : State} {c : Cmd} (h : (s.cmd? c.q c.i).isSome = true) : (s.setCmd c).cmd? c.q c.i = some c := by
  obtain ⟨x, hx⟩ := Option.isSome_iff_exists.1 h
  have hsame : (fun y => y.q == c.q && y.i == c.i) ∘ (fun y : Cmd => if y.q == c.q && y.i == c.i then c else y) =
      fun y => y.q == c.q && y.i == c.i := by
    funext y
    by_cases hy : (y.q == c.q && y.i == c.i) = true
    · simp only [Function.comp_apply, hy, if_true, beq_self_eq_true, Bool.and_true]
    · simp only [Function.comp_apply, if_neg hy]
  have hfound : (x.q == c.q && x.i == c.i) = true := List.find?_some (p := fun y : Cmd => y.q == c.q && y.i == c.i) hx
  unfold cmd? at hx
  unfold cmd? setCmd
  rw [List.find?_map, hsame, hx, Option.map_some, if_pos hfound]

/-! ### A command that fails (R253, R353) -/

/-- Its outputs are undefined; what it had sent and its captures are gone; it is counted and traced, and stands finished with
its code. -/
theorem failCmd_eq (c : Cmd) (code detail : Nat) : ∃ devMem hostMem poisoned bruora dict obs free,
    s.failCmd c code detail = { s with
      cmds := (s.setCmd { c with status := code, detail := detail, wait := .done }).cmds, devMem := devMem, hostMem := hostMem,
      poisoned := poisoned, bruora := bruora, dict := dict, obs := obs, free := free } := by
  unfold failCmd
  extract_lets s1 c1 _ _ s1b s2
  obtain ⟨_, _, _, _, hs1⟩ : WritesMemory s s1 := WritesMemory.foldl (fun s _ => writesMemory_scramble s ..) _ s
  clear_value s1
  subst hs1
  obtain ⟨_, _, _, hcount⟩ := counts_countCode s1b code false
  have hs2 : s2 = _ := congrArg (·.setCmd c1) hcount
  split
  · obtain ⟨dict, obs, free, htrace⟩ := counts_traceEnd s2 c1
    exact ⟨_, _, _, _, _, _, _, htrace.trans (congrArg (fun x : State => { x with dict := dict, obs := obs, free := free }) hs2)⟩
  · exact ⟨_, _, _, _, _, _, _, hs2⟩

theorem failCmd_cmd? {s : State} {c : Cmd} (h : (s.cmd? c.q c.i).isSome = true) (code detail : Nat) :
    (s.failCmd c code detail).cmd? c.q c.i = some { c with status := code, detail := detail, wait := .done } := by
  obtain ⟨_, _, _, _, _, _, _, hfail⟩ := failCmd_eq s c code detail
  rw [hfail]
  exact cmd?_setCmd (c := { c with status := code, detail := detail, wait := .done }) h

/-! ### Translations stand while a command works -/

/-- Two states hold the same memories and answer every access with the same entry. -/
structure SameView (s t : State) : Prop where
  devMem : t.devMem = s.devMem
  hostMem : t.hostMem = s.hostMem
  carter : t.trans.carter = s.trans.carter
  die0 : t.trans.die0 = s.trans.die0
  die1 : t.trans.die1 = s.trans.die1

theorem Serves.sameView {s t : State} (h : Serves s t) : SameView s t := by
  obtain ⟨_, _, _, _, _, _, _, rfl⟩ := h
  exact ⟨rfl, rfl, rfl, rfl, rfl⟩

theorem SameView.physOf {s t : State} (h : SameView s t) (port pasid va n access : Nat) :
    t.physOf port pasid va n access = s.physOf port pasid va n access := by
  have hentry : t.entryFor port pasid va access = s.entryFor port pasid va access := by
    unfold entryFor carterEntries dieEntries
    rw [h.carter, h.die0, h.die1]
  unfold State.physOf lookupVA
  rw [hentry]

theorem SameView.physWrite {s t : State} (h : SameView s t) (pa : Nat) (bs : List Byte) :
    SameView (s.physWrite pa bs) (t.physWrite pa bs) := by
  obtain ⟨hdev, hhost, hcarter, hdie0, hdie1⟩ := h
  unfold State.physWrite
  split
  · exact ⟨by rw [hdev], hhost, hcarter, hdie0, hdie1⟩
  · exact ⟨hdev, by rw [hhost], hcarter, hdie0, hdie1⟩

theorem SameView.writeVA {s t : State} (h : SameView s t) (port pasid va access : Nat) (bs : List Byte) :
    SameView (s.writeVA port pasid va access bs) (t.writeVA port pasid va access bs) := by
  refine List.foldl_rel h fun p _ s t h => ?_
  rw [h.physOf]
  split
  · exact h.physWrite ..
  · exact h

end State
end Sys2Proof.Machine
end

section
namespace Sys2Proof.Machine
open Safety

/-! ### What a command keeps from its fetch until its work begins (R259, R270) -/

/-- The fields of a fetched command that neither its Granary work at issue nor its samples change. -/
structure KeepsFetched (c c' : Cmd) : Prop where
  q : c'.q = c.q
  i : c'.i = c.i
  recs : c'.recs = c.recs
  status : c'.status = c.status
  tiles : c'.tiles = c.tiles

theorem KeepsFetched.trans {a b c : Cmd} (hab : KeepsFetched a b) (hbc : KeepsFetched b c) : KeepsFetched a c where
  q := hbc.q.trans hab.q
  i := hbc.i.trans hab.i
  recs := hbc.recs.trans hab.recs
  status := hbc.status.trans hab.status
  tiles := hbc.tiles.trans hab.tiles

theorem Recs.load_desc (rd : Reader) (desc : List Byte) : (Recs.load rd desc).desc = desc := by
  unfold Recs.load
  dsimp only
  repeat' split
  all_goals rfl

namespace State
variable (s : State)

theorem fetchedCmd_desc (q : Nat) (k : Queue) (rd : Reader) (desc : List Byte) : (fetchedCmd q k rd desc).recs.desc = desc := by
  unfold fetchedCmd freshCmd
  dsimp only
  split <;> exact Recs.load_desc rd desc

/-- R182, R184: what a Granary command takes at its issue changes none of the fetched fields. -/
theorem kvAtIssue_keepsFetched {s s1 : State} {c c1 : Cmd} (h : s.kvAtIssue c = (s1, .ok c1)) : KeepsFetched c c1 := by
  unfold kvAtIssue reserveAppend createKv shareKv truncateKv at h
  dsimp only at h
  repeat' split at h
  all_goals cases h
  all_goals exact ⟨rfl, rfl, rfl, rfl, rfl⟩

theorem sampleReads_keepsFetched (c : Cmd) : KeepsFetched c (s.sampleReads c).2 := by
  unfold sampleReads
  dsimp only
  repeat' split
  all_goals exact ⟨rfl, rfl, rfl, rfl, rfl⟩

theorem sampleIssue_keepsFetched (k : Queue) (c : Cmd) : KeepsFetched c (s.sampleIssue k c).2 :=
  have h := s.sampleReads_keepsFetched
  ⟨(h _).q, (h _).i, (h _).recs, (h _).status, (h _).tiles⟩

/-! ### The issue of a queue's command -/

theorem beginRead_cmds (id die : Nat) : (s.beginRead id die).cmds = s.cmds := by
  unfold beginRead
  split <;> rfl

theorem sampleReads_cmds (c : Cmd) : (s.sampleReads c).1.cmds = s.cmds := by
  unfold sampleReads
  dsimp only
  generalize readSeqs c.recs c.prods = ids
  split
  · rfl
  · exact List.foldlRecOn (motive := fun t : State => t.cmds = s.cmds) _ _ rfl fun t ht id _ => (beginRead_cmds ..).trans ht

/-- The samples of a command are put back into it. -/
theorem sampleIssue_cmds (k : Queue) (c : Cmd) :
    (s.sampleIssue k c).1.cmds = (s.setCmd (s.sampleIssue k c).2).cmds := by
  unfold sampleIssue
  extract_lets arith env c1
  split
  rename_i s1 c2 hreads
  extract_lets c3 s2 s3 s4 _ _ s5
  have hs1 : s1.cmds = s.cmds := by
    have := s.sampleReads_cmds (s.withLimits c1)
    rwa [hreads] at this
  have hs2 : s2.cmds = s.cmds := by
    simp only [s2]
    split <;> exact hs1
  have hs3 : s3.cmds = (s.setCmd c3).cmds := congrArg (List.map _) hs2
  have hs5 : s5.cmds = (s.setCmd c3).cmds := by
    simp only [s5]
    split <;> exact hs3
  split
  · exact hs5
  · obtain ⟨_, _, _, htrace⟩ := counts_traceBegin s5 c3
    dsimp only
    rw [htrace]
    exact hs5

theorem taken_cmd?_isSome (s : State) (q : Nat) (k : Queue) (c : Cmd) : ((taken s q k c).cmd? c.q c.i).isSome = true := by
  unfold cmd? taken
  rw [List.find?_isSome]
  exact ⟨c, by simp, by simp⟩

end State

end Sys2Proof.Machine

namespace Sys2Proof.Safety
open Machine

/-! ### What stands when a command's work begins -/

section
variable {s v : State} {q : Nat} {c : Cmd}

/-- R270: the command, as its ring held it, stands in flight. -/
theorem Issues.begins (h : Issues s q v c) : c.q = q ∧ c.status = 0 ∧ c.tiles = 0 ∧ v.cmd? c.q c.i = some c := by
  obtain ⟨k, s1, c0, k1, hacc, -, hsample, -, -⟩ := h
  have hfetched : KeepsFetched (nextCmd s q k) c0 := State.kvAtIssue_keepsFetched hacc.granary
  have hkept : KeepsFetched c0 c := by
    have := State.sampleIssue_keepsFetched (taken s1 q k c0) k1 c0
    rwa [hsample] at this
  have hv : v.cmds = ((taken s1 q k c0).setCmd c).cmds := by
    have := State.sampleIssue_cmds (taken s1 q k c0) k1 c0
    rwa [hsample] at this
  have hstands := State.taken_cmd?_isSome s1 q k c0
  rw [← hkept.q, ← hkept.i] at hstands
  have hq : c.q = q := (hfetched.trans hkept).q
  have hfound : v.cmd? c.q c.i = some c := by
    rw [State.cmd?, hv]
    exact State.cmd?_setCmd hstands
  exact ⟨hq, (hfetched.trans hkept).status, (hfetched.trans hkept).tiles, hq ▸ hfound⟩

/-- R270: nothing delays or refuses a command that `Accepted` names. -/
theorem Accepted.consider_eq {s s1 : State} {q : Nat} {k k1 : Queue} {c0 : Cmd} (h : Accepted s q k s1 c0)
    (hqueue : (taken s1 q k c0).queue? q = some k1) :
    (afterReads s k).consider k (nextCmd s q k) true = (taken s1 q k c0).issueCmd k1 c0 := by
  unfold State.consider
  rw [h.noCode]
  dsimp only
  rw [if_neg (Nat.not_lt.2 h.space), h.granary]
  dsimp only
  change (match (taken s1 q k c0).queue? q with
    | some k2 => (taken s1 q k c0).issueCmd k2 c0
    | none => taken s1 q k c0) = _
  rw [hqueue]

/-- R262, R270: a row that takes the next descriptor lets the command begin its work. -/
theorem Issues.issueNext_eq (h : Issues s q v c) {takes : Recs → Bool} (htakes : takes { desc := c.recs.desc } = true) :
    s.issueNext takes q = v.attempt c := by
  obtain ⟨k, s1, c0, k1, hacc, hqueue, hsample, hrun, hbreak⟩ := h
  have hdesc : c.recs.desc = nextDesc s k := by
    have hkept := State.sampleIssue_keepsFetched (taken s1 q k c0) k1 c0
    rw [hsample] at hkept
    rw [((State.kvAtIssue_keepsFetched hacc.granary).trans hkept).recs]
    exact State.fetchedCmd_desc ..
  have hattempt : (taken s1 q k c0).issueCmd k1 c0 = v.attempt c := by
    unfold State.issueCmd
    rw [hsample]
  rw [hdesc] at htakes
  rw [← hattempt, ← hacc.consider_eq hqueue]
  obtain ⟨hbound, hready, hturn, hfetched, hsound, hnoFailure, hreached, hwhole, hfree⟩ := hacc.toChecked
  unfold checkReads nextDesc descAt at hreached hwhole
  unfold nextDesc descAt at htakes
  unfold descAt at hfetched hsound
  unfold State.issueNext
  rw [hbound]
  dsimp only
  rw [if_neg (by simp [hready, hturn]), hfetched]
  dsimp only
  rw [if_neg (by simp [htakes]), hsound, hnoFailure]
  dsimp only
  rw [hreached, hwhole]
  dsimp only
  rw [if_neg]
  · rfl
  · exact ne_true_of_eq_false hfree

end
end Sys2Proof.Safety
end

section
namespace Sys2Proof.Machine
open Safety
namespace State

/-! ### The end of a plan (R65, R165, R276) -/

/-- The bytes of a plan, written to the task memory of its command. -/
abbrev written (s : State) (c : Cmd) (p : Plan) : State :=
  p.writes.foldl (fun s w => s.writeVA c.region c.pasid w.1 1 w.2) s

/-- What a plan wrote depends on the memories and the translations alone. -/
theorem SameView.written {s t : State} (h : SameView s t) (c : Cmd) (p : Plan) : SameView (s.written c p) (t.written c p) :=
  List.foldl_rel h fun w _ _ _ h => h.writeVA c.region c.pasid w.1 1 w.2

theorem writesMemory_written (s : State) (c : Cmd) (p : Plan) : WritesMemory s (s.written c p) :=
  WritesMemory.foldl (fun s _ => writesMemory_writeVA s ..) _ s

/-- What a finished plan is counted in, before its bytes are written. -/
def planCounted (s : State) (c : Cmd) (p : Plan) : State :=
  (products c).foldl (fun s r => s.countMacs c r (if r.isAttend then p.g.macCount else r.mRows * r.nCols * r.kDim))
    ((((if (products c).isEmpty then s else { s with threshers := Table.put (thresherOf c) p.unit s.threshers }).countGather
      p.g).countBusy c).countSpill c p.g.spillImages)

theorem serves_planCounted (s : State) (c : Cmd) (p : Plan) : Serves s (s.planCounted c p) := by
  have hunit : Serves s (if (products c).isEmpty then s
      else { s with threshers := Table.put (thresherOf c) p.unit s.threshers }) := by
    split
    · exact Serves.refl s
    · exact serves_putThresher ..
  have hcounts (t : State) : Counts t (((t.countGather p.g).countBusy c).countSpill c p.g.spillImages) :=
    ((counts_countGather t _).trans (counts_countBusy ..)).trans (counts_countSpill ..)
  exact hunit.trans ((hcounts _).trans (Counts.foldl (fun s _ => counts_countMacs s ..) _ _)).serves

theorem finishPlan_of_badPos (s pre : State) (c : Cmd) {p : Plan} (hbad : p.badPos = true) :
    s.finishPlan pre c p = (s.planCounted (pre.planFields c p) p).failCmd (pre.planFields c p) 0x2228 0 := by
  unfold finishPlan
  exact if_pos hbad

/-- The frame of a plan that ends well: counted, written, laid out, captured, put back, traced. -/
theorem planEnd_eq {s s2 s3 s4 s5 u : State} {c : Cmd} (hcounted : Serves s s2) (hwritten : WritesMemory s2 s3)
    (hlaid : LaysRows s3 s4) (hcaptured : Counts s4 s5) (htraced : Counts (s5.setCmd c) u) :
    ∃ poisoned rows tracking barn dict obs free threshers walkers, u = { s with
      cmds := (s.setCmd c).cmds, devMem := s3.devMem, hostMem := s3.hostMem, poisoned := poisoned,
      loft := { s.loft with rows := rows }, trans := { s.trans with tracking := tracking }, barn := barn, dict := dict,
      obs := obs, free := free, threshers := threshers, granary := { s.granary with walkers := walkers } } := by
  obtain ⟨_, _, _, _, _, _, _, rfl⟩ := hcounted
  obtain ⟨_, _, _, _, rfl⟩ := hwritten
  obtain ⟨_, _, rfl⟩ := hlaid
  obtain ⟨_, _, _, rfl⟩ := hcaptured
  obtain ⟨_, _, _, rfl⟩ := htraced
  exact ⟨_, _, _, _, _, _, _, _, _, rfl⟩

/-- A plan without a refused position and without tiles to send ends its command: what it wrote stands in memory, and the
engine's layout in the Lofts. -/
theorem finishPlan_of_ok (s pre : State) {c : Cmd} {p : Plan} (hbad : p.badPos = false) (hsends : p.sends = [])
    (hsplit : splitRanges c = []) : ∃ poisoned rows tracking barn dict obs free threshers walkers,
    s.finishPlan pre c p = { s with
      cmds := (s.setCmd { pre.planFields c p with wait := .done }).cmds, devMem := (s.written c p).devMem,
      hostMem := (s.written c p).hostMem, poisoned := poisoned, loft := { s.loft with rows := rows },
      trans := { s.trans with tracking := tracking }, barn := barn, dict := dict, obs := obs, free := free,
      threshers := threshers, granary := { s.granary with walkers := walkers } } := by
  have hempty : (pre.planFields c p).sends.isEmpty = true := List.isEmpty_iff.2 hsends
  have hnosplit : splitRanges (pre.planFields c p) = [] := hsplit
  have hcounted := serves_planCounted s (pre.planFields c p) p
  obtain ⟨hdev, hhost, -, -, -⟩ := hcounted.sameView.written c p
  have hfinish : s.finishPlan pre c p =
      ((((((s.planCounted (pre.planFields c p) p).written c p).layoutUndef (pre.planFields c p)
        (pre.ringNamed (pre.planFields c p)).1 (pre.ringNamed (pre.planFields c p)).2).captureRun pre
        (pre.planFields c p)).setCmd { pre.planFields c p with wait := .done }).traceEnd (pre.planFields c p)) := by
    unfold finishPlan scrambleSplit
    dsimp only
    rw [if_neg (ne_true_of_eq_false hbad), if_pos hempty, hnosplit]
    rfl
  rw [hfinish, ← hdev, ← hhost]
  exact planEnd_eq hcounted (writesMemory_written ..) (laysRows_layoutUndef ..) (counts_captureRun ..) (counts_traceEnd ..)

/-! ### The run of an ungated plan -/

theorem Notes.kvLost {s t : State} (h : Notes s t) (rs : List KvRead) : t.kvLost rs = s.kvLost rs := by
  obtain ⟨_, _, _, _, _, _, _, _, rfl⟩ := h
  rfl

/-- The accesses of an arithmetic command without a split area. -/
abbrev planAccesses (v : State) (c : Cmd) : List Access := readsOf (planReads (v.cmdReader c) c) ++ writesOf (v.outputsOf c)

/-- The state in which an ungated plan ends: its accesses noted, its deliveries taken, its beginning traced. -/
def planStarted (v : State) (c : Cmd) : State :=
  (((v.noteAll c.region c.pasid (v.planAccesses c)).deliverKv c.region c.pasid (planOf (v.workEnv c) c).kv).beginTrace c).1

theorem serves_planStarted (v : State) (c : Cmd) :
    Serves (v.noteAll c.region c.pasid (v.planAccesses c)) (v.planStarted c) :=
  (serves_deliverKv ..).trans (counts_beginTrace ..).serves

theorem runPlan_of_clear {v : State} {c : Cmd} (hsplit : splitRanges c = []) (hclear : Clear v c (v.planAccesses c))
    (hkv : v.kvLost (planOf (v.workEnv c) c).kv = none) :
    v.runPlan c = (v.planStarted c).finishPlan v { c with begun := true } (planOf (v.workEnv c) c) := by
  have hnoted := ((notes_noteAll v c.region c.pasid (v.planAccesses c)).kvLost (planOf (v.workEnv c) c).kv).trans hkv
  unfold runPlan withAccess withSheaves
  dsimp only
  rw [hsplit, List.append_nil, hclear.1, hclear.2]
  dsimp only
  rw [hnoted]
  dsimp only
  rw [beginTrace_cmd]
  rfl

end State

/-! ### The rows of the arithmetic commands -/

/-- R266: the descriptors that a plan carries out. -/
def planned (r : Recs) : Prop := r.cls ∈ [1, 2, 3, 4, 5] ∨ r.cls = 6 ∧ r.form = 3

theorem State.attempt_of_planned {v : State} {c : Cmd} (hplan : planned c.recs) (hrun : v.mayRun c = true)
    (hbreak : v.breakHolds c = false) : v.attempt c = v.attemptPlan c := by
  have hwork : (!v.mayRun c || v.breakHolds c) = false := by simp [hrun, hbreak]
  unfold State.attempt
  rw [hwork]
  obtain hcls | ⟨hcls, hform⟩ := hplan
  · simp only [List.mem_cons, List.not_mem_nil, or_false] at hcls
    obtain hcls | hcls | hcls | hcls | hcls := hcls <;> rw [hcls] <;> rfl
  · rw [hcls, hform]
    rfl

/-- R270: each row of a planned command lets it begin its plan. -/
theorem exec_planned {s v : State} {q : Nat} {c : Cmd} {row : Instr} (h : Issues s q v c)
    (hrow : (row, c.recs.cls) ∈ [(.attend q, 1), (.gemm q, 2), (.chain2 q, 3), (.norm q, 4), (.func q, 5)] ∨
      row = .moveConvert q ∧ c.recs.cls = 6 ∧ c.recs.form = 3) : exec row s = .next (v.attemptPlan c) := by
  have hbegins (takes : Recs → Bool) (hplan : planned c.recs) (htakes : takes { desc := c.recs.desc } = true) :
      s.issueNext takes q = v.attemptPlan c := by
    rw [h.issueNext_eq htakes]
    obtain ⟨_, _, _, _, -, -, -, hrun, hbreak⟩ := h
    exact State.attempt_of_planned hplan hrun hbreak
  have hclass (n : Nat) (hn : n ∈ [1, 2, 3, 4, 5]) (hcls : c.recs.cls = n) :
      s.issueNext (State.takesClass n) q = v.attemptPlan c :=
    hbegins _ (.inl (hcls ▸ hn)) (by simp [State.takesClass, show ({ desc := c.recs.desc } : Recs).cls = n from hcls])
  obtain hrow | ⟨rfl, hcls, hform⟩ := hrow
  · simp only [List.mem_cons, Prod.mk.injEq, List.not_mem_nil, or_false] at hrow
    obtain ⟨rfl, hcls⟩ | ⟨rfl, hcls⟩ | ⟨rfl, hcls⟩ | ⟨rfl, hcls⟩ | ⟨rfl, hcls⟩ := hrow <;>
      exact congrArg Host.Outcome.next (hclass _ (by decide) hcls)
  · refine congrArg Host.Outcome.next (hbegins _ (.inr ⟨hcls, hform⟩) ?_)
    simp [State.takesForm, show ({ desc := c.recs.desc } : Recs).cls = 6 from hcls,
      show ({ desc := c.recs.desc } : Recs).form = 3 from hform]

namespace State

/-- R166: a gated command waits for its first tile. -/
theorem attemptPlan_of_gated {v : State} {c : Cmd} (hsends : c.sends = []) (htiles : c.tiles = 0)
    (hgate : gateTiles (gateRec c) ≠ 0) : v.attemptPlan c = v.setCmd { c with wait := .gate 0 } := by
  unfold attemptPlan
  rw [hsends, htiles, if_neg (by decide), if_pos (by omega)]

theorem attemptPlan_of_ungated {v : State} {c : Cmd} (hsends : c.sends = []) (hgate : gateTiles (gateRec c) = 0) :
    v.attemptPlan c = v.runPlan c := by
  unfold attemptPlan
  rw [hsends, hgate, if_neg (by decide), if_neg (by omega)]

variable {v : State} {c : Cmd}

theorem planStarted_notes : Notes v (v.planStarted c) := (notes_noteAll ..).trans (serves_planStarted v c).notes

theorem Notes.cmds {s t : State} (h : Notes s t) : t.cmds = s.cmds := by
  obtain ⟨_, _, _, _, _, _, _, _, rfl⟩ := h
  rfl

theorem planStarted_cmd?_isSome (h : v.cmd? c.q c.i = some c) : ((v.planStarted c).cmd? c.q c.i).isSome = true := by
  rw [cmd?, planStarted_notes.cmds, ← cmd?, h]
  rfl

/-- An ungated plan that ends well. -/
theorem runPlan_ok {p : Plan} (hfound : v.cmd? c.q c.i = some c) (hbad : p.badPos = false) (hsends : p.sends = [])
    (hsplit : splitRanges c = []) : ∃ t,
    (v.planStarted c).finishPlan v { c with begun := true } p = t ∧
    t.cmd? c.q c.i = some { v.planFields { c with begun := true } p with wait := .done } ∧
    t.devMem = ((v.noteAll c.region c.pasid (v.planAccesses c)).written c p).devMem ∧
    t.hostMem = ((v.noteAll c.region c.pasid (v.planAccesses c)).written c p).hostMem ∧
    t.loft.sems = v.loft.sems ∧ t.loft.ctrs = v.loft.ctrs ∧
    t = { v with cmds := t.cmds, devMem := t.devMem, hostMem := t.hostMem, poisoned := t.poisoned, loft := t.loft, trans := t.trans,
                 barn := t.barn, dict := t.dict, obs := t.obs, free := t.free, threshers := t.threshers,
                 granary := { v.granary with walkers := t.granary.walkers } } := by
  obtain ⟨hdev, hhost, -, -, -⟩ := (serves_planStarted v c).sameView.written c p
  have hstands := planStarted_cmd?_isSome hfound
  obtain ⟨_, _, _, _, _, _, _, _, hstarted⟩ := planStarted_notes (v := v) (c := c)
  obtain ⟨_, _, _, _, _, _, _, _, _, hfinish⟩ :=
    finishPlan_of_ok (v.planStarted c) v (c := { c with begun := true }) hbad hsends hsplit
  refine ⟨_, hfinish, cmd?_setCmd (c := { v.planFields { c with begun := true } p with wait := .done }) hstands, hdev, hhost,
    ?_, ?_, ?_⟩ <;> rw [hstarted]

/-- An ungated plan that meets a refused position. -/
theorem runPlan_lost {p : Plan} (hfound : v.cmd? c.q c.i = some c) (hbad : p.badPos = true) : ∃ t,
    (v.planStarted c).finishPlan v { c with begun := true } p = t ∧
    t.cmd? c.q c.i = some { v.planFields { c with begun := true } p with status := 0x2228, detail := 0, wait := .done } ∧
    FailsAlone { v with trans := t.trans, barn := t.barn, threshers := t.threshers,
                        granary := { v.granary with walkers := t.granary.walkers } } t := by
  have hcounted : Notes v _ :=
    planStarted_notes.trans (serves_planCounted (v.planStarted c) (v.planFields { c with begun := true } p) p).notes
  have hstands : (((v.planStarted c).planCounted (v.planFields { c with begun := true } p) p).cmd? c.q c.i).isSome = true := by
    rw [cmd?, hcounted.cmds, ← cmd?, hfound]
    rfl
  refine ⟨_, finishPlan_of_badPos _ _ _ hbad, failCmd_cmd? (c := v.planFields { c with begun := true } p) hstands .., ?_⟩
  obtain ⟨_, _, _, _, _, _, _, hfail⟩ :=
    failCmd_eq ((v.planStarted c).planCounted (v.planFields { c with begun := true } p) p)
      (v.planFields { c with begun := true } p) 0x2228 0
  obtain ⟨_, _, _, _, _, _, _, _, hs⟩ := hcounted
  rw [hfail, hs]
  rfl

end State

/-- Settles O53: the row begins the plan of the command; the plan's accesses, deliveries and counters leave the memories and
their translations as they were, so that its bytes land as if it wrote them at once. -/
theorem arithmeticCommands : Obligations.ArithmeticCommands := by
  intro s v q c row hissues hrow
  obtain ⟨rfl, hstatus, htiles, hfound⟩ := hissues.begins
  rw [exec_planned hissues hrow]
  refine ⟨fun hgate hsends => ?_, fun as p hgate hsends hsplit has hclear hp hkv => ?_⟩
  · rw [State.attemptPlan_of_gated hsends htiles hgate]
    exact ⟨_, rfl, State.cmd?_setCmd (c := { c with wait := .gate 0 }) (Option.isSome_iff_exists.2 ⟨_, hfound⟩), rfl⟩
  · subst has hp
    rw [State.attemptPlan_of_ungated hsends hgate, State.runPlan_of_clear hsplit hclear hkv]
    refine ⟨fun hbad hpsends => ?_, fun hbad => ?_⟩
    · obtain ⟨t, ht, hcmd, hrest⟩ := State.runPlan_ok hfound hbad hpsends hsplit
      exact ⟨t, _, congrArg _ ht, hcmd, rfl, hstatus, rfl, rfl, rfl, rfl, hrest⟩
    · obtain ⟨t, ht, hcmd, halone⟩ := State.runPlan_lost hfound hbad
      exact ⟨t, _, congrArg _ ht, hcmd, rfl, rfl, halone⟩

end Sys2Proof.Machine
end

section
namespace Sys2Proof.Machine

/-! ### Magnitudes that are whole numbers times powers of two (R24, R55) -/

namespace Mag

theorem scaled_natCast (k n : Nat) : scaled k n = ⟨k * 2 ^ n, 1, 1⟩ := by simp [scaled]

theorem scaled_neg_natCast (k n : Nat) : scaled k (-n) = ⟨k, 2 ^ n, 1⟩ := by
  cases n with
  | zero => simp [scaled]
  | succ n =>
    unfold scaled
    rw [if_neg (by omega), neg_neg, Int.toNat_natCast]

theorem scaled_root (k : Nat) (e : Int) : (scaled k e).root = 1 := by
  unfold scaled
  split <;> rfl

theorem scaled_den_pos (k : Nat) (e : Int) : 0 < (scaled k e).den := by
  unfold scaled
  split <;> positivity

/-- The number that `scaled` stands for. -/
theorem scaled_num (k : Nat) (e : Int) : ((scaled k e).num : ℚ) = k * 2 ^ e * (scaled k e).den := by
  obtain ⟨n, rfl | rfl⟩ := e.eq_nat_or_neg
  · simp [scaled_natCast]
  · simp [scaled_neg_natCast]

/-- Cross-multiplied comparison is comparison of the numbers. -/
theorem lt_scaled (a b : Nat) (d e : Int) : lt (scaled a d) (scaled b e) = true ↔ (a : ℚ) * 2 ^ d < b * 2 ^ e := by
  have hd : (0 : ℚ) < (scaled a d).den := by exact_mod_cast scaled_den_pos a d
  have he : (0 : ℚ) < (scaled b e).den := by exact_mod_cast scaled_den_pos b e
  rw [lt, scaled_root, scaled_root, decide_eq_true_iff]
  simp only [pow_one]
  rw [← Nat.cast_lt (α := ℚ), Nat.cast_mul, Nat.cast_mul, scaled_num, scaled_num,
    show (a : ℚ) * 2 ^ d * (scaled a d).den * (scaled b e).den = a * 2 ^ d * ((scaled a d).den * (scaled b e).den) by ring,
    show (b : ℚ) * 2 ^ e * (scaled b e).den * (scaled a d).den = b * 2 ^ e * ((scaled a d).den * (scaled b e).den) by ring]
  exact mul_lt_mul_iff_left₀ (mul_pos hd he)

theorem pow2_eq_scaled (e : Int) : pow2 e = scaled 1 e := by simp [pow2, scaled]

/-- The binade of a whole number. -/
theorem log2_mul_two_pow {k : Nat} (hk : 0 < k) (n : Nat) : Nat.log2 (k * 2 ^ n) = Nat.log2 k + n := by
  induction n with
  | zero => simp
  | succ n ih =>
    have hpos : k * 2 ^ n ≠ 0 := by positivity
    rw [Nat.log2_eq_log_two, pow_succ, ← Nat.mul_assoc, Nat.log_mul_base one_lt_two hpos, ← Nat.log2_eq_log_two, ih,
      Nat.add_assoc]

/-- The binade of k · 2^e. -/
theorem ratLog2_scaled {k : Nat} (hk : 0 < k) (e : Int) : ratLog2 (scaled k e).num (scaled k e).den = e + Nat.log2 k := by
  have hle : 2 ^ Nat.log2 k ≤ k := Nat.log2_self_le hk.ne'
  have hone : Nat.log2 1 = 0 := Nat.log2_two_pow (n := 0)
  obtain ⟨n, rfl | rfl⟩ := e.eq_nat_or_neg
  · rw [scaled_natCast, ratLog2, log2_mul_two_pow hk, hone]
    dsimp only
    have hfit : 1 * 2 ^ (((Nat.log2 k + n : Nat) : Int) - ((0 : Nat) : Int)).toNat ≤ k * 2 ^ n := by
      have : (((Nat.log2 k + n : Nat) : Int) - ((0 : Nat) : Int)).toNat = Nat.log2 k + n := by omega
      rw [this, Nat.one_mul, pow_add]
      exact Nat.mul_le_mul_right _ hle
    rw [if_pos (by omega), if_pos hfit]
    omega
  · rw [scaled_neg_natCast, ratLog2, Nat.log2_two_pow]
    dsimp only
    split
    · rename_i hn
      have hfit : 2 ^ n * 2 ^ ((Nat.log2 k : Int) - n).toNat ≤ k := by
        rw [← pow_add, show n + ((Nat.log2 k : Int) - n).toNat = Nat.log2 k by omega]
        exact hle
      rw [if_pos hfit]
      omega
    · rename_i hn
      have hfit : 2 ^ n ≤ k * 2 ^ (-((Nat.log2 k : Int) - n)).toNat := by
        calc 2 ^ n = 2 ^ Nat.log2 k * 2 ^ (-((Nat.log2 k : Int) - n)).toNat := by rw [← pow_add]; congr 1; omega
          _ ≤ _ := Nat.mul_le_mul_right _ hle
      rw [if_pos hfit]
      omega

theorem log2_scaled {k : Nat} (hk : 0 < k) (e : Int) : (scaled k e).log2 = e + Nat.log2 k := by
  rw [log2, scaled_root, ratLog2_scaled hk]
  simp

/-- At a place at or below its own, k · 2^e is a whole multiple. -/
theorem times_scaled (k : Nat) {q e : Int} (hq : q ≤ e) :
    ((scaled k e).times q).1 = k * 2 ^ (e - q).toNat * ((scaled k e).times q).2 ∧ 0 < ((scaled k e).times q).2 := by
  unfold times
  rw [scaled_root]
  obtain ⟨n, rfl | rfl⟩ := e.eq_nat_or_neg
  · rw [scaled_natCast]
    split
    · refine ⟨?_, by positivity⟩
      simp only [Nat.one_mul, Nat.mul_one, Nat.mul_assoc, ← pow_add]
      congr 2
      omega
    · refine ⟨?_, by positivity⟩
      simp only [Nat.mul_one, Nat.mul_assoc, ← pow_add]
      congr 2
      omega
  · rw [scaled_neg_natCast]
    split
    · refine ⟨?_, by positivity⟩
      have hn : n = 0 := by omega
      have hq0 : q = 0 := by omega
      subst hn hq0
      simp
    · refine ⟨?_, by positivity⟩
      simp only [Nat.mul_one, Nat.mul_assoc, ← pow_add]
      congr 2
      omega

theorem split_scaled (k : Nat) {q e : Int} (hq : q ≤ e) : (scaled k e).split q = (k * 2 ^ (e - q).toNat, .exact) := by
  obtain ⟨hnum, hden⟩ := times_scaled k hq
  have hfloor : (scaled k e).floorAt q = (k * 2 ^ (e - q).toNat, true) := by
    unfold floorAt
    rw [scaled_root]
    dsimp only
    rw [hnum, iroot, if_pos rfl, Nat.mul_div_cancel _ hden, pow_one, beq_self_eq_true]
  unfold split
  rw [hfloor]
  rfl

end Mag

@[simp] theorem Round.apply_exact (r : Round) (neg : Bool) (n : Nat) : r.apply neg n .exact = n := rfl

end Sys2Proof.Machine
end

section
namespace Sys2Proof.Machine

/-! ### Rounding a value that a float format holds (R55, R57) -/

/-- The exponent of the last place of a subnormal. -/
def Layout.least (l : Layout) : Int := 1 - l.bias - l.m

/-- The code, sign clear, of a significand k in units of 2^e. -/
def Layout.codeAt (l : Layout) (k : Nat) (e : Int) : Nat :=
  if e = l.least then k else (e + l.m + l.bias).toNat * 2 ^ l.m + (k - 2 ^ l.m)

/-- No attribute finds a magnitude up to the largest finite one above it. -/
theorem not_above_maxFinite {k mf : Nat} {e mq : Int} (hmax : (k : ℚ) * 2 ^ e ≤ mf * 2 ^ mq) :
    Mag.le (Mag.scaled (2 * mf + 1) (mq - 1)) (Mag.scaled k e) = false ∧ Mag.lt (Mag.scaled mf mq) (Mag.scaled k e) = false := by
  have hhalf : (k : ℚ) * 2 ^ e < (2 * mf + 1 : Nat) * 2 ^ (mq - 1) := by
    have hpos : (0 : ℚ) < 2 ^ (mq - 1) := by positivity
    have hstep : (2 : ℚ) ^ mq = 2 * 2 ^ (mq - 1) := by rw [zpow_sub_one₀ two_ne_zero]; ring
    rw [hstep] at hmax
    push_cast
    linarith
  rw [Mag.le, Bool.not_eq_false', ← Bool.not_eq_true, Mag.lt_scaled, Mag.lt_scaled]
  exact ⟨hhalf, not_lt.2 hmax⟩

/-- A significand of the format's width, at a place the format has, is delivered as it is, without a flag. -/
theorem roundFloat_scaled {f : Fmt} (r : Round) (sat neg : Bool) {k : Nat} {e : Int} (hk : 0 < k)
    (hwidth : k < 2 ^ (f.layout.m + 1)) (hleast : f.layout.least ≤ e) (hnormal : 2 ^ f.layout.m ≤ k ∨ e = f.layout.least)
    (hmax : (k : ℚ) * 2 ^ e ≤ f.maxFinite.1 * 2 ^ f.maxFinite.2) :
    roundFloat f r sat true neg (Mag.scaled k e) = { code := f.withSign neg (f.layout.codeAt k e) } := by
  unfold Layout.codeAt
  unfold Layout.least at *
  obtain ⟨hnearest, hdirected⟩ := not_above_maxFinite hmax
  have hlog : Nat.log2 k ≤ f.layout.m := Nat.lt_succ_iff.1 ((Nat.log2_lt hk.ne').2 hwidth)
  have hplace : e + Nat.log2 k - f.layout.m ≤ e := by omega
  have hfinal : (if e + (Nat.log2 k : Int) - f.layout.m < 1 - f.layout.bias - f.layout.m then 1 - f.layout.bias - f.layout.m
      else e + (Nat.log2 k : Int) - f.layout.m) = e := by
    obtain hnormal | hnormal := hnormal
    · have := (Nat.le_log2 hk.ne').2 hnormal
      rw [if_neg (by omega)]
      omega
    · split <;> omega
  unfold roundFloat
  generalize f.maxFinite = top at hnearest hdirected ⊢
  obtain ⟨mf, mq⟩ := top
  dsimp only at hnearest hdirected ⊢
  rw [Mag.log2_scaled hk, Mag.split_scaled k hplace, hfinal, Mag.split_scaled k le_rfl, hnearest, hdirected]
  simp [hk.ne']

end Sys2Proof.Machine
end

section
namespace Sys2Proof.Machine

/-! ### The fields of a float code (R24, R25) -/

/-- Sign, exponent and fraction of a code. -/
def Layout.signOf (l : Layout) (c : Nat) : Bool := bit c (l.e + l.m)
def Layout.exponentOf (l : Layout) (c : Nat) : Nat := bits c (l.e + l.m - 1) l.m
def Layout.fractionOf (l : Layout) (c : Nat) : Nat := c % 2 ^ l.m

/-- R25: the codes of infinities and NaN. -/
def Fmt.special (f : Fmt) (ex fr : Nat) : Bool := match f with
  | .e4m3 => ex == 2 ^ f.layout.e - 1 && fr == 7
  | .e3m2 | .e2m3 | .e2m1 => false
  | _ => ex == 2 ^ f.layout.e - 1

theorem Fmt.layout_e_pos (f : Fmt) : 0 < f.layout.e := by cases f <;> decide

theorem Layout.exponentOf_lt (l : Layout) (he : 0 < l.e) (c : Nat) : l.exponentOf c < 2 ^ l.e := by
  have hfield : l.e + l.m - 1 + 1 - l.m = l.e := by omega
  unfold Layout.exponentOf bits
  rw [hfield]
  exact Nat.mod_lt _ (by positivity)

theorem Layout.fractionOf_lt (l : Layout) (c : Nat) : l.fractionOf c < 2 ^ l.m := Nat.mod_lt _ (by positivity)

/-- A code without its sign is its exponent over its fraction. -/
theorem Layout.fields_eq (l : Layout) (he : 0 < l.e) (c : Nat) :
    l.exponentOf c * 2 ^ l.m + l.fractionOf c = c % 2 ^ (l.e + l.m) := by
  have hfield : l.e + l.m - 1 + 1 - l.m = l.e := by omega
  unfold Layout.exponentOf Layout.fractionOf bits
  rw [hfield, Nat.add_comm l.e, pow_add, Nat.mod_mul, Nat.add_comm, Nat.mul_comm]

theorem decodeFloat_regular {f : Fmt} {c : Nat} (h : f.special (f.layout.exponentOf c) (f.layout.fractionOf c) = false) :
    decodeFloat f c =
      if f.layout.exponentOf c = 0 then
        if f.layout.fractionOf c = 0 then .zero (f.layout.signOf c)
        else .fin (f.layout.signOf c) (Mag.scaled (f.layout.fractionOf c) f.layout.least)
      else .fin (f.layout.signOf c) (Mag.scaled (2 ^ f.layout.m + f.layout.fractionOf c)
        ((f.layout.exponentOf c : Int) - f.layout.bias - f.layout.m)) :=
  if_neg (ne_true_of_eq_false h)

theorem decodeFloat_special {f : Fmt} {c : Nat} (h : f.special (f.layout.exponentOf c) (f.layout.fractionOf c) = true) :
    (∃ n, decodeFloat f c = .nan n) ∨ ∃ neg, decodeFloat f c = .inf neg := by
  have hcode : decodeFloat f c = _ := if_pos h
  rw [hcode]
  repeat' split
  all_goals simp

/-- The places of a format's codes: each is a significand of its width at a place it has, up to its largest finite value. -/
structure Fmt.Holds (f : Fmt) (k : Nat) (e : Int) : Prop where
  pos : 0 < k
  width : k < 2 ^ (f.layout.m + 1)
  least : f.layout.least ≤ e
  normal : 2 ^ f.layout.m ≤ k ∨ e = f.layout.least
  max : (k : ℚ) * 2 ^ e ≤ f.maxFinite.1 * 2 ^ f.maxFinite.2

theorem scaled_le_scaled {k n : Nat} {d e : Int} (h : k ≤ n ∧ d ≤ e ∨ k ≤ 2 * n ∧ d + 1 ≤ e) :
    (k : ℚ) * 2 ^ d ≤ n * 2 ^ e := by
  have hpow {a b : Int} (hab : a ≤ b) : (2 : ℚ) ^ a ≤ 2 ^ b := zpow_le_zpow_right₀ one_le_two hab
  obtain ⟨hk, hd⟩ | ⟨hk, hd⟩ := h
  · exact mul_le_mul (by exact_mod_cast hk) (hpow hd) (by positivity) (by positivity)
  · calc (k : ℚ) * 2 ^ d ≤ (2 * n : Nat) * 2 ^ d := mul_le_mul_of_nonneg_right (by exact_mod_cast hk) (by positivity)
      _ = n * 2 ^ (d + 1) := by rw [zpow_add_one₀ two_ne_zero]; push_cast; ring
      _ ≤ n * 2 ^ e := mul_le_mul_of_nonneg_left (hpow hd) (by positivity)

/-- R24: no regular code is above the largest finite value. -/
theorem Fmt.regular_le_maxFinite {f : Fmt} {ex fr : Nat} (hex : ex < 2 ^ f.layout.e) (hfr : fr < 2 ^ f.layout.m)
    (h : f.special ex fr = false) :
    ((2 ^ f.layout.m + fr : Nat) : ℚ) * 2 ^ ((ex : Int) - f.layout.bias - f.layout.m) ≤ f.maxFinite.1 * 2 ^ f.maxFinite.2 := by
  apply scaled_le_scaled
  cases f
  all_goals
    simp only [Fmt.special, Fmt.layout, Fmt.maxFinite, Bool.and_eq_false_iff, beq_eq_false_iff_ne] at h hex hfr ⊢
    norm_num at h hex hfr ⊢
    omega

theorem Fmt.holds_normal {f : Fmt} {ex fr : Nat} (hpos : 0 < ex) (hex : ex < 2 ^ f.layout.e) (hfr : fr < 2 ^ f.layout.m)
    (h : f.special ex fr = false) : f.Holds (2 ^ f.layout.m + fr) ((ex : Int) - f.layout.bias - f.layout.m) where
  pos := by positivity
  width := by rw [pow_succ]; omega
  least := by unfold Layout.least; omega
  normal := .inl (Nat.le_add_right ..)
  max := regular_le_maxFinite hex hfr h

theorem Fmt.holds_subnormal {f : Fmt} {fr : Nat} (hpos : 0 < fr) (hfr : fr < 2 ^ f.layout.m) : f.Holds fr f.layout.least where
  pos := hpos
  width := by rw [pow_succ]; omega
  least := le_rfl
  normal := .inr rfl
  max := by
    have hone : 1 < 2 ^ f.layout.e ∧ f.special 1 fr = false := by cases f <;> exact ⟨by decide, rfl⟩
    refine le_trans (mul_le_mul_of_nonneg_right ?_ (by positivity)) (regular_le_maxFinite hone.1 hfr hone.2)
    exact_mod_cast Nat.le_add_left ..

/-- A value that a format reads as a zero or a finite number. -/
def Val.isNumber (v : Val) : Prop := (∃ neg, v = .zero neg) ∨ ∃ neg m, v = .fin neg m

theorem Val.not_isNumber_nan (n : NaN) : ¬(Val.nan n).isNumber := by simp [isNumber]

theorem Val.not_isNumber_inf (neg : Bool) : ¬(Val.inf neg).isNumber := by simp [isNumber]

/-- R24: a code that is read as a zero, and one that is read as a finite number: a significand at a place of its format, of
which its bits are the code. -/
theorem decodeFloat_zero_or_fin (f : Fmt) (c : Nat) {v : Val} (hv : decodeFloat f c = v)
    (h : v.isNumber) :
    (v = .zero (f.layout.signOf c) ∧ c % 2 ^ (f.layout.e + f.layout.m) = 0) ∨
      ∃ k e, v = .fin (f.layout.signOf c) (Mag.scaled k e) ∧ f.Holds k e ∧
        f.layout.codeAt k e = c % 2 ^ (f.layout.e + f.layout.m) := by
  have hex := f.layout.exponentOf_lt f.layout_e_pos c
  have hfr := f.layout.fractionOf_lt c
  rw [← f.layout.fields_eq f.layout_e_pos c]
  cases hspecial : f.special (f.layout.exponentOf c) (f.layout.fractionOf c) with
  | true =>
    obtain ⟨n, hcode⟩ | ⟨neg, hcode⟩ := decodeFloat_special hspecial
    · exact absurd (hcode ▸ hv ▸ h) (Val.not_isNumber_nan n)
    · exact absurd (hcode ▸ hv ▸ h) (Val.not_isNumber_inf neg)
  | false =>
    have hcode := decodeFloat_regular hspecial
    generalize f.layout.exponentOf c = ex at *
    generalize f.layout.fractionOf c = fr at *
    rw [hv] at hcode
    split at hcode
    · rename_i hzero
      subst hzero
      split at hcode
      · rename_i hfrac
        exact .inl ⟨hcode, by simp [hfrac]⟩
      · rename_i hfrac
        exact .inr ⟨_, _, hcode, Fmt.holds_subnormal (Nat.pos_of_ne_zero hfrac) hfr, by simp [Layout.codeAt]⟩
    · rename_i hnormal
      refine .inr ⟨_, _, hcode, Fmt.holds_normal (Nat.pos_of_ne_zero hnormal) hex hfr hspecial, ?_⟩
      unfold Layout.codeAt Layout.least
      split
      · rw [show ex = 1 by omega, Nat.one_mul]
      · rw [show ((ex : Int) - f.layout.bias - f.layout.m + f.layout.m + f.layout.bias).toNat = ex by omega,
          Nat.add_sub_cancel_left]

end Sys2Proof.Machine
end

section
namespace Sys2Proof.Machine

/-! ### Two's-complement and signed codes (R26, R31, R32) -/

/-- A code is its sign bit over the rest. -/
theorem Fmt.withSign_bit {f : Fmt} {w c : Nat} (hw : f.width = w + 1) (hc : c < 2 ^ f.width) :
    f.withSign (bit c w) (c % 2 ^ w) = c := by
  rw [hw, pow_succ] at hc
  have hparts := Nat.div_add_mod c (2 ^ w)
  have htop : c / 2 ^ w = 0 ∨ c / 2 ^ w = 1 := by
    have hlt := Nat.div_lt_of_lt_mul hc
    generalize c / 2 ^ w = top at hlt
    omega
  unfold Fmt.withSign bit
  obtain htop | htop := htop
  · rw [htop] at hparts ⊢
    simpa using hparts
  · rw [htop] at hparts ⊢
    rw [hw, if_pos (by decide), Nat.add_sub_cancel]
    omega

/-- The two's-complement code of what a code is read as. -/
theorem unsignedOf_signed (c w : Nat) : unsignedOf (signed c w) w = c % 2 ^ w := by
  have hpos : (0 : Int) < 2 ^ w := by positivity
  have hcast : ((c % 2 ^ w : Nat) : Int) = (c : Int) % 2 ^ w := by push_cast; rfl
  have hmod : signed c w % 2 ^ w = (c : Int) % 2 ^ w := by
    unfold signed
    dsimp only
    split
    · rw [hcast, Int.emod_emod_of_dvd _ dvd_rfl]
    · rw [hcast, Int.sub_emod_right, Int.emod_emod_of_dvd _ dvd_rfl]
  rw [unsignedOf, hmod, ← hcast, Int.toNat_natCast]

theorem unsignedOf_natCast (c w : Nat) : unsignedOf c w = c % 2 ^ w := by
  rw [unsignedOf]
  norm_cast

/-- The range of the two's-complement reading. -/
theorem signed_bounds (c w : Nat) : -2 ^ w ≤ 2 * signed c w ∧ 2 * signed c w < 2 ^ w := by
  have hlt : c % 2 ^ w < 2 ^ w := Nat.mod_lt _ (by positivity)
  have hlt' : ((c % 2 ^ w : Nat) : Int) < 2 ^ w := by exact_mod_cast hlt
  unfold signed
  dsimp only
  split
  · rename_i h
    have h' : 2 * ((c % 2 ^ w : Nat) : Int) < 2 ^ w := by exact_mod_cast h
    omega
  · rename_i h
    have h' : (2 : Int) ^ w ≤ 2 * ((c % 2 ^ w : Nat) : Int) := by exact_mod_cast not_lt.1 h
    omega

/-! ### Exact values are kept: float formats -/

theorem decode_float {f : Fmt} (hf : f.isFloat = true) (uns : Bool) {c : Nat} (hc : c < 2 ^ f.width) :
    (decode f uns c).val = decodeFloat f c := by
  have hcode : c % 2 ^ f.width = c := Nat.mod_eq_of_lt hc
  cases f <;> cases hf <;> simp only [decode, hcode]

/-- R53, R55 of a float format. -/
theorem deliver_decodeFloat {f : Fmt} (hf : f.isFloat = true) (uns : Bool) (r : Round) (sat : Bool) {c : Nat}
    (hc : c < 2 ^ f.width) {v : Val} (hv : decodeFloat f c = v) (h : v.isNumber) :
    deliver f uns r sat true v = { code := c } := by
  have hwidth : f.width = f.layout.e + f.layout.m + 1 := by
    cases f <;> cases hf <;> rfl
  have hzero (neg : Bool) : deliver f uns r sat true (.zero neg) = { code := f.withSign neg 0 } := by
    cases f <;> cases hf <;> rfl
  have hfin (neg : Bool) (m : Mag) : deliver f uns r sat true (.fin neg m) = roundFloat f r sat true neg m := by
    cases f <;> cases hf <;> rfl
  have hsign := Fmt.withSign_bit hwidth hc
  obtain ⟨rfl, hcode⟩ | ⟨k, e, rfl, ⟨hpos, hk, hleast, hnormal, hmax⟩, hcode⟩ := decodeFloat_zero_or_fin f c hv h
  · rw [hzero, ← hcode, Layout.signOf, hsign]
  · rw [hfin, roundFloat_scaled r sat _ hpos hk hleast hnormal hmax, hcode, Layout.signOf, hsign]

/-! ### Exact values are kept: integer formats -/

/-- R53, R58 of an integer format. -/
theorem deliver_ofInt {f : Fmt} (hf : f.isInt = true) (uns : Bool) (r : Round) (sat : Bool) {x : Int}
    (hlo : (f.intRange uns).1 ≤ x) (hhi : x ≤ (f.intRange uns).2) :
    deliver f uns r sat true (Val.ofInt x) = { code := unsignedOf x f.width } := by
  have hzero : deliver f uns r sat true (.zero false) = { code := 0 } := by
    cases f <;> cases hf <;> rfl
  have hfin (neg : Bool) (m : Mag) : deliver f uns r sat true (.fin neg m) = roundInt f uns r neg m := by
    cases f <;> cases hf <;> rfl
  unfold Val.ofInt
  split
  · rename_i hx
    rw [hzero, hx]
    simp [unsignedOf]
  · rename_i hx
    have hmag : (⟨x.natAbs, 1, 1⟩ : Mag) = Mag.scaled x.natAbs 0 := by simp [Mag.scaled]
    have hval : (if decide (x < 0) = true then -(x.natAbs : Int) else x.natAbs) = x := by
      simp only [decide_eq_true_eq]
      split <;> omega
    rw [hfin, hmag, roundInt, Mag.split_scaled _ le_rfl]
    dsimp only
    rw [Round.apply_exact, Int.sub_self, Int.toNat_zero, pow_zero, Nat.mul_one, hval, if_neg (by omega)]
    simp [hx]

end Sys2Proof.Machine
end

section
namespace Sys2Proof.Machine

/-! ### Powers of two and their roots (R31, R32, R37) -/

namespace Mag

theorem exp2_eq (l : Int) (n : Nat) : exp2 l n = ⟨(scaled 1 l).num, (scaled 1 l).den, n⟩ := by
  unfold exp2 scaled
  split <;> simp

theorem exp2_pow (l : Int) (n k : Nat) : (exp2 l n).pow k = exp2 (l * k) n := by
  obtain ⟨a, rfl | rfl⟩ := l.eq_nat_or_neg
  · rw [exp2_eq, exp2_eq, ← Nat.cast_mul, scaled_natCast, scaled_natCast, pow]
    simp [pow_mul]
  · rw [exp2_eq, exp2_eq, neg_mul, ← Nat.cast_mul, scaled_neg_natCast, scaled_neg_natCast, pow]
    simp [pow_mul]

theorem log2_exp2 (l : Int) (n : Nat) : (exp2 l n).log2 = l.fdiv n := by
  rw [log2, exp2_eq, ratLog2_scaled one_pos]
  simp [show Nat.log2 1 = 0 from Nat.log2_two_pow (n := 0)]

/-- Roots of powers of two compare as their exponents. -/
theorem lt_exp2 (x y : Int) (m n : Nat) : lt (exp2 x m) (exp2 y n) = true ↔ x * n < y * m := by
  have hside (u w : Int) (i j : Nat) : (((scaled 1 u).num ^ i * (scaled 1 w).den ^ j : Nat) : ℚ) =
      2 ^ (u * i) * ((scaled 1 u).den ^ i * (scaled 1 w).den ^ j) := by
    push_cast
    rw [scaled_num, zpow_mul, zpow_natCast]
    ring
  have hx : (0 : ℚ) < (scaled 1 x).den := by exact_mod_cast scaled_den_pos 1 x
  have hy : (0 : ℚ) < (scaled 1 y).den := by exact_mod_cast scaled_den_pos 1 y
  rw [lt, exp2_eq, exp2_eq, decide_eq_true_iff]
  dsimp only
  rw [← Nat.cast_lt (α := ℚ), hside, hside, mul_comm ((scaled 1 y).den ^ m : ℚ),
    mul_lt_mul_iff_left₀ (mul_pos (pow_pos hx n) (pow_pos hy m)), zpow_lt_zpow_iff_right₀ one_lt_two]

theorem eq_iff (a b : Mag) : eq a b = true ↔ ¬lt b a = true ∧ ¬lt a b = true := by simp [eq, le]

end Mag

/-! ### Exact values are kept: logarithmic formats -/

/-- R34, R60: a log field that the format has, other than the reserved −1 of LNS16, is delivered as it is, without a flag. -/
theorem roundLns_exp2 {f : Fmt} (r : Round) (sat neg : Bool) {l : Int} (hlo : (lnsShape f).2.1 ≤ l) (hhi : l ≤ (lnsShape f).2.2)
    (hreserved : ¬(f = .lns16 ∧ l = -1)) : roundLns f r sat neg (Mag.exp2 l (lnsShape f).1) = { code := lnsCode f neg l } := by
  have hsteps : 0 < (lnsShape f).1 := by unfold lnsShape; split <;> decide
  unfold roundLns
  generalize lnsShape f = shape at *
  obtain ⟨n, lo, hi⟩ := shape
  dsimp only at hlo hhi hsteps ⊢
  have hn : (n : Int) ≠ 0 := by omega
  have hfloor : (l * n).fdiv n = l := Int.mul_fdiv_cancel l hn
  have hhalf : (l * (2 * n : Nat)).fdiv n = 2 * l := by
    rw [show l * (2 * n : Nat) = 2 * l * n by push_cast; ring]
    exact Int.mul_fdiv_cancel _ hn
  have hexact : Mag.eq (Mag.exp2 (l * n) n) (Mag.pow2 l) = true := by
    rw [Mag.pow2_eq_exp2, Mag.eq_iff, Mag.lt_exp2, Mag.lt_exp2]
    simp
  have hleast : ¬Mag.lt (Mag.exp2 l n) (Mag.exp2 lo n) = true := by
    rw [Mag.lt_exp2]
    exact not_lt.2 (mul_le_mul_of_nonneg_right hlo (by positivity))
  rw [Mag.exp2_pow, Mag.exp2_pow, Mag.log2_exp2, Mag.log2_exp2, hfloor, hhalf, hexact]
  simp [hleast, hreserved, not_lt.2 hhi]

/-! ### Exact values are kept: E8M0 -/

/-- R61: a power of two in the range is delivered as its exponent, without a flag. -/
theorem roundE8m0_exp2 (r : Round) (sat : Bool) {c : Nat} (hc : c < 255) :
    roundE8m0 r sat (Mag.exp2 ((c : Int) - 127) 1) = { code := c } := by
  have hlog : (Mag.exp2 ((c : Int) - 127) 1).log2 = (c : Int) - 127 := by rw [Mag.log2_exp2]; simp
  have hexact : Mag.eq (Mag.exp2 ((c : Int) - 127) 1) (Mag.pow2 ((c : Int) - 127)) = true := by
    rw [Mag.pow2_eq_exp2, Mag.eq_iff]
    simp [Mag.lt_exp2]
  have hbelow : Mag.le (Mag.scaled 3 126) (Mag.exp2 ((c : Int) - 127) 1) = false := by
    rw [← Mag.pow2_eq_exp2, Mag.pow2_eq_scaled, Mag.le, Bool.not_eq_false', Mag.lt_scaled]
    calc ((1 : Nat) : ℚ) * 2 ^ ((c : Int) - 127) ≤ (1 : Nat) * 2 ^ (127 : Int) := scaled_le_scaled (.inl ⟨le_rfl, by omega⟩)
      _ < (3 : Nat) * 2 ^ (126 : Int) := by norm_num
  unfold roundE8m0
  dsimp only
  rw [hlog, hexact, hbelow]
  have hrange : ¬(c : Int) - 127 < -127 := by omega
  have hcode : ¬254 < c := by omega
  simp [hrange, hcode]

/-! ### Exact values are kept: every format -/

/-- A logarithmic code is its sign over its log field. -/
theorem lnsCode_signed {f : Fmt} {w c : Nat} (hw : f.width = w + 1) (hc : c < 2 ^ f.width) :
    lnsCode f (bit c w) (signed c w) = c := by
  have hfield : f.width - 1 = w := by omega
  rw [lnsCode, hfield, unsignedOf_signed, Fmt.withSign_bit hw hc]

theorem decode_lns16 (uns : Bool) {c : Nat} (hc : c < 65536) :
    (decode .lns16 uns c).val = if signed c 15 = -16384 then .zero (bit c 15) else if signed c 15 = 16383 then .inf (bit c 15)
      else if signed c 15 = -1 then .nan NaN.canonical else .fin (bit c 15) (Mag.exp2 (signed c 15) 256) := by
  have hcode : c % 2 ^ Fmt.lns16.width = c := Nat.mod_eq_of_lt hc
  simp only [decode, hcode]
  repeat' split
  all_goals rfl

theorem deliver_decode_lns8 (uns : Bool) (r : Round) (sat : Bool) {c : Nat} (hc : c < 256) {v : Val}
    (hv : (decode .lns8 uns c).val = v) (h : v.isNumber) : deliver .lns8 uns r sat true v = { code := c } := by
  have hcode : lnsCode .lns8 (bit c 7) (signed c 7) = c := lnsCode_signed rfl hc
  rw [decode_lns8 uns hc, ← signed_seven, ← bit_seven_of_lt hc] at hv
  split at hv
  case isTrue hzero =>
    subst hv hzero
    rfl
  split at hv
  case isTrue => exact absurd (hv ▸ h) (Val.not_isNumber_nan _)
  case isFalse hzero hnan =>
    have hfield : -63 ≤ signed c 7 ∧ signed c 7 ≤ 63 := by
      rw [signed_seven]
      split <;> omega
    subst hv
    refine (roundLns_exp2 (f := .lns8) r sat _ hfield.1 hfield.2 ?_).trans (by rw [hcode])
    exact fun hlns16 => Fmt.noConfusion hlns16.1

theorem deliver_decode_lns16 (uns : Bool) (r : Round) (sat : Bool) {c : Nat} (hc : c < 65536) {v : Val}
    (hv : (decode .lns16 uns c).val = v) (h : v.isNumber) : deliver .lns16 uns r sat true v = { code := c } := by
  have hcode : lnsCode .lns16 (bit c 15) (signed c 15) = c := lnsCode_signed rfl hc
  obtain ⟨hlo, hhi⟩ := signed_bounds c 15
  have hzeroCode (neg : Bool) : deliver .lns16 uns r sat true (.zero neg) = { code := lnsCode .lns16 neg (-16384) } := by
    cases neg <;> rfl
  rw [decode_lns16 uns hc] at hv
  split at hv
  case isTrue hzero => rw [← hv, hzeroCode, ← hzero, hcode]
  split at hv
  case isTrue => exact absurd (hv ▸ h) (Val.not_isNumber_inf _)
  split at hv
  case isTrue => exact absurd (hv ▸ h) (Val.not_isNumber_nan _)
  case isFalse hzero hinf hreserved =>
    have hfield : -16383 ≤ signed c 15 ∧ signed c 15 ≤ 16382 := by omega
    subst hv
    refine (roundLns_exp2 (f := .lns16) r sat _ hfield.1 hfield.2 ?_).trans (by rw [hcode])
    exact fun hlns16 => hreserved hlns16.2

theorem deliver_decode_e8m0 (uns : Bool) (r : Round) (sat : Bool) {c : Nat} (hc : c < 256) {v : Val}
    (hv : (decode .e8m0 uns c).val = v) (h : v.isNumber) : deliver .e8m0 uns r sat true v = { code := c } := by
  obtain hlt | rfl : c < 255 ∨ c = 255 := by omega
  · rw [← hv, decode_e8m0 uns hlt]
    exact roundE8m0_exp2 r sat hlt
  · exact absurd (hv ▸ h) (Val.not_isNumber_nan _)

theorem deliver_decode_int {f : Fmt} (hf : f.isInt = true) (uns : Bool) (r : Round) (sat : Bool) {c : Nat}
    (hc : c < 2 ^ f.width) : deliver f uns r sat true (decode f uns c).val = { code := c } := by
  have hwidth : 0 < f.width := by cases f <;> decide
  rw [decode_int hf uns hc]
  cases uns with
  | true =>
    have hhi : (c : Int) < 2 ^ f.width := by exact_mod_cast hc
    rw [if_pos rfl, deliver_ofInt hf true r sat, unsignedOf_natCast, Nat.mod_eq_of_lt hc]
    · exact Int.natCast_nonneg c
    · exact Int.le_sub_one_of_lt hhi
  | false =>
    obtain ⟨hlo, hhi⟩ := signed_bounds c f.width
    have hhalf : (2 : Int) ^ f.width = 2 * 2 ^ (f.width - 1) := by rw [← pow_succ', Nat.sub_add_cancel hwidth]
    rw [if_neg Bool.false_ne_true, deliver_ofInt hf false r sat, unsignedOf_signed, Nat.mod_eq_of_lt hc]
    · change -2 ^ (f.width - 1) ≤ _
      omega
    · change _ ≤ 2 ^ (f.width - 1) - 1
      omega

/-- Settles O60, by the kind of the format: a finite value stands at a place of its format, so that no attribute rounds it and
no bound is passed. -/
theorem exactValuesAreKept : Obligations.ExactValuesAreKept := by
  intro f uns r sat c hc h
  cases f with
  | int8 | int4 | int32 => exact deliver_decode_int rfl uns r sat hc
  | lns8 => exact deliver_decode_lns8 uns r sat hc rfl h
  | lns16 => exact deliver_decode_lns16 uns r sat hc rfl h
  | e8m0 => exact deliver_decode_e8m0 uns r sat hc rfl h
  | fp64 | fp32 | bf16 | fp16 | e4m3 | e5m2 | e3m2 | e2m3 | e2m1 =>
    exact deliver_decodeFloat rfl uns r sat hc (decode_float rfl uns hc).symm h

end Sys2Proof.Machine
end

section
namespace Sys2Proof.Machine
open Safety
namespace State

/-! ### What an access that hits leaves alone (R231, R242)

It moves entries of the look-aside buffers, lines of the Barn and counters; it draws no free value and drives no Thresher
and no walker, which `Notes` leaves open. -/

/-- A state but for its translations, its Barn, its dictionary values and what is observed. -/
def besideAccess (s : State) : State := { s with trans := {}, barn := [], dict := {}, obs := {} }

/-- From `s` to `t` only translations, the Barn, dictionary values and what is observed have changed. -/
theorem eq_of_besideAccess {s t : State} (h : t.besideAccess = s.besideAccess) :
    ∃ trans barn dict obs, t = { s with trans := trans, barn := barn, dict := dict, obs := obs } :=
  ⟨_, _, _, _, congrArg (fun r : State => { r with trans := t.trans, barn := t.barn, dict := t.dict, obs := t.obs }) h⟩

theorem besideAccess_foldl {α : Type} {f : State → α → State} (h : ∀ s a, (f s a).besideAccess = s.besideAccess)
    (l : List α) (s : State) : (l.foldl f s).besideAccess = s.besideAccess :=
  List.foldlRecOn (motive := fun t : State => t.besideAccess = s.besideAccess) l f rfl fun _ ht _ _ => (h ..).trans ht

section
variable (s : State)

@[simp] theorem bump_besideAccess (i n a : Nat) : (s.bump i n a).besideAccess = s.besideAccess := rfl
@[simp] theorem bumpTask_besideAccess (p n a : Nat) : (s.bumpTask p n a).besideAccess = s.besideAccess := rfl
@[simp] theorem putBarn_besideAccess (l : List BarnLine) : ({ s with barn := l } : State).besideAccess = s.besideAccess := rfl

@[simp] theorem track_besideAccess (region n : Nat) : (s.track region n).besideAccess = s.besideAccess := rfl

@[simp] theorem barnLine_besideAccess (line hint : Nat) (write : Bool) (n : Nat) :
    (s.barnLine line hint write n).besideAccess = s.besideAccess := by
  unfold barnLine
  extract_lets hit s1 bytes rest
  have hbytes (t : State) : (bytes t).besideAccess = t.besideAccess := by
    simp only [bytes, apply_ite besideAccess, bump_besideAccess, ite_self]
  clear_value hit bytes
  split
  · split
    · rfl
    · split <;> exact hbytes _
  · split
    extract_lets held keeps
    split
    extract_lets s2 s3 s4
    have hs3 : s3.besideAccess = s.besideAccess := by
      simp only [s3, apply_ite besideAccess, bump_besideAccess, ite_self, s2, hbytes]
      rfl
    have hs4 : s4.besideAccess = s.besideAccess := by
      simp only [s4]
      split
      · simp only [apply_ite besideAccess, bump_besideAccess, ite_self, hs3]
      · exact hs3
    exact hs4

@[simp] theorem countCarter_besideAccess (port pasid pa n : Nat) (write : Bool) :
    (s.countCarter port pasid pa n write).besideAccess = s.besideAccess := by
  simp only [countCarter, bumpTask_besideAccess, bump_besideAccess, apply_ite besideAccess, track_besideAccess, ite_self]

@[simp] theorem devTouch_besideAccess (port pa n hint : Nat) (write : Bool) :
    (s.devTouch port pa n hint write).besideAccess = s.besideAccess :=
  besideAccess_foldl (fun s _ => s.barnLine_besideAccess ..) _ s

@[simp] theorem memTouch_besideAccess (port pasid pa n hint : Nat) (write carter : Bool) :
    (s.memTouch port pasid pa n hint write carter).besideAccess = s.besideAccess := by
  simp only [memTouch, apply_ite besideAccess, bump_besideAccess, devTouch_besideAccess, countCarter_besideAccess, ite_self]

@[simp] theorem touchEntry_besideAccess (port pasid va access : Nat) :
    (s.touchEntry port pasid va access).besideAccess = s.besideAccess := by
  unfold touchEntry setCarterEntries setDieEntries
  dsimp only
  repeat' split
  all_goals rfl

theorem noteVA_besideAccess (port pasid va len access hint : Nat) (carter : Bool) :
    (s.noteVA port pasid va len access hint carter).besideAccess = s.besideAccess := by
  refine besideAccess_foldl (fun s p => ?_) _ s
  split
  · simp only [apply_ite besideAccess, memTouch_besideAccess, touchEntry_besideAccess, ite_self]
  · rfl

theorem noteAll_besideAccess (port pasid : Nat) (as : List Access) : (s.noteAll port pasid as).besideAccess = s.besideAccess :=
  besideAccess_foldl (fun s _ => s.noteVA_besideAccess ..) as s

end

/-- A command whose accesses are clear does its work at once. -/
theorem withAccess_of_clear {s : State} {c : Cmd} {as : List Access} (h : Clear s c as) (work : State → State) :
    s.withAccess c as work = work (s.noteAll c.region c.pasid as) := by
  obtain ⟨hreached, hwhole⟩ := h
  unfold withAccess
  rw [hreached, hwhole]

end State
end Sys2Proof.Machine
end

section
namespace Sys2Proof.Machine
open Safety
namespace State

/-! ### The capture that a DUMP arms (R407) -/

@[simp] theorem dayEvent_captures (s : State) (die place region cluster kind payload : Nat) :
    (s.dayEvent die place region cluster kind payload).obs.captures = s.obs.captures := by
  unfold dayEvent setDaybook
  dsimp only
  repeat' split
  all_goals rfl

theorem traceBegin_captures (s : State) (c : Cmd) : (s.traceBegin c).obs.captures = s.obs.captures := by
  unfold traceBegin
  dsimp only
  split
  · exact List.foldlRecOn (motive := fun t : State => t.obs.captures = s.obs.captures) _ _ rfl
      fun t ht n _ => (t.dayEvent_captures ..).trans ht
  · exact s.dayEvent_captures ..

/-- A capture that has been armed for a command and has met no command of its queue yet. -/
def ArmedFor (c : Cmd) (x : Capture) : Prop :=
  x.q = c.q ∧ x.i = c.i ∧ x.record = c.recs.args ∧ x.matched = none ∧ x.issued = 0

/-- R407: a DUMP arms its capture as it issues. -/
theorem sampleIssue_captures (s : State) (k : Queue) {c : Cmd} (hcls : (s.sampleIssue k c).2.recs.cls = 12) :
    ∃ x ∈ (s.sampleIssue k c).1.obs.captures, ArmedFor (s.sampleIssue k c).2 x := by
  revert hcls
  unfold sampleIssue
  extract_lets arith env c1
  split
  extract_lets c3 s2 s3 s4 _ _ s5
  dsimp only
  intro hcls
  have hs5 : ∃ x ∈ s5.obs.captures, ArmedFor c3 x := by
    simp only [s5]
    rw [if_pos hcls]
    exact ⟨_, List.mem_append_right _ (List.mem_singleton_self _), rfl, rfl, rfl, rfl, rfl⟩
  split
  · exact hs5
  · rw [traceBegin_captures]
    exact hs5

end State
end Sys2Proof.Machine

namespace Sys2Proof.Safety
open Machine

section
variable {s v : State} {q : Nat} {c : Cmd}

/-- R407: the capture of a DUMP is armed as its work begins. -/
theorem Issues.capture (h : Issues s q v c) (hcls : c.recs.cls = 12) : ∃ x ∈ v.obs.captures, State.ArmedFor c x := by
  obtain ⟨k, s1, c0, k1, -, -, hsample, -, -⟩ := h
  have harmed := State.sampleIssue_captures (taken s1 q k c0) k1 (c := c0)
  rw [hsample] at harmed
  exact harmed hcls

/-- R249, R413: its queue runs, and no breakpoint holds the command. -/
theorem Issues.mayWork (h : Issues s q v c) : v.mayRun c = true ∧ v.breakHolds c = false := by
  obtain ⟨_, _, _, _, -, -, -, hrun, hbreak⟩ := h
  exact ⟨hrun, hbreak⟩

/-- R270: the row of a class without forms lets a command of that class begin its work. -/
theorem Issues.issueClass_eq (h : Issues s q v c) {n : Nat} (hcls : c.recs.cls = n) :
    s.issueNext (State.takesClass n) q = v.attempt c :=
  h.issueNext_eq (by simp [State.takesClass, show ({ desc := c.recs.desc } : Recs).cls = n from hcls])

end
end Sys2Proof.Safety
end

section
namespace Sys2Proof.Machine
open Safety
namespace State
variable {v : State} {c : Cmd}

/-! ### The attempts of control commands -/

theorem attempt_dump (hcls : c.recs.cls = 12) : v.attempt c = v.setCmd { c with wait := .capture } := by
  unfold attempt
  rw [if_pos hcls]

/-- A command that may run has its queue. -/
theorem queue_of_mayRun (h : v.mayRun c = true) : ∃ k, v.queue? c.q = some k := by
  unfold mayRun at h
  split at h
  · exact absurd h Bool.false_ne_true
  · exact ⟨_, by assumption⟩

theorem attempt_table (hcls : c.recs.cls = 11) (hrun : v.mayRun c = true) (hbreak : v.breakHolds c = false) :
    v.attempt c = v.attemptTable c := by
  unfold attempt
  rw [hrun, hbreak, hcls]
  rfl

theorem attempt_timed (hcls : c.recs.cls = 13) (hrun : v.mayRun c = true) (hbreak : v.breakHolds c = false) :
    v.attempt c = v.startTimed c := by
  unfold attempt
  rw [hrun, hbreak, hcls]
  rfl

theorem attempt_fence (hcls : c.recs.cls = 14) (hrun : v.mayRun c = true) (hbreak : v.breakHolds c = false) :
    v.attempt c = v.setCmd { c with wait := .fence } := by
  unfold attempt
  rw [hrun, hbreak, hcls]
  rfl

/-! ### TABLE (R117) -/

theorem attemptTable_of_shadowBusy (h : v.shadowBusy c = true) : v.attemptTable c = v.setCmd { c with wait := .shadow } := by
  unfold attemptTable
  exact if_pos h

/-- R114: the bytes that the header names are read after the header, and the image is checked. -/
theorem attemptTable_of_clear {a a' : Access} {h : List Byte} (hfree : v.shadowBusy c = false)
    (ha : a = { va := c.recs.b 24 31, len := 64, kind := 0 }) (hh : h = v.readVA c.region c.pasid a.va 64)
    (hleast : 64 ≤ field h 8 11) (hmost : field h 8 11 ≤ 163904)
    (ha' : a' = { va := a.va + 64, len := field h 8 11 - 64, kind := 0 }) (hheader : Clear v c [a])
    (hrest : Clear (v.noteAll c.region c.pasid [a]) c [a']) :
    v.attemptTable c = ((v.noteAll c.region c.pasid [a]).noteAll c.region c.pasid [a']).loadImage c
      (h ++ v.readVA c.region c.pasid a'.va a'.len) := by
  subst ha hh ha'
  unfold attemptTable
  dsimp only at *
  rw [if_neg (ne_true_of_eq_false hfree), withAccess_of_clear hheader, if_pos hmost, Nat.max_eq_right hleast,
    withAccess_of_clear hrest]

/-- The banks once a slot has taken an image: the next generation is active, and the last one its shadow. -/
def loadedMills (m : Mills) (slot : Nat) (b : List Byte) : Mills where
  generation := m.generation + 1
  active := Table.put slot (Image.loaded b) m.active
  shadow := m.active
  shadowGeneration := m.generation

theorem loadImage_of_ok {b : List Byte} (h : lowest (v.loadCodes c.recs.form b) = none) :
    v.loadImage c b =
      ({ v with mills := loadedMills v.mills c.recs.form b }.bump 0x2300 0x08 1).setCmd { c with wait := .done } := by
  unfold loadImage
  dsimp only
  rw [h]
  rfl

/-- R117: a rejected image fails its command; the detail of 0x2303 may be a free value. -/
theorem loadImage_of_code {b : List Byte} {code : Nat} (h : lowest (v.loadCodes c.recs.form b) = some code) :
    ∃ free detail, v.loadImage c b = ({ v with free := free } : State).failCmd c code detail := by
  unfold loadImage
  dsimp only
  rw [h]
  split <;> rename_i hcode <;> cases hcode
  · exact ⟨_, _, rfl⟩
  · exact ⟨_, _, rfl⟩

/-- R117: a TABLE ends with its image as the active bank of the next generation, or fails and leaves both banks. -/
theorem loadImage_noted {t : State} {b : List Byte} (hfound : (v.cmd? c.q c.i).isSome = true)
    (hnoted : t.besideAccess = v.besideAccess) :
    (lowest (v.loadCodes c.recs.form b) = none → (t.loadImage c b).cmd? c.q c.i = some { c with wait := .done } ∧
      (t.loadImage c b).mills = loadedMills v.mills c.recs.form b ∧
      t.loadImage c b = { v with
        cmds := (t.loadImage c b).cmds, mills := (t.loadImage c b).mills, trans := (t.loadImage c b).trans,
        barn := (t.loadImage c b).barn, dict := (t.loadImage c b).dict, obs := (t.loadImage c b).obs }) ∧
    ∀ code, lowest (v.loadCodes c.recs.form b) = some code → ∃ detail,
      (t.loadImage c b).cmd? c.q c.i = some { c with status := code, detail := detail, wait := .done } ∧
      FailsAlone { v with trans := (t.loadImage c b).trans, barn := (t.loadImage c b).barn } (t.loadImage c b) := by
  obtain ⟨_, _, _, _, ht⟩ := eq_of_besideAccess hnoted
  have hcodes : t.loadCodes c.recs.form b = v.loadCodes c.recs.form b := by rw [ht]; rfl
  have hstands : (t.cmd? c.q c.i).isSome = true := by rw [ht]; exact hfound
  rw [← hcodes]
  refine ⟨fun hok => ?_, fun code hcode => ?_⟩
  · rw [loadImage_of_ok hok]
    refine ⟨cmd?_setCmd (c := { c with wait := .done }) hstands, ?_, ?_⟩ <;> rw [ht] <;> rfl
  · obtain ⟨free, detail, hload⟩ := loadImage_of_code hcode
    obtain ⟨_, _, _, _, _, _, _, hfail⟩ := failCmd_eq { t with free := free } c code detail
    rw [hload]
    refine ⟨detail, failCmd_cmd? (s := { t with free := free }) hstands code detail, ?_⟩
    rw [hfail, ht]
    rfl

/-! ### TIMED (R292, R293, R299) -/

/-- A queue after the work of its release has ended. -/
def releaseClosed (k : Queue) : Queue := { k with released := false, releaseFrame := none, boosted := false }

theorem closeRelease_of_queue {q : Nat} {k : Queue} (h : v.queue? q = some k) :
    ∃ releases, v.closeRelease q = { v with
      bell := { v.bell with releases := releases }, queues := Table.put q (releaseClosed k) v.queues } := by
  unfold closeRelease
  rw [h]
  exact ⟨_, rfl⟩

/-- The deadline that a TIMED gives its queue: none in free-run. -/
def timedDue (v : State) (c : Cmd) : Option Due :=
  if v.cadence && bit c.recs.form 3 then some (v.timedPoint c.recs (c.recs.b 32 39)) else none

/-- A queue as its TIMED leaves it. -/
def timedQueue (v : State) (c : Cmd) (k : Queue) : Queue := { releaseClosed k with timedDeadline := v.timedDue c }

/-- A TIMED with the point that it waits for: none in free-run. -/
def timedTarget (v : State) (c : Cmd) : Cmd := { c with
  releaseReel := if v.cadence && bit c.recs.form 2 && bit c.recs.form 4 then some (c.recs.b 24 31) else none,
  releaseAt := if v.cadence && bit c.recs.form 2 && !bit c.recs.form 4 then some (v.timedPoint c.recs (c.recs.b 24 31)) else none }

/-- Where a TIMED stands after its issue. -/
def timedWait (v : State) (c : Cmd) : Wait := if v.pointPassed (v.timedTarget c) then .done else .release

theorem startTimed_of_queue {k : Queue} (h : v.queue? c.q = some k) :
    ∃ releases, v.startTimed c = ({ v with
      bell := { v.bell with releases := releases },
      queues := Table.put c.q (v.timedQueue c k) (Table.put c.q (releaseClosed k) v.queues) } : State).setCmd
        { v.timedTarget c with wait := v.timedWait c } := by
  obtain ⟨releases, hclose⟩ := closeRelease_of_queue h
  refine ⟨releases, ?_⟩
  unfold startTimed onQueue queue?
  rw [hclose]
  dsimp only
  rw [Table.find?_put_self]
  rfl

theorem timedDue_of_freeRun (h : v.cadence = false) : v.timedDue c = none := by simp [timedDue, h]

theorem timedWait_of_freeRun (h : v.cadence = false) : v.timedWait c = .done := by
  simp [timedWait, timedTarget, pointPassed, h]

/-- R293: a reel time is the point itself. -/
theorem timedWait_of_reel (h : v.cadence = true) (hwaits : bit c.recs.form 2 = true) (hreel : bit c.recs.form 4 = true) :
    v.timedWait c = if c.recs.b 24 31 ≤ v.reel c.die then .done else .release := by
  simp [timedWait, timedTarget, pointPassed, h, hwaits, hreel]

end State

/-- Settles O57: each row begins the attempt of its class. TABLE's reads leave all but translations, the Barn and counters, so
that its image is judged as if it were read at once; the capture of a DUMP is armed among its samples. -/
theorem controlCommands : Obligations.ControlCommands := by
  intro s v q c hissues
  obtain ⟨rfl, -, -, hfound⟩ := hissues.begins
  have hstands : (v.cmd? c.q c.i).isSome = true := by rw [hfound]; rfl
  obtain ⟨hrun, hbreak⟩ := hissues.mayWork
  refine ⟨fun hcls hbusy => ?_, fun a a' h b u hcls hfree ha hh hleast hmost ha' hheader hu hrest hb => ?_, fun hcls => ?_,
    fun hcls => ?_, fun hcls => ?_⟩
  · refine ⟨_, congrArg Host.Outcome.next (hissues.issueClass_eq hcls), ?_⟩
    rw [State.attempt_table hcls hrun hbreak, State.attemptTable_of_shadowBusy hbusy]
    exact ⟨State.cmd?_setCmd (c := { c with wait := .shadow }) hstands, rfl⟩
  · subst hu hb
    have hexec : exec (.table c.q) s = .next (v.attempt c) := congrArg _ (hissues.issueClass_eq hcls)
    rw [State.attempt_table hcls hrun hbreak, State.attemptTable_of_clear hfree ha hh hleast hmost ha' hheader hrest] at hexec
    obtain ⟨hok, hfails⟩ := State.loadImage_noted (b := h ++ v.readVA c.region c.pasid a'.va a'.len) hstands
      ((State.noteAll_besideAccess (v.noteAll c.region c.pasid [a]) c.region c.pasid [a']).trans
        (State.noteAll_besideAccess v c.region c.pasid [a]))
    refine ⟨fun hnone => ⟨_, hexec, hok hnone⟩, fun code hcode => ?_⟩
    obtain ⟨detail, hcmd, halone⟩ := hfails code hcode
    exact ⟨_, _, hexec, hcmd, rfl, rfl, halone⟩
  · refine ⟨_, congrArg Host.Outcome.next (hissues.issueClass_eq hcls), ?_⟩
    rw [State.attempt_dump hcls]
    exact ⟨State.cmd?_setCmd (c := { c with wait := .capture }) hstands, hissues.capture hcls, rfl⟩
  · obtain ⟨k, hqueue⟩ := State.queue_of_mayRun hrun
    obtain ⟨_, hstart⟩ := State.startTimed_of_queue hqueue
    refine ⟨_, v.timedQueue c k, v.timedWait c, congrArg Host.Outcome.next (hissues.issueClass_eq hcls), ?_⟩
    rw [State.attempt_timed hcls hrun hbreak, hstart]
    exact ⟨Table.find?_put_self .., rfl, rfl, rfl,
      fun hfree => ⟨State.timedDue_of_freeRun hfree, State.timedWait_of_freeRun hfree⟩, State.timedWait_of_reel,
      ⟨_, State.cmd?_setCmd (c := { v.timedTarget c with wait := v.timedWait c }) hstands, rfl⟩,
      fun n hn => (Table.find?_put_ne hn ..).trans (Table.find?_put_ne hn ..), rfl⟩
  · refine ⟨_, congrArg Host.Outcome.next (hissues.issueClass_eq hcls), ?_⟩
    rw [State.attempt_fence hcls hrun hbreak]
    exact ⟨State.cmd?_setCmd (c := { c with wait := .fence }) hstands, rfl⟩

end Sys2Proof.Machine
end

section
namespace Sys2Proof.Machine
open Safety
namespace State

/-! ### Traced work (R403, R404)

What a trace leaves alone, more closely than `Counts` says: it draws no free value, and no counter changes but that of the
dropped Daybook events. -/

/-- Key of the counter of dropped events (R404). -/
abbrev droppedKey : Nat := key 0x2E00 0x0F

/-- From `s` to `t` only what is observed has changed, and the counter of dropped events. -/
def Traces (s t : State) : Prop :=
  ∃ regs obs, t = { s with dict := { s.dict with regs := regs }, obs := obs } ∧
    ∀ k, k ≠ droppedKey → Table.find? k regs = Table.find? k s.dict.regs

theorem Traces.refl (s : State) : Traces s s := ⟨_, _, rfl, fun _ _ => rfl⟩

theorem Traces.trans {s t u : State} (hst : Traces s t) (htu : Traces t u) : Traces s u := by
  obtain ⟨_, _, rfl, ht⟩ := hst
  obtain ⟨_, _, rfl, hu⟩ := htu
  exact ⟨_, _, rfl, fun k hk => (hu k hk).trans (ht k hk)⟩

theorem Traces.foldl {α : Type} {f : State → α → State} (h : ∀ s a, Traces s (f s a)) (l : List α) (s : State) :
    Traces s (l.foldl f s) :=
  List.foldlRecOn l f (Traces.refl s) fun t ht a _ => ht.trans (h t a)

theorem Traces.counts {s t : State} (h : Traces s t) : Counts s t := by
  obtain ⟨_, _, rfl, _⟩ := h
  exact ⟨_, _, _, rfl⟩

/-- A trace leaves every other counter as it was. -/
theorem Traces.reg {s t : State} (h : Traces s t) {i n : Nat} (hk : key i n ≠ droppedKey) (d : Nat) :
    t.reg i n d = s.reg i n d := by
  obtain ⟨_, _, rfl, hregs⟩ := h
  exact congrArg (Option.getD · d) (hregs _ hk)

section
variable (s : State)

theorem traces_dayEvent (die place region cluster kind payload : Nat) :
    Traces s (s.dayEvent die place region cluster kind payload) := by
  unfold dayEvent
  split
  · exact Traces.refl s
  · extract_lets b now room need
    split
    · exact ⟨_, _, rfl, fun _ _ => rfl⟩
    · exact ⟨_, _, rfl, fun _ hk => find?_bump _ hk 1⟩

theorem traces_traceBegin (c : Cmd) : Traces s (s.traceBegin c) := by
  unfold traceBegin
  dsimp only
  split
  · exact Traces.foldl (fun s _ => traces_dayEvent ..) _ s
  · exact traces_dayEvent ..

theorem traces_traceEnd (c : Cmd) : Traces s (s.traceEnd c) := by
  unfold traceEnd
  split
  · exact traces_dayEvent ..
  · split
    · exact Traces.foldl (fun s _ => traces_dayEvent ..) _ s
    · exact traces_dayEvent ..

theorem traces_beginTrace (c : Cmd) : Traces s (s.beginTrace c).1 := by
  unfold beginTrace
  split
  · exact Traces.refl s
  · exact traces_traceBegin s c

/-! ### Counters -/

theorem reg_bump_ne {i n j m : Nat} (h : key i n ≠ key j m) (a d : Nat) : (s.bump j m a).reg i n d = s.reg i n d :=
  congrArg (Option.getD · d) (s.find?_bump h a)

theorem reg_bump_self (i n a : Nat) : (s.bump i n a).reg i n 0 = s.reg i n 0 + a := by
  unfold bump
  by_cases ha : a = 0
  · rw [if_pos ha, ha, Nat.add_zero]
  · rw [if_neg ha]
    exact congrArg (Option.getD · 0) (Table.find?_put_self ..)

theorem reg_bumpFree_ne {i n j m : Nat} (h : key i n ≠ key j m) (d : Nat) : (s.bumpFree j m).reg i n d = s.reg i n d :=
  reg_bump_ne _ h ..

/-! ### What a failed command leaves of the links and the counters -/

/-- R253: its messages are no longer resent. -/
def withoutSent (b : Bruora) (q i : Nat) : Bruora := { b with sent := b.sent.filter fun m => !(m.q == q && m.i == i) }

/-- The steps of a failure: the outputs are scrambled, the messages and captures dropped, the code counted, and the end
traced. -/
theorem failCmd_steps (c : Cmd) (code detail : Nat) : ∃ u obs, WritesMemory s u ∧
    Traces ((({ u with bruora := withoutSent u.bruora c.q c.i, obs := obs } : State).countCode code false).setCmd
      { c with status := code, detail := detail, wait := .done }) (s.failCmd c code detail) := by
  unfold failCmd
  extract_lets s1 c1 _ _ s1b s2
  refine ⟨s1, s1b.obs, WritesMemory.foldl (fun s _ => writesMemory_scramble s ..) _ s, ?_⟩
  split
  · exact traces_traceEnd ..
  · exact Traces.refl _

theorem failCmd_bruora (c : Cmd) (code detail : Nat) :
    (s.failCmd c code detail).bruora = withoutSent s.bruora c.q c.i := by
  obtain ⟨u, obs, ⟨_, _, _, _, rfl⟩, _, _, htraced, -⟩ := failCmd_steps s c code detail
  obtain ⟨_, _, _, hcounted⟩ := counts_countCode
    ({ s with bruora := withoutSent s.bruora c.q c.i, devMem := _, hostMem := _, poisoned := _, obs := obs, free := _ } : State)
    code false
  rw [htraced, hcounted]
  rfl

/-- A code that has no counter leaves every counter but that of dropped events as it was. -/
theorem failCmd_reg (c : Cmd) {code : Nat} (hcode : refusalCounter code = none) (detail : Nat) {i n : Nat}
    (hk : key i n ≠ droppedKey) (d : Nat) : (s.failCmd c code detail).reg i n d = s.reg i n d := by
  obtain ⟨u, _, ⟨_, _, _, _, hu⟩, htraced⟩ := failCmd_steps s c code detail
  rw [htraced.reg hk]
  unfold countCode
  rw [hcode, hu]
  rfl

end
end State
end Sys2Proof.Machine
end

section
namespace Sys2Proof.Machine
open Safety
namespace State

/-! ### A signal on the clusters of a mask (R208) -/

theorem signalOne_eq (s : State) (p : Partition) (region cluster : Nat) (w : SemWord) :
    ∃ loft, (s.signalOne p region cluster w).1 = { s with loft := loft } := by
  unfold signalOne
  dsimp only
  split <;> exact ⟨_, rfl⟩

/-- A signal changes the Lofts alone. -/
theorem signalMask_eq (s : State) (p : Partition) (region mask : Nat) (w : SemWord) :
    ∃ loft, (s.signalMask p region mask w).1 = { s with loft := loft } := by
  refine List.foldlRecOn (motive := fun a : State × Bool => ∃ loft, a.1 = { s with loft := loft }) _ _ ⟨_, rfl⟩
    fun a ha c _ => ?_
  obtain ⟨_, hone⟩ := a.1.signalOne_eq p region c w
  obtain ⟨_, ha⟩ := ha
  exact ⟨_, hone.trans (by rw [ha])⟩

theorem Counts.signalOne {s t : State} (h : Counts s t) (p : Partition) (region cluster : Nat) (w : SemWord) :
    Counts (s.signalOne p region cluster w).1 (t.signalOne p region cluster w).1 ∧
      (t.signalOne p region cluster w).2 = (s.signalOne p region cluster w).2 := by
  obtain ⟨_, _, _, rfl⟩ := h
  unfold State.signalOne
  dsimp only [State.sem]
  split <;> exact ⟨⟨_, _, _, rfl⟩, rfl⟩

/-- A signal does not see counters and traces. -/
theorem Counts.signalMask {s t : State} (h : Counts s t) (p : Partition) (region mask : Nat) (w : SemWord) :
    Counts (s.signalMask p region mask w).1 (t.signalMask p region mask w).1 ∧
      (t.signalMask p region mask w).2 = (s.signalMask p region mask w).2 := by
  refine List.foldl_rel (r := fun a b : State × Bool => Counts a.1 b.1 ∧ b.2 = a.2) ⟨h, rfl⟩ fun c _ a b hab => ?_
  obtain ⟨hone, hok⟩ := hab.1.signalOne p region c w
  exact ⟨hone, by dsimp only; rw [hok, hab.2]⟩

theorem signalTimes_eq (s : State) (p : Partition) (region mask : Nat) (w : SemWord) (n : Nat) :
    ∃ loft, (s.signalTimes p region mask w n).1 = { s with loft := loft } := by
  refine List.foldlRecOn (motive := fun a : State × Bool => ∃ loft, a.1 = { s with loft := loft }) _ _ ⟨_, rfl⟩
    fun a ha _ _ => ?_
  obtain ⟨_, hmask⟩ := a.1.signalMask_eq p region mask w
  obtain ⟨_, ha⟩ := ha
  exact ⟨_, hmask.trans (by rw [ha])⟩

theorem Counts.signalTimes {s t : State} (h : Counts s t) (p : Partition) (region mask : Nat) (w : SemWord) (n : Nat) :
    Counts (s.signalTimes p region mask w n).1 (t.signalTimes p region mask w n).1 ∧
      (t.signalTimes p region mask w n).2 = (s.signalTimes p region mask w n).2 := by
  refine List.foldl_rel (r := fun a b : State × Bool => Counts a.1 b.1 ∧ b.2 = a.2) ⟨h, rfl⟩ fun _ _ a b hab => ?_
  obtain ⟨hmask, hok⟩ := hab.1.signalMask p region mask w
  exact ⟨hmask, by dsimp only; rw [hok, hab.2]⟩

@[simp] theorem signalTimes_zero (s : State) (p : Partition) (region mask : Nat) (w : SemWord) :
    s.signalTimes p region mask w 0 = (s, true) := rfl

@[simp] theorem signalTimes_one (s : State) (p : Partition) (region mask : Nat) (w : SemWord) :
    s.signalTimes p region mask w 1 = s.signalMask p region mask w := by
  simp [signalTimes, List.range_succ]

/-! ### The start of a gated tile (R167, R168) -/

/-- A trace does not change what a gate reads of its ring. -/
theorem Traces.ringTile {s t : State} (h : Traces s t) (c : Cmd) (r : Recs) (tile : Nat) :
    t.ringTile c r tile = s.ringTile c r tile := by
  obtain ⟨_, _, rfl, _⟩ := h
  rfl

/-- The word that a tile's start signals: none where its gate has no ring. -/
def ringWord (r : Recs) : SemWord := SemWord.ofWord (if r.ringed then r.ringRelease else 0)

/-- Slots that the start of a tile releases. -/
def tileReleases (c : Cmd) (tile : Nat) : Nat := if (ringWord (gateRec c)).op = 2 then releasesAt c tile else 0

/-- What the start of a tile reads of its ring. -/
def tileRead (s : State) (c : Cmd) (tile : Nat) : List Byte × Option (Nat × Nat) × List (Nat × Nat) :=
  if (gateRec c).ringed then s.ringTile c (gateRec c) tile else ([], none, [])

/-- A command whose tile has begun, with the tile's bytes; it waits for the next one. -/
def tileBegun (c : Cmd) (tile : Nat) (bytes : List Byte) : Cmd := { c with
  begun := true, tiles := tile + 1, released := c.released || tileReleases c tile != 0,
  ringData := if (gateRec c).ringed then c.ringData ++ [bytes] else c.ringData, wait := .gate (tile + 1) }

/-- The releases of a tile's start. -/
def tileSignals (s : State) (c : Cmd) (tile : Nat) : State × Bool :=
  s.signalTimes (s.cmdPart c) c.region c.clusters (ringWord (gateRec c)) (tileReleases c tile)

theorem tileRead_of_unringed {s : State} {c : Cmd} (h : (gateRec c).ringed = false) (tile : Nat) :
    s.tileRead c tile = ([], none, []) := if_neg (ne_true_of_eq_false h)

theorem tileRead_of_ringed {s : State} {c : Cmd} {tile : Nat} (h : (gateRec c).ringed = true)
    (hsound : (s.ringTile c (gateRec c) tile).2.1 = none) (hclear : (s.ringTile c (gateRec c) tile).2.2 = []) :
    s.tileRead c tile = ((s.ringTile c (gateRec c) tile).1, none, []) :=
  (if_pos h).trans (Prod.ext rfl (Prod.ext hsound hclear))

theorem ringWord_of_ringed {r : Recs} (h : r.ringed = true) : ringWord r = SemWord.ofWord r.ringRelease := by
  rw [ringWord, if_pos h]

theorem tileReleases_of_unringed {c : Cmd} (h : (gateRec c).ringed = false) (tile : Nat) : tileReleases c tile = 0 := by
  rw [tileReleases, ringWord, if_neg (ne_true_of_eq_false h)]
  rfl

/-- R168: before the last tile the two-pass form releases none. -/
theorem tileReleases_of_twoPass {c : Cmd} {tile : Nat} (hattend : (gateRec c).isAttend = true) (hform : c.form = 1)
    (hmore : tile + 1 < gateTiles (gateRec c)) : tileReleases c tile = 0 := by
  have hnone : releasesAt c tile = 0 := by
    rw [releasesAt, hattend, hform]
    exact (if_pos rfl).trans (if_pos hmore)
  rw [tileReleases, hnone, ite_self]

theorem tileSignals_of_none {s : State} {c : Cmd} {tile : Nat} (h : tileReleases c tile = 0) :
    s.tileSignals c tile = (s, true) := by
  rw [tileSignals, h, signalTimes_zero]

/-- R167, R168: a tile without marked rows and hazards begins, and is not the last one: its command waits for the next, and
its slots are released. -/
theorem startTile_eq {s : State} {c : Cmd} {tile : Nat} {bytes : List Byte} (hread : s.tileRead c tile = (bytes, none, []))
    (hmore : tile + 1 < gateTiles (gateRec c)) (hok : (s.tileSignals c tile).2 = true) :
    ∃ dict obs free, s.startTile c tile =
      ({ s with loft := (s.tileSignals c tile).1.loft, dict := dict, obs := obs, free := free } : State).setCmd
        (tileBegun c tile bytes) := by
  have htrace := traces_beginTrace s c
  have hread' : (if (gateRec c).ringed then (s.beginTrace c).1.ringTile { c with begun := true } (gateRec c) tile
      else ([], none, [])) = (bytes, none, []) := by
    rw [htrace.ringTile]
    exact hread
  have hcounts : Counts s ((s.beginTrace c).1.bumpFree 0x2210 0x06) := htrace.counts.trans (counts_bumpFree ..)
  have hpart : ((s.beginTrace c).1.bumpFree 0x2210 0x06).cmdPart c = s.cmdPart c := by
    obtain ⟨_, _, _, hu⟩ := hcounts
    rw [hu]
    rfl
  obtain ⟨⟨dict, obs, free, hsignals⟩, hsame⟩ :=
    hcounts.signalTimes (s.cmdPart c) c.region c.clusters (ringWord (gateRec c)) (tileReleases c tile)
  obtain ⟨_, hloft⟩ := s.signalTimes_eq (s.cmdPart c) c.region c.clusters (ringWord (gateRec c)) (tileReleases c tile)
  have hstart : s.startTile c tile =
      (((s.beginTrace c).1.bumpFree 0x2210 0x06).tileSignals c tile).1.setCmd (tileBegun c tile bytes) := by
    have hok' : (!(((s.beginTrace c).1.bumpFree 0x2210 0x06).tileSignals c tile).2) = false := by
      rw [tileSignals, hpart, hsame, ← tileSignals, hok]
      rfl
    unfold startTile
    dsimp only
    rw [beginTrace_cmd, hread']
    exact (if_neg (ne_true_of_eq_false hok')).trans (if_pos hmore)
  refine ⟨dict, obs, free, hstart.trans ?_⟩
  rw [tileSignals, tileSignals, hpart, hsignals, hloft]

/-- A gated tile that has begun, with what else has changed. -/
theorem startTile_begun {s : State} {c : Cmd} {tile : Nat} {bytes : List Byte} (hfound : s.cmd? c.q c.i = some c)
    (hread : s.tileRead c tile = (bytes, none, [])) (hmore : tile + 1 < gateTiles (gateRec c))
    (hok : (s.tileSignals c tile).2 = true) :
    (s.startTile c tile).cmd? c.q c.i = some (tileBegun c tile bytes) ∧
      (s.startTile c tile).loft = (s.tileSignals c tile).1.loft ∧
      s.startTile c tile = { s with
        cmds := (s.startTile c tile).cmds, loft := (s.tileSignals c tile).1.loft, dict := (s.startTile c tile).dict,
        obs := (s.startTile c tile).obs, free := (s.startTile c tile).free } := by
  obtain ⟨dict, obs, free, hstart⟩ := startTile_eq hread hmore hok
  rw [hstart]
  refine ⟨cmd?_setCmd (c := tileBegun c tile bytes) ?_, rfl, rfl⟩
  exact Option.isSome_iff_exists.2 ⟨c, hfound⟩

/-- R168: a tile whose start releases no slot leaves the Lofts as they were. -/
theorem startTile_unreleased {s : State} {c : Cmd} {tile : Nat} {bytes : List Byte} (hfound : s.cmd? c.q c.i = some c)
    (hread : s.tileRead c tile = (bytes, none, [])) (hmore : tile + 1 < gateTiles (gateRec c)) (hnone : tileReleases c tile = 0) :
    (s.startTile c tile).cmd? c.q c.i = some { c with
      begun := true, tiles := tile + 1, ringData := if (gateRec c).ringed then c.ringData ++ [bytes] else c.ringData,
      wait := .gate (tile + 1) } ∧
    s.startTile c tile = { s with
      cmds := (s.startTile c tile).cmds, dict := (s.startTile c tile).dict, obs := (s.startTile c tile).obs,
      free := (s.startTile c tile).free } := by
  have hsignals := tileSignals_of_none (s := s) hnone
  obtain ⟨hcmd, -, hframe⟩ := startTile_begun hfound hread hmore (by rw [hsignals])
  rw [tileBegun, hnone, bne_self_eq_false, Bool.or_false] at hcmd
  rw [hsignals] at hframe
  exact ⟨hcmd, hframe⟩

/-! ### The row of a gated tile -/

/-- A command is found under its own queue and index. -/
theorem key_of_cmd? {s : State} {q i : Nat} {c : Cmd} (h : s.cmd? q i = some c) : c.q = q ∧ c.i = i := by
  have hkey := List.find?_some h
  simpa using hkey

section
variable {s : State} {q i tile : Nat} {c : Cmd}

/-- A command of one wait whose queue runs goes on. -/
theorem onWait_of_waiting (hfound : s.cmd? q i = some c) {is : Cmd → Bool} (hwait : is c = true) (hrun : s.mayRun c = true)
    {go : State → Cmd → State} : s.onWait q i is go = go s c := by
  unfold onWait
  rw [hfound]
  exact if_pos (by rw [hwait, hrun]; rfl)

theorem onWait_of_not (hfound : s.cmd? q i = some c) {is : Cmd → Bool} (hwait : is c = false) {go : State → Cmd → State} :
    s.onWait q i is go = s := by
  unfold onWait
  rw [hfound]
  exact if_neg (by rw [hwait]; exact Bool.false_ne_true)

theorem gatedTile_of_waiting (hfound : s.cmd? q i = some c) (h : s.tileArrived c (gateRec c) tile = false) :
    s.gatedTile q i tile = s := onWait_of_not hfound (by rw [h, Bool.and_false])

/-- R413: no breakpoint holds the tile's command, or it has begun. -/
theorem gatedTile_of_arrived (hfound : s.cmd? q i = some c) (hrun : s.mayRun c = true) (hwait : c.wait = .gate tile)
    (harrived : s.tileArrived c (gateRec c) tile = true) (htiles : c.tiles = tile)
    (hbreak : s.breakHolds c = false ∨ c.begun = true) : s.gatedTile q i tile = s.startTile c tile := by
  have hfree : (s.breakHolds c && !c.begun) = false := by
    obtain hbreak | hbegun := hbreak
    · rw [hbreak, Bool.false_and]
    · rw [hbegun, Bool.not_true, Bool.and_false]
  exact (onWait_of_waiting hfound (by simp [hwait, htiles, harrived]) hrun).trans (if_neg (ne_true_of_eq_false hfree))

end

/-! ### A gate that stands still (R167, R295) -/

/-- An event formed after an interrupt. -/
theorem interrupt_dayEvent (s : State) (v die place region cluster kind payload : Nat) :
    ∃ dict obs outbox, (s.interrupt v).dayEvent die place region cluster kind payload =
        { s with dict := dict, obs := obs, outbox := outbox } ∧
      ∀ n, n ≠ droppedKey → Table.find? n dict.regs = Table.find? n s.dict.regs := by
  obtain ⟨regs, obs, htrace, hregs⟩ := traces_dayEvent (s.interrupt v) die place region cluster kind payload
  refine ⟨{ (s.interrupt v).dict with regs := regs }, obs, (s.interrupt v).outbox, ?_,
    fun n hn => (hregs n hn).trans (by rw [interrupt_regs])⟩
  rw [htrace, interrupt_eq]

/-- A missed deadline that is new to its queue is counted once; beside it the counter of dropped events and the lateness of the
last miss change. -/
theorem missDeadline_of_new {s : State} {q : Nat} {k : Queue} {point : Option (Nat × Nat × Nat)} (hqueue : s.queue? q = some k)
    (hnew : point.any k.missed.contains = false) (deadline die : Nat) :
    ∃ dict obs outbox queues,
      s.missDeadline q point deadline die false = { s with dict := dict, obs := obs, outbox := outbox, queues := queues } ∧
      ∀ n, n ≠ droppedKey → n ≠ key 0x2A00 0x0B → Table.find? n dict.regs = Table.find? n (s.bump 0x2A00 0x0A 1).dict.regs := by
  unfold missDeadline
  rw [hqueue]
  extract_lets late s1 s2
  obtain ⟨counted, hs2, hcounted⟩ : ∃ counted, s2 = { s with dict := counted } ∧
      ∀ n, n ≠ key 0x2A00 0x0B → Table.find? n counted.regs = Table.find? n (s.bump 0x2A00 0x0A 1).dict.regs :=
    ⟨_, if_neg Bool.false_ne_true, fun _ hn => find?_setReg (s.bump 0x2A00 0x0A 1) hn _⟩
  clear_value s2
  subst hs2
  obtain ⟨dict, obs, outbox, hevent, hregs⟩ := interrupt_dayEvent
    ((({ s with dict := counted } : State).setQueue q { k with missed := k.missed ++ point.toList }).bumpTask k.pasid 14 1)
    k.vector die 0 0 0 6 (q + 2 ^ 32 * (deadline % 2 ^ 32))
  exact ⟨dict, obs, outbox, _, (if_neg (ne_true_of_eq_false hnew)).trans hevent,
    fun n hdropped hlate => (hregs n hdropped).trans (hcounted n hlate)⟩

theorem missDeadline_of_old {s : State} {q : Nat} {k : Queue} {point : Option (Nat × Nat × Nat)} (hqueue : s.queue? q = some k)
    (hold : point.any k.missed.contains = true) (deadline die : Nat) : s.missDeadline q point deadline die false = s := by
  unfold missDeadline
  rw [hqueue]
  exact if_pos hold

/-- R295: a missed deadline is counted once for each queue. -/
theorem missDeadline_frame {s : State} {q : Nat} {k : Queue} (hqueue : s.queue? q = some k) (point : Option (Nat × Nat × Nat))
    (deadline die : Nat) : ∃ dict obs outbox queues,
      s.missDeadline q point deadline die false = { s with dict := dict, obs := obs, outbox := outbox, queues := queues } ∧
      ∀ n, n ≠ droppedKey → n ≠ key 0x2A00 0x0B → Table.find? n dict.regs =
        Table.find? n (s.bump 0x2A00 0x0A (if point.any k.missed.contains then 0 else 1)).dict.regs := by
  cases hseen : point.any k.missed.contains with
  | true => exact ⟨_, _, _, _, missDeadline_of_old hqueue hseen deadline die, fun _ _ _ => rfl⟩
  | false => exact missDeadline_of_new hqueue hseen deadline die

/-- R253: a command that fails after its work was counted fails alone. -/
theorem failCmd_alone {s u : State} (h : Counts s u) (c : Cmd) (code detail : Nat) : FailsAlone s (u.failCmd c code detail) := by
  obtain ⟨_, _, _, rfl⟩ := h
  obtain ⟨_, _, _, _, _, _, _, hfail⟩ :=
    failCmd_eq ({ s with dict := _, obs := _, free := _ } : State) c code detail
  unfold FailsAlone
  rw [hfail]

/-- R167: the counters of a gate that has stood still: its waiting time and its timeouts. -/
def gateStoodStill (s : State) : State := (s.bumpFree 0x2210 0x06).bump 0x2210 0x07 1

theorem counts_gateStoodStill (s : State) : Counts s s.gateStoodStill := (counts_bumpFree ..).trans (counts_bump ..)

theorem gateStoodStill_timeouts (s : State) : s.gateStoodStill.reg 0x2210 0x07 0 = s.reg 0x2210 0x07 0 + 1 :=
  (reg_bump_self ..).trans (congrArg (· + 1) (reg_bumpFree_ne s (by decide) 0))

theorem gateStoodStill_reg_ne (s : State) {i n : Nat} (htime : key i n ≠ key 0x2210 0x06) (hcount : key i n ≠ key 0x2210 0x07)
    (d : Nat) : s.gateStoodStill.reg i n d = s.reg i n d :=
  (reg_bump_ne _ hcount ..).trans (reg_bumpFree_ne s htime d)

/-- The reel time of the deadline that a gate's timeout misses; of a command without one, the time itself. -/
def gateDeadline (s : State) (c : Cmd) : Nat := match c.deadline.bind s.dueReel with
  | some t => t
  | none => s.reel c.die

/-- A command whose gate timed out in cadence mode. -/
def gateMissed (s : State) (c : Cmd) : Cmd :=
  { c with late := true, missedAt := some (c.missedAt.getD (s.lateFrom c.die (s.gateDeadline c))) }

section
variable {s : State} {q i tile : Nat} {c : Cmd}

theorem gateTimeout_of_freeRun (hfound : s.cmd? q i = some c) (hrun : s.mayRun c = true) (hwait : c.wait = .gate tile)
    (hmode : s.cadence = false) : s.gateTimeout q i = s.gateStoodStill.failCmd c 0x2227 0 :=
  (onWait_of_waiting hfound (by rw [hwait]) hrun).trans (if_pos (by rw [hmode]; rfl))

theorem gateTimeout_of_cadence (hfound : s.cmd? q i = some c) (hrun : s.mayRun c = true) (hwait : c.wait = .gate tile)
    (hmode : s.cadence = true) :
    s.gateTimeout q i = (s.gateStoodStill.missDeadline q (c.deadline.map Due.point) (s.gateDeadline c) c.die false).failCmd
      (s.gateMissed c) 0x2227 0 :=
  (onWait_of_waiting hfound (by rw [hwait]) hrun).trans (if_neg (by rw [hmode]; exact Bool.false_ne_true))

end

/-- R167: a gate's timeout fails its command alone in free-run. -/
theorem gateTimeout_fails {s : State} {c : Cmd} (hfound : s.cmd? c.q c.i = some c) :
    (s.gateStoodStill.failCmd c 0x2227 0).cmd? c.q c.i = some { c with status := 0x2227, detail := 0, wait := .done } ∧
    (s.gateStoodStill.failCmd c 0x2227 0).reg 0x2210 0x07 0 = s.reg 0x2210 0x07 0 + 1 ∧
    FailsAlone s (s.gateStoodStill.failCmd c 0x2227 0) :=
  ⟨failCmd_cmd? (s := s.gateStoodStill) (Option.isSome_iff_exists.2 ⟨c, hfound⟩) 0x2227 0,
    (failCmd_reg _ _ (by decide) 0 (by decide) 0).trans s.gateStoodStill_timeouts,
    failCmd_alone (counts_gateStoodStill s) c 0x2227 0⟩

/-- R167, R295: in cadence mode it is a missed deadline of its queue too. -/
theorem gateTimeout_misses {s : State} {c : Cmd} {k : Queue} (hfound : s.cmd? c.q c.i = some c)
    (hqueue : s.queue? c.q = some k) : ∃ t,
    (s.gateStoodStill.missDeadline c.q (c.deadline.map Due.point) (s.gateDeadline c) c.die false).failCmd (s.gateMissed c)
      0x2227 0 = t ∧
    t.cmd? c.q c.i = some { s.gateMissed c with status := 0x2227, detail := 0, wait := .done } ∧
    t.reg 0x2210 0x07 0 = s.reg 0x2210 0x07 0 + 1 ∧
    t.reg 0x2A00 0x0A 0 = s.reg 0x2A00 0x0A 0 + (if (c.deadline.map Due.point).any k.missed.contains then 0 else 1) ∧
    FailsAlone { s with outbox := t.outbox, queues := t.queues } t := by
  obtain ⟨dict, obs, free, hstill⟩ := counts_gateStoodStill s
  have hqueue' : s.gateStoodStill.queue? c.q = some k := by rw [hstill]; exact hqueue
  obtain ⟨dict, obs, outbox, queues, hmiss, hregs⟩ :=
    missDeadline_frame hqueue' (c.deadline.map Due.point) (s.gateDeadline c) c.die
  have hreg {i n : Nat} (hdropped : key i n ≠ droppedKey) (hlate : key i n ≠ key 0x2A00 0x0B) :
      (s.gateStoodStill.missDeadline c.q (c.deadline.map Due.point) (s.gateDeadline c) c.die false).reg i n 0 =
        (s.gateStoodStill.bump 0x2A00 0x0A (if (c.deadline.map Due.point).any k.missed.contains then 0 else 1)).reg i n 0 := by
    rw [hmiss]
    exact congrArg (Option.getD · 0) (hregs _ hdropped hlate)
  refine ⟨_, rfl, failCmd_cmd? (c := s.gateMissed c) ?_ 0x2227 0, ?_, ?_, ?_⟩
  · rw [hmiss, hstill]
    exact Option.isSome_iff_exists.2 ⟨c, hfound⟩
  · rw [failCmd_reg _ _ (by decide) 0 (by decide), hreg (by decide) (by decide), reg_bump_ne _ (by decide)]
    exact s.gateStoodStill_timeouts
  · rw [failCmd_reg _ _ (by decide) 0 (by decide), hreg (by decide) (by decide), reg_bump_self,
      gateStoodStill_reg_ne s (by decide) (by decide)]
  · obtain ⟨_, _, _, _, _, _, _, hfail⟩ := failCmd_eq
      (s.gateStoodStill.missDeadline c.q (c.deadline.map Due.point) (s.gateDeadline c) c.die false) (s.gateMissed c) 0x2227 0
    unfold FailsAlone
    rw [hfail, hmiss, hstill]

end State

/-- Settles O49: a gate's row starts the next tile, whose ring is read as it stood, or fails the command; the timeout is
counted, and in cadence mode the missed deadline once for its queue. -/
theorem gates : Obligations.Gates := by
  intro s q i tile c hfound hrun hwait
  obtain ⟨rfl, rfl⟩ := State.key_of_cmd? hfound
  refine ⟨fun hnot => congrArg Host.Outcome.next (State.gatedTile_of_waiting hfound hnot),
    fun harrived htiles hbreak hring hmore => ?_,
    fun harrived htiles hbreak hring hsound hclear hop hone hok hmore => ?_,
    fun harrived htiles hbreak hring hsound hclear hattend hform hmore => ?_, fun hmode => ?_, fun hmode => ?_⟩
  · obtain ⟨hcmd, hframe⟩ := State.startTile_unreleased hfound (State.tileRead_of_unringed hring tile) hmore
      (State.tileReleases_of_unringed hring tile)
    rw [hring] at hcmd
    exact ⟨_, congrArg Host.Outcome.next (State.gatedTile_of_arrived hfound hrun hwait harrived htiles hbreak), hcmd, hframe⟩
  · have hword := State.ringWord_of_ringed hring
    have hreleases : State.tileReleases c tile = 1 := by rw [State.tileReleases, hword, if_pos hop, hone]
    have hsignals : s.tileSignals c tile =
        s.signalMask (s.cmdPart c) c.region c.clusters (SemWord.ofWord (gateRec c).ringRelease) := by
      rw [State.tileSignals, hreleases, State.signalTimes_one, hword]
    obtain ⟨hcmd, hloft, hframe⟩ :=
      State.startTile_begun hfound (State.tileRead_of_ringed hring hsound hclear) hmore (by rw [hsignals]; exact hok)
    refine ⟨_, congrArg Host.Outcome.next (State.gatedTile_of_arrived hfound hrun hwait harrived htiles hbreak), ?_, ?_, ?_⟩
    · rw [hcmd, State.tileBegun, hreleases, hring, show (1 != 0) = true from rfl, Bool.or_true]
      rfl
    · rw [hloft, hsignals]
    · rw [← hloft] at hframe
      exact hframe
  · obtain ⟨hcmd, hframe⟩ := State.startTile_unreleased hfound (State.tileRead_of_ringed hring hsound hclear) hmore
      (State.tileReleases_of_twoPass hattend hform hmore)
    rw [hring] at hcmd
    exact ⟨_, congrArg Host.Outcome.next (State.gatedTile_of_arrived hfound hrun hwait harrived htiles hbreak), hcmd, hframe⟩
  · exact ⟨_, congrArg Host.Outcome.next (State.gateTimeout_of_freeRun hfound hrun hwait hmode), State.gateTimeout_fails hfound⟩
  · obtain ⟨k, hqueue⟩ := State.queue_of_mayRun hrun
    obtain ⟨t, ht, hcmd, htimeouts, hmisses, halone⟩ := State.gateTimeout_misses hfound hqueue
    refine ⟨t, _, congrArg Host.Outcome.next ((State.gateTimeout_of_cadence hfound hrun hwait hmode).trans ht), hcmd, rfl, rfl,
      rfl, htimeouts, fun k' hk' => ?_, halone⟩
    obtain rfl : k = k' := Option.some.inj (hqueue.symm.trans hk')
    exact hmisses

end Sys2Proof.Machine
end

section
namespace Sys2Proof.Machine
open Safety
namespace State

/-! ### The command of an answer (R315, R321) -/

/-- Of two puts of one command the later stands. -/
theorem setCmd_setCmd (s : State) {c d : Cmd} (hq : d.q = c.q) (hi : d.i = c.i) : (s.setCmd c).setCmd d = s.setCmd d := by
  have hput (y : Cmd) : (if (if y.q == c.q && y.i == c.i then c else y).q == d.q &&
      (if y.q == c.q && y.i == c.i then c else y).i == d.i then d else if y.q == c.q && y.i == c.i then c else y) =
        if y.q == d.q && y.i == d.i then d else y := by
    rw [hq, hi]
    by_cases hy : (y.q == c.q && y.i == c.i) = true
    · simp [hy]
    · simp [hy]
  unfold setCmd
  simp only [List.map_map]
  exact congrArg (fun l => { s with cmds := l }) (List.map_congr_left fun y _ => hput y)

/-- A command that a link to a package is in use by. -/
theorem mem_linkUsers {s : State} {dst : Nat} {z : Cmd} : z ∈ s.linkUsers dst ↔ z ∈ s.cmds ∧
    (z.wait = .link dst ∨ z.wait = .transfer ∧ ∃ t, z.transfer = some t ∧ ∃ y ∈ t.slots, slotTo dst y = true) := by
  unfold linkUsers
  rw [List.mem_filter]
  refine and_congr_right fun _ => ?_
  cases z.transfer <;> simp

/-- A finished command uses no link. -/
theorem not_mem_linkUsers_of_done {s : State} {dst : Nat} {z : Cmd} (h : z.wait = .done) : z ∉ s.linkUsers dst := by
  rw [mem_linkUsers, h]
  simp

/-- Where no command but one used a link, none but that one does after it has been put back. -/
theorem eq_of_mem_linkUsers {s u : State} {d z : Cmd} {dst : Nat} (hcmds : u.cmds = (s.setCmd d).cmds)
    (hothers : ∀ y ∈ s.cmds, ¬(y.q = d.q ∧ y.i = d.i) → y ∉ s.linkUsers dst) (hz : z ∈ u.linkUsers dst) : z = d := by
  obtain ⟨hmem, huses⟩ := mem_linkUsers.1 hz
  rw [hcmds] at hmem
  obtain ⟨y, hy, rfl⟩ := List.mem_map.1 hmem
  by_cases hkey : y.q = d.q ∧ y.i = d.i
  · simp [hkey]
  · have hput : (if y.q == d.q && y.i == d.i then d else y) = y := if_neg (by simpa using hkey)
    rw [hput] at huses
    exact absurd (mem_linkUsers.2 ⟨hy, huses⟩) (hothers y hy hkey)

theorem sendHeld_of_none {s : State} {dst : Nat} (h : ∀ m ∈ s.bruora.held, m.dst ≠ dst) : s.sendHeld dst = s := by
  have hmine : s.bruora.held.filter (fun m => m.dst == dst) = [] := List.filter_eq_nil_iff.2 fun m hm => by simp [h m hm]
  have hrest : s.bruora.held.filter (fun m => m.dst != dst) = s.bruora.held :=
    List.filter_eq_self.2 fun m hm => by simp [h m hm]
  unfold sendHeld
  rw [hmine, hrest]
  rfl

/-- A command that waits for a route tries it again. -/
def retryCmd (s : State) (c : Cmd) : State :=
  if c.transfer.isSome then s.advanceMove c else if c.sends.isEmpty then s else s.sendOn c

/-- R313: where nothing is held for a package, and its one user of the link can go no further, nothing changes. -/
theorem retryRoutes_of_settled {s u : State} {d : Cmd} {dst : Nat} (hcmds : u.cmds = (s.setCmd d).cmds)
    (hfound : (s.cmd? d.q d.i).isSome = true) (hheld : ∀ m ∈ u.bruora.held, m.dst ≠ dst)
    (hothers : ∀ y ∈ s.cmds, ¬(y.q = d.q ∧ y.i = d.i) → y ∉ s.linkUsers dst)
    (hidle : d ∈ u.linkUsers dst → u.mayRun d = true → u.retryCmd d = u) : u.retryRoutes dst = u := by
  have hput : u.cmd? d.q d.i = some d := by
    rw [cmd?, hcmds]
    exact cmd?_setCmd hfound
  unfold retryRoutes
  split
  · rfl
  · dsimp only
    rw [sendHeld_of_none hheld]
    refine List.foldlRecOn (motive := fun t : State => t = u) _ _ rfl fun t ht k hk => ?_
    obtain ⟨z, hz, rfl⟩ := List.mem_map.1 hk
    obtain rfl := eq_of_mem_linkUsers hcmds hothers hz
    rw [ht, hput]
    dsimp only
    split
    · exact hidle hz ‹_›
    · rfl

end State
end Sys2Proof.Machine
end

section
namespace Sys2Proof.Machine
open Safety
namespace State

/-! ### A MOVE with one descriptor in its slots (R220, R234) -/

/-- A command that waits for its MOVE, which holds one slot. -/
structure HoldsSlot (c : Cmd) (t : Transfer) (y : Slot) : Prop where
  wait : c.wait = .transfer
  transfer : c.transfer = some t
  slots : t.slots = [y]

/-- Such a MOVE that has neither failed nor ended. -/
structure OneSlot (c : Cmd) (t : Transfer) (y : Slot) : Prop extends HoldsSlot c t y where
  failure : t.failure = none
  more : t.completed < t.count

/-- The same command with another slot. -/
def withSlot (c : Cmd) (t : Transfer) (y : Slot) : Cmd := { c with transfer := some { t with slots := [y] } }

theorem OneSlot.withSlot {c : Cmd} {t : Transfer} {y : Slot} (h : OneSlot c t y) (z : Slot) :
    OneSlot (withSlot c t z) { t with slots := [z] } z :=
  ⟨⟨h.wait, rfl, rfl⟩, h.failure, h.more⟩

theorem putSlot_of_one {t : Transfer} {y z : Slot} (h : t.slots = [y]) (hd : z.d = y.d) : putSlot t z = { t with slots := [z] } := by
  unfold putSlot
  rw [h, List.map_singleton, if_pos hd.symm]

/-- What a descriptor that runs may stop at without a failure: it has landed, or waits for answers. -/
def Rests (stop : Option Block) : Prop := stop = none ∨ stop = some (.remote false)

section
variable {s : State} {c : Cmd} {t : Transfer} {y : Slot}

theorem advanceMove_of_runSlots (h : OneSlot c t y) {z : Slot}
    (hslots : runSlots [y.d] s c t = (s, c, { t with slots := [z] }, none)) : s.advanceMove c = s.setCmd (withSlot c t z) := by
  have hwait : (c.wait == Wait.transfer) = true := by rw [h.wait]; rfl
  unfold advanceMove
  rw [if_pos hwait, h.transfer]
  dsimp only
  rw [h.slots, List.map_singleton, hslots]
  dsimp only
  unfold transferEnd
  dsimp only
  rw [h.failure]
  have hmore : t.completed ≠ t.count := Nat.ne_of_lt h.more
  simp only [hmore, if_false, decide_false, Bool.false_and, Bool.false_eq_true]
  rw [withSlot, ← h.wait, h.failure]

/-- R249: with its task parked, the descriptor stops at its cursor. -/
theorem advanceMove_of_parked (h : OneSlot c t y) (hrun : s.mayRun c = false) (hruns : runnable y = true) :
    s.advanceMove c = s.setCmd (withSlot c t { y with stopped := true }) := by
  refine advanceMove_of_runSlots h ?_
  unfold runSlots
  rw [h.slots]
  simp [hrun, hruns, putSlot_of_one h.slots, runSlots]

theorem advanceMove_of_rests (h : OneSlot c t y) (hrun : s.mayRun c = true) (hstarted : y.started = true)
    (hruns : runnable y = true) {z : Slot} {stop : Option Block} (hd : z.d = y.d) (hrests : Rests stop)
    (hrows : ∀ p, runRows_ p (Xfer.ofBytes y.bytes) (rowFuel (Xfer.ofBytes y.bytes)) { s := s, c := c, t := t, slot := y } =
      { s := s, c := c, t := t, slot := z, stop := stop }) : s.advanceMove c = s.setCmd (withSlot c t z) := by
  refine advanceMove_of_runSlots h ?_
  have hstart (p : Partition) : s.startSlot c p t y = (s, y) := by
    unfold startSlot
    simp [hstarted]
  have hput := putSlot_of_one h.slots hd
  unfold runSlots
  rw [h.slots]
  dsimp only
  rw [List.find?_singleton]
  simp only [beq_self_eq_true, if_true, hrun, Bool.not_true, Bool.false_eq_true, if_false, hstart, hruns]
  rw [hrows]
  obtain rfl | rfl := hrests
  · simp [settleSlot, hput, runSlots]
  · simp [settleSlot, hput, runSlots]

/-! ### Where its rows stop (R224, R314) -/

/-- Every row formed and acknowledged: it has landed. -/
theorem runRows_of_acked (p : Partition) (x : Xfer) (w : Running) (hstop : w.stop = none) (hlanded : w.slot.landed = none)
    (hgroup : w.slot.group = []) (hformed : x.rows ≤ w.slot.formed) (hacked : w.slot.unacked = [])
    (hsignals : x.signals = false) :
    runRows_ p x (rowFuel x) w =
      { w with slot := { w.slot with cursor := x.rows, landed := some (w.s.reel w.c.die) }, stop := none } := by
  have hsignal : w.s.signalSlot w.c p x = (w.s, true) := by
    unfold signalSlot
    rw [hsignals]
    rfl
  unfold rowFuel runRows_
  simp [hstop, hlanded, hgroup, hformed, endSlot, hacked, hsignal, hsignals]

/-- Every row formed, and some not acknowledged: it waits. -/
theorem runRows_of_unacked (p : Partition) (x : Xfer) (w : Running) (hstop : w.stop = none) (hlanded : w.slot.landed = none)
    (hgroup : w.slot.group = []) (hformed : x.rows ≤ w.slot.formed) (hacked : w.slot.unacked ≠ []) :
    runRows_ p x (rowFuel x) w = { w with stop := some (.remote false) } := by
  unfold rowFuel runRows_
  simp [hstop, hlanded, hgroup, hformed, endSlot, hacked]

/-- A row whose reads of a window are not all answered: it waits. -/
theorem runRows_of_reading (p : Partition) (x : Xfer) (w : Running) (hstop : w.stop = none) (hlanded : w.slot.landed = none)
    (hgroup : w.slot.group = []) (hformed : w.slot.formed < x.rows) (hsource : x.srcKind = 2) (hreads : w.slot.reads ≠ []) :
    runRows_ p x (rowFuel x) w = { w with stop := some (.remote false) } := by
  have hform : w.s.formRow w.c p x w.slot w.buffer w.slot.formed =
      { s := w.s, slot := w.slot, buffer := w.buffer, bytes := .error (.remote false) } := by
    unfold formRow
    rw [hsource]
    simp [hreads]
  unfold rowFuel runRows_
  simp [hstop, hlanded, hgroup, hformed, hform]

end
end State
end Sys2Proof.Machine
end

section
namespace Sys2Proof.Machine
open Safety
namespace State

/-! ### An acknowledgement at its slot (R233, R315) -/

/-- The slot of descriptor `d` once message `seq` is acknowledged. -/
def ackSlot (d seq : Nat) (y : Slot) : Slot :=
  if y.d != d then y
  else { y with
    unacked := y.unacked.filter fun e => e.1 != seq,
    cursor := if y.unacked.isEmpty then y.cursor
      else cursorOf { y with unacked := y.unacked.filter fun e => e.1 != seq } y.formed }

/-- The slot of descriptor `d` once read `seq` is answered. -/
def readSlot (d seq : Nat) (data : List Byte) (y : Slot) : Slot :=
  match y.reads.find? fun r => y.d == d && r.1 == seq with
  | some r => { y with reads := y.reads.filter (fun e => e.1 != seq), got := y.got ++ [(r.2, data)] }
  | none => y

theorem ackSlot_of_own (seq : Nat) (y : Slot) : ackSlot y.d seq y = { y with
    unacked := y.unacked.filter fun e => e.1 != seq,
    cursor := match y.unacked, y.unacked.filter fun e => e.1 != seq with
      | [], _ => y.cursor
      | _, [] => y.formed
      | _, e :: _ => e.2.1 } := by
  unfold ackSlot
  rw [if_neg (by simp)]
  cases y.unacked with
  | nil => rfl
  | cons u us =>
    unfold cursorOf
    cases (u :: us).filter fun e => e.1 != seq <;> rfl

theorem readSlot_of_own {seq n : Nat} {y : Slot} (h : y.reads.find? (fun r => r.1 == seq) = some (seq, n)) (data : List Byte) :
    readSlot y.d seq data y = { y with reads := y.reads.filter (fun e => e.1 != seq), got := y.got ++ [(n, data)] } := by
  unfold readSlot
  simp only [beq_self_eq_true, Bool.true_and, h]

theorem mapSlots_of_none {c : Cmd} (h : c.transfer = none) (f : Slot → Slot) : mapSlots c f = c := by
  unfold mapSlots
  rw [h]

theorem mapSlots_of_one {c : Cmd} {t : Transfer} {y : Slot} (h : c.transfer = some t) (hslots : t.slots = [y])
    (f : Slot → Slot) : mapSlots c f = withSlot c t (f y) := by
  unfold mapSlots
  rw [h]
  dsimp only
  rw [hslots]
  rfl

/-! ### The rows of answers -/

/-- A message of this package's is one that it takes now. -/
theorem mine_of {s : State} {m : Message} (hdst : m.dst = s.packageId) (hsrc : m.src ≠ s.packageId) (hready : s.pins.ready = true) :
    s.mine m m.kind = true := by
  simp [mine, hdst, hsrc, hready]

/-- The state in which an acknowledged message is released, and its rows are counted. -/
def ackBase (s : State) (x : Sent) (c : Cmd) (seq : Nat) : State := (s.dropSent x).bump 0x2700 0x06 (rowsOf c x.d seq)

/-- The state in which an acknowledgement goes on with its command. -/
def ackPut (s : State) (x : Sent) (c : Cmd) (seq : Nat) : State := (s.ackBase x c seq).setCmd (mapSlots c (ackSlot x.d seq))

/-- The state in which the data of a read goes on with its command. -/
def readPut (s : State) (x : Sent) (c : Cmd) (m : Message) : State :=
  (s.noteArrival m).setCmd (mapSlots c (readSlot x.d m.seq (m.segs.map Prod.snd).flatten))

/-- An arrival is counted. -/
theorem noteArrival_eq (s : State) (m : Message) :
    ∃ dict, dict.kept = s.dict.kept ∧ s.noteArrival m = { s with dict := dict } := by
  unfold noteArrival
  split
  · exact ⟨_, bump_kept .., rfl⟩
  · exact ⟨_, rfl, rfl⟩

/-- A command is put back under its own queue and index. -/
theorem cmd?_setCmd_of_key {s : State} {q i : Nat} {c d : Cmd} (hfound : s.cmd? q i = some c) (hq : d.q = q) (hi : d.i = i) :
    (s.setCmd d).cmd? q i = some d := by
  subst hq hi
  exact cmd?_setCmd (Option.isSome_iff_exists.2 ⟨c, hfound⟩)

theorem mapSlots_key (c : Cmd) (f : Slot → Slot) :
    (mapSlots c f).q = c.q ∧ (mapSlots c f).i = c.i ∧ (mapSlots c f).wait = c.wait := by
  unfold mapSlots
  split <;> exact ⟨rfl, rfl, rfl⟩

theorem afterAnswer_of_transfer {s : State} {q i : Nat} {c : Cmd} (hfound : s.cmd? q i = some c) (hwait : c.wait = .transfer) :
    s.afterAnswer q i = s.advanceMove c := by
  unfold afterAnswer
  rw [hfound]
  dsimp only
  rw [hwait]

theorem afterAnswer_of_link {s : State} {q i dst : Nat} {c : Cmd} (hfound : s.cmd? q i = some c) (hwait : c.wait = .link dst)
    (hrun : s.mayRun c = true) : s.afterAnswer q i = s.sendOn c := by
  unfold afterAnswer
  rw [hfound]
  dsimp only
  rw [hwait]
  exact if_pos hrun

section
variable {s : State} {m : Message} {x : Sent} {c : Cmd}

theorem acknowledged_eq (hmine : s.mine m 4 = true) (hsent : s.sentBy m = some x) (hfound : s.cmd? x.q x.i = some c) :
    s.acknowledged m = ((s.ackPut x c m.seq).afterAnswer x.q x.i).retryRoutes m.src := by
  have hfound' : (s.dropSent x).cmd? x.q x.i = some c := hfound
  unfold acknowledged
  rw [hmine, hsent]
  dsimp only
  rw [hfound']
  rfl

theorem readData_eq (hmine : s.mine m 3 = true) (hsent : s.sentBy m = some x) (hfound : s.cmd? x.q x.i = some c) :
    s.readData m = (s.readPut x c m).afterAnswer x.q x.i := by
  obtain ⟨_, -, hnoted⟩ := s.noteArrival_eq m
  have hsent' : (s.noteArrival m).sentBy m = some x := by rw [hnoted]; exact hsent
  have hfound' : (s.noteArrival m).cmd? x.q x.i = some c := by rw [hnoted]; exact hfound
  unfold readData
  rw [hmine]
  dsimp only
  rw [hsent']
  dsimp only
  rw [hfound']
  rfl

theorem ackPut_cmd? (hfound : s.cmd? x.q x.i = some c) (seq : Nat) :
    (s.ackPut x c seq).cmd? x.q x.i = some (mapSlots c (ackSlot x.d seq)) := by
  obtain ⟨hq, hi⟩ := key_of_cmd? hfound
  obtain ⟨hq', hi', -⟩ := mapSlots_key c (ackSlot x.d seq)
  exact cmd?_setCmd_of_key (s := s.ackBase x c seq) hfound (hq'.trans hq) (hi'.trans hi)

theorem readPut_cmd? (hfound : s.cmd? x.q x.i = some c) (m : Message) :
    (s.readPut x c m).cmd? x.q x.i = some (mapSlots c (readSlot x.d m.seq (m.segs.map Prod.snd).flatten)) := by
  obtain ⟨hq, hi⟩ := key_of_cmd? hfound
  obtain ⟨hq', hi', -⟩ := mapSlots_key c (readSlot x.d m.seq (m.segs.map Prod.snd).flatten)
  obtain ⟨_, -, hnoted⟩ := s.noteArrival_eq m
  have hfound' : (s.noteArrival m).cmd? x.q x.i = some c := by rw [hnoted]; exact hfound
  exact cmd?_setCmd_of_key hfound' (hq'.trans hq) (hi'.trans hi)

end

/-- R315: message `x`, of a command in flight, is answered by `m`; nothing else waits for its route. -/
structure Acked (s : State) (m : Message) (x : Sent) (c : Cmd) : Prop where
  mine : s.mine m 4 = true
  sent : s.sentBy m = some x
  found : s.cmd? x.q x.i = some c
  held : ∀ h ∈ s.bruora.held, h.dst ≠ m.src
  others : ∀ z ∈ s.cmds, ¬(z.q = x.q ∧ z.i = x.i) → z ∉ s.linkUsers m.src

section
variable {s : State} {m : Message} {x : Sent} {c : Cmd}

/-- The acknowledged command put back: it is found, its message is released and its rows are counted. -/
theorem ackBase_put (hfound : s.cmd? x.q x.i = some c) {d : Cmd} (hq : d.q = c.q) (hi : d.i = c.i) (seq : Nat) :
    ((s.ackBase x c seq).setCmd d).cmd? x.q x.i = some d ∧
      ((s.ackBase x c seq).setCmd d).bruora.sent = s.bruora.sent.filter (· != x) ∧
      ((s.ackBase x c seq).setCmd d).reg 0x2700 0x06 0 = s.reg 0x2700 0x06 0 + rowsOf c x.d seq ∧
      (s.ackBase x c seq).setCmd d = { s with
        cmds := ((s.ackBase x c seq).setCmd d).cmds, bruora := ((s.ackBase x c seq).setCmd d).bruora,
        dict := ((s.ackBase x c seq).setCmd d).dict } := by
  obtain ⟨hq', hi'⟩ := key_of_cmd? hfound
  exact ⟨cmd?_setCmd_of_key (s := s.ackBase x c seq) hfound (hq.trans hq') (hi.trans hi'), rfl,
    reg_bump_self (s.dropSent x) .., rfl⟩

/-- Where the command of an acknowledgement comes to rest, and its route is of no more use to it, it is put back and nothing
else happens. -/
theorem Acked.settles (h : Acked s m x c) {d : Cmd} (hq : d.q = c.q) (hi : d.i = c.i)
    (hafter : (s.ackPut x c m.seq).afterAnswer x.q x.i = (s.ackPut x c m.seq).setCmd d)
    (hidle : d ∈ ((s.ackBase x c m.seq).setCmd d).linkUsers m.src → ((s.ackBase x c m.seq).setCmd d).mayRun d = true →
      ((s.ackBase x c m.seq).setCmd d).retryCmd d = (s.ackBase x c m.seq).setCmd d) :
    s.acknowledged m = (s.ackBase x c m.seq).setCmd d := by
  obtain ⟨hqx, hix⟩ := key_of_cmd? h.found
  obtain ⟨hqm, him, -⟩ := mapSlots_key c (ackSlot x.d m.seq)
  have hput : (s.ackPut x c m.seq).setCmd d = (s.ackBase x c m.seq).setCmd d :=
    setCmd_setCmd _ (hq.trans hqm.symm) (hi.trans him.symm)
  rw [acknowledged_eq h.mine h.sent h.found, hafter, hput]
  refine retryRoutes_of_settled (s := s) (d := d) rfl ?_ h.held ?_ hidle
  · rw [hq, hi, hqx, hix, h.found]
    rfl
  · rw [hq, hi, hqx, hix]
    exact h.others

end
end State
end Sys2Proof.Machine
end

section
namespace Sys2Proof.Machine
open Safety
namespace State

/-! ### The last acknowledgement of a `SEND` (R170) -/

/-- Nothing of it is left to send or to be acknowledged: it is finished. -/
theorem sendOn_of_last {s : State} {c : Cmd} {st : Recs × StageWord} (hstage : sendStage c = some st) (hsends : c.sends = [])
    (hlast : ∀ z ∈ s.bruora.sent, ¬(z.q = c.q ∧ z.i = c.i)) :
    s.sendOn c = (s.setCmd { c with wait := .done }).traceEnd c := by
  have hnone : (s.bruora.sent.any fun z => z.q == c.q && z.i == c.i) = false :=
    List.any_eq_false.2 fun z hz => by simpa using hlast z hz
  have hdone : ({ c with sends := [], wait := .done } : Cmd) = { c with wait := .done } :=
    congrArg (fun l => ({ c with sends := l, wait := .done } : Cmd)) hsends.symm
  unfold sendOn
  rw [hstage]
  dsimp only
  rw [hsends]
  unfold trySends
  rw [hnone, hdone]
  rfl

section
variable {s : State} {m : Message} {x : Sent} {c : Cmd}

theorem Acked.sendEnds (h : Acked s m x c) {ref : Nat} {st : Recs × StageWord} (hwait : c.wait = .link ref) (hsends : c.sends = [])
    (htransfer : c.transfer = none) (hstage : sendStage c = some st) (hrun : s.mayRun c = true)
    (hlast : ∀ z ∈ s.bruora.sent, z.q = x.q → z.i = x.i → z = x) :
    ∃ t, s.acknowledged m = t ∧ t.cmd? x.q x.i = some { c with wait := .done } ∧
      t.bruora.sent = s.bruora.sent.filter (· != x) ∧
      t = { s with cmds := t.cmds, bruora := t.bruora, obs := t.obs, dict := t.dict } := by
  obtain ⟨hq, hi⟩ := key_of_cmd? h.found
  have hsame := mapSlots_of_none htransfer (ackSlot x.d m.seq)
  have hput : (s.ackPut x c m.seq).setCmd { c with wait := .done } = (s.ackBase x c m.seq).setCmd { c with wait := .done } := by
    unfold ackPut
    rw [hsame]
    exact setCmd_setCmd _ rfl rfl
  have hsend : (s.ackPut x c m.seq).afterAnswer x.q x.i =
      ((s.ackBase x c m.seq).setCmd { c with wait := .done }).traceEnd c := by
    have hfound := ackPut_cmd? h.found m.seq
    rw [hsame] at hfound
    rw [afterAnswer_of_link hfound hwait hrun, sendOn_of_last hstage hsends, hput]
    intro z hz hkey
    obtain ⟨hmem, hne⟩ := List.mem_filter.1 hz
    obtain rfl := hlast z hmem (hkey.1.trans hq) (hkey.2.trans hi)
    simp at hne
  obtain ⟨regs, obs, htrace, -⟩ := traces_traceEnd ((s.ackBase x c m.seq).setCmd { c with wait := .done }) c
  obtain ⟨hcmd, hsent, -, hframe⟩ := ackBase_put h.found (d := { c with wait := .done }) rfl rfl m.seq
  have hacked : s.acknowledged m = ((s.ackBase x c m.seq).setCmd { c with wait := .done }).traceEnd c := by
    rw [acknowledged_eq h.mine h.sent h.found, hsend]
    refine retryRoutes_of_settled (s := s) (d := { c with wait := .done }) ?_ ?_ ?_ ?_
      fun huser => absurd huser (not_mem_linkUsers_of_done rfl)
    · rw [htrace]
      rfl
    · rw [hq, hi, h.found]
      rfl
    · rw [htrace]
      exact h.held
    · rw [hq, hi]
      exact h.others
  refine ⟨_, hacked, ?_, ?_, ?_⟩ <;> rw [htrace]
  · exact hcmd
  · exact hsent
  · rw [hframe]

/-! ### Acknowledgements of a MOVE (R233, R234, R315) -/

theorem ackSlot_of_first {y : Slot} {seq lo hi : Nat} {rest : List (Nat × Nat × Nat)} (hfirst : y.unacked = (seq, lo, hi) :: rest)
    (hrest : ∀ e ∈ rest, e.1 ≠ seq) :
    ackSlot y.d seq y = { y with unacked := rest, cursor := cursorOf { y with unacked := rest } y.formed } := by
  have hfilter : y.unacked.filter (fun e => e.1 != seq) = rest := by
    rw [hfirst, List.filter_cons_of_neg (by simp)]
    exact List.filter_eq_self.2 fun e he => by simp [hrest e he]
  unfold ackSlot
  rw [if_neg (by simp), hfilter, if_neg (by simp [hfirst])]

/-- R238: the rows of a message are those that its descriptor had not got acknowledged. -/
theorem rowsOf_of_first {t : Transfer} {y : Slot} {seq lo hi : Nat} {rest : List (Nat × Nat × Nat)}
    (htransfer : c.transfer = some t) (hslots : t.slots = [y]) (hfirst : y.unacked = (seq, lo, hi) :: rest)
    (hrest : ∀ e ∈ rest, e.1 ≠ seq) : rowsOf c y.d seq = hi - lo := by
  have hnone : (rest.map fun e => if e.1 = seq then e.2.2 - e.2.1 else 0).sum = 0 :=
    List.sum_eq_zero fun n hn => by
      obtain ⟨e, he, rfl⟩ := List.mem_map.1 hn
      exact if_neg (hrest e he)
  unfold rowsOf
  rw [htransfer]
  dsimp only
  rw [hslots]
  simp [hfirst, hnone]

end

section
variable {s : State} {m : Message} {x : Sent} {c : Cmd} {t : Transfer} {y : Slot}

/-- R315: the command of an acknowledged message as it is put back before its MOVE goes on. -/
theorem Acked.stands (h : Acked s m x c) (hholds : HoldsSlot c t y) :
    (s.ackPut x c m.seq).cmd? x.q x.i = some (withSlot c t (ackSlot x.d m.seq y)) :=
  mapSlots_of_one hholds.transfer hholds.slots (ackSlot x.d m.seq) ▸ ackPut_cmd? h.found m.seq

theorem Acked.afterSlot (h : Acked s m x c) (hholds : HoldsSlot c t y) :
    (s.ackPut x c m.seq).afterAnswer x.q x.i = (s.ackPut x c m.seq).advanceMove (withSlot c t (ackSlot x.d m.seq y)) :=
  afterAnswer_of_transfer (h.stands hholds) hholds.wait

/-- R315: an acknowledgement is given to the slot of its MOVE, which goes on. -/
theorem Acked.goesOn (h : Acked s m x c) (hholds : HoldsSlot c t y) : s.acknowledged m =
    ((s.ackPut x c m.seq).advanceMove (withSlot c t (ackSlot x.d m.seq y))).retryRoutes m.src := by
  rw [acknowledged_eq h.mine h.sent h.found, h.afterSlot hholds]

/-- The slot of the acknowledged descriptor, as it stands before its MOVE goes on. -/
def ackedSlot (y : Slot) (rest : List (Nat × Nat × Nat)) : Slot :=
  { y with unacked := rest, cursor := cursorOf { y with unacked := rest } y.formed }

theorem landed_of_runnable (h : runnable y = true) : y.landed = none := by
  simp only [runnable, Bool.and_eq_true, Option.isNone_iff_eq_none] at h
  exact h.1.2

theorem started_of_runnable (h : runnable y = true) : y.started = true := by
  simp only [runnable, Bool.and_eq_true] at h
  exact h.1.1.1

/-- A descriptor that has landed uses no link. -/
theorem not_mem_linkUsers_of_landed {u : State} {dst : Nat} (hone : OneSlot c t y) (hlanded : y.landed.isSome = true) :
    c ∉ u.linkUsers dst := by
  rw [mem_linkUsers, hone.wait, hone.transfer]
  simp [hone.slots, slotTo, Option.isSome_iff_ne_none.1 hlanded]

/-- R220, R315: with every row formed and this message the last, the descriptor has landed. -/
theorem Acked.lands (h : Acked s m x c) (hone : OneSlot c t y) (hd : y.d = x.d) (hrun : s.mayRun c = true)
    (hruns : runnable y = true) (hgroup : y.group = []) {lo hi : Nat} (hformed : (Xfer.ofBytes y.bytes).rows ≤ y.formed)
    (hfirst : y.unacked = [(m.seq, lo, hi)]) (hsignals : (Xfer.ofBytes y.bytes).signals = false) :
    s.acknowledged m = (s.ackBase x c m.seq).setCmd (withSlot c t { y with
      unacked := [], cursor := (Xfer.ofBytes y.bytes).rows, landed := some (s.reel c.die) }) := by
  have hslot : ackSlot x.d m.seq y = ackedSlot y [] := hd ▸ ackSlot_of_first hfirst (by simp)
  have hlands (u : State) (hrun : u.mayRun (withSlot c t (ackedSlot y [])) = true) :
      u.advanceMove (withSlot c t (ackedSlot y [])) = u.setCmd (withSlot c t { ackedSlot y [] with
        cursor := (Xfer.ofBytes y.bytes).rows, landed := some (u.reel c.die) }) :=
    advanceMove_of_rests (hone.withSlot (ackedSlot y [])) hrun (started_of_runnable hruns) hruns rfl (.inl rfl)
      fun p => runRows_of_acked p _ _ rfl (landed_of_runnable hruns) hgroup hformed rfl hsignals
  refine h.settles rfl rfl ?_ fun huser => absurd huser (not_mem_linkUsers_of_landed (hone.withSlot _) rfl)
  rw [h.afterSlot hone.toHoldsSlot, hslot]
  exact hlands _ hrun

/-- R315: with other messages unacknowledged, the descriptor waits for them. -/
theorem Acked.waits (h : Acked s m x c) (hone : OneSlot c t y) (hd : y.d = x.d) (hrun : s.mayRun c = true)
    (hruns : runnable y = true) (hgroup : y.group = []) {lo hi : Nat} {rest : List (Nat × Nat × Nat)}
    (hformed : (Xfer.ofBytes y.bytes).rows ≤ y.formed) (hfirst : y.unacked = (m.seq, lo, hi) :: rest)
    (hrest : ∀ e ∈ rest, e.1 ≠ m.seq) (hmore : rest ≠ []) :
    s.acknowledged m = (s.ackBase x c m.seq).setCmd (withSlot c t (ackedSlot y rest)) := by
  have hslot : ackSlot x.d m.seq y = ackedSlot y rest := hd ▸ ackSlot_of_first hfirst hrest
  have hstays (u : State) (hrun : u.mayRun (withSlot c t (ackedSlot y rest)) = true) :
      u.advanceMove (withSlot c t (ackedSlot y rest)) = u.setCmd (withSlot c t (ackedSlot y rest)) :=
    advanceMove_of_rests (hone.withSlot (ackedSlot y rest)) hrun (started_of_runnable hruns) hruns rfl (.inr rfl)
      fun p => runRows_of_unacked p _ _ rfl (landed_of_runnable hruns) hgroup hformed hmore
  refine h.settles rfl rfl ?_ fun _ hrun' => ?_
  · rw [h.afterSlot hone.toHoldsSlot, hslot]
    exact hstays _ hrun
  · exact (hstays _ hrun').trans (setCmd_setCmd _ rfl rfl)

/-- R234, R249: with its task parked, the descriptor stands at its cursor. -/
theorem Acked.parks (h : Acked s m x c) (hone : OneSlot c t y) (hd : y.d = x.d) (hrun : s.mayRun c = false)
    (hruns : runnable y = true) {lo hi : Nat} (hfirst : y.unacked = [(m.seq, lo, hi)]) :
    s.acknowledged m =
      (s.ackBase x c m.seq).setCmd (withSlot c t { y with unacked := [], cursor := y.formed, stopped := true }) := by
  have hslot : ackSlot x.d m.seq y = ackedSlot y [] := hd ▸ ackSlot_of_first hfirst (by simp)
  refine h.settles rfl rfl ?_ fun _ hrun' => absurd (hrun'.symm.trans hrun) (by decide)
  rw [h.afterSlot hone.toHoldsSlot, hslot]
  exact advanceMove_of_parked (hone.withSlot (ackedSlot y [])) hrun hruns

/-! ### The data of a read at its MOVE (R314) -/

/-- The slot of the descriptor whose read has been answered. -/
def answeredSlot (y : Slot) (m : Message) (n : Nat) : Slot :=
  { y with reads := y.reads.filter (fun e => e.1 != m.seq), got := y.got ++ [(n, (m.segs.map Prod.snd).flatten)] }

/-- The command of an answered read as it stands before its MOVE goes on, and what has changed when it is put back. -/
theorem readPut_setCmd (hfound : s.cmd? x.q x.i = some c) {d : Cmd} (hq : d.q = c.q) (hi : d.i = c.i) :
    ((s.readPut x c m).setCmd d).cmd? x.q x.i = some d ∧
      (s.readPut x c m).setCmd d = { s with
        cmds := ((s.readPut x c m).setCmd d).cmds, dict := ((s.readPut x c m).setCmd d).dict } := by
  obtain ⟨hqx, hix⟩ := key_of_cmd? hfound
  obtain ⟨_, -, hnoted⟩ := s.noteArrival_eq m
  refine ⟨cmd?_setCmd_of_key (readPut_cmd? hfound m) (hq.trans hqx) (hi.trans hix), ?_⟩
  unfold readPut
  rw [hnoted]
  rfl

theorem readPut_mayRun (s : State) (x : Sent) (c d : Cmd) (m : Message) : (s.readPut x c m).mayRun d = s.mayRun d := by
  obtain ⟨_, -, hnoted⟩ := s.noteArrival_eq m
  unfold readPut
  rw [hnoted]
  rfl

end

/-- R314: `m` answers a read of message `x` with data, for the one descriptor in the slots of its MOVE. -/
structure Answers (s : State) (m : Message) (x : Sent) (c : Cmd) (t : Transfer) (y : Slot) (n : Nat) : Prop where
  mine : s.mine m 3 = true
  sent : s.sentBy m = some x
  found : s.cmd? x.q x.i = some c
  holds : HoldsSlot c t y
  own : y.d = x.d
  read : y.reads.find? (fun r => r.1 == m.seq) = some (m.seq, n)

section
variable {s : State} {m : Message} {x : Sent} {c : Cmd} {t : Transfer} {y : Slot} {n : Nat}

theorem Answers.put (h : Answers s m x c t y n) :
    mapSlots c (readSlot x.d m.seq (m.segs.map Prod.snd).flatten) = withSlot c t (answeredSlot y m n) := by
  rw [mapSlots_of_one h.holds.transfer h.holds.slots, ← h.own, readSlot_of_own h.read]
  rfl

/-- R314: the data is given to the slot of its MOVE, which goes on. -/
theorem Answers.goesOn (h : Answers s m x c t y n) :
    s.readData m = (s.readPut x c m).advanceMove (withSlot c t (answeredSlot y m n)) := by
  have hput := readPut_cmd? h.found m
  rw [h.put] at hput
  rw [readData_eq h.mine h.sent h.found]
  exact afterAnswer_of_transfer hput h.holds.wait

theorem Answers.stands (h : Answers s m x c t y n) :
    (s.readPut x c m).cmd? x.q x.i = some (withSlot c t (answeredSlot y m n)) ∧
      s.readPut x c m = { s with cmds := (s.readPut x c m).cmds, dict := (s.readPut x c m).dict } := by
  obtain ⟨_, -, hnoted⟩ := s.noteArrival_eq m
  refine ⟨h.put ▸ readPut_cmd? h.found m, ?_⟩
  unfold readPut
  rw [hnoted]
  rfl

/-- The row in hand needs other answers: the descriptor waits for them. -/
theorem Answers.waits (h : Answers s m x c t y n) (hone : OneSlot c t y) (hrun : s.mayRun c = true)
    (hruns : runnable y = true) (hgroup : y.group = []) (hformed : y.formed < (Xfer.ofBytes y.bytes).rows)
    (hsource : (Xfer.ofBytes y.bytes).srcKind = 2)
    (hmore : y.reads.filter (fun e => e.1 != m.seq) ≠ []) :
    s.readData m = (s.readPut x c m).setCmd (withSlot c t (answeredSlot y m n)) := by
  have hstays (u : State) (hrun : u.mayRun (withSlot c t (answeredSlot y m n)) = true) :
      u.advanceMove (withSlot c t (answeredSlot y m n)) = u.setCmd (withSlot c t (answeredSlot y m n)) :=
    advanceMove_of_rests (hone.withSlot (answeredSlot y m n)) hrun (started_of_runnable hruns) hruns rfl (.inr rfl)
      fun p => runRows_of_reading p _ _ rfl (landed_of_runnable hruns) hgroup hformed hsource hmore
  exact h.goesOn.trans (hstays _ ((readPut_mayRun ..).trans hrun))

/-- R234, R249: with its task parked, the descriptor stands at its cursor. -/
theorem Answers.parks (h : Answers s m x c t y n) (hone : OneSlot c t y) (hrun : s.mayRun c = false) (hruns : runnable y = true) :
    s.readData m = (s.readPut x c m).setCmd (withSlot c t { answeredSlot y m n with stopped := true }) := by
  rw [h.goesOn]
  exact advanceMove_of_parked (t := { t with slots := [answeredSlot y m n] }) (hone.withSlot _)
    ((readPut_mayRun ..).trans hrun) hruns

end
end State
end Sys2Proof.Machine
end

section
namespace Sys2Proof.Machine
open Safety
namespace State

/-! ### A NACK (R319) -/

section
variable {s : State} {m : Message} {x : Sent} {c : Cmd}

theorem nacked_eq (hmine : s.mine m 5 = true) (hsent : s.nackedBy m = some x) (hfound : s.cmd? x.q x.i = some c)
    (hopen : openCmd c = true) : s.nacked m =
      ((s.dropSent x).failLink c (fun y => y.d == x.d && !y.failed) (m.offset % 65536)).retryRoutes x.msg.dst := by
  have hfound' : (s.dropSent x).cmd? x.q x.i = some c := hfound
  unfold nacked
  rw [hmine, hsent]
  dsimp only
  rw [hfound']
  dsimp only
  rw [if_pos hopen]
  rfl

theorem failLink_of_none (htransfer : c.transfer = none) (which : Slot → Bool) (code : Nat) :
    s.failLink c which code = s.failCmd { c with sends := [] } code 0 := by
  unfold failLink
  rw [htransfer]

/-- A MOVE of one slot as it fails there: the failure, its descriptor and its cursor stand in its record (R234). -/
def failedMove (c : Cmd) (t : Transfer) (y : Slot) (code : Nat) : Cmd := { c with
  transfer := some { t with failure := some { d := y.d, code := code, cursor := y.cursor }, slots := [] },
  ratio := (t.first + y.d) % 2 ^ t.log2, mb := y.cursor % 65536, spill := y.cursor / 65536 }

theorem failLink_of_one {t : Transfer} {y : Slot} (htransfer : c.transfer = some t) (hslots : t.slots = [y])
    (hfailure : t.failure = none) {which : Slot → Bool} (hwhich : which y = true) (code : Nat) :
    s.failLink c which code = s.failCmd (failedMove c t y code) code c.detail := by
  have hput : putSlot t { y with failed := true, unacked := [], reads := [] } =
      { t with slots := [{ y with failed := true, unacked := [], reads := [] }] } := putSlot_of_one hslots rfl
  unfold failLink
  rw [htransfer]
  dsimp only
  rw [hslots, List.filter_singleton, hwhich]
  simp only [cond_true, List.foldl_cons, List.foldl_nil]
  rw [hput]
  have hfail : failAt { t with slots := [{ y with failed := true, unacked := [], reads := [] }] } y.d code y.cursor =
      { t with slots := [{ y with failed := true, unacked := [], reads := [] }],
               failure := some { d := y.d, code := code, cursor := y.cursor } } := by
    unfold failAt
    dsimp only
    rw [hfailure]
  rw [hfail]
  unfold transferEnd
  exact if_neg (by simp)

/-- R319: the failure of a NACK ends its command: what it had sent is forgotten, and nothing else waits for its route. -/
theorem nacked_fails (hmine : s.mine m 5 = true) (hsent : s.nackedBy m = some x) (hfound : s.cmd? x.q x.i = some c)
    (hopen : openCmd c = true) (hheld : ∀ h ∈ s.bruora.held, h.dst ≠ x.msg.dst)
    (hothers : ∀ z ∈ s.cmds, ¬(z.q = x.q ∧ z.i = x.i) → z ∉ s.linkUsers x.msg.dst) {d : Cmd} (hq : d.q = c.q) (hi : d.i = c.i)
    {detail : Nat} (hfail : (s.dropSent x).failLink c (fun y => y.d == x.d && !y.failed) (m.offset % 65536) =
      (s.dropSent x).failCmd d (m.offset % 65536) detail) : ∃ t, s.nacked m = t ∧
    t.cmd? x.q x.i = some { d with status := m.offset % 65536, detail := detail, wait := .done } ∧
    (∀ y ∈ t.bruora.sent, ¬(y.q = x.q ∧ y.i = x.i)) ∧ FailsAlone s t := by
  obtain ⟨hqc, hic⟩ := key_of_cmd? hfound
  have hqx := hq.trans hqc
  have hix := hi.trans hic
  obtain ⟨_, _, _, _, _, _, _, heq⟩ := failCmd_eq (s.dropSent x) d (m.offset % 65536) detail
  have hbruora := failCmd_bruora (s.dropSent x) d (m.offset % 65536) detail
  have hcmd := failCmd_cmd? (s := s.dropSent x) (c := d) (by rw [hqx, hix]; exact Option.isSome_iff_exists.2 ⟨c, hfound⟩)
    (m.offset % 65536) detail
  have hnacked : s.nacked m = (s.dropSent x).failCmd d (m.offset % 65536) detail := by
    rw [nacked_eq hmine hsent hfound hopen, hfail]
    refine retryRoutes_of_settled (s := s) (d := { d with status := m.offset % 65536, detail := detail, wait := .done }) ?_ ?_ ?_ ?_
      fun huser => absurd huser (not_mem_linkUsers_of_done rfl)
    · rw [heq]
      rfl
    · rw [hqx, hix, hfound]
      rfl
    · rw [hbruora]
      exact hheld
    · rw [hqx, hix]
      exact hothers
  refine ⟨_, hnacked, ?_, ?_, ?_⟩
  · rw [← hqx, ← hix]
    exact hcmd
  · rw [hbruora, hqx, hix]
    rintro y hy ⟨hyq, hyi⟩
    simpa [hyq, hyi] using (List.mem_filter.1 hy).2
  · unfold FailsAlone
    rw [heq]
    rfl

end
end State
end Sys2Proof.Machine
end

section
namespace Sys2Proof.Machine
open Safety

/-! ### A port that sends at once (R307) -/

namespace Port

@[simp] theorem sendFlit_unsent (x : Port) (ch : Nat) (b : List Byte) : (x.sendFlit ch b).unsent = x.unsent := rfl
@[simp] theorem sendFlit_credits (x : Port) (ch : Nat) (b : List Byte) : (x.sendFlit ch b).credits = x.credits := rfl

/-- R303: a link control flit takes no credit, and nothing waits behind it. -/
@[simp] theorem control_unsent (x : Port) : x.control.unsent = x.unsent := by
  unfold control
  split <;> rfl

@[simp] theorem control_credits (x : Port) : x.control.credits = x.credits := by
  unfold control
  split <;> rfl

theorem pick_onChannel (t : Nat × Nat × Nat) {ch n : Nat} (hch : ch < 3) (hn : n < 3) (f : Nat → Nat) :
    pick (onChannel t ch f) n = if n = ch then f (pick t n) else pick t n := by
  obtain ⟨a, b, c⟩ := t
  interval_cases ch <;> interval_cases n <;> rfl

/-- R307: a port holds a credit for every flit of a list. -/
def Affords (x : Port) (l : List Unsent) : Prop :=
  ∀ ch, ch < 3 → (l.filter fun u => u.channel == ch).length ≤ pick x.credits ch

/-- One flit of `pump`. -/
def pumpFlit (a : Port × List Message) (u : Unsent) : Port × List Message :=
  if pick a.1.credits u.channel = 0 || a.1.unsent.any fun v => v.channel == u.channel then
    ({ a.1 with unsent := a.1.unsent ++ [u] }, a.2)
  else
    ({ a.1.control.sendFlit u.channel u.payload with
      credits := onChannel (a.1.control.sendFlit u.channel u.payload).credits u.channel (· - 1) }.control,
      a.2 ++ u.last.toList)

theorem pump_eq (x : Port) : x.pump = x.unsent.foldl pumpFlit ({ x with unsent := [] }, []) := rfl

/-- A flit that the port affords leaves, with the message that it ends. -/
theorem pumpFlit_of_affords {x : Port} {u : Unsent} {l : List Unsent} (hunsent : x.unsent = []) (hch : u.channel < 3)
    (h : x.Affords (u :: l)) (ms : List Message) :
    ∃ y, pumpFlit (x, ms) u = (y, ms ++ u.last.toList) ∧ y.unsent = [] ∧ y.Affords l := by
  have hcredit : pick x.credits u.channel ≠ 0 := by
    have := h u.channel hch
    rw [List.filter_cons_of_pos (by simp), List.length_cons] at this
    omega
  refine ⟨_, if_neg (by simp [hcredit, hunsent]), by simp [hunsent], fun ch hlt => ?_⟩
  have hcount := h ch hlt
  rw [control_credits]
  simp only [sendFlit_credits, control_credits]
  rw [pick_onChannel _ hch hlt]
  by_cases hsame : ch = u.channel
  · subst hsame
    rw [List.filter_cons_of_pos (by simp), List.length_cons] at hcount
    rw [if_pos rfl]
    omega
  · rw [List.filter_cons_of_neg (by simpa using fun h => hsame h.symm)] at hcount
    rw [if_neg hsame]
    exact hcount

/-- The messages that have left whole with a list of flits. -/
def leaving (l : List Unsent) : List Message := (l.map fun u => u.last.toList).flatten

theorem foldl_pumpFlit {l : List Unsent} : ∀ {x : Port}, x.unsent = [] → (∀ u ∈ l, u.channel < 3) → x.Affords l →
    ∀ ms, (l.foldl pumpFlit (x, ms)).2 = ms ++ leaving l := by
  induction l with
  | nil => intro x _ _ _ ms; simp [leaving]
  | cons u l ih =>
    intro x hunsent hch h ms
    obtain ⟨y, hflit, hy, hmore⟩ := pumpFlit_of_affords hunsent (hch u (by simp)) h ms
    rw [List.foldl_cons, hflit, ih hy (fun v hv => hch v (by simp [hv])) hmore]
    simp [leaving]

/-- Every message leaves whole where there are credits for every flit. -/
theorem pump_of_affords {x : Port} (hch : ∀ u ∈ x.unsent, u.channel < 3) (h : x.Affords x.unsent) :
    x.pump.2 = leaving x.unsent := by
  rw [pump_eq]
  exact (foldl_pumpFlit (x := { x with unsent := [] }) rfl hch h []).trans (List.nil_append _)

end Port

namespace State

/-! ### The flits of a message (R304, R314) -/

theorem channelOf_lt (m : Message) : channelOf m < 3 := by
  unfold channelOf
  repeat' split
  all_goals decide

theorem unsentOf_channel {m : Message} {u : Unsent} (h : u ∈ unsentOf m) : u.channel < 3 := by
  obtain ⟨_, -, rfl⟩ := List.mem_map.1 h
  exact channelOf_lt m

/-- A message has a segment, and a segment its header. -/
theorem segmentBytes_ne_nil (m : Message) : segmentBytes m ≠ [] := by
  unfold segmentBytes
  extract_lets parts all
  have hall : all ≠ [] := by
    simp only [all]
    split
    · exact List.cons_ne_nil _ _
    · exact fun hnil => ‹¬_› (List.isEmpty_iff.2 hnil)
  obtain ⟨a, rest, hcons⟩ := List.exists_cons_of_ne_nil hall
  rw [hcons]
  simp [List.zipIdx_cons, leBytes]

theorem payloadsOf_ne_nil (m : Message) : payloadsOf m ≠ [] := by
  have hlength := List.length_pos_of_ne_nil (segmentBytes_ne_nil m)
  unfold payloadsOf ceilDiv
  dsimp only
  rw [Ne, List.map_eq_nil_iff, List.range_eq_nil]
  omega

/-- The last flit of a message ends it, and no other flit does. -/
theorem leaving_unsentOf (m : Message) : Port.leaving (unsentOf m) = [m] := by
  obtain ⟨ps, z, hps⟩ : ∃ ps z, payloadsOf m = ps ++ [z] := ⟨_, _, (List.dropLast_append_getLast (payloadsOf_ne_nil m)).symm⟩
  unfold unsentOf Port.leaving
  dsimp only
  rw [hps]
  have hinit : ∀ e ∈ ps.zipIdx, e.2 ≠ ps.length := fun e he => by
    have := List.snd_lt_of_mem_zipIdx he
    omega
  have hnone : ps.zipIdx.map (fun e => (if e.2 = ps.length then some m else none).toList) = ps.zipIdx.map fun _ => [] :=
    List.map_congr_left fun e he => by rw [if_neg (hinit e he)]; rfl
  simp [List.zipIdx_append, Function.comp_def, hnone]

end State
end Sys2Proof.Machine
end

section
namespace Sys2Proof.Machine
open Safety
namespace State

/-! ### A message that leaves at once (R307, R312) -/

/-- A port that is up is one of the engine's. -/
theorem lt_of_up {s : State} {p : Nat} (h : (s.port p).up = true) : p < s.bruora.ports.length := by
  by_contra hge
  have hdown : s.port p = {} := List.getD_eq_default _ _ (Nat.le_of_not_lt hge)
  rw [hdown] at h
  exact absurd h (by decide)

theorem port_setPort {s : State} {p : Nat} (hp : p < s.bruora.ports.length) (x : Port) : (s.setPort p x).port p = x := by
  unfold port setPort
  rw [List.getD_eq_getElem _ _ (by simpa using hp)]
  simp

theorem pumpPort_eq (s : State) (p : Nat) : s.pumpPort p =
    (s.port p).pump.2.foldl (fun s m => (s.bump 0x2E30 (0x10 + 2 * p) m.bytes).send (.message p m))
      (s.setPort p (s.port p).pump.1) := rfl

section
variable {s : State} {m : Message} {p : Nat}

/-- What a message that leaves changes beside the ports: a counter, and what is sent. -/
theorem bump_send (s : State) (i n a : Nat) (o : Out) :
    (s.bump i n a).send o = { s with dict := (s.bump i n a).dict, outbox := s.outbox ++ [o] } := rfl

/-- R307: a message leaves whole by a port that sends at once. -/
theorem emit_of_sends (hup : (s.port p).up = true) (hsends : Sends s p [m]) :
    ∃ bruora dict, s.emit p m = { s with bruora := bruora, dict := dict, outbox := s.outbox ++ [.message p m] } := by
  obtain ⟨hunsent, hcredits⟩ := hsends
  have hport : (s.setPort p { s.port p with unsent := (s.port p).unsent ++ unsentOf m }).port p =
      { s.port p with unsent := unsentOf m } := by
    rw [port_setPort (lt_of_up hup), hunsent, List.nil_append]
  have hleft : Port.pump { s.port p with unsent := unsentOf m } =
      ((Port.pump { s.port p with unsent := unsentOf m }).1, [m]) := by
    refine Prod.ext rfl ((Port.pump_of_affords (fun _ hu => unsentOf_channel hu) fun ch hch => ?_).trans (leaving_unsentOf m))
    simpa using hcredits ch hch
  unfold emit
  dsimp only
  rw [pumpPort_eq, hport, hleft, List.foldl_cons, List.foldl_nil, bump_send]
  exact ⟨_, _, rfl⟩

/-- R312, R313: an answer leaves by the port of its route. -/
theorem answer_of_port (hroute : s.route m.dst = .port p) : s.answer m = s.emit p m := by
  unfold answer
  rw [hroute]

/-- A route is a port that is up. -/
theorem up_of_route {pkg : Nat} (h : s.route pkg = .port p) : (s.port p).up = true := by
  unfold route at h
  dsimp only at h
  repeat' split at h
  all_goals cases h
  all_goals exact (Bool.and_eq_true_iff.1 ‹_›).2

theorem directPort_of_first (hp : p < 16) (hup : (s.port p).up = true) {dst : Nat}
    (hpartner : (s.port p).partner.map Prod.fst = some dst)
    (hfirst : ∀ n, n < p → ¬((s.port n).up = true ∧ (s.port n).partner.map Prod.fst = some dst)) :
    s.directPort dst = some p := by
  refine List.find?_range_eq_some.2 ⟨by simp [hup, hpartner], List.mem_range.2 hp, fun n hn => ?_⟩
  rw [Bool.not_eq_true', Bool.eq_false_iff]
  simpa using hfirst n hn

theorem directPort_of_none {dst : Nat}
    (hnone : ∀ n, n < 16 → ¬((s.port n).up = true ∧ (s.port n).partner.map Prod.fst = some dst)) : s.directPort dst = none := by
  refine List.find?_eq_none.2 fun n hn => ?_
  simpa using hnone n (List.mem_range.1 hn)

/-! ### Transit (R312) -/

/-- The count of an arrival changes no route. -/
theorem noteArrival_route (s : State) (m : Message) (pkg : Nat) : (s.noteArrival m).route pkg = s.route pkg := by
  obtain ⟨dict, hkept, hnoted⟩ := s.noteArrival_eq m
  rw [hnoted]
  unfold route routeByte keptReg
  dsimp only
  rw [hkept]
  rfl

theorem noteArrival_reply (s : State) (m : Message) (kind code : Nat) (data : List Byte) :
    (s.noteArrival m).reply m kind code data = s.reply m kind code data := by
  obtain ⟨dict, hkept, hnoted⟩ := s.noteArrival_eq m
  rw [hnoted]
  unfold reply packageId keptReg
  dsimp only
  rw [hkept]

/-- R312: a message for a neighbour leaves for it, marked. -/
theorem forward_marked (hdst : m.dst ≠ s.packageId) (hready : s.pins.ready = true) (hdirect : s.directPort m.dst = some p)
    (htransit : m.transit = false) : s.forward m = (s.noteArrival m).emit p { m with transit := true } := by
  unfold forward
  rw [if_neg (by simp [hdst, hready])]
  dsimp only
  rw [hdirect]
  exact if_neg (by simp [htransit])

/-- R312: a message that was marked, or is for no neighbour, is answered with a NACK. -/
theorem forward_refused (hdst : m.dst ≠ s.packageId) (hready : s.pins.ready = true)
    (hrefused : s.directPort m.dst = none ∨ m.transit = true) :
    s.forward m = (s.noteArrival m).answer (s.reply m 5 0x2B02 []) := by
  unfold forward
  rw [if_neg (by simp [hdst, hready])]
  dsimp only
  rw [noteArrival_reply]
  obtain hnone | htransit := hrefused
  · rw [hnone]
  · split
    · exact if_pos htransit
    · rfl

theorem noteArrival_sends (hsends : Sends s p [m]) (n : Message) : Sends (s.noteArrival n) p [m] := by
  obtain ⟨_, -, hnoted⟩ := s.noteArrival_eq n
  rw [hnoted]
  exact hsends

/-- A message that leaves at once after an arrival was counted. -/
theorem noteArrival_emit (hup : (s.port p).up = true) (hsends : Sends s p [m]) (n : Message) :
    ∃ t, (s.noteArrival n).emit p m = t ∧ t.outbox = s.outbox ++ [.message p m] ∧
      t = { s with bruora := t.bruora, dict := t.dict, outbox := t.outbox } := by
  obtain ⟨_, -, hnoted⟩ := s.noteArrival_eq n
  obtain ⟨_, _, hemit⟩ := emit_of_sends (s := s.noteArrival n) (by rw [hnoted]; exact hup) (noteArrival_sends hsends n)
  refine ⟨_, hemit, ?_, ?_⟩ <;> rw [hnoted]

/-- R312: the NACK of a message in transit leaves by the route of its source. -/
theorem forward_nack (hdst : m.dst ≠ s.packageId) (hready : s.pins.ready = true)
    (hrefused : s.directPort m.dst = none ∨ m.transit = true) (hroute : s.route m.src = .port p)
    (hsends : Sends s p [s.reply m 5 0x2B02 []]) :
    ∃ t, s.forward m = t ∧ t.outbox = s.outbox ++ [.message p (s.reply m 5 0x2B02 [])] ∧
      t = { s with bruora := t.bruora, dict := t.dict, outbox := t.outbox } := by
  rw [forward_refused hdst hready hrefused, answer_of_port ((noteArrival_route s m m.src).trans hroute)]
  exact noteArrival_emit (up_of_route hroute) hsends m

end
end State
end Sys2Proof.Machine
end

section
namespace Sys2Proof.Machine
open Safety
namespace State

/-! ### The four rows of answers -/

section
variable {s : State} {m : Message} {x : Sent} {c : Cmd} {t : Transfer} {y : Slot}

/-- R249: a command whose task is parked may not run. -/
theorem mayRun_of_parked {k : Queue} (hqueue : s.queue? c.q = some k) (hparked : k.parked = true) : s.mayRun c = false := by
  unfold mayRun
  rw [hqueue]
  simp [hparked]

theorem runnable_of (hstarted : y.started = true) (hstands : y.failed = false) (hlanded : y.landed = none)
    (hfaulted : y.faulted = none) : runnable y = true := by
  simp [runnable, hstarted, hstands, hlanded, hfaulted]

/-- A settled acknowledgement of a MOVE with what it leaves as it was. -/
theorem Acked.settled (h : Acked s m x c) {d : Cmd} (hacked : s.acknowledged m = (s.ackBase x c m.seq).setCmd d)
    (hq : d.q = c.q) (hi : d.i = c.i) {rows : Nat} (hrows : rowsOf c x.d m.seq = rows) :
    ∃ t, s.acknowledged m = t ∧ t.cmd? x.q x.i = some d ∧ t.bruora.sent = s.bruora.sent.filter (· != x) ∧
      t.reg 0x2700 0x06 0 = s.reg 0x2700 0x06 0 + rows ∧ t = { s with cmds := t.cmds, bruora := t.bruora, dict := t.dict } := by
  subst hrows
  exact ⟨_, hacked, ackBase_put h.found hq hi m.seq⟩

/-- A settled read of a MOVE with what it leaves as it was. -/
theorem Answers.settled {n : Nat} (h : Answers s m x c t y n) {d : Cmd} (hread : s.readData m = (s.readPut x c m).setCmd d)
    (hq : d.q = c.q) (hi : d.i = c.i) :
    ∃ t, s.readData m = t ∧ t.cmd? x.q x.i = some d ∧ t = { s with cmds := t.cmds, dict := t.dict } :=
  ⟨_, hread, readPut_setCmd h.found hq hi⟩

end
end State

/-- Settles O35: an answer gives its message back to the command that sent it, which ends, fails or comes to rest, so that the
retry of its route finds nothing to do; a message in transit, or the NACK of one, leaves whole by a port with credits. -/
theorem answers : Obligations.Answers := by
  refine ⟨?_, ?_, ?_, ?_⟩
  · intro s m x c hdst hsrc hready hsent hfound hheld hothers
    have hmine : s.mine m m.kind = true := State.mine_of hdst hsrc hready
    have hacked (hkind : m.kind = 4) : State.Acked s m x c := ⟨hkind ▸ hmine, hsent, hfound, hheld, hothers⟩
    refine ⟨fun ref st hkind hwait hsends htransfer hstage hrun hlast => ?_, fun tr y htransfer hwait hslots hown => ?_⟩
    · obtain ⟨t, ht, hrest⟩ := (hacked hkind).sendEnds hwait hsends htransfer hstage hrun hlast
      exact ⟨t, congrArg Host.Outcome.next ht, hrest⟩
    have hholds : State.HoldsSlot c tr y := ⟨hwait, htransfer, hslots⟩
    have hanswers {n : Nat} (hkind : m.kind = 3) (hread : y.reads.find? (fun r => r.1 == m.seq) = some (m.seq, n)) :
        State.Answers s m x c tr y n := ⟨hkind ▸ hmine, hsent, hfound, hholds, hown, hread⟩
    refine ⟨fun hkind => ?_, fun n hkind hread => ?_, fun hrun hstarted hstands hlanded hfaulted hfailure hmore hgroup => ?_,
      fun k hqueue hparked hstarted hstands hlanded hfaulted hfailure hmore => ?_⟩
    · have h := hacked hkind
      refine ⟨_, _, congrArg Host.Outcome.next (h.goesOn hholds), h.stands hholds, rfl, ?_, rfl⟩
      rw [← hown, State.ackSlot_of_own]
      rfl
    · have h := hanswers hkind hread
      obtain ⟨hcmd, hframe⟩ := h.stands
      exact ⟨_, _, congrArg Host.Outcome.next h.goesOn, hcmd, rfl, hframe⟩
    · have hone : State.OneSlot c tr y := ⟨hholds, hfailure, hmore⟩
      have hruns := State.runnable_of hstarted hstands hlanded hfaulted
      refine ⟨fun lo hi rest hkind hformed hfirst hrest hends => ?_, fun n hkind hsource hformed hread hreads => ?_⟩
      · have h := hacked hkind
        have hrows := hown ▸ State.rowsOf_of_first htransfer hslots hfirst hrest
        cases rest with
        | nil =>
          have hsignals := hends.resolve_left (· rfl)
          obtain ⟨t, ht, hcmd, hrest⟩ :=
            h.settled (h.lands hone hown hrun hruns hgroup hformed hfirst hsignals) rfl rfl hrows
          exact ⟨t, congrArg Host.Outcome.next ht, hcmd, hrest⟩
        | cons e es =>
          obtain ⟨t, ht, hcmd, hrest⟩ :=
            h.settled (h.waits hone hown hrun hruns hgroup hformed hfirst hrest (List.cons_ne_nil _ _)) rfl rfl hrows
          refine ⟨t, congrArg Host.Outcome.next ht, hcmd.trans ?_, hrest⟩
          rw [if_neg (List.cons_ne_nil _ _), ← hlanded]
          rfl
      · have h := hanswers hkind hread
        obtain ⟨t, ht, hrest⟩ := h.settled (h.waits hone hrun hruns hgroup hformed hsource hreads) rfl rfl
        exact ⟨t, congrArg Host.Outcome.next ht, hrest⟩
    · have hone : State.OneSlot c tr y := ⟨hholds, hfailure, hmore⟩
      have hruns := State.runnable_of hstarted hstands hlanded hfaulted
      have hrun := State.mayRun_of_parked hqueue hparked
      refine ⟨fun lo hi hkind hfirst => ?_, fun n hkind hread => ?_⟩
      · have h := hacked hkind
        have hrows := hown ▸ State.rowsOf_of_first htransfer hslots hfirst (by simp)
        obtain ⟨t, ht, hrest⟩ := h.settled (h.parks hone hown hrun hruns hfirst) rfl rfl hrows
        exact ⟨t, congrArg Host.Outcome.next ht, hrest⟩
      · have h := hanswers hkind hread
        obtain ⟨t, ht, hrest⟩ := h.settled (h.parks hone hrun hruns) rfl rfl
        exact ⟨t, congrArg Host.Outcome.next ht, hrest⟩
  · intro s m x c hkind hdst hsrc hready hsent hfound hopen hheld hothers
    have hmine : s.mine m 5 = true := hkind ▸ State.mine_of hdst hsrc hready
    refine ⟨fun htransfer => ?_, fun tr y htransfer hslots hown hstands hfailure => ?_⟩
    · obtain ⟨t, ht, hrest⟩ := State.nacked_fails hmine hsent hfound hopen hheld hothers (d := { c with sends := [] }) rfl rfl
        (State.failLink_of_none htransfer _ _)
      exact ⟨t, congrArg Host.Outcome.next ht, hrest⟩
    · obtain ⟨t, ht, hrest⟩ := State.nacked_fails hmine hsent hfound hopen hheld hothers
        (d := State.failedMove c tr y (m.offset % 65536)) rfl rfl
        (State.failLink_of_one htransfer hslots hfailure (by simp [hown, hstands]) _)
      exact ⟨t, congrArg Host.Outcome.next ht, hrest⟩
  · intro s m p hdst hready hp hup hpartner hfirst
    have hdirect := State.directPort_of_first hp hup hpartner hfirst
    refine ⟨fun htransit hsends => ?_, fun out htransit hroute hsends => ?_⟩
    · obtain ⟨t, ht, hrest⟩ := State.noteArrival_emit hup hsends m
      exact ⟨t, congrArg Host.Outcome.next ((State.forward_marked hdst hready hdirect htransit).trans ht), hrest⟩
    · obtain ⟨t, ht, hrest⟩ := State.forward_nack hdst hready (.inr htransit) hroute hsends
      exact ⟨t, congrArg Host.Outcome.next ht, hrest⟩
  · intro s m out hdst hready hroute hnone hsends
    obtain ⟨t, ht, hrest⟩ := State.forward_nack hdst hready (.inl (State.directPort_of_none hnone)) hroute hsends
    exact ⟨t, congrArg Host.Outcome.next ht, hrest⟩

end Sys2Proof.Machine
end

section
namespace Sys2Proof.Machine
open Safety

/-! ### A FENCE whose record is the last of a queue that has borrowed (R268, R276)

The frame that O51 gives the release of a FENCE keeps all of `loft`. With its record written, nothing is pending or in flight
in the queue, so the queue returns its borrowed units: its partition shrinks to its floor. -/

/-- Queue 3: 64 units of its own and 8 borrowed, its ring empty behind the FENCE. -/
def borrowingQueue : Queue :=
  { image := 0, pasid := 5, priority := 3, cadenceBound := false, vector := 0, coalesce := 1, slot := 0, descLog2 := 6,
    descBase := 0x10000, complLog2 := 6, complBase := 0x11000, floor := 64, borrow := 8, clusters := 2, semCount := 0,
    ctrCount := 0, staging := 0, region := 0, head := 1, tail := 1, part := some 0, borrowed := 8 }

/-- Its only command in flight, a FENCE. -/
def lastFence : Cmd :=
  { q := 3, i := 0, pasid := 5, die := 0, region := 0, clusters := 3, recs := { desc := leBytes 64 14 }, wait := .fence }

/-- The first GiB of its task is translated, and its partition holds 72 units. -/
def lastFenceOfBorrower : State :=
  { State.reset with
    queues := [(3, borrowingQueue)]
    cmds := [lastFence]
    trans := { die0 := [{
      pasid := 5, va := 0, bytes := 2 ^ 30, pa := 0, read := true, write := true, atomic := true, asked := true }] }
    loft := { parts := [(0, { state := 1, pasid := 5, units := 72, mask := 3 })] } }

/-- Nothing stands before the FENCE, and its record reaches the first place of the completion ring. -/
theorem lastFence_opens : lastFence.recs.cls = 14 ∧ lastFenceOfBorrower.fenceOpen lastFence = true ∧
    lastFenceOfBorrower.reach 16 5 0x11000 64 1 = .ok ∧ lastFenceOfBorrower.physOf 16 5 0x11000 64 1 = some 0x11000 := by
  decide +kernel

/-- Of the 72 units of the partition the floor of 64 stays. -/
theorem releaseFence_lastFence :
    ((lastFenceOfBorrower.releaseFence 3 0).part 0 0).units = 64 ∧ (lastFenceOfBorrower.part 0 0).units = 72 := by
  decide +kernel

/-- Refutes O51: its clause about the record of a FENCE frames all of `loft`, but the queue of the last command in flight
shrinks to its floor. -/
theorem not_lateReleases : ¬ Obligations.LateReleases := by
  intro h
  obtain ⟨hcls, hopen, hreach, hphys⟩ := lastFence_opens
  obtain ⟨t, k, ht, -, -, -, -, -, -, -, -, -, hloft, -⟩ :=
    (h lastFenceOfBorrower 3 0 lastFence rfl).2.1 borrowingQueue _ _ hcls rfl hopen rfl rfl rfl hreach hphys
      (fun _ hx => absurd hx List.not_mem_nil) fun x hx => by
        obtain rfl := List.mem_singleton.1 hx
        exact ⟨by simp [hcls], by decide, by decide⟩
  obtain ⟨hshrunk, hheld⟩ := releaseFence_lastFence
  have hresult : lastFenceOfBorrower.releaseFence 3 0 = t := by injection ht
  have hpart : t.part 0 0 = lastFenceOfBorrower.part 0 0 := by rw [State.part, hloft, State.part]
  rw [hresult, hpart, hheld] at hshrunk
  exact absurd hshrunk (by decide)

end Sys2Proof.Machine
end

section
namespace Sys2Proof.Machine
open Safety

/-! ### A table of the values of a function -/

namespace Table

theorem rising_rangeMap {α : Type} (f : Nat → α) (n : Nat) :
    Table.rising (show Table α from (List.range n).map fun l => (l, f l)) = true := by
  induction n with
  | zero => rfl
  | succ n ih =>
    rw [List.range_succ, List.map_append]
    refine rising_append ih rfl fun x hx y hy => ?_
    obtain ⟨l, hl, rfl⟩ := List.mem_map.1 hx
    obtain rfl := List.mem_singleton.1 hy
    exact List.mem_range.1 hl

/-- An unlisted value reads 0, so that a table need not list a 0. -/
theorem getD_find?_nonzero (f : Nat → Nat) {n l : Nat} (hl : l < n) :
    (Table.find? l (((List.range n).map fun l => (l, f l)).filter fun e => e.2 != 0)).getD 0 = f l := by
  have hrising := rising_filter (fun e => e.2 != 0) (rising_rangeMap f n)
  by_cases hzero : f l = 0
  · have hunlisted : Table.find? l (((List.range n).map fun l => (l, f l)).filter fun e => e.2 != 0) = none := by
      refine find?_none_of fun e he hkey => ?_
      obtain ⟨hmapped, hne⟩ := List.mem_filter.1 he
      obtain ⟨m, -, rfl⟩ := List.mem_map.1 hmapped
      obtain rfl : m = l := hkey
      exact absurd hzero (by simpa using hne)
    rw [hunlisted, hzero]
    rfl
  · have hlisted : (l, f l) ∈ ((List.range n).map fun l => (l, f l)).filter fun e => e.2 != 0 :=
      List.mem_filter.2 ⟨List.mem_map.2 ⟨l, List.mem_range.2 hl, rfl⟩, by simpa using hzero⟩
    rw [find?_of_mem hrising hlisted]
    rfl

end Table

/-- A sequence with other tables. -/
def Sequence.withTables (x : Sequence) (tally : Table Nat) (t d : List Nat) : Sequence :=
  { x with tally := tally, tallySheaves := t, dirSheaves := d }

namespace State

/-! ### What the operations of the Granary leave of the context records (R176–R188) -/

section
variable (s : State)

@[simp] theorem seq?_setSeq_self (id : Nat) (x : Sequence) : (s.setSeq id x).seq? id = some x := Table.find?_put_self ..

theorem seq?_setSeq_ne {id n : Nat} (h : n ≠ id) (x : Sequence) : (s.setSeq id x).seq? n = s.seq? n := Table.find?_put_ne h ..

theorem seq?_of_seqs {t : State} (h : t.granary.seqs = s.granary.seqs) (id : Nat) : t.seq? id = s.seq? id :=
  congrArg (Table.find? id) h

@[simp] theorem takeSheaves_seqs (is : List Nat) (refs kind pasid : Nat) :
    (s.takeSheaves is refs kind pasid).granary.seqs = s.granary.seqs :=
  List.foldlRecOn (motive := fun t : State => t.granary.seqs = s.granary.seqs) _ _ rfl fun _ ht _ _ => ht

theorem dropRef_seqs (i : Nat) : (s.dropRef i).1.granary.seqs = s.granary.seqs := by
  unfold dropRef
  split
  · rfl
  · split <;> rfl

@[simp] theorem dropRefs_seqs (is : List Nat) : (s.dropRefs is).1.granary.seqs = s.granary.seqs :=
  List.foldlRecOn (motive := fun a : State × Nat => a.1.granary.seqs = s.granary.seqs) _ _ rfl
    fun a ha i _ => (a.1.dropRef_seqs i).trans ha

@[simp] theorem addRef_seqs (i : Nat) : (s.addRef i).granary.seqs = s.granary.seqs := by
  unfold addRef
  split <;> rfl

end

/-- From `s` to `t` no identity has become free. -/
structure KeepsIds (s t : State) : Prop where
  free (id : Nat) : t.seq? id = none → s.seq? id = none

theorem KeepsIds.refl (s : State) : KeepsIds s s := ⟨fun _ h => h⟩

theorem KeepsIds.trans {s t u : State} (hst : KeepsIds s t) (htu : KeepsIds t u) : KeepsIds s u :=
  ⟨fun id h => hst.free id (htu.free id h)⟩

theorem KeepsIds.of_seqs {s t : State} (h : t.granary.seqs = s.granary.seqs) : KeepsIds s t :=
  ⟨fun id hid => (s.seq?_of_seqs h id).symm.trans hid⟩

section
variable (s : State)

theorem keepsIds_setSeq (id : Nat) (x : Sequence) : KeepsIds s (s.setSeq id x) where
  free n hn := by
    by_cases h : n = id
    · rw [h, seq?_setSeq_self] at hn
      cases hn
    · exact (s.seq?_setSeq_ne h x).symm.trans hn

theorem keepsIds_evict (id : Nat) (x : Sequence) : KeepsIds s (s.evict id x) := by
  have hdropped : KeepsIds s (s.dropRefs (x.tally.map Prod.snd ++ x.tallySheaves ++ x.dirSheaves)).1 := .of_seqs (s.dropRefs_seqs _)
  exact (hdropped.trans (keepsIds_setSeq _ id _)).trans (.of_seqs rfl)

/-- R187: an evicted sequence keeps its identity. -/
theorem keepsIds_evictFor (need : Nat) : KeepsIds s (s.evictFor need).1 :=
  List.foldlRecOn (motive := fun a : State × Nat => KeepsIds s a.1) _ _ (KeepsIds.refl s) fun a ha e _ => by
    split
    · exact ha
    · exact ha.trans (keepsIds_evict ..)

theorem keepsIds_lockSeq (id : Nat) (up : Bool) : KeepsIds s (s.lockSeq id up) := by
  unfold lockSeq
  split
  · exact KeepsIds.refl s
  · exact keepsIds_setSeq ..

theorem keepsIds_beginRead (id die : Nat) : KeepsIds s (s.beginRead id die) := by
  unfold beginRead
  split
  · exact KeepsIds.refl s
  · exact keepsIds_setSeq ..

end

/-! ### CREATE and SHARE (R182) -/

/-- A new sequence stands under an identity that was free, with its tally and directory sheaves. -/
theorem newSeq_ok {s s1 : State} {x : Sequence} {ev id : Nat} (h : s.newSeq x = (s1, ev, some id)) :
    id < 65536 ∧ s.seq? id = none ∧ ∃ t d, s1.seq? id = some (x.withTables x.tally t d) := by
  have hevicted := s.keepsIds_evictFor (x.tallyCount + x.dirCount)
  unfold newSeq at h
  dsimp only at h
  split at h
  · cases h
  · split at h <;> cases h
    rename_i hfind
    have hfree : (s.evictFor (x.tallyCount + x.dirCount)).1.seq? id = none := by
      simpa [seq?] using List.find?_some hfind
    exact ⟨List.mem_range.1 (List.mem_of_find?_eq_some hfind), hevicted.free id hfree, _, _, seq?_setSeq_self ..⟩

theorem kvDetail_id {id : Nat} (h : id < 65536) (shared evicted : Nat) : kvDetail id shared evicted % 2 ^ 16 = id := by
  unfold kvDetail
  omega

theorem createKv_ok {s s1 : State} {c c1 : Cmd} (h : s.createKv c = (s1, .ok c1)) : ∃ t d, s.seq? (c1.detail % 2 ^ 16) = none ∧
    s1.seq? (c1.detail % 2 ^ 16) = some ((createdSeq c.recs c.pasid).withTables [] t d) := by
  unfold createKv at h
  dsimp only at h
  split at h <;> cases h
  rename_i hnew
  obtain ⟨hid, hfree, t, d, hseq⟩ := newSeq_ok hnew
  rw [kvDetail_id hid]
  exact ⟨t, d, hfree, hseq⟩

theorem shareKv_ok {s s1 : State} {c c1 : Cmd} {src : Sequence} (hsrc : s.seq? (c.recs.b 20 21) = some src)
    (h : s.shareKv c = (s1, .ok c1)) : ∃ tally t d, s.seq? (c1.detail % 2 ^ 16) = none ∧
      s1.seq? (c1.detail % 2 ^ 16) = some ((sharedSeq src c.recs).withTables tally t d) := by
  have hkept (need : Nat) : KeepsIds s (((((s.lockSeq (c.recs.b 20 21) true).evictFor need).1.lockSeq (c.recs.b 20 21)
      false).beginRead (c.recs.b 20 21) c.die)) :=
    (((keepsIds_lockSeq ..).trans (keepsIds_evictFor ..)).trans (keepsIds_lockSeq ..)).trans (keepsIds_beginRead ..)
  unfold shareKv at h
  dsimp only at h
  rw [hsrc] at h
  dsimp only at h
  split at h
  · cases h
  split at h
  · cases h
  split at h
  · cases h
  split at h <;> cases h
  rename_i s3 _ id hnew
  obtain ⟨hid, hfree, t, d, hseq⟩ := newSeq_ok hnew
  have hnamed : ((sharedSheaves src c.recs).foldl (fun s e => s.addRef e.2) s3).seq? id = s3.seq? id :=
    s3.seq?_of_seqs (List.foldlRecOn (motive := fun t : State => t.granary.seqs = s3.granary.seqs) _ _ rfl
      fun t ht e _ => (t.addRef_seqs e.2).trans ht) id
  rw [kvDetail_id hid, hnamed, hseq]
  exact ⟨_, t, d, (hkept _).free id hfree, seq?_setSeq_self ..⟩

/-- R182: a layer that SHARE takes over has the shorter of `AT` and the source's length. -/
theorem sharedSeq_length (src : Sequence) (r : Recs) {l : Nat} (hl : l < src.layers) :
    (sharedSeq src r).length l = min (r.b 24 27) (src.length l) :=
  Table.getD_find?_nonzero _ hl

/-! ### TRUNCATE (R182) -/

/-- A sequence whose layers of a list have been shortened to n. -/
structure Shortened (layers : List Nat) (n : Nat) (old new : Sequence) : Prop where
  generation : new.generation = old.generation
  length (l : Nat) : new.length l = if l ∈ layers then min n (old.length l) else old.length l

theorem truncateLayer_ok {s : State} {id : Nat} {old : Sequence} (hold : s.seq? id = some old) (layer n : Nat) :
    ∃ new, (s.truncateLayer id layer n).1.seq? id = some new ∧ Shortened [layer] n old new ∧
      ∀ m, m ≠ id → (s.truncateLayer id layer n).1.seq? m = s.seq? m := by
  unfold truncateLayer
  rw [hold]
  dsimp only
  split
  · rename_i hshort
    refine ⟨old, hold, ⟨rfl, fun l => ?_⟩, fun _ _ => rfl⟩
    split
    · rename_i hl
      rw [List.mem_singleton.1 hl, Nat.min_eq_right hshort]
    · rfl
  · rename_i hlong
    refine ⟨_, seq?_setSeq_self .., ⟨rfl, fun l => ?_⟩,
      fun m hm => (seq?_setSeq_ne _ hm _).trans (s.seq?_of_seqs (s.dropRefs_seqs _) m)⟩
    unfold Sequence.length
    split
    · rename_i hl
      obtain rfl := List.mem_singleton.1 hl
      rw [Table.find?_put_self]
      exact (Nat.min_eq_left (Nat.le_of_not_le hlong)).symm
    · rename_i hl
      rw [Table.find?_put_ne (by simpa using hl)]

theorem truncateLayers_ok {id : Nat} (n : Nat) (layers : List Nat) : ∀ {s : State} {old : Sequence} (k : Nat),
    s.seq? id = some old → ∃ new, (layers.foldl (fun (a : State × Nat) l =>
      let (s', m) := a.1.truncateLayer id l n
      (s', a.2 + m)) (s, k)).1.seq? id = some new ∧ Shortened layers n old new ∧
      ∀ m, m ≠ id → (layers.foldl (fun (a : State × Nat) l =>
        let (s', m) := a.1.truncateLayer id l n
        (s', a.2 + m)) (s, k)).1.seq? m = s.seq? m := by
  induction layers with
  | nil => exact fun _ hold => ⟨_, hold, ⟨rfl, fun _ => by simp⟩, fun _ _ => rfl⟩
  | cons layer layers ih =>
    intro s old k hold
    obtain ⟨mid, hmid, hshort, hothers⟩ := truncateLayer_ok hold layer n
    obtain ⟨new, hnew, hrest, hothers'⟩ := ih (k + (s.truncateLayer id layer n).2) hmid
    refine ⟨new, hnew, ⟨hrest.generation.trans hshort.generation, fun l => ?_⟩, fun m hm => (hothers' m hm).trans (hothers m hm)⟩
    rw [hrest.length, hshort.length]
    simp only [List.mem_cons, List.not_mem_nil, or_false]
    split <;> split <;> simp_all

end State
end Sys2Proof.Machine
end

section
namespace Sys2Proof.Machine
open Safety
namespace State

/-! ### The context records as a KV_SHARE begins (R182, R270) -/

theorem truncateKv_ok {s s1 : State} {c c1 : Cmd} {old : Sequence} (hold : s.seq? (c.recs.b 20 21) = some old)
    (h : s.truncateKv c = (s1, .ok c1)) : ∃ new, s1.seq? (c.recs.b 20 21) = some new ∧ new.generation = old.generation + 1 ∧
      (∀ l, new.length l = if bit c.recs.kv 12 = true ∧ l < old.layers ∨ bit c.recs.kv 12 = false ∧ l = c.recs.layer then
        min (c.recs.b 24 27) (old.length l) else old.length l) ∧
      ∀ id, id ≠ c.recs.b 20 21 → s1.seq? id = s.seq? id := by
  unfold truncateKv at h
  dsimp only at h
  rw [hold] at h
  dsimp only at h
  obtain ⟨short, hshort, hlengths, hothers⟩ := truncateLayers_ok (c.recs.b 24 27)
    (if bit c.recs.kv 12 then List.range old.layers else [c.recs.layer]) 0 hold
  rw [hshort] at h
  cases h
  refine ⟨_, seq?_setSeq_self .., congrArg (· + 1) hlengths.generation, fun l => (hlengths.length l).trans ?_,
    fun id hid => (seq?_setSeq_ne _ hid _).trans (hothers id hid)⟩
  cases bit c.recs.kv 12 <;> simp

section
variable {s s1 : State} {c c1 : Cmd}

theorem kvAtIssue_create (hcls : c.recs.cls = 9) (hop : c.recs.kvOp = 0) : s.kvAtIssue c = s.createKv c := by
  unfold kvAtIssue
  rw [hcls, hop]
  rfl

theorem kvAtIssue_share (hcls : c.recs.cls = 9) (hop : c.recs.kvOp = 1) : s.kvAtIssue c = s.shareKv c := by
  unfold kvAtIssue
  rw [hcls, hop]
  rfl

theorem kvAtIssue_truncate (hcls : c.recs.cls = 9) (hop : c.recs.kvOp = 3) : s.kvAtIssue c = s.truncateKv c := by
  unfold kvAtIssue
  rw [hcls, hop]
  rfl

theorem kvAtIssue_free {x : Sequence} (hcls : c.recs.cls = 9) (hop : c.recs.kvOp = 2) (hseq : s.seq? (c.recs.b 20 21) = some x) :
    s.kvAtIssue c = (s.setSeq (c.recs.b 20 21) { x with state := 2 }, .ok { c with writer := true, seqs := [c.recs.b 20 21] }) := by
  unfold kvAtIssue
  dsimp only
  rw [hcls, hop, hseq]
  rfl

theorem kvAtIssue_free_none (hcls : c.recs.cls = 9) (hop : c.recs.kvOp = 2) (hseq : s.seq? (c.recs.b 20 21) = none) :
    s.kvAtIssue c = (s, .error { code := 0x2502 }) := by
  unfold kvAtIssue
  dsimp only
  rw [hcls, hop, hseq]
  rfl

theorem kvAtIssue_hint {x : Sequence} (hcls : c.recs.cls = 9) (hop : c.recs.kvOp = 4) (hseq : s.seq? (c.recs.b 20 21) = some x) :
    s.kvAtIssue c = (s.setSeq (c.recs.b 20 21) { x with
      evictable := bit c.recs.kv 13, priority := bits c.recs.kv 15 14, hint := bits c.recs.kv 17 16 }, .ok c) := by
  unfold kvAtIssue
  dsimp only
  rw [hcls, hop, hseq]
  rfl

end

theorem kvAtIssue_pasid {s s1 : State} {c c1 : Cmd} (h : s.kvAtIssue c = (s1, .ok c1)) : c1.pasid = c.pasid := by
  unfold kvAtIssue reserveAppend createKv shareKv truncateKv at h
  dsimp only at h
  repeat' split at h
  all_goals cases h
  all_goals rfl

@[simp] theorem served_granary (s : State) (q : Nat) (k : Queue) : (s.served q k).granary = s.granary := by
  unfold served
  dsimp only
  rw [onQueue_granary]
  split <;> split <;> rfl

/-- The samples of a KV_SHARE leave the Granary. -/
theorem sampleIssue_kv (s : State) (k : Queue) {c : Cmd} (hcls : c.recs.cls = 9) :
    (s.sampleIssue k c).1.granary = s.granary ∧ (s.sampleIssue k c).2.detail = c.detail ∧
      (s.sampleIssue k c).2.pasid = c.pasid := by
  unfold sampleIssue
  extract_lets arith env c1
  have hreads : s.sampleReads (s.withLimits c1) = (s, s.withLimits c1) := by
    unfold sampleReads
    exact if_pos hcls
  split
  rename_i _ _ hsplit
  obtain ⟨rfl, rfl⟩ := Prod.mk.inj (hreads.symm.trans hsplit)
  extract_lets c3 s2 s3 s4 _ _ s5
  have hfields : c3.detail = c.detail ∧ c3.pasid = c.pasid := ⟨rfl, rfl⟩
  clear_value c3
  refine ⟨?_, hfields⟩
  have hs2 : s2.granary = s.granary := by
    simp only [s2]
    split <;> rfl
  have hs5 : s5.granary = s.granary := by
    simp only [s5]
    split <;> exact hs2
  dsimp only
  split
  · exact hs5
  · obtain ⟨_, _, _, htrace⟩ := counts_traceBegin s5 c3
    rw [htrace]
    exact hs5

end State
end Sys2Proof.Machine

namespace Sys2Proof.Safety
open Machine

section
variable {s v : State} {q : Nat} {c : Cmd}

/-- The reads of the check leave the context records. -/
theorem afterReads_seq? (s : State) (k : Queue) (id : Nat) : (afterReads s k).seq? id = s.seq? id := by
  obtain ⟨_, _, _, _, h⟩ := State.eq_of_besideAccess
    (State.besideAccess_foldl (fun s (a : Access) => s.noteVA_besideAccess (16 + k.region / 8) k.pasid a.va a.len 0 0 false)
      ({ va := descAt k, len := 64, kind := 0 } :: checkReads s k) s)
  rw [afterReads, h]
  rfl

/-- What a KV_SHARE takes at its issue: in a state with the context records of `s` the command `c0` issues as `c1`, and as
`c` begins its work the context records are those that were left. -/
structure TakesKv (s v : State) (c : Cmd) (u s1 : State) (c0 c1 : Cmd) : Prop where
  before (id : Nat) : u.seq? id = s.seq? id
  issue : u.kvAtIssue c0 = (s1, .ok c1)
  after (id : Nat) : v.seq? id = s1.seq? id
  recs : c0.recs = c.recs
  pasid : c0.pasid = c.pasid
  detail : c1.detail = c.detail

theorem Issues.takesKv (h : Issues s q v c) (hcls : c.recs.cls = 9) : ∃ u s1 c0 c1, TakesKv s v c u s1 c0 c1 := by
  obtain ⟨k, s1, c0, k1, hacc, -, hsample, -, -⟩ := h
  have hfetched := State.kvAtIssue_keepsFetched hacc.granary
  have hkept := State.sampleIssue_keepsFetched (taken s1 q k c0) k1 c0
  rw [hsample] at hkept
  obtain ⟨hgranary, hdetail, hpasid⟩ := State.sampleIssue_kv (taken s1 q k c0) k1 (c := c0) (hkept.recs ▸ hcls)
  rw [hsample] at hgranary hdetail hpasid
  have htaken : (taken s1 q k c0).granary = s1.granary := State.served_granary ..
  exact ⟨_, s1, nextCmd s q k, c0, {
    before := afterReads_seq? s k
    issue := hacc.granary
    after := State.seq?_of_seqs s1 (congrArg Granary.seqs (hgranary.trans htaken))
    recs := (hfetched.trans hkept).recs.symm
    pasid := (hpasid.trans (State.kvAtIssue_pasid hacc.granary)).symm
    detail := hdetail.symm }⟩

section
variable {u s1 : State} {c0 c1 : Cmd}

/-- R182: CREATE makes the record of its geometry. -/
theorem TakesKv.create (h : TakesKv s v c u s1 c0 c1) (hcls : c.recs.cls = 9) (hop : c.recs.kvOp = 0) :
    ∃ t d, s.seq? (c.detail % 2 ^ 16) = none ∧
      v.seq? (c.detail % 2 ^ 16) = some ((State.createdSeq c.recs c.pasid).withTables [] t d) := by
  have hissue := h.issue
  rw [State.kvAtIssue_create (h.recs ▸ hcls) (h.recs ▸ hop)] at hissue
  have hmade := State.createKv_ok hissue
  rwa [h.recs, h.pasid, h.detail, h.before, ← h.after] at hmade

/-- R182: SHARE makes the sequence that its source gives. -/
theorem TakesKv.share (h : TakesKv s v c u s1 c0 c1) (hcls : c.recs.cls = 9) (hop : c.recs.kvOp = 1) {src : Sequence}
    (hsrc : s.seq? (c.recs.b 20 21) = some src) : ∃ tally t d, s.seq? (c.detail % 2 ^ 16) = none ∧
      v.seq? (c.detail % 2 ^ 16) = some ((State.sharedSeq src c.recs).withTables tally t d) := by
  have hissue := h.issue
  rw [State.kvAtIssue_share (h.recs ▸ hcls) (h.recs ▸ hop)] at hissue
  have hmade := State.shareKv_ok (by rw [h.recs, h.before, hsrc]) hissue
  rwa [h.recs, h.detail, h.before, ← h.after] at hmade

/-- R182: a FREE that begins has its sequence freeing, and no other changed. -/
theorem TakesKv.free (h : TakesKv s v c u s1 c0 c1) (hcls : c.recs.cls = 9) (hop : c.recs.kvOp = 2) :
    (∀ x, v.seq? (c.recs.b 20 21) = some x → x.state = 2) ∧ ∀ id, id ≠ c.recs.b 20 21 → v.seq? id = s.seq? id := by
  have hissue := h.issue
  cases hseq : u.seq? (c0.recs.b 20 21) with
  | none =>
    rw [State.kvAtIssue_free_none (h.recs ▸ hcls) (h.recs ▸ hop) hseq] at hissue
    cases hissue
  | some x =>
    rw [State.kvAtIssue_free (h.recs ▸ hcls) (h.recs ▸ hop) hseq, h.recs] at hissue
    obtain ⟨hs1, -⟩ := Prod.mk.inj hissue
    refine ⟨fun y hy => ?_, fun id hid => ?_⟩
    · rw [h.after, ← hs1, State.seq?_setSeq_self] at hy
      cases hy
      rfl
    · rw [h.after, ← hs1, State.seq?_setSeq_ne _ hid, h.before]

/-- R182, R192: TRUNCATE shortens its layers in one step with `GENERATION`. -/
theorem TakesKv.truncate (h : TakesKv s v c u s1 c0 c1) (hcls : c.recs.cls = 9) (hop : c.recs.kvOp = 3) {old : Sequence}
    (hold : s.seq? (c.recs.b 20 21) = some old) :
    ∃ new, v.seq? (c.recs.b 20 21) = some new ∧ new.generation = old.generation + 1 ∧
      (∀ l, new.length l = if bit c.recs.kv 12 = true ∧ l < old.layers ∨ bit c.recs.kv 12 = false ∧ l = c.recs.layer then
        min (c.recs.b 24 27) (old.length l) else old.length l) ∧
      ∀ id, id ≠ c.recs.b 20 21 → v.seq? id = s.seq? id := by
  have hissue := h.issue
  rw [State.kvAtIssue_truncate (h.recs ▸ hcls) (h.recs ▸ hop)] at hissue
  have hshort := State.truncateKv_ok (by rw [h.recs, h.before, hold]) hissue
  simpa only [h.recs, h.before, ← h.after] using hshort

/-- R186: HINT sets the eviction fields alone. -/
theorem TakesKv.hint (h : TakesKv s v c u s1 c0 c1) (hcls : c.recs.cls = 9) (hop : c.recs.kvOp = 4) {old : Sequence}
    (hold : s.seq? (c.recs.b 20 21) = some old) :
    v.seq? (c.recs.b 20 21) = some { old with
      evictable := bit c.recs.kv 13, priority := bits c.recs.kv 15 14, hint := bits c.recs.kv 17 16 } ∧
      ∀ id, id ≠ c.recs.b 20 21 → v.seq? id = s.seq? id := by
  have hissue := h.issue
  rw [State.kvAtIssue_hint (h.recs ▸ hcls) (h.recs ▸ hop) (x := old) (by rw [h.recs, h.before, hold]), h.recs] at hissue
  obtain ⟨hs1, -⟩ := Prod.mk.inj hissue
  refine ⟨by rw [h.after, ← hs1, State.seq?_setSeq_self], fun id hid => ?_⟩
  rw [h.after, ← hs1, State.seq?_setSeq_ne _ hid, h.before]

end
end
end Sys2Proof.Safety
end

section
namespace Sys2Proof.Safety
open Machine

/-- R182, R270: each row of KV_SHARE lets its form begin its work. -/
theorem Issues.kvRow_eq {s v : State} {q : Nat} {c : Cmd} (h : Issues s q v c) {op : Nat} (hcls : c.recs.cls = 9)
    (hop : c.recs.kvOp = op) : s.issueNext (State.takesForm 9 5 op Recs.kvOp) q = v.attempt c :=
  h.issueNext_eq (by simp [State.takesForm, show ({ desc := c.recs.desc } : Recs).cls = 9 from hcls,
    show ({ desc := c.recs.desc } : Recs).kvOp = op from hop])

end Sys2Proof.Safety

namespace Sys2Proof.Machine
open Safety

/-- A key that stays is found as before. -/
theorem Table.find?_drop_ne {α : Type} {k n : Nat} (h : n ≠ k) {x : α} {t : Table α} (hfound : Table.find? n t = some x) :
    Table.find? n (Table.drop k t) = some x := by
  induction t with
  | nil => exact hfound
  | cons e t ih =>
    obtain ⟨j, w⟩ := e
    unfold Table.drop at ih ⊢
    unfold Table.find? at hfound
    rw [List.filter_cons]
    by_cases hj : j = n
    · rw [if_pos hj] at hfound
      rw [if_pos (by simp [hj, h])]
      unfold Table.find?
      rw [if_pos hj, hfound]
    · rw [if_neg hj] at hfound
      split at hfound
      · cases hfound
      · rename_i hlt
        split
        · unfold Table.find?
          rw [if_neg hj, if_neg hlt]
          exact ih hfound
        · exact ih hfound

namespace State
section
variable {v : State} {c : Cmd}

/-- The work of CREATE, SHARE, TRUNCATE and HINT was done at their issue. -/
theorem attempt_kvTaken (hcls : c.recs.cls = 9) (hop : c.recs.kvOp ∈ [0, 1, 3, 4]) (hrun : v.mayRun c = true)
    (hbreak : v.breakHolds c = false) : v.attempt c = v.setCmd { c with wait := .done } := by
  unfold attempt
  rw [hrun, hbreak, hcls]
  simp only [List.mem_cons, List.not_mem_nil, or_false] at hop
  obtain hop | hop | hop | hop := hop <;> rw [hop] <;> rfl

theorem attempt_kvFree (hcls : c.recs.cls = 9) (hop : c.recs.kvOp = 2) (hrun : v.mayRun c = true)
    (hbreak : v.breakHolds c = false) : v.attempt c = v.attemptFree c := by
  unfold attempt
  rw [hrun, hbreak, hcls, hop]
  rfl

theorem attempt_kvQuery (hcls : c.recs.cls = 9) (hop : c.recs.kvOp = 5) (hrun : v.mayRun c = true)
    (hbreak : v.breakHolds c = false) : v.attempt c = v.attemptQuery c := by
  unfold attempt
  rw [hrun, hbreak, hcls, hop]
  rfl

theorem attempt_append (hcls : c.recs.cls = 7) (hrun : v.mayRun c = true) (hbreak : v.breakHolds c = false) :
    v.attempt c = v.attemptAppend c := by
  unfold attempt
  rw [hrun, hbreak, hcls]
  rfl

theorem attempt_gather (hcls : c.recs.cls = 8) (hrun : v.mayRun c = true) (hbreak : v.breakHolds c = false) :
    v.attempt c = v.attemptGather c := by
  unfold attempt
  rw [hrun, hbreak, hcls]
  rfl

/-! ### FREE and QUERY (R182) -/

theorem dropRef_eq (s : State) (i : Nat) : ∃ granary, (s.dropRef i).1 = { s with granary := granary } := by
  unfold dropRef
  split
  · exact ⟨_, rfl⟩
  · split <;> exact ⟨_, rfl⟩

theorem dropRefs_eq (s : State) (is : List Nat) : ∃ granary, (s.dropRefs is).1 = { s with granary := granary } :=
  List.foldlRecOn (motive := fun a : State × Nat => ∃ granary, a.1 = { s with granary := granary }) _ _ ⟨_, rfl⟩
    fun a ⟨_, ha⟩ i _ => by
      obtain ⟨_, hdrop⟩ := a.1.dropRef_eq i
      exact ⟨_, hdrop.trans (by rw [ha])⟩

/-- A freed sequence leaves the context records. -/
theorem releaseSeq_eq (s : State) (id : Nat) (x : Sequence) : ∃ granary n,
    s.releaseSeq id x = ({ s with granary := granary }, n) ∧ granary.seqs = Table.drop id s.granary.seqs := by
  unfold releaseSeq
  extract_lets lost isLost named goneData pick goneMeta goodMeta
  obtain ⟨granary, hdropped⟩ := s.dropRefs_eq (named ++ goodMeta)
  have hseqs := s.dropRefs_seqs (named ++ goodMeta)
  rw [hdropped] at hseqs
  split
  rename_i s1 n hsplit
  obtain rfl : s1 = { s with granary := granary } := by rw [← hdropped, hsplit]
  exact ⟨_, n, rfl, congrArg (Table.drop id) hseqs⟩

theorem attemptFree_of_unread {x : Sequence} (hseq : v.seq? (c.recs.b 20 21) = some x) (hreaders : x.readers = 0) :
    ∃ granary n, v.attemptFree c = ({ v with granary := granary } : State).setCmd { c with wait := .done, detail := n } ∧
      granary.seqs = Table.drop (c.recs.b 20 21) v.granary.seqs := by
  obtain ⟨granary, n, hrelease, hseqs⟩ := v.releaseSeq_eq (c.recs.b 20 21) x
  refine ⟨granary, min (2 ^ 32 - 1) n, ?_, hseqs⟩
  unfold attemptFree
  dsimp only
  rw [hseq]
  dsimp only
  rw [hreaders, hrelease]
  rfl

theorem attemptFree_of_read {x : Sequence} (hseq : v.seq? (c.recs.b 20 21) = some x) (hreaders : x.readers ≠ 0) :
    v.attemptFree c = (v.bumpFree 0x2500 0x09).setCmd { c with wait := .granary } := by
  unfold attemptFree
  dsimp only
  rw [hseq]
  exact if_pos (bne_iff_ne.2 hreaders)

theorem attemptQuery_of_clear {x : Sequence} (hseq : v.seq? (c.recs.b 20 21) = some x)
    (hclear : Clear v c [{ va := c.recs.b 40 47, len := 1024, kind := 1 }]) :
    v.attemptQuery c = ((v.noteAll c.region c.pasid [{ va := c.recs.b 40 47, len := 1024, kind := 1 }]).writeVA c.region c.pasid
      (c.recs.b 40 47) 1 (x.record (c.recs.b 20 21))).setCmd { c with wait := .done } := by
  unfold attemptQuery
  dsimp only
  rw [hseq]
  exact withAccess_of_clear hclear _

end
end State
end Sys2Proof.Machine
end

section
namespace Sys2Proof.Machine
open Safety
namespace State

/-! ### What the deliveries and writes of the Granary leave alone (R184, R186, R189)

As `besideAccess` does for an access, each of these takes out of a state what one kind of work may change. -/

/-- What no step of a list changes, the list does not change. -/
theorem foldl_keeps {α β : Type} (rest : State → β) {f : State → α → State} (h : ∀ s a, rest (f s a) = rest s) (l : List α)
    (s : State) : rest (l.foldl f s) = rest s :=
  List.foldlRecOn (motive := fun t : State => rest t = rest s) l f rfl fun _ ht _ _ => (h ..).trans ht

/-- A state but for what an access changes and the walkers' held entries. -/
def besideDelivery (s : State) : State := { s.besideAccess with granary := { s.granary with walkers := [] } }

/-- A state but for what an access changes, the bytes of data sheaves and the marks of lost lines. -/
def besideAppend (s : State) : State := { s.besideAccess with granary := { s.granary with data := [] }, poisoned := [] }

/-- A state but for what a delivery changes and memory. -/
def besideStore (s : State) : State := { s.besideDelivery with devMem := [], hostMem := [], poisoned := [] }

/-- A state but for what a delivery changes, and the rows and counters of the Lofts. -/
def besideLanding (s : State) : State := { s.besideDelivery with loft := { s.loft with rows := [], ctrs := [] } }

section
variable {s t : State}

theorem besideDelivery_of_access (h : t.besideAccess = s.besideAccess) : t.besideDelivery = s.besideDelivery :=
  congrArg (fun r : State => { r with granary := { r.granary with walkers := [] } }) h

theorem besideAppend_of_access (h : t.besideAccess = s.besideAccess) : t.besideAppend = s.besideAppend :=
  congrArg (fun r : State => { r with granary := { r.granary with data := [] }, poisoned := [] }) h

theorem besideStore_of_delivery (h : t.besideDelivery = s.besideDelivery) : t.besideStore = s.besideStore :=
  congrArg (fun r : State => { r with devMem := [], hostMem := [], poisoned := [] }) h

theorem besideLanding_of_delivery (h : t.besideDelivery = s.besideDelivery) : t.besideLanding = s.besideLanding :=
  congrArg (fun r : State => { r with loft := { r.loft with rows := [], ctrs := [] } }) h

theorem besideAppend_setCmd (h : t.besideAppend = s.besideAppend) (c : Cmd) :
    (t.setCmd c).besideAppend = (s.setCmd c).besideAppend :=
  congrArg (fun r : State => r.setCmd c) h

theorem besideStore_setCmd (h : t.besideStore = s.besideStore) (c : Cmd) : (t.setCmd c).besideStore = (s.setCmd c).besideStore :=
  congrArg (fun r : State => r.setCmd c) h

theorem besideLanding_setCmd (h : t.besideLanding = s.besideLanding) (c : Cmd) :
    (t.setCmd c).besideLanding = (s.setCmd c).besideLanding :=
  congrArg (fun r : State => r.setCmd c) h

theorem Traces.besideAccess (h : Traces s t) : t.besideAccess = s.besideAccess := by
  obtain ⟨_, _, rfl, -⟩ := h
  rfl

theorem eq_of_besideDelivery (h : t.besideDelivery = s.besideDelivery) : t = { s with
    trans := t.trans, barn := t.barn, dict := t.dict, obs := t.obs, granary := { s.granary with walkers := t.granary.walkers } } :=
  congrArg (fun r : State => { r with
    trans := t.trans, barn := t.barn, dict := t.dict, obs := t.obs, granary := { r.granary with walkers := t.granary.walkers } }) h

theorem eq_of_besideAppend (h : t.besideAppend = s.besideAppend) : t = { s with
    trans := t.trans, barn := t.barn, dict := t.dict, obs := t.obs, granary := { s.granary with data := t.granary.data },
    poisoned := t.poisoned } :=
  congrArg (fun r : State => { r with
    trans := t.trans, barn := t.barn, dict := t.dict, obs := t.obs, granary := { r.granary with data := t.granary.data },
    poisoned := t.poisoned }) h

theorem eq_of_besideStore (h : t.besideStore = s.besideStore) : t = { s with
    trans := t.trans, barn := t.barn, dict := t.dict, obs := t.obs, granary := { s.granary with walkers := t.granary.walkers },
    devMem := t.devMem, hostMem := t.hostMem, poisoned := t.poisoned } :=
  congrArg (fun r : State => { r with
    trans := t.trans, barn := t.barn, dict := t.dict, obs := t.obs, granary := { r.granary with walkers := t.granary.walkers },
    devMem := t.devMem, hostMem := t.hostMem, poisoned := t.poisoned }) h

theorem eq_of_besideLanding (h : t.besideLanding = s.besideLanding) : t = { s with
    trans := t.trans, barn := t.barn, dict := t.dict, obs := t.obs, granary := { s.granary with walkers := t.granary.walkers },
    loft := { s.loft with rows := t.loft.rows, ctrs := t.loft.ctrs } } :=
  congrArg (fun r : State => { r with
    trans := t.trans, barn := t.barn, dict := t.dict, obs := t.obs, granary := { r.granary with walkers := t.granary.walkers },
    loft := { r.loft with rows := t.loft.rows, ctrs := t.loft.ctrs } }) h

end

section
variable (s : State)

/-! ### Deliveries (R186, R188) -/

theorem sheafTouch_besideAccess (region pasid sheaf off n hint : Nat) (write carter : Bool) :
    (s.sheafTouch region pasid sheaf off n hint write carter).besideAccess = s.besideAccess := by
  unfold sheafTouch
  dsimp only
  split
  · exact (devTouch_besideAccess ..).trans (countCarter_besideAccess ..)
  · exact devTouch_besideAccess ..

theorem walk_besideDelivery (region id index : Nat) : (s.walk region id index).besideDelivery = s.besideDelivery := by
  unfold walk
  split
  · rfl
  · extract_lets held rest s1 new
    have hs1 : s1.besideDelivery = s.besideDelivery := by
      simp only [s1]
      split
      · rfl
      · refine besideDelivery_of_access ((bump_besideAccess ..).trans ?_)
        split
        · exact sheafTouch_besideAccess ..
        · rfl
    exact hs1

theorem deliverKv_besideDelivery (region pasid : Nat) (rs : List KvRead) :
    (s.deliverKv region pasid rs).besideDelivery = s.besideDelivery := by
  refine foldl_keeps besideDelivery (fun s r => ?_) rs s
  split
  · rfl
  · exact (foldl_keeps besideDelivery (fun s _ => besideDelivery_of_access (s.sheafTouch_besideAccess ..)) _ _).trans
      (walk_besideDelivery ..)

/-! ### The bytes of an append (R183–R185) -/

theorem touchAppend_besideAccess (x : Sequence) (region pasid : Nat) (reserved : List (Nat × Nat)) (layer atPos n : Nat) :
    (s.touchAppend x region pasid reserved layer atPos n).besideAccess = s.besideAccess := by
  unfold touchAppend
  extract_lets copied s1
  have hs1 : s1.besideAccess = s.besideAccess :=
    foldl_keeps besideAccess (fun s _ => (sheafTouch_besideAccess ..).trans (s.sheafTouch_besideAccess ..)) _ s
  refine (foldl_keeps besideAccess (fun s r => ?_) _ s1).trans hs1
  split
  · rfl
  · exact foldl_keeps besideAccess (fun s _ => s.sheafTouch_besideAccess ..) _ s

theorem copyBlocks_besideAppend (x : Sequence) (reserved : List (Nat × Nat)) :
    (s.copyBlocks x reserved).1.besideAppend = s.besideAppend :=
  List.foldlRecOn (motive := fun a : State × Nat => a.1.besideAppend = s.besideAppend) _ _ rfl fun a ha r _ => by
    split <;> exact ha

theorem writeTokens_besideAppend (x : Sequence) (reserved : List (Nat × Nat)) (layer atPos n : Nat)
    (bytesOf : Nat → Nat → List Byte × List Byte × List Byte) :
    (s.writeTokens x reserved layer atPos n bytesOf).besideAppend = s.besideAppend := by
  refine foldl_keeps besideAppend (fun s t => foldl_keeps besideAppend (fun s h => ?_) _ s) _ s
  extract_lets
  split <;> rfl

/-! ### Memory and rows that a gather fills (R189) -/

theorem physWrite_besideStore (pa : Nat) (bs : List Byte) : (s.physWrite pa bs).besideStore = s.besideStore := by
  unfold physWrite
  split <;> rfl

theorem writeVA_besideStore (port pasid va access : Nat) (bs : List Byte) :
    (s.writeVA port pasid va access bs).besideStore = s.besideStore := by
  refine foldl_keeps besideStore (fun s p => ?_) _ s
  split
  · exact physWrite_besideStore ..
  · rfl

end

end State
end Sys2Proof.Machine
end

section
namespace Sys2Proof.Machine
open Safety
namespace State
variable {v : State} {c : Cmd} {x : Sequence}

theorem captureRun_besideAccess (s pre : State) (c : Cmd) : (s.captureRun pre c).besideAccess = s.besideAccess := by
  unfold captureRun
  rfl

theorem begun_besideAccess {s t : State} (h : t.besideAccess = s.besideAccess) : (t.beginTrace c).1.besideAccess = s.besideAccess :=
  (traces_beginTrace t c).besideAccess.trans h

theorem begun_besideDelivery {s t : State} (h : t.besideDelivery = s.besideDelivery) :
    (t.beginTrace c).1.besideDelivery = s.besideDelivery :=
  (besideDelivery_of_access (traces_beginTrace t c).besideAccess).trans h

/-! ### KV_APPEND (R183–R185) -/

/-- R184: an append whose source bytes are read writes its tokens and has finished; its commit comes with its completion. -/
theorem attemptAppend_of_clear (hseq : v.seq? (c.recs.b 20 21) = some x) (hclear : Clear v c (readsOf (appendReads c.recs x))) :
    ∃ (u : State) (detail : Nat), u.besideAppend = v.besideAppend ∧
      Traces (u.setCmd { c with begun := true, wait := .done, detail := detail }) (v.attemptAppend c) := by
  unfold attemptAppend
  dsimp only
  rw [hseq]
  dsimp only
  rw [withAccess_of_clear hclear, beginTrace_cmd]
  refine ⟨_, _, ?_, traces_traceEnd _ _⟩
  refine (besideAppend_of_access ((captureRun_besideAccess ..).trans (bump_besideAccess ..))).trans ?_
  refine (writeTokens_besideAppend ..).trans ((copyBlocks_besideAppend ..).trans (besideAppend_of_access ?_))
  exact (touchAppend_besideAccess ..).trans (begun_besideAccess (noteAll_besideAccess ..))

/-! ### KV_GATHER (R189) -/

/-- A command whose sheaves are whole takes its deliveries at once. -/
theorem withSheaves_of_whole {s : State} {rs : List KvRead} (h : s.kvLost rs = none) (work : State → State) :
    s.withSheaves c rs work = work (s.deliverKv c.region c.pasid rs) := by
  unfold withSheaves
  rw [h]

theorem gatherMemory_of_clear (hlost : v.kvLost (gatherReads c x) = none) (hclear : Clear v c (writesOf (v.outputsOf c))) :
    ∃ u : State, u.besideStore = v.besideStore ∧ Traces (u.setCmd { c with begun := true, wait := .done }) (v.gatherMemory c x) := by
  have hnoted := ((notes_noteAll v c.region c.pasid (writesOf (v.outputsOf c))).kvLost (gatherReads c x)).trans hlost
  unfold gatherMemory
  dsimp only
  rw [withAccess_of_clear hclear, withSheaves_of_whole hnoted]
  rw [beginTrace_cmd]
  refine ⟨_, ?_, traces_traceEnd _ _⟩
  refine (besideStore_of_delivery (besideDelivery_of_access (captureRun_besideAccess ..))).trans ?_
  refine (foldl_keeps besideStore (fun s i => foldl_keeps besideStore (fun s h => ?_) _ s) _ _).trans ?_
  · split <;> simp only [writeVA_besideStore]
  · exact besideStore_of_delivery (begun_besideDelivery ((deliverKv_besideDelivery ..).trans
      (besideDelivery_of_access (noteAll_besideAccess ..))))

/-- The rows of one tile land on the clusters of a gather. -/
def tileLanded (s : State) (p : Partition) (c : Cmd) (first : Nat) (rows : List (List Byte)) : State :=
  (setBits (c.recs.b 34 35) 16).foldl (fun s k =>
    rows.zipIdx.foldl (fun s b => s.landRow p c.region k (first + b.2) b.1 false) s) s

/-- R189, R210: a tile that has landed counts on each of them. -/
def tileGathered (s : State) (p : Partition) (c : Cmd) (first : Nat) (rows : List (List Byte)) : State :=
  (setBits (c.recs.b 34 35) 16).foldl (fun s k => s.countUp p c.region k (c.recs.b 33 33) 1)
    ((s.tileLanded p c first rows).countRows c.pasid rows.length (setBits (c.recs.b 34 35) 16).length)

theorem gatherLoft_of_whole (hlost : v.kvLost (gatherReads c x) = none) :
    ∃ (u : State) (first : Nat → Nat) (rows : Nat → List (List Byte)), u.besideDelivery = v.besideDelivery ∧
      Traces (((List.range (ceilDiv (c.recs.b 28 31) 64)).foldl (fun s t => s.tileGathered (v.cmdPart c) c (first t) (rows t))
        u).setCmd { c with begun := true, wait := .done, released := true }) (v.gatherLoft c x) := by
  unfold gatherLoft
  rw [withSheaves_of_whole hlost]
  have hbegun := begun_besideDelivery (c := c) (v.deliverKv_besideDelivery c.region c.pasid (gatherReads c x))
  dsimp only
  rw [beginTrace_cmd]
  have hpart : (((v.deliverKv c.region c.pasid (gatherReads c x)).beginTrace c).1).cmdPart { c with begun := true } = v.cmdPart c := by
    rw [eq_of_besideDelivery hbegun]
    rfl
  rw [hpart]
  exact ⟨_, _, _, hbegun, traces_traceEnd _ _⟩

/-! ### Arrivals of a Loft gather (R189, R210) -/

theorem tileLanded_besideLanding (s : State) (p : Partition) (c : Cmd) (first : Nat) (rows : List (List Byte)) :
    (s.tileLanded p c first rows).besideLanding = s.besideLanding := by
  refine foldl_keeps besideLanding (fun s k => ?_) _ s
  exact foldl_keeps besideLanding (f := fun s (b : List Byte × Nat) => s.landRow p c.region k (first + b.2) b.1 false) (fun _ _ => rfl) _ s

theorem tileLanded_ctrs (s : State) (p : Partition) (c : Cmd) (first : Nat) (rows : List (List Byte)) :
    (s.tileLanded p c first rows).loft.ctrs = s.loft.ctrs := by
  refine foldl_keeps (fun s => s.loft.ctrs) (fun s k => ?_) _ s
  exact foldl_keeps (fun s => s.loft.ctrs)
    (f := fun s (b : List Byte × Nat) => s.landRow p c.region k (first + b.2) b.1 false) (fun _ _ => rfl) _ s

theorem countUp_besideLanding (s : State) (p : Partition) (region cluster index n : Nat) :
    (s.countUp p region cluster index n).besideLanding = s.besideLanding := by
  unfold countUp
  rfl

theorem countRows_besideAccess (s : State) (pasid rows receivers : Nat) :
    (s.countRows pasid rows receivers).besideAccess = s.besideAccess := by
  unfold countRows
  rw [bumpTask_besideAccess, bump_besideAccess, bump_besideAccess]

theorem tileGathered_besideLanding (s : State) (p : Partition) (c : Cmd) (first : Nat) (rows : List (List Byte)) :
    (s.tileGathered p c first rows).besideLanding = s.besideLanding := by
  refine (foldl_keeps besideLanding (fun s k => countUp_besideLanding ..) _ _).trans ?_
  refine (besideLanding_of_delivery (besideDelivery_of_access (countRows_besideAccess ..))).trans ?_
  exact s.tileLanded_besideLanding p c first rows

theorem loftKey_inj {region a b index : Nat} (h : loftKey region a index = loftKey region b index) : a = b := by
  unfold loftKey at h
  omega

theorem ctr_countUp_self (s : State) (p : Partition) (region cluster index n : Nat) :
    (s.countUp p region cluster index n).ctr (loftKey region cluster (p.ctrBase + index)) =
      (s.ctr (loftKey region cluster (p.ctrBase + index)) + n) % 2 ^ 32 := by
  unfold countUp setCtr
  exact congrArg (Option.getD · 0) (Table.find?_put_self ..)

theorem ctr_countUp_ne (s : State) (p : Partition) (region : Nat) {a b : Nat} (h : a ≠ b) (index n : Nat) :
    (s.countUp p region b index n).ctr (loftKey region a (p.ctrBase + index)) =
      s.ctr (loftKey region a (p.ctrBase + index)) :=
  congrArg (Option.getD · 0) (Table.find?_put_ne (fun hkey => h (loftKey_inj hkey)) ..)

/-- Each cluster of a list without repetition counts once, modulo 2^32. -/
theorem ctr_countUps (p : Partition) (region index n : Nat) {cs : List Nat} (hcs : cs.Nodup) (hn : n ∈ cs) : ∀ s : State,
    (cs.foldl (fun s k => s.countUp p region k index 1) s).ctr (loftKey region n (p.ctrBase + index)) % 2 ^ 32 =
      (s.ctr (loftKey region n (p.ctrBase + index)) + 1) % 2 ^ 32 := by
  have hrest (l : List Nat) (hl : n ∉ l) (s : State) :
      (l.foldl (fun s k => s.countUp p region k index 1) s).ctr (loftKey region n (p.ctrBase + index)) =
        s.ctr (loftKey region n (p.ctrBase + index)) :=
    List.foldlRecOn (motive := fun t : State => t.ctr (loftKey region n (p.ctrBase + index)) =
      s.ctr (loftKey region n (p.ctrBase + index))) l _ rfl fun t ht k hk =>
        (t.ctr_countUp_ne p region (ne_of_mem_of_not_mem hk hl).symm index 1).trans ht
  induction cs with
  | nil => cases hn
  | cons k cs ih =>
    intro s
    obtain ⟨hk, hcs⟩ := List.nodup_cons.1 hcs
    rw [List.foldl_cons]
    obtain rfl | hn := List.mem_cons.1 hn
    · rw [hrest cs hk, ctr_countUp_self, Nat.mod_mod]
    · rw [ih hcs hn, ctr_countUp_ne _ _ _ (ne_of_mem_of_not_mem hn hk)]

theorem mem_setBits {m k n : Nat} : n ∈ setBits m k ↔ n < k ∧ bit m n = true := by
  rw [setBits, List.mem_filter, List.mem_range]

theorem setBits_nodup (m k : Nat) : (setBits m k).Nodup := List.nodup_range.filter _

theorem ctr_tileGathered (s : State) (p : Partition) (c : Cmd) (first : Nat) (rows : List (List Byte)) {n : Nat}
    (hn : n ∈ setBits (c.recs.b 34 35) 16) :
    (s.tileGathered p c first rows).ctr (loftKey c.region n (p.ctrBase + c.recs.b 33 33)) % 2 ^ 32 =
      (s.ctr (loftKey c.region n (p.ctrBase + c.recs.b 33 33)) + 1) % 2 ^ 32 := by
  have hlanded : ((s.tileLanded p c first rows).countRows c.pasid rows.length (setBits (c.recs.b 34 35) 16).length).ctr
      (loftKey c.region n (p.ctrBase + c.recs.b 33 33)) = s.ctr (loftKey c.region n (p.ctrBase + c.recs.b 33 33)) :=
    congrArg (fun t => (Table.find? _ t).getD 0) (s.tileLanded_ctrs p c first rows)
  rw [tileGathered, ctr_countUps p c.region _ n (setBits_nodup ..) hn, hlanded]

/-- Every tile of a gather counts. -/
theorem ctr_tilesGathered (p : Partition) (c : Cmd) (first : Nat → Nat) (rows : Nat → List (List Byte)) {n : Nat}
    (hn : n ∈ setBits (c.recs.b 34 35) 16) (s : State) (tiles : Nat) :
    ((List.range tiles).foldl (fun s t => s.tileGathered p c (first t) (rows t)) s).ctr
        (loftKey c.region n (p.ctrBase + c.recs.b 33 33)) % 2 ^ 32 =
      (s.ctr (loftKey c.region n (p.ctrBase + c.recs.b 33 33)) + tiles) % 2 ^ 32 := by
  induction tiles with
  | zero => rfl
  | succ tiles ih =>
    rw [List.range_succ, List.foldl_append, List.foldl_cons, List.foldl_nil, ctr_tileGathered _ _ _ _ _ hn, Nat.add_mod, ih]
    omega

end State
end Sys2Proof.Machine
end

section
namespace Sys2Proof.Machine
open Safety
namespace State
variable {v : State} {c : Cmd} {x : Sequence}

theorem writeVA_cmds (s : State) (port pasid va access : Nat) (bs : List Byte) : (s.writeVA port pasid va access bs).cmds = s.cmds := by
  obtain ⟨_, _, _, _, hwritten⟩ := writesMemory_writeVA s port pasid va access bs
  rw [hwritten]

/-! ### The frames of an append and a gather (R184, R189) -/

section
variable {u t : State} {d : Cmd}

theorem Traces.frame_of_append (htraced : Traces (u.setCmd d) t) (hwork : u.besideAppend = v.besideAppend) :
    t.cmds = (v.setCmd d).cmds ∧ t.granary.seqs = v.granary.seqs ∧ t.granary.sheaves = v.granary.sheaves ∧
      t = { v with cmds := t.cmds, granary := t.granary, trans := t.trans, barn := t.barn, dict := t.dict, obs := t.obs,
                   poisoned := t.poisoned } := by
  have ht := (besideAppend_of_access htraced.besideAccess).trans (besideAppend_setCmd hwork d)
  have hcmds : t.cmds = (v.setCmd d).cmds := (congrArg (fun s : State => s.cmds) ht :)
  have hframe := eq_of_besideAppend ht
  have hgranary : t.granary = { v.granary with data := t.granary.data } := (congrArg (fun s : State => s.granary) hframe :)
  refine ⟨hcmds, (congrArg (fun g : Granary => g.seqs) hgranary :), (congrArg (fun g : Granary => g.sheaves) hgranary :), ?_⟩
  rw [hcmds, hgranary]
  exact hframe

theorem Traces.frame_of_store (htraced : Traces (u.setCmd d) t) (hwork : u.besideStore = v.besideStore) :
    t.cmds = (v.setCmd d).cmds ∧
      t = { v with cmds := t.cmds, trans := t.trans, barn := t.barn, dict := t.dict, obs := t.obs, devMem := t.devMem,
                   hostMem := t.hostMem, poisoned := t.poisoned, granary := { v.granary with walkers := t.granary.walkers } } := by
  have ht := (besideStore_of_delivery (besideDelivery_of_access htraced.besideAccess)).trans (besideStore_setCmd hwork d)
  have hcmds : t.cmds = (v.setCmd d).cmds := (congrArg (fun s : State => s.cmds) ht :)
  refine ⟨hcmds, ?_⟩
  rw [hcmds]
  exact eq_of_besideStore ht

theorem Traces.frame_of_landing (htraced : Traces (u.setCmd d) t) (hwork : u.besideLanding = v.besideLanding) :
    t.cmds = (v.setCmd d).cmds ∧ t.loft.sems = v.loft.sems ∧ t.loft.ctrs = u.loft.ctrs ∧
      t = { v with cmds := t.cmds, loft := t.loft, dict := t.dict, obs := t.obs, barn := t.barn, trans := t.trans,
                   granary := { v.granary with walkers := t.granary.walkers } } := by
  have ht := (besideLanding_of_delivery (besideDelivery_of_access htraced.besideAccess)).trans (besideLanding_setCmd hwork d)
  have hcmds : t.cmds = (v.setCmd d).cmds := (congrArg (fun s : State => s.cmds) ht :)
  have hframe := eq_of_besideLanding ht
  have hloft : t.loft = { v.loft with rows := t.loft.rows, ctrs := t.loft.ctrs } := (congrArg (fun s : State => s.loft) hframe :)
  refine ⟨hcmds, (congrArg (fun l : Loft => l.sems) hloft :), (congrArg (fun s : State => s.loft.ctrs) htraced.besideAccess :), ?_⟩
  rw [hcmds, hloft]
  exact hframe

/-- A finished command is found as it was put back. -/
theorem cmd?_of_setCmd_cmds (hfound : v.cmd? c.q c.i = some c) (hcmds : t.cmds = (v.setCmd d).cmds) (hq : d.q = c.q)
    (hi : d.i = c.i) : t.cmd? c.q c.i = some d := by
  have hput : (v.setCmd d).cmd? d.q d.i = some d := cmd?_setCmd (by rw [hq, hi, hfound]; rfl)
  rw [cmd?, hcmds, ← hq, ← hi]
  exact hput

end

/-- A finished append: its tokens stand in the sheaves' bytes, and no context record and no use of a sheaf has changed. -/
theorem attemptAppend_frame (hfound : v.cmd? c.q c.i = some c) (hseq : v.seq? (c.recs.b 20 21) = some x)
    (hclear : Clear v c (readsOf (appendReads c.recs x))) : ∃ t detail, v.attemptAppend c = t ∧
      t.cmd? c.q c.i = some { c with begun := true, wait := .done, detail := detail } ∧
      t.granary.seqs = v.granary.seqs ∧ t.granary.sheaves = v.granary.sheaves ∧
      t = { v with cmds := t.cmds, granary := t.granary, trans := t.trans, barn := t.barn, dict := t.dict, obs := t.obs,
                   poisoned := t.poisoned } := by
  obtain ⟨u, detail, hwork, htraced⟩ := attemptAppend_of_clear hseq hclear
  obtain ⟨hcmds, hframe⟩ := htraced.frame_of_append hwork
  exact ⟨_, detail, rfl, cmd?_of_setCmd_cmds hfound hcmds rfl rfl, hframe⟩

/-- A finished gather into memory. -/
theorem gatherMemory_frame (hfound : v.cmd? c.q c.i = some c) (hlost : v.kvLost (gatherReads c x) = none)
    (hclear : Clear v c (writesOf (v.outputsOf c))) : ∃ t, v.gatherMemory c x = t ∧
      t.cmd? c.q c.i = some { c with begun := true, wait := .done } ∧
      t = { v with cmds := t.cmds, trans := t.trans, barn := t.barn, dict := t.dict, obs := t.obs, devMem := t.devMem,
                   hostMem := t.hostMem, poisoned := t.poisoned, granary := { v.granary with walkers := t.granary.walkers } } := by
  obtain ⟨u, hwork, htraced⟩ := gatherMemory_of_clear hlost hclear
  obtain ⟨hcmds, hframe⟩ := htraced.frame_of_store hwork
  exact ⟨_, rfl, cmd?_of_setCmd_cmds hfound hcmds rfl rfl, hframe⟩

/-- A finished gather into Loft rows: every tile has counted on every cluster that it names. -/
theorem gatherLoft_frame (hfound : v.cmd? c.q c.i = some c) (hlost : v.kvLost (gatherReads c x) = none) :
    ∃ t, v.gatherLoft c x = t ∧ t.cmd? c.q c.i = some { c with begun := true, wait := .done, released := true } ∧
      (∀ n, n < 16 → bit (c.recs.b 34 35) n = true → t.ctr (loftKey c.region n ((v.cmdPart c).ctrBase + c.recs.b 33 33)) % 2 ^ 32 =
        (v.ctr (loftKey c.region n ((v.cmdPart c).ctrBase + c.recs.b 33 33)) + ceilDiv (c.recs.b 28 31) 64) % 2 ^ 32) ∧
      t.loft.sems = v.loft.sems ∧
      t = { v with cmds := t.cmds, loft := t.loft, dict := t.dict, obs := t.obs, barn := t.barn, trans := t.trans,
                   granary := { v.granary with walkers := t.granary.walkers } } := by
  obtain ⟨u, first, rows, hwork, htraced⟩ := gatherLoft_of_whole hlost
  have hlanded := (foldl_keeps besideLanding
    (fun s t => s.tileGathered_besideLanding (v.cmdPart c) c (first t) (rows t)) (List.range (ceilDiv (c.recs.b 28 31) 64)) u).trans
    (besideLanding_of_delivery hwork)
  obtain ⟨hcmds, hsems, hctrs, hframe⟩ := htraced.frame_of_landing hlanded
  refine ⟨_, rfl, cmd?_of_setCmd_cmds hfound hcmds rfl rfl, fun n hn hbit => ?_, hsems, hframe⟩
  have hstart : u.loft.ctrs = v.loft.ctrs := (congrArg (fun s : State => s.loft.ctrs) hwork :)
  have hcount := ctr_tilesGathered (v.cmdPart c) c first rows (mem_setBits.2 ⟨hn, hbit⟩) u (ceilDiv (c.recs.b 28 31) 64)
  unfold ctr at hcount ⊢
  rw [hctrs, hcount, hstart]

end State

/-- Settles O55: each row begins the work of its form. CREATE, SHARE, TRUNCATE and HINT change the context records at their
issue, and the samples that follow leave them; an append and a gather change what their frames name. -/
theorem granaryCommands : Obligations.GranaryCommands := by
  intro s v q c hissues
  obtain ⟨rfl, hstatus, -, hfound⟩ := hissues.begins
  have hstands : (v.cmd? c.q c.i).isSome = true := by rw [hfound]; rfl
  obtain ⟨hrun, hbreak⟩ := hissues.mayWork
  have htaken (hcls : c.recs.cls = 9) {op : Nat} (hop : c.recs.kvOp = op) (hmem : op ∈ [0, 1, 3, 4]) :
      s.issueNext (State.takesForm 9 5 op Recs.kvOp) c.q = v.setCmd { c with wait := .done } :=
    (hissues.kvRow_eq hcls hop).trans (State.attempt_kvTaken hcls (hop ▸ hmem) hrun hbreak)
  have hdone : (v.setCmd { c with wait := .done }).cmd? c.q c.i = some { c with wait := .done } :=
    State.cmd?_setCmd (c := { c with wait := .done }) hstands
  refine ⟨fun hcls hop => ?_, fun src hcls hop hsrc => ?_, fun sq hcls hop hseq => ?_, fun old hcls hop hold => ?_,
    fun old hcls hop hold => ?_, fun sq u hcls hop hseq hclear hu => ?_, fun sq hcls hseq hclear => ?_,
    fun sq hcls hseq hlost => ?_⟩
  · obtain ⟨_, _, _, _, hkv⟩ := hissues.takesKv hcls
    obtain ⟨_, _, hfree, hmade⟩ := hkv.create hcls hop
    exact ⟨_, _, congrArg Host.Outcome.next (htaken hcls hop (by decide)), hdone, hfree, hmade,
      rfl, rfl, rfl, rfl, rfl, rfl, rfl, rfl, rfl, rfl, rfl⟩
  · obtain ⟨_, _, _, _, hkv⟩ := hissues.takesKv hcls
    obtain ⟨_, _, _, hfree, hmade⟩ := hkv.share hcls hop hsrc
    exact ⟨_, _, congrArg Host.Outcome.next (htaken hcls hop (by decide)), hdone, hfree, hmade, rfl, rfl, rfl, rfl, rfl, rfl,
      fun _ hl => State.sharedSeq_length src c.recs hl, rfl⟩
  · obtain ⟨_, _, _, _, hkv⟩ := hissues.takesKv hcls
    obtain ⟨hfreeing, hothers⟩ := hkv.free hcls hop
    have hexec : exec (.kvFree c.q) s = .next (v.attemptFree c) :=
      congrArg Host.Outcome.next ((hissues.kvRow_eq hcls hop).trans (State.attempt_kvFree hcls hop hrun hbreak))
    refine ⟨fun hreaders => ?_, fun hreaders => ?_⟩
    · obtain ⟨_, n, hfree, hseqs⟩ := State.attemptFree_of_unread hseq hreaders
      refine ⟨_, n, hexec.trans (congrArg Host.Outcome.next hfree),
        State.cmd?_setCmd (c := { c with wait := .done, detail := n }) hstands, ?_, fun id x hid hx => ?_, rfl⟩
      · exact (congrArg (Table.find? _) hseqs).trans (Table.find?_drop_self ..)
      · exact (congrArg (Table.find? _) hseqs).trans (Table.find?_drop_ne hid ((hothers id hid).trans hx))
    · exact ⟨_, hexec.trans (congrArg Host.Outcome.next (State.attemptFree_of_read hseq hreaders)),
        State.cmd?_setCmd (c := { c with wait := .granary }) hstands, hseq, hfreeing _ hseq, rfl⟩
  · obtain ⟨_, _, _, _, hkv⟩ := hissues.takesKv hcls
    obtain ⟨new, hnew, hgeneration, hlengths, hothers⟩ := hkv.truncate hcls hop hold
    exact ⟨_, new, congrArg Host.Outcome.next (htaken hcls hop (by decide)), hdone, hnew, hgeneration, hlengths, hothers, rfl⟩
  · obtain ⟨_, _, _, _, hkv⟩ := hissues.takesKv hcls
    obtain ⟨hset, hothers⟩ := hkv.hint hcls hop hold
    exact ⟨_, congrArg Host.Outcome.next (htaken hcls hop (by decide)), hdone, hset, hothers, rfl⟩
  · have hcmds : u.cmds = v.cmds := hu ▸ (State.writeVA_cmds ..).trans (State.notes_noteAll v ..).cmds
    have hquery : v.attemptQuery c = u.setCmd { c with wait := .done } := hu ▸ State.attemptQuery_of_clear hseq hclear
    refine ⟨_, congrArg Host.Outcome.next ((hissues.kvRow_eq hcls hop).trans
      ((State.attempt_kvQuery hcls hop hrun hbreak).trans hquery)), ?_, rfl⟩
    exact State.cmd?_setCmd (c := { c with wait := .done }) (by rw [State.cmd?, hcmds]; exact hstands)
  · obtain ⟨t, detail, ht, hcmd, hseqs, hsheaves, hframe⟩ := State.attemptAppend_frame hfound hseq hclear
    exact ⟨t, _, congrArg Host.Outcome.next
      ((hissues.issueClass_eq hcls).trans ((State.attempt_append hcls hrun hbreak).trans ht)), hcmd, rfl, hstatus, rfl, (v.seq?_of_seqs hseqs _).trans hseq, hsheaves, hframe⟩
  · have hexec : exec (.kvGather c.q) s = .next (v.attemptGather c) :=
      congrArg Host.Outcome.next ((hissues.issueClass_eq hcls).trans (State.attempt_gather hcls hrun hbreak))
    unfold State.attemptGather at hexec
    rw [hseq] at hexec
    refine ⟨fun hkind hclear => ?_, fun hkind _ => ?_⟩
    · obtain ⟨t, ht, hcmd, hframe⟩ := State.gatherMemory_frame hfound hlost hclear
      exact ⟨t, _, hexec.trans (congrArg Host.Outcome.next ((if_neg (ne_true_of_eq_false hkind)).trans ht)),
        hcmd, rfl, hstatus, hframe⟩
    · obtain ⟨t, ht, hcmd, hctrs, hsems, hframe⟩ := State.gatherLoft_frame hfound hlost
      exact ⟨t, _, hexec.trans (congrArg Host.Outcome.next ((if_pos hkind).trans ht)),
        hcmd, rfl, hstatus, rfl, hctrs, hsems, hframe⟩

end Sys2Proof.Machine
end

section
namespace Sys2Proof.Machine
open Safety

/-! ### A unit of a die whose fault meets a command at its limit (R361, R362, R365)

A command that reaches `LOFT_RERUN_LIMIT` escalates the domain of its last fault by one step. A bridge half, a Bruora port, a
Barn slice or a stack controller lies in no cluster and no region, so that one step above the unit is the die, which stops. The
frame that O39 gives a command at its limit leaves the ledgers, the outbox and Bellman free, but not `pins`. -/

/-- The half of the die-to-die bridge on die 0. -/
def bridgeHalf0 : Nat := mkLoc true 0 0 0 0x1F 12 0 0xFF

/-- A memory wait of queue 3 that has run again as often as the limit allows. -/
def rerunTwice : Cmd :=
  { q := 3, i := 0, pasid := 5, die := 0, region := 0, clusters := 3, recs := { desc := leBytes 64 (10 + 2 * 2 ^ 128) },
    wait := .memory, begun := true, reruns := 2 }

def rerunTwiceInFlight : State := { State.reset with queues := [(3, borrowingQueue)], cmds := [rerunTwice] }

/-- The bridge half is a unit of a die in service that no domain holds, and the command may still be affected. -/
theorem rerunTwice_atLimit :
    locOk bridgeHalf0 = true ∧ locPhys bridgeHalf0 = true ∧ bit rerunTwiceInFlight.pins.dies (locDie bridgeHalf0) = true ∧
      locKind bridgeHalf0 = 12 ∧ rerunTwiceInFlight.domainOf (bareLoc (rerunTwiceInFlight.fullLoc bridgeHalf0)) = none ∧
      State.openCmd rerunTwice = true ∧ rerunTwiceInFlight.keptReg 0x2600 0x07 2 ≤ rerunTwice.reruns := by
  decide +kernel

/-- R361: a transfer check code mismatch there stops die 0. -/
theorem faultDetected_stopsDie :
    (rerunTwiceInFlight.faultDetected 0x2C0D bridgeHalf0 0 (some (3, 0)) true).pins.stopped = 1 := by
  decide +kernel

/-- Refutes O39: its clause about a command at its limit frames all of `pins`, but a fault of a die's own unit escalates to the
die, which stops. -/
theorem not_faultsDetected : ¬ Obligations.FaultsDetected := by
  intro h
  obtain ⟨hok, hphys, hdie, hkind, hdomain, hopen, hlimit⟩ := rerunTwice_atLimit
  have hnodomain : NoDomain rerunTwiceInFlight (bareLoc (rerunTwiceInFlight.fullLoc bridgeHalf0)) :=
    ⟨hdomain, fun _ hx => absurd hx List.not_mem_nil⟩
  obtain ⟨-, hserving⟩ := h rerunTwiceInFlight 0x2C0D bridgeHalf0 0 (by decide) hok hphys hdie hnodomain
  obtain ⟨-, hcommand⟩ := hserving fun hk => absurd hk (by rw [hkind]; decide)
  obtain ⟨-, -, hlast⟩ := hcommand 3 0 rerunTwice rfl hopen
  obtain ⟨t, -, ht, -, -, -, halone⟩ := hlast rfl rfl hlimit
  have hresult : rerunTwiceInFlight.faultDetected 0x2C0D bridgeHalf0 0 (some (3, 0)) true = t := by injection ht
  have hpins : t.pins = rerunTwiceInFlight.pins := by rw [halone]
  have hstopped := faultDetected_stopsDie
  rw [hresult, hpins] at hstopped
  exact absurd hstopped (by decide)

end Sys2Proof.Machine
end

section
namespace Sys2Proof.Machine
open Safety
namespace State

/-! ### Other commands than the one put back -/

/-- A command under another key is found as before. -/
theorem cmd?_setCmd_ne (s : State) {c : Cmd} {a b : Nat} (h : (a, b) ≠ (c.q, c.i)) : (s.setCmd c).cmd? a b = s.cmd? a b := by
  have hother (y : Cmd) (hy : (y.q == a && y.i == b) = true) : ¬(y.q == c.q && y.i == c.i) = true := by
    simp only [Bool.and_eq_true, beq_iff_eq] at hy ⊢
    rintro ⟨hq, hi⟩
    exact h (by rw [← hy.1, ← hy.2, hq, hi])
  have hsame : (fun y : Cmd => y.q == a && y.i == b) ∘ (fun y : Cmd => if y.q == c.q && y.i == c.i then c else y) =
      fun y => y.q == a && y.i == b := by
    funext y
    by_cases hy : (y.q == c.q && y.i == c.i) = true
    · have hc : (c.q == a && c.i == b) = false := by
        rw [Bool.eq_false_iff]
        exact fun hc => hother c hc (by simp)
      have hy' : (y.q == a && y.i == b) = false := by
        rw [Bool.eq_false_iff]
        exact fun hy' => hother y hy' hy
      simp only [Function.comp_apply, hy, if_true, hc, hy']
    · simp only [Function.comp_apply, if_neg hy]
  unfold cmd? setCmd
  rw [List.find?_map, hsame]
  cases hfound : s.cmds.find? fun y => y.q == a && y.i == b with
  | none => rfl
  | some x => rw [Option.map_some, if_neg (hother x (List.find?_some (p := fun y : Cmd => y.q == a && y.i == b) hfound))]

theorem failCmd_cmd?_ne (s : State) {c : Cmd} {a b : Nat} (h : (a, b) ≠ (c.q, c.i)) (code detail : Nat) :
    (s.failCmd c code detail).cmd? a b = s.cmd? a b := by
  obtain ⟨_, _, _, _, _, _, _, hfail⟩ := failCmd_eq s c code detail
  rw [hfail]
  exact s.cmd?_setCmd_ne (c := { c with status := code, detail := detail, wait := .done }) h

/-! ### The table of R216 -/

section
variable {s : State} {c : Cmd} {p : Bool}

theorem rerunCode_of_may (hmarked : c.nonRerunnable = false) (hreleased : c.released = false)
    (hlimit : c.reruns < s.keptReg 0x2600 0x07 2) : s.rerunCode c p = none := by
  simp [rerunCode, hmarked, hreleased, Nat.not_le.2 hlimit]

/-- R216: the rows of the table in their order: the command is marked, it has signalled or sent, it is at its limit. -/
def RerunRow (s : State) (c : Cmd) (row : Nat) : Prop :=
  c.nonRerunnable = true ∧ row = 0 ∨ c.nonRerunnable = false ∧ c.released = true ∧ row = 1 ∨
    c.nonRerunnable = false ∧ c.released = false ∧ s.keptReg 0x2600 0x07 2 ≤ c.reruns ∧ row = 2

/-- The code of row 0 of the table. -/
def rerunBase (p : Bool) : Nat := if p then 0x2605 else 0x2C20

theorem rerunCode_of_row {row : Nat} (h : RerunRow s c row) : s.rerunCode c p = some (rerunBase p + row) := by
  obtain ⟨hmarked, rfl⟩ | ⟨hmarked, hreleased, rfl⟩ | ⟨hmarked, hreleased, hlimit, rfl⟩ := h
  · simp [rerunCode, hmarked, rerunBase]
  · simp [rerunCode, hmarked, hreleased, rerunBase]
  · simp [rerunCode, hmarked, hreleased, hlimit, rerunBase]

/-- Only the limit escalates. -/
theorem RerunRow.escalates {row : Nat} (h : RerunRow s c row) : (rerunBase p + row) % 16 = (if p then 7 else 2) ↔ row = 2 := by
  unfold rerunBase
  obtain ⟨-, rfl⟩ | ⟨-, -, rfl⟩ | ⟨-, -, -, rfl⟩ := h <;> cases p <;> simp

/-! ### A rerun (R216, R362) -/

/-- A command that waits to be run again fails alone where a row of the table applies, but at its limit with a fault to
escalate. -/
theorem rerun_of_row {row : Nat} {given : Bool} (hopen : openCmd c = true) (hchecked : c.unchecked = false)
    (hwait : c.wait = .rerun p) (hrow : RerunRow s c row) (hlast : row = 2 → c.lastFault = none) :
    s.rerun c given = s.failCmd c (rerunBase p + row) 0 := by
  unfold rerun
  rw [hwait]
  dsimp only
  rw [if_neg (by simp [hopen, hchecked]), rerunCode_of_row hrow]
  dsimp only
  cases hfault : c.lastFault with
  | none => rfl
  | some l =>
    refine if_neg fun hescalates => ?_
    rw [hlast (hrow.escalates.1 hescalates)] at hfault
    cases hfault

/-- The index of the counter of reruns: of parity errors, or of other faults. -/
def rerunIndex (p : Bool) : Nat := if p then 0x2600 else 0x2C00
def rerunSub (p : Bool) : Nat := if p then 0x0D else 0x0E

/-- A command's rerun, traced and counted, with nothing of it left in the links. -/
def rerunCounted (s : State) (c : Cmd) (p : Bool) : State :=
  let u := ((if c.begun then s.traceEnd c else s).bump (rerunIndex p) (rerunSub p) 1).bumpTask c.pasid 13 1
  { u with bruora := withoutSent u.bruora c.q c.i }

theorem rerun_of_may {given : Bool} (hopen : openCmd c = true) (hchecked : c.unchecked = false) (hwait : c.wait = .rerun p)
    (hmay : s.rerunCode c p = none) : s.rerun c given = ((s.rerunCounted c p).setCmd (restart c)).attempt (restart c) := by
  unfold rerun
  rw [hwait]
  dsimp only
  rw [if_neg (by simp [hopen, hchecked]), hmay]
  rfl

/-- A rerun is counted once; beside it only its trace and its messages have changed. -/
theorem rerunCounted_eq (s : State) (c : Cmd) (p : Bool) : ∃ dict obs,
    s.rerunCounted c p = { s with dict := dict, obs := obs, bruora := withoutSent s.bruora c.q c.i } ∧
      (s.rerunCounted c p).reg (rerunIndex p) (rerunSub p) 0 = s.reg (rerunIndex p) (rerunSub p) 0 + 1 := by
  have htraced : Traces s (if c.begun then s.traceEnd c else s) := by
    split
    · exact traces_traceEnd s c
    · exact Traces.refl s
  have hkey : key (rerunIndex p) (rerunSub p) ≠ droppedKey := by cases p <;> decide
  have hreg := (reg_bump_self _ (rerunIndex p) (rerunSub p) 1).trans (congrArg (· + 1) (htraced.reg hkey 0))
  unfold rerunCounted
  obtain ⟨_, _, htrace, -⟩ := htraced
  exact ⟨_, _, by rw [htrace]; rfl, hreg⟩

end
end State

theorem execCommandRerun_of_found {s : State} {q i : Nat} {c : Cmd} (h : s.cmd? q i = some c) (given : Bool) :
    execCommandRerun q i given s = .next (s.rerun c given) := by
  unfold execCommandRerun
  rw [h]

/-- Settles O47: where a row of the table applies the command fails alone with the row's code, and else it is counted, taken
out of the links and put back as it started. -/
theorem reruns : Obligations.Reruns := by
  intro s q i p given c hfound hopen hchecked hwait
  obtain ⟨rfl, rfl⟩ := State.key_of_cmd? hfound
  have hstands : (s.cmd? c.q c.i).isSome = true := Option.isSome_iff_exists.2 ⟨c, hfound⟩
  have hexec : exec (.commandRerun c.q c.i given) s = .next (s.rerun c given) := execCommandRerun_of_found hfound given
  refine ⟨fun hmarked hreleased hlimit => ?_, fun row hrow hlast => ?_⟩
  · rw [State.rerun_of_may hopen hchecked hwait (State.rerunCode_of_may hmarked hreleased hlimit)] at hexec
    obtain ⟨_, _, hcounted, hreg⟩ := s.rerunCounted_eq c p
    refine ⟨_, State.restart c, hexec, ?_, rfl, fun a b hab => ?_, fun m hm hmine => ?_, ?_, ?_⟩
    · exact State.cmd?_setCmd (s := s.rerunCounted c p) (c := State.restart c) (by rw [hcounted]; exact hstands)
    · rw [(s.rerunCounted c p).cmd?_setCmd_ne (c := State.restart c) hab, hcounted]
      rfl
    · rw [hcounted] at hm
      have hkept := (List.mem_filter.1 hm).2
      simp [hmine] at hkept
    · cases p <;> exact hreg
    · rw [hcounted]
      rfl
  · rw [State.rerun_of_row hopen hchecked hwait hrow hlast] at hexec
    exact ⟨_, hexec, State.failCmd_cmd? hstands .., fun a b hab => s.failCmd_cmd?_ne hab ..,
      State.failCmd_alone (State.Counts.refl s) ..⟩

end Sys2Proof.Machine
end

section
namespace Sys2Proof.Machine

/-! ### Masks of clusters -/

theorem bit_eq_testBit (x i : Nat) : bit x i = x.testBit i := by
  rw [Nat.testBit_eq_decide_div_mod_eq, bit]
  rfl

/-- A bit that is added to a mask without it is set, and no other bit changes. -/
theorem bit_add_two_pow {x k : Nat} (h : bit x k = false) (n : Nat) : bit (x + 2 ^ k) n = (decide (n = k) || bit x n) := by
  rw [bit_eq_testBit, bit_eq_testBit]
  rw [bit_eq_testBit] at h
  obtain hlt | rfl | hgt := lt_trichotomy n k
  · rw [Nat.add_comm, Nat.testBit_two_pow_add_gt hlt, decide_eq_false (by omega), Bool.false_or]
  · rw [Nat.add_comm, Nat.testBit_two_pow_add_eq, h]
    simp
  · have heven : x / 2 ^ k % 2 = 0 := by simpa [Nat.testBit_eq_decide_div_mod_eq] using h
    have hhigh : (x + 2 ^ k) / 2 ^ (k + 1) = x / 2 ^ (k + 1) := by
      rw [pow_succ, ← Nat.div_div_eq_div_mul, ← Nat.div_div_eq_div_mul, Nat.add_div_right _ (by positivity)]
      omega
    obtain ⟨j, rfl⟩ := Nat.exists_eq_add_of_lt hgt
    have hshift (y : Nat) : y.testBit (k + j + 1) = (y / 2 ^ (k + 1)).testBit j := by
      rw [Nat.testBit_div_two_pow, show j + (k + 1) = k + j + 1 by omega]
    rw [hshift, hshift, hhigh, decide_eq_false (by omega), Bool.false_or]

theorem eq_of_bits_eq {x y : Nat} (h : ∀ n, bit x n = bit y n) : x = y :=
  Nat.eq_of_testBit_eq fun n => by rw [← bit_eq_testBit, ← bit_eq_testBit, h]

/-- A number of two descriptor bytes has no bit beyond them. -/
theorem bit_field_two_of_ge (bs : List Byte) (lo : Nat) {n : Nat} (hn : 16 ≤ n) : bit (field bs lo (lo + 1)) n = false := by
  have hlt : field bs lo (lo + 1) < 2 ^ n := by
    rw [field, leNat_slice, show lo + 1 + 1 - lo = 2 by omega]
    calc _ < 256 ^ 2 := Nat.mod_lt _ (by norm_num)
      _ = 2 ^ 16 := by norm_num
      _ ≤ 2 ^ n := Nat.pow_le_pow_right (by norm_num) hn
  rw [bit_eq_testBit]
  exact Nat.testBit_lt_two_pow hlt

namespace State

/-! ### Semaphores (R208) -/

@[simp] theorem sem_setSem_self (s : State) (k v : Nat) : (s.setSem k v).sem k = v :=
  congrArg (Option.getD · 0) (Table.find?_put_self ..)

theorem sem_setSem_ne (s : State) {j k : Nat} (h : j ≠ k) (v : Nat) : (s.setSem k v).sem j = s.sem j :=
  congrArg (Option.getD · 0) (Table.find?_put_ne h ..)

/-- The semaphore of a cluster that a word names. -/
abbrev semOf (s : State) (p : Partition) (region : Nat) (w : SemWord) (n : Nat) : Nat :=
  s.sem (loftKey region n (p.semBase + w.index))

/-- From `s` to `t` only semaphores have changed. -/
def Signals (s t : State) : Prop := ∃ sems, t = { s with loft := { s.loft with sems := sems } }

theorem Signals.refl (s : State) : Signals s s := ⟨_, rfl⟩

theorem Signals.trans {s t u : State} (hst : Signals s t) (htu : Signals t u) : Signals s u := by
  obtain ⟨_, rfl⟩ := hst
  obtain ⟨_, rfl⟩ := htu
  exact ⟨_, rfl⟩

section
variable (s : State) (p : Partition) (region : Nat) (w : SemWord)

/-- R208: a signal takes effect where it does not overflow. -/
theorem signalOne_of_fits {n : Nat} (h : s.semOf p region w n + w.amount < 2 ^ 32) : s.signalOne p region n w =
    (s.setSem (loftKey region n (p.semBase + w.index)) (s.semOf p region w n + w.amount), true) :=
  if_neg (Nat.not_le.2 h)

theorem signalOne_of_overflows {n : Nat} (h : ¬s.semOf p region w n + w.amount < 2 ^ 32) :
    s.signalOne p region n w = (s, false) :=
  if_pos (Nat.not_lt.1 h)

theorem signalOne_snd (n : Nat) : (s.signalOne p region n w).2 = decide (s.semOf p region w n + w.amount < 2 ^ 32) := by
  by_cases h : s.semOf p region w n + w.amount < 2 ^ 32
  · rw [signalOne_of_fits s p region w h, decide_eq_true h]
  · rw [signalOne_of_overflows s p region w h, decide_eq_false h]

theorem signals_signalOne (n : Nat) : Signals s (s.signalOne p region n w).1 := by
  unfold signalOne
  dsimp only
  split <;> exact ⟨_, rfl⟩

theorem semOf_signalOne_ne {n m : Nat} (h : m ≠ n) : (s.signalOne p region n w).1.semOf p region w m = s.semOf p region w m := by
  unfold signalOne
  dsimp only
  split
  · rfl
  · exact sem_setSem_ne s (fun hkey => h (loftKey_inj hkey)) _

/-- A signal adds its amount. -/
theorem semOf_signalOne_self (n : Nat) : (s.signalOne p region n w).1.semOf p region w n =
    s.semOf p region w n + if s.semOf p region w n + w.amount < 2 ^ 32 then w.amount else 0 := by
  by_cases h : s.semOf p region w n + w.amount < 2 ^ 32
  · rw [signalOne_of_fits s p region w h, if_pos h]
    exact sem_setSem_self ..
  · rw [signalOne_of_overflows s p region w h, if_neg h, Nat.add_zero]

/-! ### A signal on a mask -/

/-- A signal on one cluster more. -/
abbrev signalStep (a : State × Bool) (n : Nat) : State × Bool :=
  ((a.1.signalOne p region n w).1, a.2 && (a.1.signalOne p region n w).2)

theorem signals_signalMask (mask : Nat) : Signals s (s.signalMask p region mask w).1 :=
  List.foldlRecOn (motive := fun a : State × Bool => Signals s a.1) _ (signalStep p region w) (Signals.refl s)
    fun a ha n _ => ha.trans (a.1.signals_signalOne p region w n)

/-- Each cluster of a list without repetition is signalled on its own. -/
theorem semOf_signalSteps (m : Nat) {cs : List Nat} (hcs : cs.Nodup) : ∀ a : State × Bool,
    (cs.foldl (signalStep p region w) a).1.semOf p region w m =
        a.1.semOf p region w m + (if m ∈ cs ∧ a.1.semOf p region w m + w.amount < 2 ^ 32 then w.amount else 0) ∧
      (cs.foldl (signalStep p region w) a).2 = (a.2 && cs.all fun n => decide (a.1.semOf p region w n + w.amount < 2 ^ 32)) := by
  induction cs with
  | nil => exact fun a => by simp
  | cons n cs ih =>
    intro a
    obtain ⟨hn, hcs⟩ := List.nodup_cons.1 hcs
    obtain ⟨hsem, hok⟩ := ih hcs (signalStep p region w a n)
    rw [List.foldl_cons]
    refine ⟨hsem.trans ?_, hok.trans ?_⟩
    · by_cases hm : m = n
      · subst hm
        rw [if_neg fun h => hn h.1, Nat.add_zero, semOf_signalOne_self]
        simp
      · simp [semOf_signalOne_ne _ _ _ _ hm, hm]
    · have hrest : (cs.all fun k => decide ((signalStep p region w a n).1.semOf p region w k + w.amount < 2 ^ 32)) =
          cs.all fun k => decide (a.1.semOf p region w k + w.amount < 2 ^ 32) :=
        Bool.eq_iff_iff.2 <| by
          simp only [List.all_eq_true, decide_eq_true_eq]
          exact forall₂_congr fun k hk => by rw [semOf_signalOne_ne _ _ _ _ (ne_of_mem_of_not_mem hk hn)]
      rw [hrest, List.all_cons, ← Bool.and_assoc, ← signalOne_snd]

theorem semOf_signalMask (mask : Nat) {m : Nat} (hm : m < 16) : (s.signalMask p region mask w).1.semOf p region w m =
    s.semOf p region w m + if bit mask m = true ∧ s.semOf p region w m + w.amount < 2 ^ 32 then w.amount else 0 := by
  refine (semOf_signalSteps p region w m (setBits_nodup mask 16) (s, true)).1.trans ?_
  simp only [mem_setBits, hm, true_and]

/-- R208: it succeeds where it overflows on no cluster. -/
theorem signalMask_snd (mask : Nat) : (s.signalMask p region mask w).2 = true ↔
    ∀ n, n < 16 → bit mask n = true → s.semOf p region w n + w.amount < 2 ^ 32 := by
  have hok := (semOf_signalSteps p region w 0 (setBits_nodup mask 16) (s, true)).2
  rw [Bool.true_and] at hok
  refine (Bool.eq_iff_iff.1 hok).trans ?_
  simp [List.all_eq_true, mem_setBits]

/-! ### A wait on a mask -/

/-- A wait on one cluster more: taken where it is satisfied and has not been taken. -/
abbrev waitStep (a : State × Nat) (n : Nat) : State × Nat :=
  if !bit a.2 n && w.amount ≤ a.1.semOf p region w n then
    (a.1.setSem (loftKey region n (p.semBase + w.index)) (a.1.semOf p region w n - w.amount), a.2 + 2 ^ n)
  else a

theorem signals_waitMask (mask got : Nat) : Signals s (s.waitMask p region mask got w).1 :=
  List.foldlRecOn (motive := fun a : State × Nat => Signals s a.1) _ (waitStep p region w) (Signals.refl s)
    fun a ha n _ => by
      unfold waitStep
      split
      · exact ha.trans ⟨_, rfl⟩
      · exact ha

theorem waitStep_of_taken {a : State × Nat} {n : Nat} (h : bit a.2 n = false ∧ w.amount ≤ a.1.semOf p region w n) (m : Nat) :
    (waitStep p region w a n).1.semOf p region w m =
        (if m = n then a.1.semOf p region w n - w.amount else a.1.semOf p region w m) ∧
      bit (waitStep p region w a n).2 m = (decide (m = n) || bit a.2 m) := by
  obtain ⟨hfree, hready⟩ := h
  unfold waitStep
  rw [if_pos (by simp [hfree, hready])]
  refine ⟨?_, bit_add_two_pow hfree m⟩
  split
  · rename_i hm
    subst hm
    exact sem_setSem_self ..
  · rename_i hm
    exact sem_setSem_ne _ (fun hkey => hm (loftKey_inj hkey)) _

theorem waitStep_of_not {a : State × Nat} {n : Nat} (h : ¬(bit a.2 n = false ∧ w.amount ≤ a.1.semOf p region w n)) :
    waitStep p region w a n = a :=
  if_neg (by simpa using h)

/-- Each cluster of a list without repetition is waited for on its own. -/
theorem semOf_waitSteps (m : Nat) {cs : List Nat} (hcs : cs.Nodup) : ∀ a : State × Nat,
    (cs.foldl (waitStep p region w) a).1.semOf p region w m =
        a.1.semOf p region w m -
          (if m ∈ cs ∧ bit a.2 m = false ∧ w.amount ≤ a.1.semOf p region w m then w.amount else 0) ∧
      bit (cs.foldl (waitStep p region w) a).2 m = (bit a.2 m || decide (m ∈ cs ∧ w.amount ≤ a.1.semOf p region w m)) := by
  induction cs with
  | nil => exact fun a => by simp
  | cons n cs ih =>
    intro a
    obtain ⟨hn, hcs⟩ := List.nodup_cons.1 hcs
    obtain ⟨hsem, hgot⟩ := ih hcs (waitStep p region w a n)
    rw [List.foldl_cons, hsem, hgot]
    by_cases htaken : bit a.2 n = false ∧ w.amount ≤ a.1.semOf p region w n
    · obtain ⟨hsem', hgot'⟩ := waitStep_of_taken p region w htaken m
      rw [hsem', hgot']
      by_cases hm : m = n
      · subst hm
        simp [hn, htaken]
      · simp [hm]
    · rw [waitStep_of_not p region w htaken]
      by_cases hm : m = n
      · subst hm
        refine ⟨by rw [if_neg fun h => hn h.1, if_neg fun h => htaken h.2], ?_⟩
        rw [decide_eq_false fun h => hn h.1]
        cases hbit : bit a.2 m with
        | true => rfl
        | false => rw [decide_eq_false fun h => htaken ⟨hbit, h.2⟩]
      · simp [hm]

/-- R208: the amount is taken on the clusters of the mask that are ready and have not been taken. -/
theorem semOf_waitMask (mask got : Nat) {m : Nat} (hm : m < 16) : (s.waitMask p region mask got w).1.semOf p region w m =
    s.semOf p region w m -
      if bit mask m = true ∧ bit got m = false ∧ w.amount ≤ s.semOf p region w m then w.amount else 0 := by
  refine (semOf_waitSteps p region w m (setBits_nodup mask 16) (s, got)).1.trans ?_
  simp only [mem_setBits, hm, true_and]

/-- Those are the clusters taken then. -/
theorem bit_waitMask_snd (mask got m : Nat) : bit (s.waitMask p region mask got w).2 m =
    (bit got m || decide (m ∈ setBits mask 16 ∧ w.amount ≤ s.semOf p region w m)) :=
  (semOf_waitSteps p region w m (setBits_nodup mask 16) (s, got)).2

end
end State
end Sys2Proof.Machine
end

section
namespace Sys2Proof.Machine
open Safety
namespace State

/-! ### Attempts of SYNC commands (R269) -/

/-- The semaphore word and the mask of clusters of a SYNC command. -/
abbrev syncWord (c : Cmd) : SemWord := SemWord.ofWord (c.recs.b 24 27)
abbrev syncMask (c : Cmd) : Nat := c.recs.b 20 21

section
variable {s : State} {c : Cmd}

theorem attempt_sync (hcls : c.recs.cls = 10) (hrun : s.mayRun c = true) (hbreak : s.breakHolds c = false) :
    s.attempt c = s.attemptSync c := by
  unfold attempt
  rw [hrun, hbreak, hcls]
  rfl

theorem attemptSync_semaphore (hform : c.recs.form = 0) : s.attemptSync c = s.attemptSemaphore c := by
  unfold attemptSync
  rw [hform]
  rfl

theorem attemptSync_counter (hform : c.recs.form = 1) : s.attemptSync c = s.attemptCounter c := by
  unfold attemptSync
  rw [hform]
  rfl

theorem attemptSync_memory (hform : c.recs.form = 2) : s.attemptSync c = s.setCmd { c with wait := .memory } := by
  unfold attemptSync
  rw [hform]
  rfl

theorem attemptSync_add (hform : c.recs.form = 3) : s.attemptSync c = s.attemptStore c true := by
  unfold attemptSync
  rw [hform]
  rfl

theorem attemptSync_store (hform : c.recs.form = 4) : s.attemptSync c = s.attemptStore c false := by
  unfold attemptSync
  rw [hform]
  rfl

/-! ### Semaphore waits (R208) -/

/-- A semaphore wait on the clusters of its mask. -/
abbrev semWait (s : State) (c : Cmd) : State × Nat :=
  s.waitMask (s.cmdPart c) c.region (syncMask c) c.semGot (syncWord c)

/-- A command after it has waited. -/
def semWaited (s : State) (c : Cmd) : Cmd :=
  { c with semGot := (s.semWait c).2, wait := if (s.semWait c).2 = syncMask c then .done else .semaphore }

theorem attemptSemaphore_wait (hop : bits (c.recs.b 24 27) 15 14 = 1) :
    s.attemptSemaphore c = (s.semWait c).1.setCmd (s.semWaited c) := by
  unfold attemptSemaphore
  dsimp only
  rw [show (SemWord.ofWord (c.recs.b 24 27)).op = 1 from hop]
  rfl

theorem semWaited_done : (s.semWaited c).wait = .done ↔ (s.semWait c).2 = syncMask c := by
  unfold semWaited
  dsimp only
  split <;> simp_all

/-- R208: a wait has been taken on its whole mask where each cluster was taken before or is ready. -/
theorem semWait_complete (hgot : ∀ n, bit c.semGot n = true → n < 16 ∧ bit (syncMask c) n = true) :
    (s.semWait c).2 = syncMask c ↔ ∀ n, n < 16 → bit (syncMask c) n = true → bit c.semGot n = true ∨
      (syncWord c).amount ≤ s.semOf (s.cmdPart c) c.region (syncWord c) n := by
  refine ⟨fun h n hn hmask => ?_, fun h => eq_of_bits_eq fun n => ?_⟩
  · have htaken := bit_waitMask_snd s (s.cmdPart c) c.region (syncWord c) (syncMask c) c.semGot n
    rw [h, hmask] at htaken
    simpa using (Bool.or_eq_true_iff.1 htaken.symm).imp_right fun hready => (of_decide_eq_true hready).2
  · rw [bit_waitMask_snd, Bool.eq_iff_iff, Bool.or_eq_true, decide_eq_true_eq, mem_setBits]
    refine ⟨fun htaken => ?_, fun hmask => ?_⟩
    · exact htaken.elim (fun htaken => (hgot n htaken).2) fun htaken => htaken.1.2
    · have hn : n < 16 := Nat.lt_of_not_le fun hge =>
        Bool.false_ne_true ((bit_field_two_of_ge c.recs.desc 20 hge).symm.trans hmask)
      exact (h n hn hmask).imp_right fun hready => ⟨⟨hn, hmask⟩, hready⟩

/-! ### Counter and memory waits (R210) -/

theorem counterReached_iff : s.counterReached c = true ↔ ∀ n, n < 16 → bit (c.recs.b 20 21) n = true →
    c.recs.b 32 35 ≤ s.arrived (s.cmdPart c) c.region n (c.recs.b 24 24) (c.recs.b 28 31) := by
  simp [counterReached, mem_setBits]

/-- Where a counter wait stands after it has looked. -/
def counterWait (s : State) (c : Cmd) : Wait := if s.counterReached c then .done else .counter

theorem counterWait_done : s.counterWait c = .done ↔ s.counterReached c = true := by
  unfold counterWait
  split <;> simp_all

theorem counterWait_cases : s.counterWait c = .done ∨ s.counterWait c = .counter := by
  unfold counterWait
  split
  · exact .inl rfl
  · exact .inr rfl

/-- A memory wait once its word has been read. -/
def memoryRead (s : State) (c : Cmd) : Cmd :=
  { c with wait := if c.recs.b 32 39 ≤ leNat (s.readVA c.region c.pasid (c.recs.b 40 47) 8) then .done else .memory }

theorem pollMemory_of_clear (hclear : Clear s c [{ va := c.recs.b 40 47, len := 8, kind := 0 }]) : s.pollMemory c =
    (s.noteAll c.region c.pasid [{ va := c.recs.b 40 47, len := 8, kind := 0 }]).setCmd (s.memoryRead c) := by
  unfold pollMemory
  exact withAccess_of_clear hclear _

theorem attemptCounter_eq : s.attemptCounter c = s.setCmd { c with wait := s.counterWait c } := rfl

end
end State

/-- Settles O48: each row attempts its wait again; a semaphore is taken on the clusters that are ready, and the wait is over
when the mask of those taken is the command's. -/
theorem waits : Obligations.Waits := by
  intro s q i c hfound hrun hbreak hcls
  obtain ⟨rfl, rfl⟩ := State.key_of_cmd? hfound
  have hstands : (s.cmd? c.q c.i).isSome = true := Option.isSome_iff_exists.2 ⟨c, hfound⟩
  have hattempt := State.attempt_sync hcls hrun hbreak
  refine ⟨fun hwait hform hop _ hgot => ?_, fun hwait hform => ?_, fun hwait hform hclear => ?_⟩
  · have hexec : s.semaphoreWait c.q c.i none = (s.semWait c).1.setCmd (s.semWaited c) :=
      (State.onWait_of_waiting hfound (by rw [hwait]; rfl) hrun).trans
        (hattempt.trans ((State.attemptSync_semaphore hform).trans (State.attemptSemaphore_wait hop)))
    obtain ⟨sems, hsems⟩ := s.signals_waitMask (s.cmdPart c) c.region (State.syncWord c) (State.syncMask c) c.semGot
    refine ⟨_, s.semWaited c, congrArg Host.Outcome.next hexec, State.cmd?_setCmd (c := s.semWaited c) ?_,
      State.semWaited_done.trans (State.semWait_complete hgot), fun n hn => ?_, ?_, ?_, ?_, ?_⟩
    · rw [hsems]
      exact hstands
    · exact (s.semOf_waitMask (s.cmdPart c) c.region (State.syncWord c) (State.syncMask c) c.semGot hn).trans
        (apply_ite (s.semOf (s.cmdPart c) c.region (State.syncWord c) n - ·) _ _ _)
    all_goals rw [hsems]; rfl
  · exact ⟨_, s.counterWait c, congrArg Host.Outcome.next ((State.onWait_of_waiting hfound (by rw [hwait]; rfl) hrun).trans
        (hattempt.trans ((State.attemptSync_counter hform).trans State.attemptCounter_eq))),
      State.cmd?_setCmd (c := { c with wait := s.counterWait c }) hstands, State.counterWait_cases,
      State.counterWait_done.trans State.counterReached_iff, rfl⟩
  · obtain ⟨_, _, _, _, hnoted⟩ := State.eq_of_besideAccess (s.noteAll_besideAccess c.region c.pasid
      [{ va := c.recs.b 40 47, len := 8, kind := 0 }])
    refine ⟨_, congrArg Host.Outcome.next ((State.onWait_of_waiting hfound (by rw [hwait]; rfl) hrun).trans
        (State.pollMemory_of_clear hclear)), State.cmd?_setCmd (c := s.memoryRead c) ?_, ?_⟩
    · rw [hnoted]
      exact hstands
    · rw [hnoted]
      rfl

end Sys2Proof.Machine
end

section
namespace Sys2Proof.Machine
open Safety

/-! ### What a command has not begun at its issue (R208, R220) -/

/-- A command that has taken its semaphore wait on no cluster, and has begun no transfer. -/
structure Idle (c : Cmd) : Prop where
  semGot : c.semGot = 0
  transfer : c.transfer = none

theorem Idle.bit_semGot {c : Cmd} (h : Idle c) (n : Nat) : bit c.semGot n = false := by
  rw [h.semGot, bit, Nat.zero_div]
  rfl

theorem fetchedCmd_idle (q : Nat) (k : Queue) (rd : Reader) (desc : List Byte) :
    Idle (State.fetchedCmd q k rd desc) := ⟨rfl, rfl⟩

theorem Idle.kvAtIssue {s s1 : State} {c c1 : Cmd} (hidle : Idle c) (h : s.kvAtIssue c = (s1, .ok c1)) : Idle c1 := by
  unfold State.kvAtIssue State.reserveAppend State.createKv State.shareKv State.truncateKv at h
  dsimp only at h
  repeat' split at h
  all_goals cases h
  all_goals exact ⟨hidle.semGot, hidle.transfer⟩

theorem sampleReads_idle (s : State) (c : Cmd) :
    (s.sampleReads c).2.semGot = c.semGot ∧ (s.sampleReads c).2.transfer = c.transfer := by
  unfold State.sampleReads
  dsimp only
  repeat' split
  all_goals exact ⟨rfl, rfl⟩

theorem Idle.sampleIssue {c : Cmd} (hidle : Idle c) (s : State) (k : Queue) : Idle (s.sampleIssue k c).2 :=
  have hreads := sampleReads_idle s
  ⟨(hreads _).1.trans hidle.semGot, (hreads _).2.trans hidle.transfer⟩

end Sys2Proof.Machine

namespace Sys2Proof.Safety
open Machine

/-- R270: a command that issues has begun nothing. -/
theorem Issues.idle {s v : State} {q : Nat} {c : Cmd} (h : Issues s q v c) : Idle c := by
  obtain ⟨k, s1, c0, k1, hacc, -, hsample, -, -⟩ := h
  have htaken : Idle c0 := (fetchedCmd_idle ..).kvAtIssue hacc.granary
  have hsampled := htaken.sampleIssue (taken s1 q k c0) k1
  rwa [hsample] at hsampled

/-- R269: each row of SYNC lets its form begin its work. -/
theorem Issues.syncRow_eq {s v : State} {q : Nat} {c : Cmd} (h : Issues s q v c) {form : Nat} (hcls : c.recs.cls = 10)
    (hform : c.recs.form = form) : s.issueNext (State.takesForm 10 4 form Recs.form) q = v.attemptSync c := by
  obtain ⟨hrun, hbreak⟩ := h.mayWork
  rw [h.issueNext_eq, State.attempt_sync hcls hrun hbreak]
  simp [State.takesForm, show ({ desc := c.recs.desc } : Recs).cls = 10 from hcls,
    show ({ desc := c.recs.desc } : Recs).form = form from hform]

end Sys2Proof.Safety

namespace Sys2Proof.Machine
open Safety
namespace State
section
variable {v : State} {c : Cmd}

/-! ### Semaphore waits and signals at their issue (R208) -/

/-- A wait that every cluster of its mask satisfies is taken on all of them. -/
theorem semWaited_of_ready (hidle : Idle c) (hready : ∀ n, n < 16 → bit (syncMask c) n = true →
    (syncWord c).amount ≤ v.semOf (v.cmdPart c) c.region (syncWord c) n) :
    v.semWaited c = { c with semGot := syncMask c, wait := .done } := by
  have hall : (v.semWait c).2 = syncMask c :=
    (semWait_complete fun n h => absurd (h.symm.trans (hidle.bit_semGot n)) (by decide)).2 fun n hn hmask =>
      .inr (hready n hn hmask)
  rw [semWaited, hall, if_pos rfl]

/-- A signal of its mask. -/
abbrev semSignal (v : State) (c : Cmd) : State × Bool := v.signalMask (v.cmdPart c) c.region (syncMask c) (syncWord c)

theorem attemptSemaphore_behind (hop : bits (c.recs.b 24 27) 15 14 = 2) (hfirst : v.firstOfQueue c = false) :
    v.attemptSemaphore c = v.setCmd { c with wait := .fence } := by
  unfold attemptSemaphore
  dsimp only
  rw [show (SemWord.ofWord (c.recs.b 24 27)).op = 2 from hop, hfirst]
  rfl

theorem attemptSemaphore_signal (hop : bits (c.recs.b 24 27) 15 14 = 2) (hfirst : v.firstOfQueue c = true) :
    v.attemptSemaphore c = if (v.semSignal c).2 then (v.semSignal c).1.setCmd { c with released := true, wait := .done }
      else (v.semSignal c).1.failCmd { c with released := true, wait := .done } 0x2608 0 := by
  unfold attemptSemaphore
  dsimp only
  rw [show (SemWord.ofWord (c.recs.b 24 27)).op = 2 from hop, hfirst]
  rfl

theorem failCmd_loft (s : State) (c : Cmd) (code detail : Nat) : (s.failCmd c code detail).loft = s.loft := by
  obtain ⟨_, _, _, _, _, _, _, hfail⟩ := failCmd_eq s c code detail
  rw [hfail]

/-- A command that has finished after semaphores have changed. -/
theorem Signals.finished {u : State} (h : Signals v u) (hfound : v.cmd? c.q c.i = some c) {d : Cmd}
    (hq : d.q = c.q) (hi : d.i = c.i) :
    (u.setCmd d).cmd? c.q c.i = some d ∧ (u.setCmd d).loft.rows = v.loft.rows ∧
      u.setCmd d = { v with cmds := (u.setCmd d).cmds, loft := (u.setCmd d).loft } := by
  obtain ⟨_, rfl⟩ := h
  exact ⟨cmd?_of_setCmd_cmds hfound rfl hq hi, rfl, rfl⟩

/-- R208: a wait that all its clusters satisfy takes its amount on each and has finished. -/
theorem attemptSemaphore_taken (hfound : v.cmd? c.q c.i = some c) (hidle : Idle c) (hop : bits (c.recs.b 24 27) 15 14 = 1)
    (hready : ∀ n, n < 16 → bit (syncMask c) n = true →
      (syncWord c).amount ≤ v.semOf (v.cmdPart c) c.region (syncWord c) n) :
    ∃ t, v.attemptSemaphore c = t ∧ t.cmd? c.q c.i = some { c with semGot := syncMask c, wait := .done } ∧
      (∀ n, n < 16 → t.semOf (v.cmdPart c) c.region (syncWord c) n =
        v.semOf (v.cmdPart c) c.region (syncWord c) n - if bit (syncMask c) n = true then (syncWord c).amount else 0) ∧
      t.loft.rows = v.loft.rows ∧ t = { v with cmds := t.cmds, loft := t.loft } := by
  obtain ⟨hcmd, hframe⟩ := (v.signals_waitMask (v.cmdPart c) c.region (syncWord c) (syncMask c) c.semGot).finished hfound
    (d := { c with semGot := syncMask c, wait := .done }) rfl rfl
  refine ⟨_, (attemptSemaphore_wait hop).trans (congrArg _ (semWaited_of_ready hidle hready)), hcmd, fun n hn => ?_, hframe⟩
  refine (v.semOf_waitMask (v.cmdPart c) c.region (syncWord c) (syncMask c) c.semGot hn).trans
    (congrArg (v.semOf (v.cmdPart c) c.region (syncWord c) n - ·) ?_)
  exact if_congr ⟨fun h => h.1, fun hmask => ⟨hmask, hidle.bit_semGot n, hready n hn hmask⟩⟩ rfl rfl

/-- R208: a signal that no cluster overflows adds its amount on each. -/
theorem attemptSemaphore_signalled (hfound : v.cmd? c.q c.i = some c) (hop : bits (c.recs.b 24 27) 15 14 = 2)
    (hfirst : v.firstOfQueue c = true) (hfits : ∀ n, n < 16 → bit (syncMask c) n = true →
      v.semOf (v.cmdPart c) c.region (syncWord c) n + (syncWord c).amount < 2 ^ 32) :
    ∃ t, v.attemptSemaphore c = t ∧ t.cmd? c.q c.i = some { c with released := true, wait := .done } ∧
      (∀ n, n < 16 → t.semOf (v.cmdPart c) c.region (syncWord c) n =
        v.semOf (v.cmdPart c) c.region (syncWord c) n + if bit (syncMask c) n = true then (syncWord c).amount else 0) ∧
      t.loft.rows = v.loft.rows ∧ t = { v with cmds := t.cmds, loft := t.loft } := by
  obtain ⟨hcmd, hframe⟩ := (v.signals_signalMask (v.cmdPart c) c.region (syncWord c) (syncMask c)).finished hfound
    (d := { c with released := true, wait := .done }) rfl rfl
  refine ⟨_, (attemptSemaphore_signal hop hfirst).trans (if_pos ((signalMask_snd ..).2 hfits)), hcmd, fun n hn => ?_, hframe⟩
  refine (v.semOf_signalMask (v.cmdPart c) c.region (syncWord c) (syncMask c) hn).trans
    (congrArg (v.semOf (v.cmdPart c) c.region (syncWord c) n + ·) ?_)
  exact if_congr (and_iff_left_of_imp (hfits n hn)) rfl rfl

/-- R208: a signal that some cluster overflows fails its command. -/
theorem attemptSemaphore_overflows (hfound : v.cmd? c.q c.i = some c) (hop : bits (c.recs.b 24 27) 15 14 = 2)
    (hfirst : v.firstOfQueue c = true) {n : Nat} (hn : n < 16) (hmask : bit (syncMask c) n = true)
    (hover : 2 ^ 32 ≤ v.semOf (v.cmdPart c) c.region (syncWord c) n + (syncWord c).amount) :
    ∃ t, v.attemptSemaphore c = t ∧
      t.cmd? c.q c.i = some { c with released := true, status := 0x2608, detail := 0, wait := .done } ∧
      t.loft.rows = v.loft.rows ∧ FailsAlone { v with loft := t.loft } t := by
  have hok : ¬(v.semSignal c).2 = true := fun hok => Nat.not_lt.2 hover ((signalMask_snd ..).1 hok n hn hmask)
  obtain ⟨sems, hsems⟩ := v.signals_signalMask (v.cmdPart c) c.region (syncWord c) (syncMask c)
  have halone := failCmd_alone (Counts.refl (v.semSignal c).1) { c with released := true, wait := .done } 0x2608 0
  refine ⟨_, (attemptSemaphore_signal hop hfirst).trans (if_neg hok),
    failCmd_cmd? (c := { c with released := true, wait := .done }) ?_ .., ?_, ?_⟩
  · rw [hsems]
    exact Option.isSome_iff_exists.2 ⟨c, hfound⟩
  · rw [failCmd_loft, hsems]
  · rw [failCmd_loft]
    rw [hsems] at halone ⊢
    exact halone

/-! ### Adds and stores of memory (R269) -/

/-- What an add or a store writes. -/
def storedWord (v : State) (c : Cmd) (add : Bool) : List Byte :=
  leBytes 8 (if add then (leNat (v.readVA c.region c.pasid (c.recs.b 40 47) 8) + c.recs.b 32 39) % 2 ^ 64 else c.recs.b 32 39)

theorem attemptStore_behind (hfirst : v.firstOfQueue c = false) (add : Bool) :
    v.attemptStore c add = v.setCmd { c with wait := .fence } := by
  unfold attemptStore
  dsimp only
  rw [hfirst]
  rfl

theorem attemptStore_of_clear {add : Bool} {a : Access} (ha : a = { va := c.recs.b 40 47, len := 8, kind := if add then 2 else 1 })
    (hfirst : v.firstOfQueue c = true) (hclear : Clear v c [a]) : v.attemptStore c add =
      ((v.noteAll c.region c.pasid [a]).writeVA c.region c.pasid a.va a.kind (v.storedWord c add)).setCmd
        { c with wait := .done } := by
  subst ha
  unfold attemptStore
  dsimp only
  rw [hfirst, if_neg (by decide)]
  exact withAccess_of_clear hclear _

/-- A finished add or store stands in flight. -/
theorem stored_cmd? (hfound : v.cmd? c.q c.i = some c) (as : List Access) (va kind : Nat) (bs : List Byte) :
    (((v.noteAll c.region c.pasid as).writeVA c.region c.pasid va kind bs).setCmd { c with wait := .done }).cmd? c.q c.i =
      some { c with wait := .done } :=
  cmd?_of_setCmd_cmds (t := ((v.noteAll c.region c.pasid as).writeVA c.region c.pasid va kind bs).setCmd { c with wait := .done })
    hfound (congrArg (List.map _) ((writeVA_cmds ..).trans (notes_noteAll ..).cmds)) rfl rfl

end
end State

/-- Settles O54: each row begins the attempt of its form. A wait is taken on its whole mask, a signal adds on each cluster of
it, and an add or a store writes once its access hits. -/
theorem syncCommands : Obligations.SyncCommands := by
  intro s v q c hissues hcls
  obtain ⟨rfl, -, -, hfound⟩ := hissues.begins
  have hstands : (v.cmd? c.q c.i).isSome = true := by rw [hfound]; rfl
  have hexec {form : Nat} {row : Instr} {t : State} (hform : c.recs.form = form)
      (hrow : exec row s = .next (s.issueNext (State.takesForm 10 4 form Recs.form) c.q)) (ht : v.attemptSync c = t) :
      exec row s = .next t :=
    hrow.trans (congrArg _ ((hissues.syncRow_eq hcls hform).trans ht))
  have hbehind := State.cmd?_setCmd (c := { c with wait := .fence }) hstands
  refine ⟨fun hform hop _ hready => ?_, fun hform hop hfirst _ => ⟨fun hfits => ?_, fun ⟨n, hn, hmask, hover⟩ => ?_⟩,
    ⟨fun hform hop hfirst => ?_, fun hform hfirst => ?_, fun hform hfirst => ?_⟩, fun hform => ?_, fun hform => ?_,
    fun a u hform hfirst ha hclear hu => ?_, fun a u hform hfirst ha hclear hu => ?_⟩
  · obtain ⟨t, ht, hrest⟩ := State.attemptSemaphore_taken hfound hissues.idle hop hready
    exact ⟨t, hexec hform rfl ((State.attemptSync_semaphore hform).trans ht), hrest⟩
  · obtain ⟨t, ht, hrest⟩ := State.attemptSemaphore_signalled hfound hop hfirst hfits
    exact ⟨t, hexec hform rfl ((State.attemptSync_semaphore hform).trans ht), hrest⟩
  · obtain ⟨t, ht, hcmd, hrest⟩ := State.attemptSemaphore_overflows hfound hop hfirst hn hmask hover
    exact ⟨t, _, hexec hform rfl ((State.attemptSync_semaphore hform).trans ht), hcmd, rfl, rfl, hrest⟩
  · exact ⟨_, hexec hform rfl ((State.attemptSync_semaphore hform).trans (State.attemptSemaphore_behind hop hfirst)),
      hbehind, rfl⟩
  · exact ⟨_, hexec hform rfl ((State.attemptSync_add hform).trans (State.attemptStore_behind hfirst true)), hbehind, rfl⟩
  · exact ⟨_, hexec hform rfl ((State.attemptSync_store hform).trans (State.attemptStore_behind hfirst false)), hbehind, rfl⟩
  · exact ⟨_, v.counterWait c, hexec hform rfl ((State.attemptSync_counter hform).trans State.attemptCounter_eq),
      State.cmd?_setCmd (c := { c with wait := v.counterWait c }) hstands, State.counterWait_cases,
      State.counterWait_done.trans State.counterReached_iff, rfl⟩
  · exact ⟨_, hexec hform rfl (State.attemptSync_memory hform),
      State.cmd?_setCmd (c := { c with wait := .memory }) hstands, rfl⟩
  · subst hu ha
    exact ⟨_, hexec hform rfl ((State.attemptSync_add hform).trans (State.attemptStore_of_clear rfl hfirst hclear)),
      State.stored_cmd? hfound .., rfl⟩
  · subst hu ha
    exact ⟨_, hexec hform rfl ((State.attemptSync_store hform).trans (State.attemptStore_of_clear rfl hfirst hclear)),
      State.stored_cmd? hfound .., rfl⟩

end Sys2Proof.Machine
end

section
namespace Sys2Proof.Machine
open Safety

/-! ### Rows of the Lofts (R207, R214)

What lands in a row, and what a signal that covers rows does to their pending bits. -/

/-- A row that a write leaves over an old one. -/
def landed (p : Partition) (b : List Byte) (signalled mark : Bool) (old : LoftRow) : LoftRow :=
  { LoftRow.ofBytes b with mark := mark, pending := p.hazard && (signalled || old.pending) }

/-- A row once a signal has taken effect, where `covers` says that it covers the row. -/
def settled (covers : Bool) (r : LoftRow) : LoftRow := { r with pending := r.pending && !covers }

@[simp] theorem settled_false (r : LoftRow) : settled false r = r := by simp [settled]

theorem settled_true (r : LoftRow) : settled true r = { r with pending := false } := by simp [settled]

theorem settled_of_not_pending {r : LoftRow} (h : r.pending = false) (covers : Bool) : settled covers r = r := by
  rw [settled, h, Bool.false_and, ← h]

theorem settled_settled (a b : Bool) (r : LoftRow) : settled b (settled a r) = settled (a || b) r := by
  simp [settled, Bool.and_assoc]

/-- Key of a row of a partition on a cluster. -/
abbrev rowKey (p : Partition) (region n i : Nat) : Nat := loftKey region n (16 * p.baseUnit + i)

theorem rowKey_inj {p : Partition} {region a b i j : Nat} (hi : 16 * p.baseUnit + i < 4096) (hj : 16 * p.baseUnit + j < 4096)
    (h : rowKey p region a i = rowKey p region b j) : a = b ∧ i = j := by
  unfold rowKey loftKey at h
  omega

namespace State

theorem loftRow_setRow (s : State) (j k : Nat) (r : LoftRow) : (s.setRow j r).loftRow k = if k = j then r else s.loftRow k := by
  split
  · rename_i hk
    subst hk
    exact congrArg (Option.getD · _) (Table.find?_put_self ..)
  · rename_i hk
    exact congrArg (Option.getD · _) (Table.find?_put_ne hk ..)

theorem loftRow_landRow (s : State) (p : Partition) (region n i : Nat) (b : List Byte) (signalled : Bool) (k : Nat) :
    (s.landRow p region n i b signalled).loftRow k =
      if k = rowKey p region n i then landed p b signalled false (s.loftRow k) else s.loftRow k := by
  refine (loftRow_setRow ..).trans ?_
  split
  · rename_i hk
    rw [hk]
    rfl
  · rfl

/-- Rows that land under different keys land each on its own, and no other row changes. -/
theorem loftRow_foldl {α : Type} {f : State → α → State} {key : α → Nat} {land : α → LoftRow → LoftRow}
    (hstep : ∀ s x k, (f s x).loftRow k = if k = key x then land x (s.loftRow k) else s.loftRow k) {l : List α}
    (hl : (l.map key).Nodup) : ∀ s : State,
    (∀ x ∈ l, (l.foldl f s).loftRow (key x) = land x (s.loftRow (key x))) ∧
      ∀ k, k ∉ l.map key → (l.foldl f s).loftRow k = s.loftRow k := by
  induction l with
  | nil => exact fun s => ⟨by simp, fun _ _ => rfl⟩
  | cons y l ih =>
    intro s
    rw [List.map_cons, List.nodup_cons] at hl
    obtain ⟨hland, hrest⟩ := ih hl.2 (f s y)
    rw [List.foldl_cons]
    refine ⟨fun x hx => ?_, fun k hk => ?_⟩
    · obtain rfl | hx := List.mem_cons.1 hx
      · rw [hrest _ hl.1, hstep, if_pos rfl]
      · have hne : key x ≠ key y := ne_of_mem_of_not_mem (List.mem_map_of_mem hx) hl.1
        rw [hland x hx, hstep, if_neg hne]
    · rw [List.map_cons, List.mem_cons, not_or] at hk
      rw [hrest k hk.2, hstep, if_neg hk.1]

/-! ### A signal that covers rows (R208, R214) -/

section
variable (s : State) (p : Partition) (region : Nat)

theorem loftRow_settleRows_one (n i k : Nat) :
    (s.settleRows p region n [i]).loftRow k = settled (k == rowKey p region n i) (s.loftRow k) := by
  by_cases hk : k = rowKey p region n i
  · subst hk
    rw [beq_self_eq_true]
    unfold settleRows
    rw [List.foldl_cons, List.foldl_nil]
    dsimp only
    split
    · rename_i r hrow
      have hold : s.loftRow (rowKey p region n i) = r := congrArg (Option.getD · _) hrow
      rw [hold]
      split
      · rw [loftRow_setRow, if_pos rfl, settled_true]
      · rename_i hpending
        rw [hold, settled_of_not_pending (Bool.eq_false_iff.2 hpending)]
    · rename_i hrow
      have hold : s.loftRow (rowKey p region n i) = { data := .undef s.loft.base } := congrArg (Option.getD · _) hrow
      rw [hold, settled_of_not_pending rfl]
  · rw [show (k == rowKey p region n i) = false by simpa using hk, settled_false]
    unfold settleRows
    rw [List.foldl_cons, List.foldl_nil]
    dsimp only
    split
    · split
      · rw [loftRow_setRow, if_neg hk]
      · rfl
    · rfl

theorem loftRow_settleRows (n : Nat) (rows : List Nat) (k : Nat) :
    (s.settleRows p region n rows).loftRow k = settled (rows.any fun i => k == rowKey p region n i) (s.loftRow k) := by
  induction rows generalizing s with
  | nil => exact (settled_false _).symm
  | cons i rows ih =>
    refine (ih (s.settleRows p region n [i])).trans ?_
    rw [loftRow_settleRows_one, settled_settled, List.any_cons]

/-- A state but for its Lofts. -/
def besideLoft (s : State) : State := { s with loft := {} }

/-- A state but for the rows of its Lofts. -/
def besideRows (s : State) : State := { s with loft := { s.loft with rows := [] } }

theorem settleRows_besideRows (n : Nat) (rows : List Nat) : (s.settleRows p region n rows).besideRows = s.besideRows :=
  foldl_keeps besideRows (fun s i => by
    dsimp only
    split
    · split <;> rfl
    · rfl) rows s

/-- R208, R214: a signal that covers rows, on one cluster more. -/
abbrev signalRowsStep (w : SemWord) (rows : List Nat) (a : State × Bool) (n : Nat) : State × Bool :=
  (if (a.1.signalOne p region n w).2 then (a.1.signalOne p region n w).1.settleRows p region n rows
    else (a.1.signalOne p region n w).1, a.2 && (a.1.signalOne p region n w).2)

/-- The step of one cluster leaves the semaphores of the others, and settles its own rows. -/
theorem signalRowsStep_ne (w : SemWord) (rows : List Nat) (a : State × Bool) {n m : Nat} (h : m ≠ n) :
    ((signalRowsStep p region w rows a n).1.signalOne p region m w).2 = (a.1.signalOne p region m w).2 := by
  have hsem : (signalRowsStep p region w rows a n).1.semOf p region w m = a.1.semOf p region w m := by
    refine Eq.trans ?_ (semOf_signalOne_ne a.1 p region w h)
    unfold signalRowsStep
    dsimp only
    split
    · exact (congrArg (fun s : State => s.semOf p region w m)
        (settleRows_besideRows (a.1.signalOne p region n w).1 p region n rows) :)
    · rfl
  rw [signalOne_snd, signalOne_snd, hsem]

theorem loftRow_signalOne (w : SemWord) (n k : Nat) : (s.signalOne p region n w).1.loftRow k = s.loftRow k := by
  obtain ⟨_, h⟩ := s.signals_signalOne p region w n
  rw [h]
  rfl

theorem loftRow_signalRowsStep (w : SemWord) (rows : List Nat) (a : State × Bool) (n k : Nat) :
    (signalRowsStep p region w rows a n).1.loftRow k =
      settled ((a.1.signalOne p region n w).2 && rows.any fun i => k == rowKey p region n i) (a.1.loftRow k) := by
  unfold signalRowsStep
  cases (a.1.signalOne p region n w).2
  · rw [if_neg Bool.false_ne_true, loftRow_signalOne, Bool.false_and, settled_false]
  · rw [if_pos rfl, loftRow_settleRows, loftRow_signalOne, Bool.true_and]

theorem loftRow_signalRowsSteps (w : SemWord) (rows : List Nat) (k : Nat) {cs : List Nat} (hcs : cs.Nodup) :
    ∀ a : State × Bool, (cs.foldl (signalRowsStep p region w rows) a).1.loftRow k =
      settled (cs.any fun n => (a.1.signalOne p region n w).2 && rows.any fun i => k == rowKey p region n i) (a.1.loftRow k) := by
  induction cs with
  | nil => exact fun a => (settled_false _).symm
  | cons n cs ih =>
    intro a
    obtain ⟨hn, hcs⟩ := List.nodup_cons.1 hcs
    have hrest : (cs.any fun m => ((signalRowsStep p region w rows a n).1.signalOne p region m w).2 &&
        rows.any fun i => k == rowKey p region m i) =
          cs.any fun m => (a.1.signalOne p region m w).2 && rows.any fun i => k == rowKey p region m i := by
      rw [Bool.eq_iff_iff, List.any_eq_true, List.any_eq_true]
      exact exists_congr fun m => and_congr_right fun hm => by
        rw [signalRowsStep_ne p region w rows a (ne_of_mem_of_not_mem hm hn)]
    rw [List.foldl_cons, ih hcs, loftRow_signalRowsStep, settled_settled, hrest, List.any_cons]

/-- R214: a row is settled by the signal of a cluster where it takes effect and covers the row. -/
theorem loftRow_signalRows (mask : Nat) (w : SemWord) (rows : List Nat) (k : Nat) :
    (s.signalRows p region mask w rows).1.loftRow k = settled ((setBits mask 16).any fun n =>
      (s.signalOne p region n w).2 && rows.any fun i => k == rowKey p region n i) (s.loftRow k) :=
  loftRow_signalRowsSteps p region w rows k (setBits_nodup mask 16) (s, true)

theorem signalRows_besideLoft (mask : Nat) (w : SemWord) (rows : List Nat) :
    (s.signalRows p region mask w rows).1.besideLoft = s.besideLoft :=
  List.foldlRecOn (motive := fun a : State × Bool => a.1.besideLoft = s.besideLoft) _ (signalRowsStep p region w rows) rfl
    fun a ha n _ => by
      have hone : (a.1.signalOne p region n w).1.besideLoft = a.1.besideLoft := by
        obtain ⟨_, h⟩ := a.1.signals_signalOne p region w n
        rw [h]
        rfl
      have hsettle : ((a.1.signalOne p region n w).1.settleRows p region n rows).besideLoft =
          (a.1.signalOne p region n w).1.besideLoft :=
        (congrArg besideLoft (settleRows_besideRows (a.1.signalOne p region n w).1 p region n rows) :)
      unfold signalRowsStep
      dsimp only
      split
      · exact hsettle.trans (hone.trans ha)
      · exact hone.trans ha

end

/-- A signal sees semaphores alone. -/
theorem signalOne_of_sems {s t : State} (h : t.loft.sems = s.loft.sems) (p : Partition) (region n : Nat) (w : SemWord) :
    (t.signalOne p region n w).1.loft.sems = (s.signalOne p region n w).1.loft.sems ∧
      (t.signalOne p region n w).2 = (s.signalOne p region n w).2 := by
  have hsem : t.semOf p region w n = s.semOf p region w n := by unfold semOf sem; rw [h]
  by_cases hfits : s.semOf p region w n + w.amount < 2 ^ 32
  · rw [signalOne_of_fits s p region w hfits, signalOne_of_fits t p region w (hsem ▸ hfits), hsem]
    exact ⟨congrArg (Table.put (loftKey region n (p.semBase + w.index)) (s.semOf p region w n + w.amount)) h, rfl⟩
  · rw [signalOne_of_overflows s p region w hfits, signalOne_of_overflows t p region w (hsem ▸ hfits)]
    exact ⟨h, rfl⟩

/-- A signal that covers rows is a signal of the same semaphores. -/
theorem signalRows_of_sems {s t : State} (h : t.loft.sems = s.loft.sems) (p : Partition) (region mask : Nat) (w : SemWord)
    (rows : List Nat) : (t.signalRows p region mask w rows).1.loft.sems = (s.signalMask p region mask w).1.loft.sems ∧
      (t.signalRows p region mask w rows).2 = (s.signalMask p region mask w).2 := by
  refine List.foldl_rel (f := signalRowsStep p region w rows) (g := signalStep p region w)
    (r := fun a b : State × Bool => a.1.loft.sems = b.1.loft.sems ∧ a.2 = b.2) ⟨h, rfl⟩ fun n _ a b ⟨hsems, hok⟩ => ?_
  obtain ⟨hone, hflag⟩ := signalOne_of_sems hsems p region n w
  refine ⟨Eq.trans ?_ hone, by dsimp only; rw [hok, hflag]⟩
  unfold signalRowsStep
  dsimp only
  split
  · exact (congrArg (fun s : State => s.loft.sems) (settleRows_besideRows (a.1.signalOne p region n w).1 p region n rows) :)
  · rfl

end State
end Sys2Proof.Machine
end

section
namespace Sys2Proof.Machine
open Safety
namespace State

/-! ### A command that fails without outputs in memory (R253) -/

theorem countCode_dict (s : State) (code : Nat) (refused : Bool) :
    ∃ dict, s.countCode code refused = { s with dict := dict } := by
  unfold countCode
  repeat' split
  all_goals exact ⟨_, rfl⟩

/-- It leaves memory, its marks and the free values as they were. -/
theorem failCmd_of_noOutputs (s : State) (c : Cmd) (h : s.outputsOf c = []) (code detail : Nat) : ∃ dict obs,
    s.failCmd c code detail = { s with
      cmds := (s.setCmd { c with status := code, detail := detail, wait := .done }).cmds,
      bruora := withoutSent s.bruora c.q c.i, dict := dict, obs := obs } := by
  unfold failCmd
  extract_lets s1 c1 _ _ s1b s2
  have hs1 : s1 = s := by simp only [s1, h, List.foldl_nil]
  clear_value s1
  subst hs1
  obtain ⟨dict, hcount⟩ := s1b.countCode_dict code false
  have hs2 : s2 = _ := congrArg (·.setCmd c1) hcount
  split
  · obtain ⟨_, _, htrace, -⟩ := traces_traceEnd s2 c1
    exact ⟨_, _, htrace.trans (by rw [hs2]; rfl)⟩
  · exact ⟨_, _, hs2⟩

/-- R207: a MOVE that is no convert delivers nothing into memory. -/
theorem outputsOf_move (s : State) {c : Cmd} (hcls : c.recs.cls = 6) (hform : c.recs.form ≠ 3) : s.outputsOf c = [] := by
  unfold outputsOf splitRanges
  dsimp only
  rw [hcls]
  exact (List.append_nil _).trans (if_neg hform)

/-! ### The end of a fill or copy (R209, R214) -/

/-- A state but for what the end of a fill or copy may change. -/
def besideMove (s : State) : State := { s with cmds := [], loft := {}, obs := {}, dict := {}, bruora := {} }

/-- Does a signal that covers rows settle the row of a key? -/
def settles (v : State) (p : Partition) (region mask : Nat) (w : SemWord) (rows : List Nat) (k : Nat) : Bool :=
  (setBits mask 16).any fun n => (v.signalOne p region n w).2 && rows.any fun i => k == rowKey p region n i

/-- Command `c`, whose rows have landed in state `s`, has ended as `c'`: its signal, of the semaphores of `v`, has settled its
rows and been counted, or has failed it. -/
structure MoveEnd (v s : State) (c : Cmd) (mask word : Nat) (rows : List Nat) (t : State) (c' : Cmd) : Prop where
  cmd : t.cmd? c.q c.i = some c'
  done : c'.wait = .done
  row (k : Nat) : t.loftRow k =
    settled (decide (bits word 15 14 = 2) && v.settles (v.cmdPart c) c.region mask (SemWord.ofWord word) rows k) (s.loftRow k)
  unsignalled : bits word 15 14 ≠ 2 → c'.status = c.status ∧ c'.released = c.released ∧ t.loft.sems = v.loft.sems
  signalled : bits word 15 14 = 2 → c'.released = true ∧
    t.loft.sems = (v.signalMask (v.cmdPart c) c.region mask (SemWord.ofWord word)).1.loft.sems ∧
    c'.status = if (v.signalMask (v.cmdPart c) c.region mask (SemWord.ofWord word)).2 then c.status else 0x2608
  frame : t.besideMove = s.besideMove

theorem loftRow_of_loft {s t : State} (h : t.loft = s.loft) (k : Nat) : t.loftRow k = s.loftRow k := by
  unfold loftRow
  rw [h]

section
variable {v s : State} {c : Cmd} {mask word : Nat} {rows : List Nat}

/-- Without a signal it has finished. -/
theorem signalEnd_unsignalled (hop : bits word 15 14 ≠ 2) (hsems : s.loft.sems = v.loft.sems)
    (hfound : (s.cmd? c.q c.i).isSome = true) :
    MoveEnd v s c mask word rows (s.signalEnd c mask word rows) { c with wait := .done } := by
  have hend : s.signalEnd c mask word rows = (s.setCmd { c with wait := .done }).traceEnd c := by
    unfold signalEnd
    exact if_pos (bne_iff_ne.2 hop)
  obtain ⟨_, _, htrace, -⟩ := traces_traceEnd (s.setCmd { c with wait := .done }) c
  rw [hend, htrace]
  exact {
    cmd := cmd?_setCmd (c := { c with wait := .done }) hfound
    done := rfl
    row := fun k => by
      rw [decide_eq_false hop, Bool.false_and, settled_false]
      rfl
    unsignalled := fun _ => ⟨rfl, rfl, hsems⟩
    signalled := fun h => absurd h hop
    frame := rfl }

/-- A state after a signal of its rows, with the command put back, is the end of one that signals. -/
theorem moveEnd_of_signalled (hop : bits word 15 14 = 2) (hsems : s.loft.sems = v.loft.sems) {t : State} {c' : Cmd}
    (hcmd : t.cmd? c.q c.i = some c') (hdone : c'.wait = .done) (hreleased : c'.released = true)
    (hstatus : c'.status = if (v.signalMask (v.cmdPart c) c.region mask (SemWord.ofWord word)).2 then c.status else 0x2608)
    (hloft : t.loft = (s.signalRows (v.cmdPart c) c.region mask (SemWord.ofWord word) rows).1.loft)
    (hframe : t.besideMove = s.besideMove) : MoveEnd v s c mask word rows t c' where
  cmd := hcmd
  done := hdone
  row k := by
    rw [loftRow_of_loft hloft, loftRow_signalRows, decide_eq_true hop, Bool.true_and, settles]
    simp only [(signalOne_of_sems hsems _ _ _ _).2]
  unsignalled h := absurd hop h
  signalled _ := ⟨hreleased, by rw [hloft, (signalRows_of_sems hsems ..).1], hstatus⟩
  frame := hframe

/-- With a signal it has finished, or fails where the signal overflows. -/
theorem signalEnd_signalled (hop : bits word 15 14 = 2) (hsems : s.loft.sems = v.loft.sems) (hpart : s.cmdPart c = v.cmdPart c)
    (hfound : (s.cmd? c.q c.i).isSome = true) (hcls : c.recs.cls = 6) (hform : c.recs.form ≠ 3) :
    ∃ c', MoveEnd v s c mask word rows (s.signalEnd c mask word rows) c' := by
  have hflag := (signalRows_of_sems hsems (v.cmdPart c) c.region mask (SemWord.ofWord word) rows).2
  have hbeside := s.signalRows_besideLoft (v.cmdPart c) c.region mask (SemWord.ofWord word) rows
  have hend : s.signalEnd c mask word rows =
      if (s.signalRows (v.cmdPart c) c.region mask (SemWord.ofWord word) rows).2 then
        ((s.signalRows (v.cmdPart c) c.region mask (SemWord.ofWord word) rows).1.setCmd
          { c with released := true, wait := .done }).traceEnd { c with released := true }
      else (s.signalRows (v.cmdPart c) c.region mask (SemWord.ofWord word) rows).1.failCmd
        { c with released := true } 0x2608 0 := by
    unfold signalEnd
    rw [hpart]
    exact if_neg (by rw [show (SemWord.ofWord word).op = 2 from hop]; decide)
  generalize hu : s.signalRows (v.cmdPart c) c.region mask (SemWord.ofWord word) rows = u at *
  have hstands : (u.1.cmd? c.q c.i).isSome = true := by
    have hcmds : u.1.cmds = s.cmds := (congrArg (fun s : State => s.cmds) hbeside :)
    rw [cmd?, hcmds]
    exact hfound
  have hloft : u.1.loft = (s.signalRows (v.cmdPart c) c.region mask (SemWord.ofWord word) rows).1.loft := by rw [hu]
  have hframe : u.1.besideMove = s.besideMove := (congrArg besideMove hbeside :)
  rw [hend, hflag]
  split
  · rename_i hok
    obtain ⟨_, _, htrace, -⟩ :=
      traces_traceEnd (u.1.setCmd { c with released := true, wait := .done }) { c with released := true }
    rw [htrace]
    exact ⟨{ c with released := true, wait := .done }, moveEnd_of_signalled hop hsems
      (cmd?_setCmd (c := { c with released := true, wait := .done }) hstands) rfl rfl (if_pos hok).symm hloft hframe⟩
  · rename_i hok
    obtain ⟨_, _, hfail⟩ := u.1.failCmd_of_noOutputs { c with released := true } (outputsOf_move _ hcls hform) 0x2608 0
    have hcmd := failCmd_cmd? (c := { c with released := true }) hstands 0x2608 0
    rw [hfail] at hcmd ⊢
    exact ⟨_, moveEnd_of_signalled hop hsems hcmd rfl rfl (if_neg hok).symm hloft hframe⟩

/-- R209, R214: the end of a fill or copy. -/
theorem signalEnd_ends (hsems : s.loft.sems = v.loft.sems) (hpart : s.cmdPart c = v.cmdPart c)
    (hfound : (s.cmd? c.q c.i).isSome = true) (hcls : c.recs.cls = 6) (hform : c.recs.form ≠ 3) :
    ∃ c', MoveEnd v s c mask word rows (s.signalEnd c mask word rows) c' := by
  by_cases hop : bits word 15 14 = 2
  · exact signalEnd_signalled hop hsems hpart hfound hcls hform
  · exact ⟨_, signalEnd_unsignalled hop hsems hfound⟩

end
end State
end Sys2Proof.Machine
end

section
namespace Sys2Proof.Machine
open Safety
namespace State

/-! ### The rows that a fill or copy lands (R207) -/

/-- The rows of a MOVE on the clusters of its mask: cluster and place. -/
abbrev moveCells (mask count : Nat) : List (Nat × Nat) := setBits mask 16 ×ˢ List.range count

theorem mem_moveCells {mask count : Nat} {x : Nat × Nat} :
    x ∈ moveCells mask count ↔ (x.1 < 16 ∧ bit mask x.1 = true) ∧ x.2 < count := by
  rw [List.mem_product, mem_setBits, List.mem_range]

/-- The places of a MOVE from its first row on. -/
abbrev moveRows (first count : Nat) : List Nat := (List.range count).map (first + ·)

/-- Key of a cell, from the first row on. -/
abbrev cellKey (p : Partition) (region first : Nat) (x : Nat × Nat) : Nat := rowKey p region x.1 (first + x.2)

section
variable {p : Partition} {region first mask count : Nat}

/-- Within a Loft the rows of a MOVE are different rows. -/
theorem nodup_cellKeys (hfits : 16 * p.baseUnit + first + count ≤ 4096) :
    ((moveCells mask count).map (cellKey p region first)).Nodup := by
  refine List.Nodup.map_on (fun x hx y hy hkey => ?_) ((setBits_nodup mask 16).product List.nodup_range)
  obtain ⟨-, hx⟩ := mem_moveCells.1 hx
  obtain ⟨-, hy⟩ := mem_moveCells.1 hy
  obtain ⟨hcluster, hplace⟩ := rowKey_inj (by omega) (by omega) hkey
  exact Prod.ext hcluster (by omega)

/-- The signal of its cluster settles a cell. -/
theorem settles_cell (v : State) (w : SemWord) (hfits : 16 * p.baseUnit + first + count ≤ 4096) {x : Nat × Nat}
    (hx : x ∈ moveCells mask count) :
    v.settles p region mask w (moveRows first count) (cellKey p region first x) = (v.signalOne p region x.1 w).2 := by
  obtain ⟨hcluster, hplace⟩ := mem_moveCells.1 hx
  unfold settles
  rw [Bool.eq_iff_iff, List.any_eq_true]
  refine ⟨fun ⟨n, _, hn⟩ => ?_, fun hok => ⟨x.1, mem_setBits.2 hcluster, ?_⟩⟩
  · obtain ⟨hok, hcovers⟩ := Bool.and_eq_true_iff.1 hn
    obtain ⟨i, hi, hkey⟩ := List.any_eq_true.1 hcovers
    obtain ⟨j, hj, rfl⟩ := List.mem_map.1 hi
    have hj := List.mem_range.1 hj
    obtain ⟨rfl, -⟩ := rowKey_inj (by omega) (by omega) (beq_iff_eq.1 hkey)
    exact hok
  · rw [hok, Bool.true_and, List.any_eq_true]
    exact ⟨first + x.2, List.mem_map_of_mem (List.mem_range.2 hplace), beq_self_eq_true _⟩

/-- No signal settles another row. -/
theorem settles_other (v : State) (w : SemWord) {k : Nat} (hk : k ∉ (moveCells mask count).map (cellKey p region first)) :
    v.settles p region mask w (moveRows first count) k = false := by
  unfold settles
  rw [List.any_eq_false]
  intro n hn hsettles
  obtain ⟨i, hi, hkey⟩ := List.any_eq_true.1 (Bool.and_eq_true_iff.1 hsettles).2
  obtain ⟨j, hj, rfl⟩ := List.mem_map.1 hi
  refine hk (List.mem_map.2 ⟨(n, j), mem_moveCells.2 ⟨mem_setBits.1 hn, List.mem_range.1 hj⟩, ?_⟩)
  exact (beq_iff_eq.1 hkey).symm

end

/-- A row that has landed under a signal of its cluster, which took effect or did not. -/
theorem settled_landed (p : Partition) (b : List Byte) (word : Nat) (ok mark : Bool) (old : LoftRow) :
    settled (decide (bits word 15 14 = 2) && ok) (landed p b (bits word 15 14 == 2) mark old) =
      { LoftRow.ofBytes b with
        mark := mark, pending := p.hazard && (if bits word 15 14 = 2 then !ok else old.pending) } := by
  by_cases hop : bits word 15 14 = 2
  · simp [settled, landed, hop]
  · simp [settled, landed, hop, beq_eq_false_iff_ne.2 hop]

/-- The rows of a fill or copy once it has ended: bytes, mark and former pending bit of each cell are given. -/
theorem MoveEnd.rows {v s t : State} {c c' : Cmd} {mask word first count : Nat}
    (h : MoveEnd v s c mask word (moveRows first count) t c')
    (hfits : 16 * (v.cmdPart c).baseUnit + first + count ≤ 4096) {x : Nat × Nat} (hx : x ∈ moveCells mask count)
    {b : List Byte} {mark : Bool} {old : LoftRow}
    (hlanded : s.loftRow (cellKey (v.cmdPart c) c.region first x) =
      landed (v.cmdPart c) b (bits word 15 14 == 2) mark old) :
    t.loftRow (cellKey (v.cmdPart c) c.region first x) = { LoftRow.ofBytes b with
      mark := mark, pending := (v.cmdPart c).hazard && (if bits word 15 14 = 2
        then !(v.signalOne (v.cmdPart c) c.region x.1 (SemWord.ofWord word)).2 else old.pending) } := by
  rw [h.row, settles_cell v _ hfits hx, hlanded, settled_landed]

theorem MoveEnd.otherRow {v s t : State} {c c' : Cmd} {mask word first count : Nat}
    (h : MoveEnd v s c mask word (moveRows first count) t c') {k : Nat}
    (hk : k ∉ (moveCells mask count).map (cellKey (v.cmdPart c) c.region first)) : t.loftRow k = s.loftRow k := by
  rw [h.row, settles_other v _ hk, Bool.and_false, settled_false]

/-! ### Fill (R207) -/

/-- The bytes of a filled row. -/
abbrev fillBytes (c : Cmd) : List Byte := (List.replicate 128 (leBytes 4 (c.recs.b 32 35))).flatten

/-- The rows of a fill. -/
abbrev fillCells (c : Cmd) : List (Nat × Nat) := moveCells (c.recs.b 20 21) (c.recs.b 28 31)

/-- The pattern lands in one row. -/
def fillCell (p : Partition) (c : Cmd) (s : State) (x : Nat × Nat) : State :=
  s.landRow p c.region x.1 (c.recs.b 24 27 + x.2) (fillBytes c) (bits (c.recs.b 36 39) 15 14 == 2)

section
variable {v : State} {c : Cmd}

/-- What a fill has landed before its signal. -/
def filled (v : State) (c : Cmd) : State := (fillCells c).foldl (fillCell (v.cmdPart c) c) (v.beginTrace c).1

theorem attemptFill_eq : v.attemptFill c = (v.filled c).signalEnd { c with begun := true } (c.recs.b 20 21) (c.recs.b 36 39)
    (moveRows (c.recs.b 24 27) (c.recs.b 28 31)) := by
  have hpart : (v.beginTrace c).1.cmdPart { c with begun := true } = v.cmdPart c := by
    obtain ⟨_, _, htrace, -⟩ := traces_beginTrace v c
    rw [htrace]
    rfl
  have hcells (p : Partition) (s : State) : (setBits (c.recs.b 20 21) 16).foldl (fun s n =>
      (moveRows (c.recs.b 24 27) (c.recs.b 28 31)).foldl (fun s i =>
        s.landRow p c.region n i (fillBytes c) (bits (c.recs.b 36 39) 15 14 == 2)) s) s = (fillCells c).foldl (fillCell p c) s := by
    unfold fillCells moveCells fillCell
    simp only [List.foldl_map, SProd.sprod, List.product, List.foldl_flatMap]
  unfold attemptFill
  dsimp only
  rw [beginTrace_cmd, hpart]
  exact congrArg (signalEnd · _ _ _ _) (hcells ..)

theorem filled_besideRows : (v.filled c).besideRows = (v.beginTrace c).1.besideRows :=
  foldl_keeps besideRows (f := fillCell (v.cmdPart c) c) (fun _ _ => rfl) _ _

theorem loftRow_filled (hfits : 16 * (v.cmdPart c).baseUnit + c.recs.b 24 27 + c.recs.b 28 31 ≤ 4096) :
    (∀ x ∈ fillCells c, (v.filled c).loftRow (cellKey (v.cmdPart c) c.region (c.recs.b 24 27) x) =
        landed (v.cmdPart c) (fillBytes c) (bits (c.recs.b 36 39) 15 14 == 2) false
          (v.loftRow (cellKey (v.cmdPart c) c.region (c.recs.b 24 27) x))) ∧
      ∀ k, k ∉ (fillCells c).map (cellKey (v.cmdPart c) c.region (c.recs.b 24 27)) →
        (v.filled c).loftRow k = v.loftRow k := by
  have hbegun (k : Nat) : (v.beginTrace c).1.loftRow k = v.loftRow k := by
    obtain ⟨_, _, htrace, -⟩ := traces_beginTrace v c
    rw [htrace]
    rfl
  obtain ⟨hcells, hothers⟩ := loftRow_foldl (f := fillCell (v.cmdPart c) c)
    (land := fun _ => landed (v.cmdPart c) (fillBytes c) (bits (c.recs.b 36 39) 15 14 == 2) false)
    (fun s x k => s.loftRow_landRow ..) (nodup_cellKeys hfits) (v.beginTrace c).1
  exact ⟨fun x hx => (hcells x hx).trans (congrArg _ (hbegun _)), fun k hk => (hothers k hk).trans (hbegun k)⟩

end
end State
end Sys2Proof.Machine
end

section
namespace Sys2Proof.Machine
open Safety
namespace State

/-! ### A bad row that a read finds (R215)

Beside the marks of rows it changes what is counted, observed, entered and sent. -/

/-- A state but for its counters and what is observed. -/
def besideCounts (s : State) : State := { s with dict := {}, obs := {} }

/-- A state but for what an entry in the ledger changes. -/
def besideLedger (s : State) : State := { s.besideCounts with integ := {}, outbox := [] }

/-- A state but for what a bad row changes. -/
def besideFound (s : State) : State := { s.besideLedger with loft := { s.loft with rows := [] } }

section
variable (s : State)

theorem dayEvent_besideCounts (die place region cluster kind payload : Nat) :
    (s.dayEvent die place region cluster kind payload).besideCounts = s.besideCounts := by
  obtain ⟨_, _, htrace, -⟩ := s.traces_dayEvent die place region cluster kind payload
  rw [htrace]
  rfl

theorem hazardAt_besideCounts (p : Partition) (region cluster row pasid q : Nat) :
    (s.hazardAt p region cluster row pasid q).besideCounts = s.besideCounts := dayEvent_besideCounts ..

theorem interrupt_besideLedger (n : Nat) : (s.interrupt n).besideLedger = s.besideLedger := by
  rw [interrupt_eq]
  rfl

theorem ledgerWrite_besideLedger (die : Nat) (e : LedgerEntry) : (s.ledgerWrite die e).1.besideLedger = s.besideLedger := by
  unfold ledgerWrite
  extract_lets l entry fits first l1 vec place s1 s2 s3 s4
  split
  · have hs2 : s2.besideLedger = s.besideLedger := by
      unfold s2
      split
      · exact interrupt_besideLedger s1 vec
      · rfl
    have hs3 : s3.besideLedger = s2.besideLedger := by
      unfold s3
      split <;> rfl
    exact (congrArg (fun s : State => { s with integ := {}, outbox := [] }) (dayEvent_besideCounts s3 ..)).trans (hs3.trans hs2)
  · dsimp only
    split
    · exact interrupt_besideLedger s4 vec
    · rfl

theorem noteFault_besideLedger (loc sev exposed : Nat) : (s.noteFault loc sev exposed).besideLedger = s.besideLedger := by
  unfold noteFault
  split <;> rfl

/-- A bad row is marked where it was not. -/
theorem noteBadRow_rest (region cluster absRow : Nat) (c : Option Cmd) :
    (s.noteBadRow region cluster absRow c).besideLedger =
      (s.setRow (loftKey region cluster absRow) { s.loftRow (loftKey region cluster absRow) with mark := true }).besideLedger ∨
    (s.noteBadRow region cluster absRow c).besideLedger = s.besideLedger := by
  unfold noteBadRow
  extract_lets k s1 loc e
  split
  · exact .inr rfl
  · exact .inl ((noteFault_besideLedger ..).trans (ledgerWrite_besideLedger ..))

theorem noteBadRow_besideFound (region cluster absRow : Nat) (c : Option Cmd) :
    (s.noteBadRow region cluster absRow c).besideFound = s.besideFound := by
  obtain h | h := s.noteBadRow_rest region cluster absRow c <;>
    exact (congrArg besideFound h :)

theorem loftRow_of_besideLedger {s t : State} (h : t.besideLedger = s.besideLedger) (k : Nat) : t.loftRow k = s.loftRow k :=
  loftRow_of_loft (congrArg (fun s : State => s.loft) h :) k

/-- The pending bit of every row stands. -/
theorem pending_noteBadRow (region cluster absRow : Nat) (c : Option Cmd) (k : Nat) :
    ((s.noteBadRow region cluster absRow c).loftRow k).pending = (s.loftRow k).pending := by
  obtain h | h := s.noteBadRow_rest region cluster absRow c
  · rw [loftRow_of_besideLedger h, loftRow_setRow]
    split
    · rename_i hk
      rw [hk]
    · rfl
  · rw [loftRow_of_besideLedger h]

end

/-! ### Copy (R207, R215) -/

/-- The rows of a copy. -/
abbrev copyCells (c : Cmd) : List (Nat × Nat) := moveCells (c.recs.b 20 21) (c.recs.b 32 35)

/-- What a copy reads: of each cell the bytes of its source row, whether it is bad, and whether its read is a hazard. -/
def copyReads (v : State) (c : Cmd) : List ((Nat × Nat) × List Byte × Bool × Bool) :=
  (copyCells c).map fun x => (x, v.readRow (v.cmdPart c) c.region x.1 (c.recs.b 24 27 + x.2))

/-- Row of a Loft from which a cell is copied. -/
abbrev copySource (p : Partition) (c : Cmd) (x : Nat × Nat) : Nat := 16 * p.baseUnit + c.recs.b 24 27 + x.2

/-- The reads that are hazards. -/
def copyHazards (v : State) (c : Cmd) : List ((Nat × Nat) × List Byte × Bool × Bool) := (v.copyReads c).filter fun g => g.2.2.2

/-- The reads that are the first to find a bad sector. -/
def copyFound (v : State) (c : Cmd) : List ((Nat × Nat) × List Byte × Bool × Bool) :=
  (v.copyReads c).filter fun g =>
    g.2.2.1 && !(v.loftRow (loftKey c.region g.1.1 (copySource (v.cmdPart c) c g.1))).mark

/-- The reads of a copy have been made: first the hazards are counted. -/
def copyCounted (v : State) (c : Cmd) : State :=
  (v.copyHazards c).foldl (fun s g => s.hazardAt (v.cmdPart c) c.region g.1.1 (c.recs.b 24 27 + g.1.2) c.pasid c.q)
    (v.beginTrace c).1

/-- Then the bad rows are noted. -/
def copyRead (v : State) (c : Cmd) : State :=
  (v.copyFound c).foldl
    (fun s g => s.noteBadRow c.region g.1.1 (copySource (v.cmdPart c) c g.1) (some { c with begun := true })) (v.copyCounted c)

/-- One row lands as it was read. -/
def copyCell (p : Partition) (c : Cmd) (s : State) (g : (Nat × Nat) × List Byte × Bool × Bool) : State :=
  let t := s.landRow p c.region g.1.1 (c.recs.b 28 31 + g.1.2) g.2.1 (bits (c.recs.b 36 39) 15 14 == 2)
  if g.2.2.1 then
    t.setRow (cellKey p c.region (c.recs.b 28 31) g.1) { t.loftRow (cellKey p c.region (c.recs.b 28 31) g.1) with mark := true }
  else t

/-- What a copy has landed before its signal. -/
def copied (v : State) (c : Cmd) : State := (v.copyReads c).foldl (copyCell (v.cmdPart c) c) (v.copyRead c)

/-- A copy that has made its reads. -/
abbrev copyBegun (v : State) (c : Cmd) : Cmd := { c with begun := true, hazards := c.hazards + (v.copyHazards c).length }

section
variable {v : State} {c : Cmd}

theorem attemptCopy_eq : v.attemptCopy c = (v.copied c).signalEnd (v.copyBegun c) (c.recs.b 20 21) (c.recs.b 36 39)
    (moveRows (c.recs.b 28 31) (c.recs.b 32 35)) := by
  have hpart : (v.beginTrace c).1.cmdPart { c with begun := true } = v.cmdPart c := by
    obtain ⟨_, _, htrace, -⟩ := traces_beginTrace v c
    rw [htrace]
    rfl
  have hloft : (v.beginTrace c).1.loft = v.loft := by
    obtain ⟨_, _, htrace, -⟩ := traces_beginTrace v c
    rw [htrace]
  have hrow : (v.beginTrace c).1.loftRow = v.loftRow := funext fun k => loftRow_of_loft hloft k
  have hread : (v.beginTrace c).1.readRow = v.readRow := by
    unfold readRow
    rw [hrow]
  unfold attemptCopy
  dsimp only
  rw [beginTrace_cmd, hpart, hread, hrow]
  rfl

theorem copyCounted_besideCounts : (v.copyCounted c).besideCounts = v.besideCounts := by
  obtain ⟨_, _, htrace, -⟩ := traces_beginTrace v c
  refine (foldl_keeps besideCounts (fun s _ => hazardAt_besideCounts s ..) _ _).trans ?_
  rw [htrace]
  rfl

theorem copyRead_besideFound : (v.copyRead c).besideFound = v.besideFound :=
  (foldl_keeps besideFound (fun s _ => noteBadRow_besideFound s ..) _ _).trans (congrArg besideFound copyCounted_besideCounts :)

/-- The reads of a copy change no pending bit. -/
theorem pending_copyRead (k : Nat) : ((v.copyRead c).loftRow k).pending = (v.loftRow k).pending :=
  (foldl_keeps (fun s => (s.loftRow k).pending) (fun s _ => pending_noteBadRow s ..) _ _).trans
    (congrArg LoftRow.pending (loftRow_of_loft (congrArg (fun s : State => s.loft) copyCounted_besideCounts :) k))

/-- Where no row holds a bad sector, a copy finds none. -/
theorem copyFound_of_good (hgood : ∀ r ∈ v.loft.rows, r.2.badSector = false) : v.copyFound c = [] := by
  have hsector (k : Nat) : (v.loftRow k).badSector = false := by
    unfold loftRow
    cases hrow : Table.find? k v.loft.rows with
    | none => rfl
    | some r => exact hgood _ (Table.mem_of_find? hrow)
  unfold copyFound
  rw [List.filter_eq_nil_iff]
  intro g hg
  obtain ⟨x, -, rfl⟩ := List.mem_map.1 hg
  simp [readRow, LoftRow.bad, hsector, copySource, Nat.add_assoc]

theorem copyRead_of_good (hgood : ∀ r ∈ v.loft.rows, r.2.badSector = false) : v.copyRead c = v.copyCounted c := by
  unfold copyRead
  rw [copyFound_of_good hgood, List.foldl_nil]

/-- A row that lands carries the mark of its read. -/
theorem loftRow_copyCell (p : Partition) (c : Cmd) (s : State) (g : (Nat × Nat) × List Byte × Bool × Bool) (k : Nat) :
    (copyCell p c s g).loftRow k = if k = cellKey p c.region (c.recs.b 28 31) g.1 then
      landed p g.2.1 (bits (c.recs.b 36 39) 15 14 == 2) g.2.2.1 (s.loftRow k) else s.loftRow k := by
  unfold copyCell
  dsimp only
  split
  · rename_i hbad
    rw [loftRow_setRow, loftRow_landRow, loftRow_landRow, if_pos rfl]
    split
    · rename_i hk
      rw [hk, hbad]
      rfl
    · rfl
  · rename_i hbad
    rw [loftRow_landRow, Bool.eq_false_iff.2 hbad]

theorem copyCell_besideRows (p : Partition) (c : Cmd) (s : State) (g : (Nat × Nat) × List Byte × Bool × Bool) :
    (copyCell p c s g).besideRows = s.besideRows := by
  unfold copyCell
  dsimp only
  split <;> rfl

theorem copied_besideRows : (v.copied c).besideRows = (v.copyRead c).besideRows :=
  foldl_keeps besideRows (copyCell_besideRows _ _) _ _

theorem copyReads_keys : ((v.copyReads c).map fun g => cellKey (v.cmdPart c) c.region (c.recs.b 28 31) g.1) =
    (copyCells c).map (cellKey (v.cmdPart c) c.region (c.recs.b 28 31)) := by
  unfold copyReads
  rw [List.map_map]
  rfl

theorem loftRow_copied (hfits : 16 * (v.cmdPart c).baseUnit + c.recs.b 28 31 + c.recs.b 32 35 ≤ 4096) :
    (∀ x ∈ copyCells c, (v.copied c).loftRow (cellKey (v.cmdPart c) c.region (c.recs.b 28 31) x) =
        landed (v.cmdPart c) (v.readRow (v.cmdPart c) c.region x.1 (c.recs.b 24 27 + x.2)).1 (bits (c.recs.b 36 39) 15 14 == 2)
          (v.readRow (v.cmdPart c) c.region x.1 (c.recs.b 24 27 + x.2)).2.1
          (v.loftRow (cellKey (v.cmdPart c) c.region (c.recs.b 28 31) x))) ∧
      ∀ k, k ∉ (copyCells c).map (cellKey (v.cmdPart c) c.region (c.recs.b 28 31)) →
        (v.copied c).loftRow k = (v.copyRead c).loftRow k := by
  have hnodup := nodup_cellKeys (region := c.region) (mask := c.recs.b 20 21) hfits
  rw [← copyReads_keys] at hnodup
  obtain ⟨hcells, hothers⟩ := loftRow_foldl (loftRow_copyCell (v.cmdPart c) c)
    (land := fun g => landed (v.cmdPart c) g.2.1 (bits (c.recs.b 36 39) 15 14 == 2) g.2.2.1) hnodup (v.copyRead c)
  rw [copyReads_keys] at hothers
  refine ⟨fun x hx => (hcells _ (List.mem_map_of_mem hx)).trans ?_, hothers⟩
  unfold landed
  rw [pending_copyRead]

end
end State
end Sys2Proof.Machine
end

section
namespace Sys2Proof.Machine
open Safety
namespace State

/-! ### Attempts of MOVE commands (R207, R219) -/

section
variable {v : State} {c : Cmd}

theorem attempt_transfer (hcls : c.recs.cls = 6) (hform : c.recs.form = 0) (hrun : v.mayRun c = true)
    (hbreak : v.breakHolds c = false) (hidle : Idle c) :
    v.attempt c = (v.beginTrace c).1.setCmd (freshTransfer { c with begun := true }) := by
  unfold attempt
  rw [hrun, hbreak, hcls, hform]
  dsimp only
  rw [beginTrace_cmd, hidle.transfer]
  rfl

theorem attempt_fill (hcls : c.recs.cls = 6) (hform : c.recs.form = 1) (hrun : v.mayRun c = true)
    (hbreak : v.breakHolds c = false) : v.attempt c = v.attemptFill c := by
  unfold attempt
  rw [hrun, hbreak, hcls, hform]
  rfl

theorem attempt_copy (hcls : c.recs.cls = 6) (hform : c.recs.form = 2) (hrun : v.mayRun c = true)
    (hbreak : v.breakHolds c = false) : v.attempt c = v.attemptCopy c := by
  unfold attempt
  rw [hrun, hbreak, hcls, hform]
  rfl

/-- The keys of a MOVE's cells are those of its clusters and places. -/
theorem not_mem_cellKeys {p : Partition} {region first mask count k : Nat}
    (hk : ∀ n i, n < 16 → bit mask n = true → i < count → k ≠ rowKey p region n (first + i)) :
    k ∉ (moveCells mask count).map (cellKey p region first) := by
  intro hmem
  obtain ⟨x, hx, rfl⟩ := List.mem_map.1 hmem
  obtain ⟨⟨hcluster, hmask⟩, hplace⟩ := mem_moveCells.1 hx
  exact hk x.1 x.2 hcluster hmask hplace rfl

theorem filled_ends (hfound : v.cmd? c.q c.i = some c) (hcls : c.recs.cls = 6) (hform : c.recs.form = 1) :
    ∃ c', MoveEnd v (v.filled c) { c with begun := true } (c.recs.b 20 21) (c.recs.b 36 39)
      (moveRows (c.recs.b 24 27) (c.recs.b 28 31)) (v.attemptFill c) c' := by
  obtain ⟨_, _, htrace, -⟩ := traces_beginTrace v c
  have hbeside := filled_besideRows (v := v) (c := c)
  rw [htrace] at hbeside
  rw [attemptFill_eq]
  refine signalEnd_ends (c := { c with begun := true }) (congrArg (fun s : State => s.loft.sems) hbeside :)
    (congrArg (fun s : State => s.cmdPart c) hbeside :) ?_ hcls (by rw [show Recs.form _ = 1 from hform]; decide)
  exact (congrArg (fun s : State => (s.cmd? c.q c.i).isSome) hbeside :).trans (congrArg Option.isSome hfound)

theorem filled_besideMove : (v.filled c).besideMove = v.besideMove := by
  obtain ⟨_, _, htrace, -⟩ := traces_beginTrace v c
  have hbeside := filled_besideRows (v := v) (c := c)
  rw [htrace] at hbeside
  exact (congrArg besideMove hbeside :)

theorem copied_besideFound : (v.copied c).besideFound = v.besideFound :=
  (congrArg besideFound copied_besideRows :).trans copyRead_besideFound

theorem cmdPart_of_besideFound {s t : State} (h : t.besideFound = s.besideFound) (c : Cmd) : t.cmdPart c = s.cmdPart c :=
  (congrArg (fun s : State => s.cmdPart c) h :)

theorem cmd?_of_besideFound {s t : State} (h : t.besideFound = s.besideFound) (q i : Nat) : t.cmd? q i = s.cmd? q i :=
  (congrArg (fun s : State => s.cmd? q i) h :)

theorem copied_ends (hfound : v.cmd? c.q c.i = some c) (hcls : c.recs.cls = 6) (hform : c.recs.form = 2) :
    ∃ c', MoveEnd v (v.copied c) (v.copyBegun c) (c.recs.b 20 21) (c.recs.b 36 39)
      (moveRows (c.recs.b 28 31) (c.recs.b 32 35)) (v.attemptCopy c) c' := by
  have hbeside := copied_besideFound (v := v) (c := c)
  rw [attemptCopy_eq]
  refine signalEnd_ends (c := v.copyBegun c) (congrArg (fun s : State => s.loft.sems) hbeside :)
    (cmdPart_of_besideFound hbeside _) ?_ hcls (by rw [show Recs.form _ = 2 from hform]; decide)
  exact congrArg Option.isSome ((cmd?_of_besideFound hbeside ..).trans hfound)

/-- A state but for what a copy may change. -/
def besideCopy (s : State) : State := { s.besideMove with integ := {}, outbox := [] }

theorem besideCopy_of_besideFound {s t : State} (h : t.besideFound = s.besideFound) : t.besideCopy = s.besideCopy :=
  (congrArg besideCopy h :)

theorem copied_besideCopy : (v.copied c).besideCopy = v.besideCopy := besideCopy_of_besideFound copied_besideFound

theorem loftRow_copyRead_of_good (hgood : ∀ r ∈ v.loft.rows, r.2.badSector = false) (k : Nat) :
    (v.copyRead c).loftRow k = v.loftRow k := by
  rw [copyRead_of_good hgood]
  exact loftRow_of_loft (congrArg (fun s : State => s.loft) copyCounted_besideCounts :) k

/-- Where no row holds a bad sector, a copy has entered and sent nothing. -/
theorem copied_of_good (hgood : ∀ r ∈ v.loft.rows, r.2.badSector = false) :
    (v.copied c).integ = v.integ ∧ (v.copied c).outbox = v.outbox := by
  have hbeside := copied_besideRows (v := v) (c := c)
  rw [copyRead_of_good hgood] at hbeside
  have hcounts := copyCounted_besideCounts (v := v) (c := c)
  exact ⟨(congrArg (fun s : State => s.integ) hbeside :).trans (congrArg (fun s : State => s.integ) hcounts :),
    (congrArg (fun s : State => s.outbox) hbeside :).trans (congrArg (fun s : State => s.outbox) hcounts :)⟩

end
end State
end Sys2Proof.Machine

namespace Sys2Proof.Safety
open Machine

/-- R270: each row of MOVE lets its form begin its work. -/
theorem Issues.moveRow_eq {s v : State} {q : Nat} {c : Cmd} (h : Issues s q v c) {form : Nat} (hcls : c.recs.cls = 6)
    (hform : c.recs.form = form) : s.issueNext (State.takesForm 6 3 form Recs.form) q = v.attempt c := by
  rw [h.issueNext_eq]
  simp [State.takesForm, show ({ desc := c.recs.desc } : Recs).cls = 6 from hcls,
    show ({ desc := c.recs.desc } : Recs).form = form from hform]

end Sys2Proof.Safety

namespace Sys2Proof.Machine
open Safety

section
variable {s v : State} {q : Nat} {c : Cmd}

/-- R219: a transfer waits for its bursts, its descriptor ring from the record. -/
theorem State.transfer_begins (hissues : Issues s q v c) (hcls : c.recs.cls = 6) (hform : c.recs.form = 0) :
    ∃ t c', exec (.moveTransfer q) s = .next t ∧ t.cmd? q c.i = some c' ∧ c'.wait = .transfer ∧
      c'.transfer = some { base := c.recs.b 24 31, log2 := c.recs.b 32 32, first := c.recs.b 36 39, count := c.recs.b 40 43 } ∧
      t = { v with cmds := t.cmds, obs := t.obs, dict := t.dict } := by
  obtain ⟨rfl, -, -, hfound⟩ := hissues.begins
  obtain ⟨hrun, hbreak⟩ := hissues.mayWork
  obtain ⟨_, _, htrace, -⟩ := State.traces_beginTrace v c
  have hexec : exec (.moveTransfer c.q) s = .next ((v.beginTrace c).1.setCmd (State.freshTransfer { c with begun := true })) :=
    congrArg Host.Outcome.next ((hissues.moveRow_eq hcls hform).trans (State.attempt_transfer hcls hform hrun hbreak hissues.idle))
  rw [htrace] at hexec
  have hcmd := State.cmd?_of_setCmd_cmds (t := ({ v with dict := _, obs := _ } : State).setCmd _)
    (d := State.freshTransfer { c with begun := true }) hfound rfl rfl rfl
  exact ⟨_, _, hexec, hcmd, rfl, rfl, rfl⟩

end

/-- Settles O56: a transfer begins with its ring; the rows of a fill or copy are different rows, each of which lands once with
what was written or read and is settled by the signal of its cluster alone. -/
theorem moveCommands : Obligations.MoveCommands := by
  intro s v q c hissues hcls
  refine ⟨State.transfer_begins hissues hcls, fun hform hfits => ?_, fun hform hfits => ?_⟩
  all_goals
    obtain ⟨rfl, hstatus, -, hfound⟩ := hissues.begins
    obtain ⟨hrun, hbreak⟩ := hissues.mayWork
  · obtain ⟨c', hend⟩ := State.filled_ends hfound hcls hform
    obtain ⟨hcells, hothers⟩ := State.loftRow_filled hfits
    have hframe : (v.attemptFill c).besideMove = v.besideMove := hend.frame.trans State.filled_besideMove
    have hattempt := (hissues.moveRow_eq hcls hform).trans (State.attempt_fill hcls hform hrun hbreak)
    refine ⟨v.attemptFill c, c', congrArg Host.Outcome.next hattempt, hend.cmd, hend.done,
      fun n i hn hmask hi => ?_, fun k hk => ?_, fun hop => ?_, fun hop => ?_, ?_⟩
    · have hx : (n, i) ∈ State.fillCells c := State.mem_moveCells.2 ⟨⟨hn, hmask⟩, hi⟩
      exact hend.rows hfits hx (hcells _ hx)
    · exact (hend.otherRow (State.not_mem_cellKeys hk)).trans (hothers k (State.not_mem_cellKeys hk))
    · obtain ⟨hcode, hreleased, hsems⟩ := hend.unsignalled hop
      exact ⟨hcode.trans hstatus, hreleased, hsems⟩
    · obtain ⟨hreleased, hsems, hcode⟩ := hend.signalled hop
      exact ⟨hreleased, hsems, hcode.trans (by rw [show Cmd.status _ = 0 from hstatus]; rfl)⟩
    · exact (congrArg (fun r : State => { r with
        cmds := (v.attemptFill c).cmds, loft := (v.attemptFill c).loft, obs := (v.attemptFill c).obs,
        dict := (v.attemptFill c).dict, bruora := (v.attemptFill c).bruora }) hframe :)
  · obtain ⟨c', hend⟩ := State.copied_ends hfound hcls hform
    obtain ⟨hcells, hothers⟩ := State.loftRow_copied hfits
    have hframe : (v.attemptCopy c).besideCopy = v.besideCopy :=
      (congrArg State.besideCopy hend.frame :).trans State.copied_besideCopy
    have hattempt := (hissues.moveRow_eq hcls hform).trans (State.attempt_copy hcls hform hrun hbreak)
    refine ⟨v.attemptCopy c, c', congrArg Host.Outcome.next hattempt, hend.cmd, hend.done,
      fun n i hn hmask hi => ?_, fun hgood k hk => ?_, fun hop => ?_, fun hop => ?_, fun hgood => ?_, ?_⟩
    · have hx : (n, i) ∈ State.copyCells c := State.mem_moveCells.2 ⟨⟨hn, hmask⟩, hi⟩
      simp only [Nat.add_assoc]
      exact hend.rows hfits hx (hcells _ hx)
    · have hk' : k ∉ (State.copyCells c).map (State.cellKey (v.cmdPart c) c.region (c.recs.b 28 31)) :=
        State.not_mem_cellKeys fun n i hn hmask hi => by
          have := hk n i hn hmask hi
          rwa [Nat.add_assoc] at this
      exact (hend.otherRow hk').trans ((hothers k hk').trans (State.loftRow_copyRead_of_good hgood k))
    · obtain ⟨hcode, -, hsems⟩ := hend.unsignalled hop
      exact ⟨hcode.trans hstatus, hsems⟩
    · obtain ⟨-, hsems, hcode⟩ := hend.signalled hop
      exact ⟨hsems, hcode.trans (by rw [show Cmd.status _ = 0 from hstatus]; rfl)⟩
    · obtain ⟨hinteg, houtbox⟩ := State.copied_of_good (c := c) hgood
      exact ⟨(congrArg (fun s : State => s.integ) hend.frame :).trans hinteg,
        (congrArg (fun s : State => s.outbox) hend.frame :).trans houtbox⟩
    · exact (congrArg (fun r : State => { r with
        cmds := (v.attemptCopy c).cmds, loft := (v.attemptCopy c).loft, obs := (v.attemptCopy c).obs,
        dict := (v.attemptCopy c).dict, bruora := (v.attemptCopy c).bruora, integ := (v.attemptCopy c).integ,
        outbox := (v.attemptCopy c).outbox }) hframe :)

end Sys2Proof.Machine
end

section
namespace Sys2Proof.Machine
open Safety

/-! ### A burst with a descriptor whose deadline has passed (R236, R295)

The frame that O50 gives a burst keeps all of `queues`. A descriptor that is already late as it is taken raises the
deadline-miss event of its queue, and the queue notes the point of the deadline, so that the event is raised once. -/

namespace State

/-- The bytes of the next n descriptors. -/
def burstBytes (s : State) (c : Cmd) (t : Transfer) (n : Nat) : List (List Byte) :=
  (burstRanges t n).map fun a => s.readVA c.region c.pasid a.va 128

/-- The state, the command and the transfer once they have been taken. -/
def burstTaken (s : State) (c : Cmd) (t : Transfer) (n : Nat) : State × Cmd × Transfer :=
  takeBurst (s.burstBytes c t n) (s.noteAll c.region c.pasid (burstRanges t n)) c { t with burst := false, burstPage := none }

end State

/-- A descriptor that fills one byte of memory, with its deadline at the start of frame 0 of input 0. -/
def lateFill : List Byte :=
  leBytes 48 (3 + 2 ^ 18) ++ leBytes 10 (1 + 2 ^ 40) ++ (List.replicate 4 (leBytes 10 1)).flatten ++ leBytes 30 0

/-- A MOVE of that descriptor alone, to be fetched from 0x20000. -/
def lateTransfer : Transfer := { base := 0x20000, count := 1 }

def lateMove : Cmd :=
  { q := 3, i := 0, pasid := 5, die := 0, region := 0, clusters := 3, recs := { desc := leBytes 64 6 }, wait := .transfer,
    transfer := some lateTransfer, begun := true }

/-- In cadence mode, 100 ticks after frame 0 began; the first GiB of the task is translated and holds the descriptor. -/
def lateMoveInFlight : State :=
  State.physWrite { State.reset with
    queues := [(3, borrowingQueue)]
    cmds := [lateMove]
    trans := { die0 := [{
      pasid := 5, va := 0, bytes := 2 ^ 30, pa := 0, read := true, write := true, atomic := true, asked := true }] }
    dict := { kept := [(State.key 0x2A00 0x01, { value := 1, writes := 1 })] }
    bell := { inputs := [{ state := 2, times := [(0, (0, 50, 1))] }, {}, {}, {}], reel0 := { time := 100, state := 1 } } }
    0x20000 lateFill

/-- The MOVE runs and has a slot free for its descriptor, which is reached and needs no space of the partition. -/
theorem lateBurst_arrives :
    lateMoveInFlight.cmd? 3 0 = some lateMove ∧ lateMoveInFlight.mayRun lateMove = true ∧
      lateMoveInFlight.queue? 3 = some borrowingQueue ∧ lateMoveInFlight.burstSize lateMove lateTransfer = some 1 ∧
      Clear lateMoveInFlight lateMove (State.burstRanges lateTransfer 1) ∧
      State.burstNeed (lateMoveInFlight.burstBytes lateMove lateTransfer 1) (lateMoveInFlight.burstEnv lateMove)
          (lateMoveInFlight.keptReg 0x2000 0x02 1) ≤ (lateMoveInFlight.partOf borrowingQueue).units := by
  decide +kernel

/-- The descriptor is taken, and its queue has noted the missed point: input 0, frame 0, phase 0. -/
theorem burstTaken_late :
    (lateMoveInFlight.burstTaken lateMove lateTransfer 1).2.2.slots.map Slot.bytes = [lateFill] ∧
      ((lateMoveInFlight.burstTaken lateMove lateTransfer 1).1.queue? 3).map Queue.missed = some [(0, 0, 0)] := by
  decide +kernel

/-- Refutes O50: its frame of a burst keeps all of `queues`, but a descriptor whose deadline has passed as it is taken adds its
point to the missed deadlines of its queue. -/
theorem not_transfers : ¬ Obligations.Transfers := by
  intro h
  obtain ⟨hfound, hrun, hqueue, hsize, hclear, hneed⟩ := lateBurst_arrives
  obtain ⟨-, hburst⟩ := h.1 lateMoveInFlight 3 0 lateMove borrowingQueue lateTransfer hfound hrun rfl rfl hqueue
  rcases htaken : lateMoveInFlight.burstTaken lateMove lateTransfer 1 with ⟨u, c', tr'⟩
  obtain ⟨-, hframe, -⟩ := hburst 1 _ u c' tr' hsize hclear rfl hneed htaken
  have hqueues : u.queue? 3 = some borrowingQueue := (congrArg (State.queue? · 3) hframe).trans hqueue
  obtain ⟨-, hmissed⟩ := burstTaken_late
  rw [htaken, hqueues] at hmissed
  exact absurd hmissed (by decide)

end Sys2Proof.Machine
end

section
namespace Sys2Proof.Machine

/-! ### The two levels of look-asides (R242) -/

namespace State

section
variable (s : State)

theorem dieEntries_setDieEntries (die : Nat) (l : List Entry) : (s.setDieEntries die l).dieEntries die = l.take 4096 := by
  unfold setDieEntries dieEntries
  split <;> rfl

theorem carterEntries_setDieEntries (die port : Nat) (l : List Entry) :
    (s.setDieEntries die l).carterEntries port = s.carterEntries port := by
  unfold setDieEntries carterEntries
  by_cases hdie : die = 0
  · simp only [if_pos hdie]
  · simp only [if_neg hdie]

theorem carterEntries_setCarterEntries {port : Nat} (h : port < 16) (l : List Entry) :
    (s.setCarterEntries port l).carterEntries port = l.take 256 := by
  unfold setCarterEntries carterEntries
  rw [if_pos h, if_pos h]
  exact congrArg (Option.getD · []) (Table.find?_put_self ..)

theorem carterEntries_of_die {port : Nat} (h : ¬port < 16) : s.carterEntries port = [] := if_neg h

/-- An entry is installed in the look-asides alone. -/
theorem install_eq (port : Nat) (e : Entry) : ∃ carter die0 die1,
    s.install port e = { s with trans := { s.trans with carter := carter, die0 := die0, die1 := die1 } } := by
  unfold install setCarterEntries setDieEntries
  dsimp only
  split <;> split <;> exact ⟨_, _, _, rfl⟩

theorem dieEntries_install (port : Nat) (e : Entry) : ((s.install port e).dieEntries (dieOfPort port)).head? = some e := by
  unfold install
  rw [dieEntries_setDieEntries]
  rfl

theorem carterEntries_install {port : Nat} (h : port < 16) (e : Entry) :
    ((s.install port e).carterEntries port).head? = some e := by
  unfold install
  rw [carterEntries_setDieEntries, carterEntries_setCarterEntries s h]
  rfl

end

/-- The first entry of a level serves what it covers. -/
theorem find?_of_head? {l : List Entry} {e : Entry} {p : Entry → Bool} (h : l.head? = some e) (he : p e = true) :
    l.find? p = some e := by
  obtain ⟨_, rfl⟩ := List.head?_eq_some_iff.1 h
  exact List.find?_cons_of_pos he

/-- R242: an access that an entry serves is served by it once it stands first in both levels. -/
theorem entryFor_install (s : State) (port : Nat) {e : Entry} {pasid va access : Nat} (hcovers : e.covers pasid va = true)
    (hserves : e.serves access = true) : (s.install port e).entryFor port pasid va access = some e := by
  have hok : (e.covers pasid va && e.serves access) = true := by rw [hcovers, hserves]; rfl
  unfold entryFor
  by_cases hport : port < 16
  · simp only [find?_of_head? (p := fun e => e.covers pasid va && e.serves access) (s.carterEntries_install hport e) hok]
  · rw [carterEntries_of_die _ hport]
    exact find?_of_head? (s.dieEntries_install port e) hok

/-! ### What waits on a translation -/

/-- With no command and no issue check that waits, an arrived translation wakes nothing. -/
theorem wake_of_idle {s : State} {port pasid page : Nat} (hcmds : ∀ c ∈ s.cmds, waitsTranslation c port pasid page = false)
    (hqueues : ∀ x ∈ s.queues, x.2.issueWait = none) : s.wake port pasid page = s := by
  have hissue (die : Nat) : s.wakeIssue die pasid page = s := by
    refine List.foldlRecOn (motive := fun t => t = s) s.queues _ rfl fun t ht x _ => ?_
    subst ht
    cases hk : t.queue? x.1 with
    | none => rfl
    | some k =>
      have hidle : k.issueWait = none := hqueues _ (Table.mem_of_find? hk)
      simp only [hidle]
  have hnone : (s.cmds.filter fun c => waitsTranslation c port pasid page) = [] :=
    List.filter_eq_nil_iff.2 fun c hc => by simp [hcmds c hc]
  unfold wake
  simp only [hnone, List.map_nil, List.foldl_nil, hissue, ite_self]

/-! ### Requests (R242, R246) -/

/-- The state once a request for a translation has gone out: it is counted, and the host hears of it. -/
def asked (s : State) (r : TransReq) : State :=
  (({ s with trans := { s.trans with requests := s.trans.requests ++ [r] } }.bump 0x2800 0x08 1).bump 0x2800 0x09 1).send
    (.translationRequest r.die r.pasid r.va r.access)

theorem askTranslation_of_unasked {s : State} {port pasid va access : Nat} {who : Nat × Nat × Nat}
    (h : ∀ x ∈ s.trans.requests, ¬(x.region = port ∧ x.pasid = pasid ∧ x.va = va ∧ x.access = access ∧ x.who = who)) :
    s.askTranslation port pasid va access who =
      s.asked { die := dieOfPort port, region := port, pasid := pasid, va := va, access := access, who := who } := by
  refine if_neg fun hasked => ?_
  obtain ⟨x, hx, hsame⟩ := List.any_eq_true.1 hasked
  exact h x hx (by simpa [and_assoc] using hsame)

/-! ### Translation completions (R242, R243, R246) -/

/-- Does a completion answer a request? -/
def answeredBy (die pasid va : Nat) (r : TransReq) : Bool := r.die == die && r.pasid == pasid && r.va / 4096 == va / 4096

/-- The state without an answered request. -/
def withoutRequest (s : State) (r : TransReq) : State :=
  { s with trans := { s.trans with requests := s.trans.requests.erase r } }

theorem translated_of_unasked {s : State} {die pasid va : Nat} (h : ∀ r ∈ s.trans.requests, answeredBy die pasid va r = false)
    (answer : TransAnswer) : s.translated die pasid va answer = s := by
  have hnone : s.trans.requests.find? (answeredBy die pasid va) = none := List.find?_eq_none.2 fun r hr => by simp [h r hr]
  unfold answeredBy at hnone
  unfold translated
  simp only [hnone]

theorem translated_of_discard {s : State} {die pasid va : Nat} {r : TransReq}
    (hfound : s.trans.requests.find? (answeredBy die pasid va) = some r) (hdiscard : r.discard = true) (answer : TransAnswer) :
    s.translated die pasid va answer = (s.withoutRequest r).askTranslation r.region pasid r.va r.access r.who := by
  unfold answeredBy at hfound
  unfold translated
  simp only [hfound, hdiscard, if_true]
  rfl

/-- A range that no page request waited for is installed, and what waited on the page goes on. -/
theorem translated_of_range {s : State} {die pasid va : Nat} {r : TransReq}
    (hfound : s.trans.requests.find? (answeredBy die pasid va) = some r) (hdiscard : r.discard = false)
    (hpages : ∀ p ∈ s.trans.pages, p.answered = true → ¬(p.pasid = pasid ∧ p.page = va / 4096))
    {va0 bytes pa : Nat} {rd wr at_ : Bool} (hrange : rangeOk va0 bytes pa r.va = true) {e : Entry}
    (he : e = {
      pasid := pasid, va := va0, bytes := bytes, pa := pa, read := rd, write := wr, atomic := at_, asked := r.access != 0 }) :
    s.translated die pasid va (.range va0 bytes pa rd wr at_) =
      ((s.withoutRequest r).install r.region e).wake r.region pasid (va / 4096) := by
  have hpage : (s.withoutRequest r).answeredPage r.region pasid (va / 4096) = none :=
    List.find?_eq_none.2 fun p hp hsame => by
      simp only [Bool.and_eq_true, beq_iff_eq] at hsame
      obtain ⟨⟨⟨hanswered, hpasid⟩, hpage⟩, -⟩ := hsame
      exact hpages p hp hanswered ⟨hpasid, hpage⟩
  unfold answeredBy at hfound
  unfold withoutRequest at hpage ⊢
  unfold translated
  simp only [hfound, hdiscard, hpage, hrange, he, ite_self, Bool.false_eq_true, if_false, Bool.not_true]

/-- R243: a range that an answer may give holds the address that was asked for. -/
theorem covers_of_rangeOk {e : Entry} {va : Nat} (h : rangeOk e.va e.bytes e.pa va = true) : e.covers e.pasid va = true := by
  simp only [rangeOk, Bool.and_eq_true] at h
  obtain ⟨⟨⟨hlow, hhigh⟩, -⟩, -⟩ := h
  simp only [Entry.covers, beq_self_eq_true, hlow, hhigh, Bool.and_self]

end State

/-- R244: a translation asked for an access serves it. -/
theorem Entry.serves_of_asked {e : Entry} {access : Nat} (h : e.asked = (access != 0)) : e.serves access = true := by
  unfold Entry.serves
  rw [h]
  cases access <;> rfl

end Sys2Proof.Machine
end

section
namespace Sys2Proof.Machine
open Safety

/-! ### An access within one page (R239, R241) -/

theorem pieces_of_onePage {va len : Nat} (hlen : len ≠ 0) (h : va / 4096 = (va + len - 1) / 4096) : pieces va len = [(va, len)] := by
  have hlow : max va (va / 4096 * 4096) = va := by omega
  have hhigh : min (va + len) ((va / 4096 + 1) * 4096) = va + len := by omega
  unfold pieces
  simp only [if_neg hlen, ← h, Nat.add_sub_cancel_left, List.range_one, List.map_singleton, Nat.add_zero, hlow, hhigh]

namespace State

section
variable {s : State}

theorem writeVA_of_onePage {port pasid va access pa : Nat} {bs : List Byte} (hne : bs ≠ [])
    (hpage : va / 4096 = (va + bs.length - 1) / 4096) (hphys : s.physOf port pasid va bs.length access = some pa) :
    s.writeVA port pasid va access bs = s.physWrite pa bs := by
  unfold writeVA
  rw [pieces_of_onePage (mt List.length_eq_zero_iff.1 hne) hpage, List.foldl_cons, List.foldl_nil, hphys]
  simp only [Nat.sub_self, List.drop_zero, List.take_length]

theorem readVA_of_onePage {port pasid va len pa : Nat} (hlen : len ≠ 0) (hpage : va / 4096 = (va + len - 1) / 4096)
    (hphys : s.physOf port pasid va len 0 = some pa) : s.readVA port pasid va len = s.physRead pa len := by
  unfold readVA
  rw [pieces_of_onePage hlen hpage, List.map_singleton, hphys, List.flatten_singleton]

/-! ### One write of physical memory -/

theorem physOf_physWrite (port pasid va n access a : Nat) (bs : List Byte) :
    (s.physWrite a bs).physOf port pasid va n access = s.physOf port pasid va n access := by
  unfold physWrite
  split <;> rfl

variable (hmem : memOk s) (pa : Nat) (bs : List Byte)
include hmem

theorem physRead_physWrite : (s.physWrite pa bs).physRead pa bs.length = bs := by
  obtain ⟨hdev, hhost⟩ := hmem
  obtain ⟨hdev, -⟩ := (Memory.wf_iff _).1 hdev
  obtain ⟨hhost, -⟩ := (Memory.wf_iff _).1 hhost
  unfold physWrite physRead
  split
  · exact memRead_memWrite hdev ..
  · exact memRead_memWrite hhost ..

theorem devMem_physWrite {a : Nat} (hout : a < pa ∨ pa + bs.length ≤ a) :
    memByte (s.physWrite pa bs).devMem a = memByte s.devMem a := by
  obtain ⟨hdev, -⟩ := (Memory.wf_iff _).1 hmem.1
  unfold physWrite
  split
  · exact (memByte_memWrite hdev ..).trans (if_neg (by omega))
  · rfl

theorem hostMem_physWrite {a : Nat} (ha : hostBase ≤ a) (hout : a < pa ∨ pa + bs.length ≤ a) :
    memByte (s.physWrite pa bs).hostMem (a - hostBase) = memByte s.hostMem (a - hostBase) := by
  obtain ⟨hhost, -⟩ := (Memory.wf_iff _).1 hmem.2
  unfold physWrite
  split
  · rfl
  · exact (memByte_memWrite hhost ..).trans (if_neg (by omega))

end

theorem physWrite_eq (s : State) (pa : Nat) (bs : List Byte) : s.physWrite pa bs =
    { s with devMem := (s.physWrite pa bs).devMem, hostMem := (s.physWrite pa bs).hostMem,
             poisoned := (s.physWrite pa bs).poisoned } := by
  unfold physWrite
  split <;> rfl

end State

open State

/-- Settles O42: a completion meets no request, sends a discarded one again, or installs its range at the head of both
levels; a write within one page is one write of physical memory. -/
theorem translations : Obligations.Translations := by
  refine ⟨fun s die pasid va answer => ⟨fun hisolated => ?_, fun hisolated hunasked => ?_, fun r hisolated hfound => ?_⟩,
    fun s port pasid va access pa bs hmem hne hpage hphys => ?_⟩
  · exact congrArg Host.Outcome.next (if_pos hisolated)
  · have hother (r : TransReq) (hr : r ∈ s.trans.requests) : answeredBy die pasid va r = false := by
      simpa [answeredBy] using hunasked r hr
    exact congrArg Host.Outcome.next ((if_neg (by simp [hisolated])).trans (translated_of_unasked hother answer))
  · have hexec (answer : TransAnswer) : exec (.translationCompletion die pasid va answer) s =
        .next (s.translated die pasid va answer) :=
      congrArg Host.Outcome.next (if_neg (by simp [hisolated]))
    refine ⟨fun hdiscard hunasked => ?_, ?_⟩
    · refine ⟨_, (hexec answer).trans (congrArg _ ((translated_of_discard hfound hdiscard answer).trans
        (askTranslation_of_unasked hunasked))), rfl, rfl, rfl⟩
    · rintro va0 bytes pa rd wr at_ e hdiscard rfl hrange hpages he
      obtain ⟨_, _, _, hinstall⟩ := install_eq (s.withoutRequest r) r.region e
      have hwoken := (hexec _).trans (congrArg _ (translated_of_range hfound hdiscard hpages hrange he))
      have hserved : ((s.withoutRequest r).install r.region e).entryFor r.region pasid r.va r.access = some e := by
        subst he
        exact entryFor_install _ _ (covers_of_rangeOk hrange) (Entry.serves_of_asked rfl)
      refine ⟨_, hwoken, hserved, dieEntries_install ..,
        fun hport => carterEntries_install _ hport _, ?_, ?_, ?_, fun hcmds hqueues => hwoken.trans (congrArg _ (wake_of_idle ?_ ?_))⟩
      all_goals rw [hinstall]
      · rfl
      · rfl
      · rfl
      · exact hcmds
      · exact hqueues
  · rw [writeVA_of_onePage hne hpage hphys]
    refine ⟨physRead_physWrite hmem pa bs, fun hread => ?_, fun a _ hout => devMem_physWrite hmem pa bs hout,
      fun a ha hout => hostMem_physWrite hmem pa bs ha hout, physWrite_memOk hmem pa bs, physWrite_eq s pa bs⟩
    rw [readVA_of_onePage (mt List.length_eq_zero_iff.1 hne) hpage ((physOf_physWrite ..).trans hread)]
    exact physRead_physWrite hmem pa bs

end Sys2Proof.Machine
end

section
namespace Sys2Proof.Machine
open Safety

/-! ### A table whose values are all mapped -/

theorem Table.find?_mapValues {α β : Type} (f : α → β) (k : Nat) (t : Table α) :
    Table.find? k (t.map fun x => (x.1, f x.2)) = (Table.find? k t).map f := by
  induction t with
  | nil => rfl
  | cons x t ih =>
    simp only [List.map_cons, Table.find?, ih]
    split
    · rfl
    · split <;> rfl

namespace State

section
variable (s : State)

/-! ### Filtered look-asides -/

/-- The state with only some entries left in every Carter and both dies. -/
def filterEntries (s : State) (keep : Entry → Bool) : State :=
  { s with trans := { s.trans with
      carter := s.trans.carter.map fun c => (c.1, c.2.filter keep),
      die0 := s.trans.die0.filter keep, die1 := s.trans.die1.filter keep } }

theorem carterEntries_filterEntries (keep : Entry → Bool) (port : Nat) :
    (s.filterEntries keep).carterEntries port = (s.carterEntries port).filter keep := by
  unfold filterEntries carterEntries
  by_cases hport : port < 16
  · rw [if_pos hport, if_pos hport]
    dsimp only
    rw [Table.find?_mapValues]
    cases Table.find? port s.trans.carter <;> rfl
  · rw [if_neg hport, if_neg hport]
    rfl

theorem dieEntries_filterEntries (keep : Entry → Bool) (die : Nat) :
    (s.filterEntries keep).dieEntries die = (s.dieEntries die).filter keep := by
  unfold filterEntries dieEntries
  split <;> rfl

/-! ### Invalidations (R245, R246) -/

/-- Does an invalidation leave an entry? -/
def outlives (pasid va bytes : Nat) (e : Entry) : Bool := !(e.pasid == pasid && meets e.va e.bytes va bytes)

/-- From `s` to `t` an invalidation has reached the look-asides and the requests on their way there, and open windows have
taken its fault. -/
structure Dropped (s t : State) (pasid va bytes : Nat) : Prop where
  carter (port : Nat) : t.carterEntries port = (s.carterEntries port).filter (outlives pasid va bytes)
  die (die : Nat) : t.dieEntries die = (s.dieEntries die).filter (outlives pasid va bytes)
  discards : ∀ r ∈ t.trans.requests, r.pasid = pasid → meets r.va 4096 va bytes = true → r.discard = true

theorem dropEntries_dropped (pasid va bytes : Nat) : Dropped s (s.dropEntries pasid va bytes) pasid va bytes where
  carter := s.carterEntries_filterEntries (outlives pasid va bytes)
  die := s.dieEntries_filterEntries (outlives pasid va bytes)
  discards r hr hpasid hmeets := by
    obtain ⟨x, -, rfl⟩ := List.mem_map.1 hr
    by_cases hx : (x.pasid == pasid && meets x.va 4096 va bytes) = true
    · rw [if_pos hx]
    · rw [if_neg hx] at hpasid hmeets
      simp [hpasid, hmeets] at hx

end

theorem Dropped.of_sameEntries {s t u : State} {pasid va bytes : Nat} (h : Dropped s t pasid va bytes)
    (hcarter : u.trans.carter = t.trans.carter) (hdie0 : u.trans.die0 = t.trans.die0) (hdie1 : u.trans.die1 = t.trans.die1)
    (hrequests : u.trans.requests = t.trans.requests) : Dropped s u pasid va bytes := by
  obtain ⟨hc, hd, hr⟩ := h
  refine ⟨fun port => ?_, fun die => ?_, hrequests ▸ hr⟩
  · rw [← hc]
    unfold carterEntries
    rw [hcarter]
  · rw [← hd]
    unfold dieEntries
    rw [hdie0, hdie1]

/-- R245: with no entry of the PASID held the invalidation is complete, else it stands. -/
theorem invalidate_cases (s : State) (pasid va bytes : Nat) : ∃ u bruora, u = { s.dropEntries pasid va bytes with bruora := bruora } ∧
    (s.holdsEntries pasid = true → s.invalidate pasid va bytes =
      { u with trans := { u.trans with invalidations := u.trans.invalidations ++ [(pasid, va, bytes)] } }) ∧
    (s.holdsEntries pasid = false → s.invalidate pasid va bytes = u.endInvalidation pasid va bytes) := by
  unfold invalidate
  exact ⟨_, _, rfl, fun h => if_pos h, fun h => if_neg (by simp [h])⟩

/-- R245: a completed invalidation is counted and answered. -/
theorem endInvalidation_ends (s : State) (pasid va bytes : Nat) :
    (s.endInvalidation pasid va bytes).outbox = s.outbox ++ [.invalidationComplete pasid va bytes] ∧
      (s.endInvalidation pasid va bytes).reg 0x2800 0x0C 0 = s.reg 0x2800 0x0C 0 + 1 ∧
      RegsBut s (s.endInvalidation pasid va bytes) [State.key 0x2800 0x0C] ∧
      s.endInvalidation pasid va bytes = { s with
        dict := (s.endInvalidation pasid va bytes).dict, outbox := (s.endInvalidation pasid va bytes).outbox } :=
  ⟨rfl, s.reg_bump_self .., ⟨fun _ hk => s.find?_bump (by simpa using hk) 1, rfl, rfl⟩, rfl⟩

/-- R246: an invalidation that reaches the engine, where entries of its PASID are held and where none is. -/
theorem invalidate_ends (s : State) (pasid va bytes : Nat) : ∃ t, s.invalidate pasid va bytes = t ∧ Dropped s t pasid va bytes ∧
    (s.holdsEntries pasid = true → t.outbox = s.outbox ∧ (pasid, va, bytes) ∈ t.trans.invalidations) ∧
    (s.holdsEntries pasid = false → t.outbox = s.outbox ++ [.invalidationComplete pasid va bytes] ∧
      t.reg 0x2800 0x0C 0 = s.reg 0x2800 0x0C 0 + 1) ∧
    RegsBut s t [State.key 0x2800 0x0C] ∧ t = { s with trans := t.trans, bruora := t.bruora, dict := t.dict, outbox := t.outbox } := by
  obtain ⟨u, _, rfl, hheld, hfree⟩ := invalidate_cases s pasid va bytes
  have hdropped := s.dropEntries_dropped pasid va bytes
  refine ⟨_, rfl, ?_⟩
  by_cases h : s.holdsEntries pasid = true
  · rw [hheld h]
    refine ⟨hdropped.of_sameEntries rfl rfl rfl rfl, fun _ => ⟨rfl, ?_⟩, fun hfree => absurd h (by simp [hfree]),
      ⟨fun _ _ => rfl, rfl, rfl⟩, rfl⟩
    exact List.mem_append_right _ (List.mem_singleton.2 rfl)
  · have hnone : s.holdsEntries pasid = false := by simpa using h
    rw [hfree hnone]
    obtain ⟨hout, hreg, hregs, -⟩ := endInvalidation_ends (_ : State) pasid va bytes
    exact ⟨hdropped.of_sameEntries rfl rfl rfl rfl, fun hheld => absurd hheld h, fun _ => ⟨hout, hreg⟩, hregs, rfl⟩

theorem invalidated_of_mem {s : State} {pasid va bytes : Nat} (h : (pasid, va, bytes) ∈ s.trans.invalidations) :
    s.invalidated pasid va bytes =
      { s with trans := { s.trans with invalidations := s.trans.invalidations.erase (pasid, va, bytes) } }.endInvalidation
        pasid va bytes :=
  if_pos (List.contains_iff_mem.2 h)

theorem invalidated_of_notMem {s : State} {pasid va bytes : Nat} (h : (pasid, va, bytes) ∉ s.trans.invalidations) :
    s.invalidated pasid va bytes = s :=
  if_neg (mt List.contains_iff_mem.1 h)

end State

open State

/-- Settles O43: every level is filtered by the invalidation; it ends by one counted answer, at once or at its completion. -/
theorem invalidations : Obligations.Invalidations := by
  refine fun s pasid va bytes => ⟨fun hisolated => ?_, fun hisolated => ?_, fun hstands => ?_, fun hgone => ?_⟩
  · exact congrArg Host.Outcome.next (if_pos hisolated)
  · obtain ⟨t, ht, ⟨hcarter, hdie, hdiscards⟩, hends⟩ := invalidate_ends s pasid va bytes
    exact ⟨t, congrArg Host.Outcome.next ((if_neg (by simp [hisolated])).trans ht), hcarter, hdie, hdiscards, hends⟩
  · obtain ⟨hout, hreg, hregs, -⟩ := endInvalidation_ends
      { s with trans := { s.trans with invalidations := s.trans.invalidations.erase (pasid, va, bytes) } } pasid va bytes
    exact ⟨_, congrArg Host.Outcome.next (invalidated_of_mem hstands), rfl, hout, hreg, hregs, rfl⟩
  · exact congrArg Host.Outcome.next (invalidated_of_notMem hgone)

end Sys2Proof.Machine
end

section
namespace Sys2Proof.Machine
open Safety

/-! ### A page that both dies ask for (R247, R248)

The answer that fails page requests fails those of its own die, so a request of the other die for the same page stands. R247
keeps a page from having two requests, but O44 speaks of every state and does not ask for that. -/

/-- A request of die 0 for reading page 32 of PASID 5. -/
def pageOfDie0 : PageReq := { die := 0, pasid := 5, page := 32, rights := 1 }

/-- One of die 1 for the same page. -/
def pageOfDie1 : PageReq := { pageOfDie0 with die := 1 }

/-- A GEMM of queue 3, which waits on the page. -/
def pageWaiter : Cmd :=
  { q := 3, i := 0, pasid := 5, die := 0, region := 0, clusters := 3, recs := { desc := leBytes 64 2 }, wait := .page 0x20000 0,
    begun := true }

/-- Its task is parked. -/
def pageOnBothDies : State :=
  { State.reset with
    queues := [(3, { borrowingQueue with parked := true })]
    cmds := [pageWaiter]
    trans := { pages := [pageOfDie0, pageOfDie1] } }

/-- The host fails the request of die 0. -/
theorem pageResponse_pageOnBothDies : (pageOnBothDies.pageResponse 0 5 32 .failure).trans.pages = [pageOfDie1] := by
  decide +kernel

/-- Refutes O44: after the host has failed the requests of a die, no request for the page may stand, but the other die's
does. -/
theorem not_pageRequests : ¬ Obligations.PageRequests := by
  intro h
  obtain ⟨-, hfails⟩ := h pageOnBothDies 0 5 32 pageOfDie0 rfl rfl
  obtain ⟨t, ht, -, hpages, -⟩ := hfails pageWaiter 0x20000 0 0x2805 (.pageRequestResponse 0 5 32 .failure) (by simp)
    (fun _ y hy _ => by
      rcases List.mem_pair.1 hy with rfl | rfl <;> exact ⟨rfl, rfl⟩)
    rfl rfl rfl rfl (fun x hx _ => List.mem_singleton.1 hx) (fun x hx _ => by rw [List.mem_singleton.1 hx]; rfl)
  have hresult : pageOnBothDies.pageResponse 0 5 32 .failure = t := by injection ht
  have hstands : pageOfDie1 ∈ t.trans.pages := by
    rw [← hresult, pageResponse_pageOnBothDies]
    exact List.mem_singleton.2 rfl
  exact hpages pageOfDie1 hstands ⟨rfl, rfl⟩

end Sys2Proof.Machine
end

section
namespace Sys2Proof.Machine
open Safety

/-! ### One step (R259) -/

/-- Settles O1: a step takes the front command, and lets one clk pass where there is none. -/
theorem stepRunsTheFrontCommand : Obligations.StepRunsTheFrontCommand := by
  refine ⟨fun s c rest hfront => ?_, fun s hempty => ?_⟩
  · rw [step, hfront]
  · rw [step, hempty]

end Sys2Proof.Machine
end

section
namespace Sys2Proof.Machine
open Safety
namespace State

/-! ### The queue table -/

/-- From `s` to `t` queue `q` has become `k`, and no other queue has changed. -/
structure QueueBecomes (s t : State) (q : Nat) (k : Queue) : Prop where
  self : t.queue? q = some k
  others : ∀ n, n ≠ q → t.queue? n = s.queue? n

theorem queue?_of_queues {s t : State} (h : t.queues = s.queues) (n : Nat) : t.queue? n = s.queue? n := by
  rw [queue?, h, queue?]

section
variable {s t u : State} {q : Nat} {k k' : Queue}

theorem queueBecomes_setQueue (s : State) (q : Nat) (k : Queue) : QueueBecomes s (s.setQueue q k) q k where
  self := Table.find?_put_self ..
  others _ hn := Table.find?_put_ne hn ..

theorem QueueBecomes.of_queues (h : QueueBecomes s t q k) (htu : u.queues = t.queues) : QueueBecomes s u q k where
  self := (queue?_of_queues htu q).trans h.self
  others n hn := (queue?_of_queues htu n).trans (h.others n hn)

theorem QueueBecomes.from_queues (h : QueueBecomes t u q k) (hst : t.queues = s.queues) : QueueBecomes s u q k where
  self := h.self
  others n hn := (h.others n hn).trans (queue?_of_queues hst n)

theorem QueueBecomes.refl (h : s.queue? q = some k) : QueueBecomes s s q k := ⟨h, fun _ _ => rfl⟩

theorem QueueBecomes.trans (hst : QueueBecomes s t q k) (htu : QueueBecomes t u q k') : QueueBecomes s u q k' where
  self := htu.self
  others n hn := (htu.others n hn).trans (hst.others n hn)

theorem onQueue_of_queue (h : s.queue? q = some k) (f : Queue → Queue) : s.onQueue q f = s.setQueue q (f k) := by
  rw [onQueue, h]

@[simp] theorem part_setPart_self (s : State) (region entry : Nat) (p : Partition) : (s.setPart region entry p).part region entry = p := by
  rw [part, setPart, Table.find?_put_self, Option.getD_some]

@[simp] theorem reg_interrupt (s : State) (v i n d : Nat) : (s.interrupt v).reg i n d = s.reg i n d := by
  rw [reg, interrupt_regs, reg]

/-- R276: a queue that shrinks keeps all but its partition and what it has borrowed. -/
theorem shrinkQueue_eq (h : s.queue? q = some k) : ∃ part borrowed queues loft,
    s.shrinkQueue q = { s with queues := queues, loft := loft } ∧
      QueueBecomes s (s.shrinkQueue q) q { k with part := part, borrowed := borrowed } := by
  have hstays : ∃ part borrowed queues loft, s = { s with queues := queues, loft := loft } ∧
      QueueBecomes s s q { k with part := part, borrowed := borrowed } := ⟨_, _, _, _, rfl, .refl h⟩
  have hput (p : Partition) (e : Nat) (part : Option Nat) (borrowed : Nat) :
      QueueBecomes s ((s.setPart k.region e p).setQueue q { k with part := part, borrowed := borrowed }) q _ :=
    (queueBecomes_setQueue ..).from_queues rfl
  unfold shrinkQueue
  rw [h]
  dsimp only
  split
  · exact hstays
  · split
    · exact hstays
    · split
      · exact hstays
      · split
        · exact ⟨_, _, _, _, rfl, hput ..⟩
        · exact ⟨_, _, _, _, rfl, hput ..⟩

/-- R259: a queue that enters error signals, and keeps its ring. -/
theorem queueError_eq (h : s.queue? q = some k) (code : Nat) :
    s.queueError q code = (s.setQueue q { k with state := 3, lastError := code, issueWait := none }).interrupt k.vector := by
  rw [queueError, h]

end

/-! ### Doorbells (R258) -/

section
variable {s : State} {q : Nat} {ok : Queue → Bool} {take : Queue → Queue} (hisolated : s.pins.isolated = false)
include hisolated

theorem doorbell_unbound (hqueue : s.queue? q = none) : s.doorbell q ok take = s.bump 0x2900 0x0C 1 := by
  rw [doorbell, if_neg (by simp [hisolated]), hqueue]

theorem doorbell_taken {k : Queue} (hqueue : s.queue? q = some k) (hok : ok k = true) : ∃ part borrowed queues loft,
    s.doorbell q ok take = { s with queues := queues, loft := loft } ∧
      QueueBecomes s (s.doorbell q ok take) q { take k with part := part, borrowed := borrowed } := by
  have hput := queueBecomes_setQueue s q (take k)
  obtain ⟨part, borrowed, queues, loft, heq, hshrunk⟩ := shrinkQueue_eq hput.self
  have hdoorbell : s.doorbell q ok take = (s.setQueue q (take k)).shrinkQueue q := by
    rw [doorbell, if_neg (by simp [hisolated]), hqueue]
    exact if_pos hok
  rw [hdoorbell]
  exact ⟨part, borrowed, queues, loft, heq, hput.trans hshrunk⟩

theorem doorbell_refused {k : Queue} (hqueue : s.queue? q = some k) (hok : ok k = false) : ∃ t, s.doorbell q ok take = t ∧
    QueueBecomes s t q { k with state := 3, lastError := 0x2905, issueWait := none } ∧
    t.reg 0x2900 0x0C 0 = s.reg 0x2900 0x0C 0 + 1 ∧ t = { s with queues := t.queues, dict := t.dict, outbox := t.outbox } := by
  have hbumped : (s.bump 0x2900 0x0C 1).queue? q = some k := hqueue
  have hdoorbell : s.doorbell q ok take = (s.bump 0x2900 0x0C 1).queueError q 0x2905 := by
    rw [doorbell, if_neg (by simp [hisolated]), hqueue]
    exact if_neg (by simp [hok])
  refine ⟨_, hdoorbell.trans (queueError_eq hbumped _), ?_, ?_, ?_⟩
  · exact ((queueBecomes_setQueue ..).from_queues rfl).of_queues (interrupt_queues ..)
  · rw [reg_interrupt]
    exact reg_bump_self ..
  · rw [interrupt_eq]
    rfl

end

/-- R258: a tail at most one ring beyond the head. -/
def tailFits (v : Nat) (k : Queue) : Bool := (v + 2 ^ 32 - k.head) % 2 ^ 32 ≤ 2 ^ k.descLog2

/-- R258: a completion head at most one ring behind the completion tail. -/
def headFits (v : Nat) (k : Queue) : Bool := (k.complTail + 2 ^ 32 - v % 2 ^ 32) % 2 ^ 32 ≤ 2 ^ k.complLog2

end State

open State

theorem exec_doorbellDescTail {s : State} (hisolated : s.pins.isolated = false) (q v : Nat) : exec (.doorbellDescTail q v) s =
    .next (s.doorbell q (tailFits v) fun k => { k with tail := v % 2 ^ 32 }) :=
  congrArg Host.Outcome.next (if_neg (by simp [hisolated]))

theorem exec_doorbellComplHead {s : State} (hisolated : s.pins.isolated = false) (q v : Nat) : exec (.doorbellComplHead q v) s =
    .next (s.doorbell q (headFits v) fun k => { k with complHead := v % 2 ^ 32 }) :=
  congrArg Host.Outcome.next (if_neg (by simp [hisolated]))

/-- Settles O20: each doorbell ignores an unbound queue, takes a value within one ring, and puts the queue in error on any
other. -/
theorem doorbells : Obligations.Doorbells := by
  intro s q v hisolated
  rw [exec_doorbellDescTail hisolated, exec_doorbellComplHead hisolated]
  refine ⟨fun hunbound => ?_, fun k hqueue => ⟨fun hfits => ?_, fun hbeyond => ?_, fun hfits => ?_, fun hbeyond => ?_⟩⟩
  · rw [doorbell_unbound hisolated hunbound, doorbell_unbound hisolated hunbound]
    exact ⟨⟨_, rfl, reg_bump_self .., rfl⟩, ⟨_, rfl, reg_bump_self .., rfl⟩⟩
  · obtain ⟨part, borrowed, queues, loft, heq, hself, hothers⟩ := doorbell_taken hisolated hqueue (ok := tailFits v)
      (take := fun k => { k with tail := v % 2 ^ 32 }) (decide_eq_true hfits)
    exact ⟨_, _, rfl, hself, rfl, rfl, rfl, rfl, rfl, hothers, by rw [heq]⟩
  · obtain ⟨t, rfl, ⟨hself, hothers⟩, hreg, hframe⟩ := doorbell_refused hisolated hqueue (ok := tailFits v)
      (take := fun k => { k with tail := v % 2 ^ 32 }) (decide_eq_false (Nat.not_le.2 hbeyond))
    exact ⟨_, _, rfl, hself, rfl, rfl, rfl, rfl, hothers, hreg, hframe⟩
  · obtain ⟨part, borrowed, queues, loft, heq, hself, hothers⟩ := doorbell_taken hisolated hqueue (ok := headFits v)
      (take := fun k => { k with complHead := v % 2 ^ 32 }) (decide_eq_true hfits)
    exact ⟨_, _, rfl, hself, rfl, rfl, rfl, rfl, rfl, hothers, by rw [heq]⟩
  · obtain ⟨t, rfl, ⟨hself, hothers⟩, -, hframe⟩ := doorbell_refused hisolated hqueue (ok := headFits v)
      (take := fun k => { k with complHead := v % 2 ^ 32 }) (decide_eq_false (Nat.not_le.2 hbeyond))
    exact ⟨_, _, rfl, hself, rfl, rfl, rfl, hothers, hframe⟩

end Sys2Proof.Machine
end

section
namespace Sys2Proof.Machine
open Safety
namespace State

/-! ### Units of rows that a queue is given (R202, R203, R276) -/

/-- A state but for its Lofts and the count of free values. -/
def besideGrant (s : State) : State := { s with loft := {}, free := 0 }

/-- From `s` to `t` only the Lofts and the count of free values have changed. -/
theorem eq_of_besideGrant {s t : State} (h : t.besideGrant = s.besideGrant) : t = { s with loft := t.loft, free := t.free } :=
  congrArg (fun r : State => { r with loft := t.loft, free := t.free }) h

section
variable {s t : State} {k : Queue} {region entry units pasid e : Nat}

theorem grantRows_besideGrant (s : State) (region mask base units pasid : Nat) :
    (s.grantRows region mask base units pasid).besideGrant = s.besideGrant := by
  refine foldl_keeps besideGrant (fun s c => ?_) _ s.draw.2
  refine foldl_keeps besideGrant (fun s u => ?_) _ s
  refine foldl_keeps besideGrant (fun s i => ?_) _ _
  split <;> split <;> rfl

/-- A state but for the rows, semaphores and counters of its Lofts. -/
def besideMarks (s : State) : State := { s with loft := { s.loft with rows := [], sems := [], ctrs := [] } }

theorem besideGrant_of_besideMarks (h : t.besideMarks = s.besideMarks) : t.besideGrant = s.besideGrant :=
  show t.besideMarks.besideGrant = s.besideMarks.besideGrant from h ▸ rfl

theorem part_of_besideMarks (h : t.besideMarks = s.besideMarks) (region entry : Nat) : t.part region entry = s.part region entry :=
  congrArg (·.part region entry) h

theorem restorePart_besideMarks (s : State) (region : Nat) (p : Partition) (v : SavedPartition) :
    (s.restorePart region p v).besideMarks = s.besideMarks := by
  refine foldl_keeps besideMarks (fun s c => ?_) _ s
  refine (foldl_keeps besideMarks ?_ _ _).trans ((foldl_keeps besideMarks ?_ _ _).trans (foldl_keeps besideMarks ?_ _ s))
  · exact fun _ _ => rfl
  · exact fun _ _ => rfl
  · intro s i
    split <;> rfl

theorem clearMarks_besideMarks (s : State) (region mask semBase semCount ctrBase ctrCount : Nat) :
    (s.clearMarks region mask semBase semCount ctrBase ctrCount).besideMarks = s.besideMarks := by
  refine foldl_keeps besideMarks (fun s c => ?_) _ s
  refine (foldl_keeps besideMarks ?_ _ _).trans (foldl_keeps besideMarks ?_ _ s)
  · exact fun _ _ => rfl
  · exact fun _ _ => rfl

theorem compact_besideGrant (s : State) (region : Nat) : (s.compact region).besideGrant = s.besideGrant := by
  unfold compact
  refine List.foldlRecOn (motive := fun a : State × List Partition => a.1.besideGrant = s.besideGrant) _ _ rfl
    fun a ha x _ => ?_
  dsimp only
  split
  · split
    · exact (besideGrant_of_besideMarks (restorePart_besideMarks ..)).trans ha
    · exact ha
  · exact ha

/-- R276: a partition that grows takes its new place with its new rows. -/
theorem resizePart_some (h : s.resizePart region entry units pasid = some t) :
    t.besideGrant = s.besideGrant ∧ (t.part region entry).units = units := by
  have hgrown (u : State) (p : Partition) (v : SavedPartition) (mask base : Nat) (hp : p.units = units) :
      let t := ((u.grantRows region mask base units pasid).setPart region entry p).restorePart region p v
      t.besideGrant = u.besideGrant ∧ (t.part region entry).units = units :=
    ⟨(besideGrant_of_besideMarks (restorePart_besideMarks ..)).trans (grantRows_besideGrant ..),
      by rw [part_of_besideMarks (restorePart_besideMarks ..), part_setPart_self, hp]⟩
  unfold resizePart at h
  dsimp only at h
  split at h
  · cases h
    exact ⟨rfl, by rw [part_setPart_self]⟩
  · split at h
    · rename_i hgrow
      split at hgrow
      · cases hgrow
      · cases hgrow
        cases h
        exact hgrown s _ _ _ _ rfl
    · split at h
      · cases h
      · cases h
        exact (hgrown _ _ _ _ _ rfl).imp_left fun hrest => hrest.trans (compact_besideGrant ..)

/-- R276: a queue whose partition is not saved is given its rows in the Lofts alone. -/
theorem giveUnits_some (hsaved : k.saved = none) (h : s.giveUnits k units = some (t, e)) :
    t.besideGrant = s.besideGrant ∧ (t.part k.region e).units = units := by
  unfold giveUnits at h
  rw [hsaved] at h
  dsimp only at h
  split at h
  · split at h
    · cases h
    · rename_i hresized
      cases h
      exact resizePart_some hresized
  · split at h
    · obtain ⟨u, hresized, heq⟩ := Option.map_eq_some_iff.1 h
      cases heq
      obtain ⟨hrest, hunits⟩ := resizePart_some hresized
      exact ⟨(besideGrant_of_besideMarks (clearMarks_besideMarks ..)).trans hrest,
        (congrArg Partition.units (part_of_besideMarks (clearMarks_besideMarks ..) ..)).trans hunits⟩
    · cases h

/-! ### The pool (R251, R275, R276) -/

theorem makeRoom_of_room {n : Nat} (h : s.poolRoom k n = true) : s.makeRoom k n = s := by
  unfold makeRoom
  refine List.foldlRecOn (motive := fun t : State => t = s) _ _ rfl fun t ht x _ => ?_
  rw [ht, if_pos h]

/-- No parked or halted queue of a region holds borrowings, so none can be saved. -/
theorem makeRoom_of_idle (n : Nat) (h : ∀ x ∈ s.queues, x.2.region = k.region → (x.2.parked = true ∨ x.2.halted = true) →
    x.2.borrowed = 0) : s.makeRoom k n = s := by
  unfold makeRoom
  rw [List.filter_eq_nil_iff.2]
  · rfl
  · intro x hx
    simp only [Bool.and_eq_true, Bool.or_eq_true, beq_iff_eq, bne_iff_ne, ne_eq]
    rintro ⟨⟨hregion, hstill⟩, hborrowed⟩
    exact hborrowed (h x hx hregion hstill)

/-! ### A grant (R276) -/

theorem resumeBursts_of_none {q : Nat} (h : ∀ c ∈ s.cmds, c.q = q → c.wait ≠ .transfer) : s.resumeBursts q = s := by
  unfold resumeBursts
  rw [List.filter_eq_nil_iff.2]
  · rfl
  · intro c hc
    simp only [Bool.and_eq_true, beq_iff_eq]
    exact fun hmine => h c hc hmine.1 hmine.2

theorem resumeThose_of_none {pick : Cmd → Bool} (h : ∀ c, pick c = false) : s.resumeThose pick = s := by
  unfold resumeThose
  rw [List.filter_eq_nil_iff.2]
  · rfl
  · intro c _
    simp [h c]

/-- The queue as a grant leaves it. -/
def granted (k : Queue) (units e issued : Nat) : Queue := { k with
  wants := none, part := some e, saved := none, images := 0, borrowed := units - k.floor,
  borrowTime := if k.borrowed = 0 then issued else k.borrowTime }

section
variable {q : Nat} (hqueue : s.queue? q = some k)
include hqueue

theorem grantSpace_of_younger (h : s.oldestRequest q k = false) : s.grantSpace q = s := by
  rw [grantSpace, hqueue]
  exact if_pos (by simp [h])

theorem grantSpace_of_short (hold : s.oldestRequest q k = true) (hsaved : k.saved = none)
    (hroom : s.poolRoom k (s.unitsAsked k - k.floor - k.borrowed) = false)
    (hidle : ∀ x ∈ s.queues, x.2.region = k.region → (x.2.parked = true ∨ x.2.halted = true) → x.2.borrowed = 0) :
    s.grantSpace q = s.bumpFree 0x2900 0x0A := by
  rw [grantSpace, hqueue]
  dsimp only
  rw [if_neg (by simp [hold]), hsaved]
  simp only [Option.isSome_none, Bool.false_eq_true, if_false]
  rw [makeRoom_of_idle _ hidle, hroom]
  rfl

theorem grantSpace_of_given (hold : s.oldestRequest q k = true) (hsaved : k.saved = none)
    (hroom : s.poolRoom k (s.unitsAsked k - k.floor - k.borrowed) = true) (hgiven : s.giveUnits k (s.unitsAsked k) = some (t, e))
    (hmoves : ∀ c ∈ s.cmds, c.q = q → c.wait ≠ .transfer) :
    s.grantSpace q = { t with issued := t.issued + 1 }.setQueue q (granted k (s.unitsAsked k) e t.issued) := by
  have hcmds : t.cmds = s.cmds := by rw [eq_of_besideGrant (giveUnits_some hsaved hgiven).1]
  rw [grantSpace, hqueue]
  dsimp only
  rw [if_neg (by simp [hold]), hsaved]
  simp only [Option.isSome_none, Bool.false_eq_true, if_false]
  rw [makeRoom_of_room hroom, hroom, hgiven]
  dsimp only
  rw [resumeBursts_of_none (by simpa [hcmds] using hmoves), resumeThose_of_none (pick := fun c => c.q == q && false) (by simp)]
  simp [granted]

end
end

/-! ### Mutual wait (R277) -/

/-- Of two borrowing queues the one that has borrowed later; of equals the first. -/
def younger (b : Option (Nat × Queue)) (x : Nat × Queue) : Option (Nat × Queue) := match b with
  | none => some x
  | some y => if y.2.borrowTime < x.2.borrowTime then some x else some y

theorem foldl_younger {l : List (Nat × Queue)} : ∀ {b : Option (Nat × Queue)} {y : Nat × Queue}, l.foldl younger b = some y →
    (y ∈ l ∨ b = some y) ∧ (∀ x ∈ l, x.2.borrowTime ≤ y.2.borrowTime) ∧ ∀ z, b = some z → z.2.borrowTime ≤ y.2.borrowTime := by
  induction l with
  | nil =>
    intro b y h
    exact ⟨.inr h, by simp, fun z hz => by rw [Option.some.inj (hz.symm.trans h)]⟩
  | cons x l ih =>
    intro b y h
    obtain ⟨hmem, hle, hfirst⟩ := ih (b := younger b x) h
    cases b with
    | none =>
      have hx := hfirst x rfl
      refine ⟨.inl ?_, by simpa using ⟨hx, fun a b => hle (a, b)⟩, by simp⟩
      rcases hmem with hmem | hmem
      · exact List.mem_cons_of_mem _ hmem
      · exact (Option.some.inj hmem) ▸ List.mem_cons_self
    | some z =>
      by_cases hlater : z.2.borrowTime < x.2.borrowTime
      · have hnext : younger (some z) x = some x := if_pos hlater
        have hx := hfirst x hnext
        refine ⟨?_, by simpa using ⟨hx, fun a b => hle (a, b)⟩, fun w hw => by cases hw; omega⟩
        rcases hmem with hmem | hmem
        · exact .inl (List.mem_cons_of_mem _ hmem)
        · exact .inl (Option.some.inj (hnext.symm.trans hmem) ▸ List.mem_cons_self)
      · have hnext : younger (some z) x = some z := if_neg hlater
        have hz := hfirst z hnext
        refine ⟨?_, by simpa using ⟨by omega, fun a b => hle (a, b)⟩, fun w hw => by cases hw; exact hz⟩
        rcases hmem with hmem | hmem
        · exact .inl (List.mem_cons_of_mem _ hmem)
        · exact .inr (hnext.symm.trans hmem)

section
variable {s : State} {g q : Nat} {k : Queue}

/-- R277: the youngest borrowing queue of a region is one that can yield, and none of those borrowed later. -/
theorem youngest_spec (h : s.youngest g = some (q, k)) : ((q, k) ∈ s.queues ∧ k.region = g ∧ k.borrowed ≠ 0) ∧
    ∀ x ∈ s.queues, x.2.region = g → x.2.borrowed ≠ 0 → x.2.saved = none → x.2.yieldOrdered = false →
      (s.partOf x.2).pinned = false → x.2.borrowTime ≤ k.borrowTime := by
  obtain ⟨hmem, hle, -⟩ := foldl_younger (b := none) h
  have hmem := hmem.resolve_right (by simp)
  simp only [List.mem_filter, Bool.and_eq_true, beq_iff_eq, bne_iff_ne, ne_eq, Bool.not_eq_true', Option.isNone_iff_eq_none] at hmem hle
  obtain ⟨hlisted, ⟨⟨⟨hregion, hborrowed⟩, -⟩, -⟩, -⟩ := hmem
  exact ⟨⟨hlisted, hregion, hborrowed⟩, fun x hx hxregion hxborrowed hsaved hyields hpinned =>
    hle x ⟨hx, ⟨⟨⟨hxregion, hxborrowed⟩, hsaved⟩, hyields⟩, hpinned⟩⟩

theorem orderYield_of_wait (hwait : s.mutualWait g = true) (h : s.youngest g = some (q, k)) :
    s.orderYield g = (s.setQueue q { k with yieldOrdered := true }).bump 0x2900 0x0B 1 := by
  rw [orderYield, hwait, h]
  rfl

theorem orderYield_of_no_wait (hwait : s.mutualWait g = false) : s.orderYield g = s := by
  rw [orderYield, hwait]
  rfl

end
end State
end Sys2Proof.Machine
end

section
namespace Sys2Proof.Machine
open Safety
namespace State

/-! ### Saving a partition (R251, R278, R280) -/

/-- A state but for what the saving of a queue's partition and tiles may change. -/
def besideYield (s : State) : State := { s with
  queues := [], loft := {}, issued := 0, devMem := [], hostMem := [], poisoned := [], free := 0, dict := {} }

theorem eq_of_besideYield {s t : State} (h : t.besideYield = s.besideYield) : t = { s with
    queues := t.queues, loft := t.loft, issued := t.issued, devMem := t.devMem, hostMem := t.hostMem, poisoned := t.poisoned,
    free := t.free, dict := t.dict } :=
  congrArg (fun r : State => { r with
    queues := t.queues, loft := t.loft, issued := t.issued, devMem := t.devMem, hostMem := t.hostMem, poisoned := t.poisoned,
    free := t.free, dict := t.dict }) h

section
variable {s : State} {q e : Nat} {k : Queue}

/-- R280: an area reached for writing and for reading is reached. (`State.reach` is hidden from the kernel, which would
else walk the bytes of the area.) -/
theorem areaReach_ok (q : Nat) (hwrite : s.reach k.region k.pasid (areaBase k) (areaBytes k) 1 = .ok)
    (hread : s.reach k.region k.pasid (areaBase k) (areaBytes k) 0 = .ok) : s.areaReach q k = (s, true) := by
  obtain ⟨reached, hreached⟩ : ∃ r, r = State.reach := ⟨_, rfl⟩
  unfold areaReach
  rw [← hreached] at hwrite hread ⊢
  simp only [hwrite, hread, Bool.not_true, Bool.false_eq_true, if_false]

/-- The entry of a saved partition. -/
def savedEntry (p : Partition) : Partition := { p with state := 2 }

/-- A queue whose whole partition has been saved. -/
def savedQueue (s : State) (k : Queue) (e : Nat) : Queue :=
  { k with saved := some (s.savePart k.region (s.part k.region e)), borrowed := 0 }

/-- The partition has been saved: its area is written, its borrowings are back in the pool. -/
def partSaved (s : State) (q : Nat) (k : Queue) (e : Nat) : State :=
  ((s.setPart k.region e (savedEntry (s.part k.region e))).scramble k.region k.pasid (areaBase k) (areaBytes k)).setQueue q
    (s.savedQueue k e)

theorem saveQueue_of_reached (hpart : k.part = some e) (hpinned : (s.part k.region e).pinned = false)
    (hstate : (s.part k.region e).state = 1) (hwrite : s.reach k.region k.pasid (areaBase k) (areaBytes k) 1 = .ok)
    (hread : s.reach k.region k.pasid (areaBase k) (areaBytes k) 0 = .ok) : s.saveQueue q k = (s.partSaved q k e, true) := by
  unfold saveQueue
  split
  · rename_i hnone
    cases hpart.symm.trans hnone
  · rename_i hsome
    cases hpart.symm.trans hsome
    rw [if_neg (by simp [hpinned, hstate]), areaReach_ok q hwrite hread]
    rfl

/-- From `s` to `t` the live tiles of queue `q`, which is `k`, have been saved as images. -/
structure TilesSaved (s t : State) (q : Nat) (k : Queue) (images : Nat) : Prop where
  becomes : QueueBecomes s t q { k with images := images }
  regs : RegsBut s t [key 0x2200 0x07]
  loft : t.loft = s.loft
  rest : t.besideYield = s.besideYield
  idle : (∀ c ∈ s.cmds, c.q = q → liveTiles c = false) → t.dict = s.dict ∧ images = k.images

/-- R249: the images of a queue's live tiles are counted, where it has any. -/
theorem saveTiles_saves (hqueue : s.queue? q = some k) (k0 : Queue) : ∃ images, TilesSaved s (s.saveTiles q k0) q k images := by
  unfold saveTiles
  split
  · exact ⟨_, .refl hqueue, ⟨fun _ _ => rfl, rfl, rfl⟩, rfl, rfl, fun _ => ⟨rfl, rfl⟩⟩
  · rename_i hlive
    dsimp only
    generalize Config.freeCount _ % _ = n
    obtain ⟨devMem, hostMem, poisoned, free, hscrambled⟩ :=
      writesMemory_scramble s.draw.2 k0.region k0.pasid (areaBase k0) (areaBytes k0)
    rw [hscrambled]
    generalize hu : State.bump _ 0x2200 0x07 n = u
    have hstands : u.queue? q = some k := hu ▸ hqueue
    rw [onQueue_of_queue hstands]
    subst hu
    refine ⟨n, (queueBecomes_setQueue ..).from_queues rfl, ⟨fun x hx => ?_, rfl, rfl⟩, rfl, rfl, fun hidle => absurd ?_ hlive⟩
    · exact find?_bump _ (by simpa using hx) _
    · simpa using hidle

/-- R278: the queue asks for its rows again. -/
def asksAgain (t : State) (k : Queue) : Queue :=
  { k with yieldOrdered := false, wants := some (t.unitsAsked k), wantsSince := t.issued }

theorem yieldQueue_of_unordered (hqueue : s.queue? q = some k) (h : k.yieldOrdered = false) : s.yieldQueue q = s := by
  rw [yieldQueue, hqueue]
  exact if_pos (by simp [h])

theorem yieldQueue_of_floor (hqueue : s.queue? q = some k) (h : k.yieldOrdered = true) (hborrowed : k.borrowed = 0) :
    s.yieldQueue q = s.setQueue q { k with yieldOrdered := false } := by
  rw [yieldQueue, hqueue]
  dsimp only
  rw [if_neg (by simp [h]), if_pos hborrowed]

theorem yieldQueue_of_saved {t : State} (hqueue : s.queue? q = some k) (h : k.yieldOrdered = true) (hborrowed : k.borrowed ≠ 0)
    (hsaved : s.saveQueue q k = (t, true)) : s.yieldQueue q =
      { t.saveTiles q k with issued := (t.saveTiles q k).issued + 1 }.onQueue q (t.saveTiles q k).asksAgain := by
  obtain ⟨tiles, htiles⟩ : ∃ f, f = State.saveTiles := ⟨_, rfl⟩
  rw [yieldQueue, hqueue]
  dsimp only
  rw [if_neg (by simp [h]), if_neg hborrowed, hsaved, ← htiles]
  rfl

theorem partSaved_saves (s : State) (q : Nat) (k : Queue) (e : Nat) : QueueBecomes s (s.partSaved q k e) q (s.savedQueue k e) ∧
    (s.partSaved q k e).loft = (s.setPart k.region e (savedEntry (s.part k.region e))).loft ∧
    (s.partSaved q k e).dict = s.dict ∧ (s.partSaved q k e).besideYield = s.besideYield := by
  unfold partSaved
  generalize areaBytes k = n
  obtain ⟨_, _, _, _, hscrambled⟩ := writesMemory_scramble (s.setPart k.region e (savedEntry (s.part k.region e)))
    k.region k.pasid (areaBase k) n
  rw [hscrambled]
  exact ⟨(queueBecomes_setQueue ..).from_queues rfl, rfl, rfl, rfl⟩

/-- R278: a queue that gives back what it borrowed has its partition saved and asks for it again. -/
theorem yieldQueue_saves (hqueue : s.queue? q = some k) (hyields : k.yieldOrdered = true)
    (hborrowed : k.borrowed ≠ 0) (hpart : k.part = some e) (hpinned : (s.part k.region e).pinned = false)
    (hstate : (s.part k.region e).state = 1) (hwrite : s.reach k.region k.pasid (areaBase k) (areaBytes k) 1 = .ok)
    (hread : s.reach k.region k.pasid (areaBase k) (areaBytes k) 0 = .ok) :
    ∃ t images since, s.yieldQueue q = t ∧ QueueBecomes s t q { s.savedQueue k e with
        images := images, yieldOrdered := false, wants := some (max (k.wants.getD 0) (s.part k.region e).units),
        wantsSince := since } ∧
      t.loft = (s.setPart k.region e (savedEntry (s.part k.region e))).loft ∧ RegsBut s t [key 0x2200 0x07] ∧
      t.besideYield = s.besideYield ∧
      ((∀ c ∈ s.cmds, c.q = q → liveTiles c = false) → t.dict = s.dict ∧ images = k.images) := by
  obtain ⟨hput, hloft, hdict, hrest⟩ := partSaved_saves s q k e
  obtain ⟨images, hbecomes, ⟨hregs, hkept, hwear⟩, htloft, htrest, hidle⟩ := saveTiles_saves hput.self k
  have hyield := yieldQueue_of_saved hqueue hyields hborrowed (saveQueue_of_reached hpart hpinned hstate hwrite hread)
  obtain ⟨u, hu⟩ : ∃ u, u = s.partSaved q k e := ⟨_, rfl⟩
  rw [← hu] at hput hloft hdict hrest hbecomes hregs hkept hwear htloft htrest hidle hyield
  obtain ⟨t, ht⟩ : ∃ t, t = u.saveTiles q k := ⟨_, rfl⟩
  rw [← ht] at hbecomes hregs hkept hwear htloft htrest hidle hyield
  have hentry : t.part k.region e = savedEntry (s.part k.region e) := by
    rw [part, htloft, hloft]
    exact part_setPart_self ..
  have hunits : t.unitsAsked { s.savedQueue k e with images := images } = max (k.wants.getD 0) (s.part k.region e).units := by
    have hof : t.partOf { s.savedQueue k e with images := images } = t.part k.region e := by
      simp only [partOf, savedQueue, hpart]
    rw [unitsAsked, hof, hentry]
    rfl
  rw [onQueue_of_queue (s := { t with issued := t.issued + 1 }) hbecomes.self, asksAgain, hunits] at hyield
  rw [hdict] at hregs hkept hwear hidle
  refine ⟨_, images, t.issued, hyield, (hput.trans hbecomes).trans ((queueBecomes_setQueue ..).from_queues rfl), htloft.trans hloft,
    ⟨hregs, hkept, hwear⟩, htrest.trans hrest, ?_⟩
  have hcmds : u.cmds = s.cmds := (congrArg State.cmds hrest :)
  rwa [hcmds] at hidle

end
end State
end Sys2Proof.Machine
end

section
namespace Sys2Proof.Machine
open Safety
open State

/-- Settles O45: a request is granted, waits for room, or waits its turn; the youngest borrower of a mutual wait is ordered
to yield; and a queue so ordered gives back what it borrowed. -/
theorem loftSpace : Obligations.LoftSpace := by
  refine ⟨fun s u q e k hqueue hold hsaved hroom hgiven hmoves => ?granted, fun s q k hqueue hold hsaved hroom hidle => ?short,
    fun s q k hqueue hyounger => ?younger, fun s g q k hyoungest => ?ordered, fun s q k hqueue => ⟨fun hordered => ?unordered,
      fun hordered hborrowed => ?floor, fun e hordered hborrowed hpart hpinned hstate hwrite hread => ?saved⟩⟩
  case granted =>
    obtain ⟨hrest, hunits⟩ := giveUnits_some hsaved hgiven
    have hqueues : u.queues = s.queues := (congrArg State.queues hrest :)
    have hbecomes := (queueBecomes_setQueue { u with issued := u.issued + 1 } q
      (granted k (s.unitsAsked k) e u.issued)).from_queues hqueues
    refine ⟨_, _, congrArg Host.Outcome.next (grantSpace_of_given hqueue hold hsaved hroom hgiven hmoves), hbecomes.self,
      rfl, rfl, rfl, rfl, rfl, rfl, hunits, hbecomes.others, ?_⟩
    rw [eq_of_besideGrant hrest]
    rfl
  case short =>
    exact ⟨_, congrArg Host.Outcome.next (grantSpace_of_short hqueue hold hsaved hroom hidle),
      ⟨fun x hx => find?_bump _ (by simpa using hx) _, rfl, rfl⟩, rfl⟩
  case younger => exact congrArg Host.Outcome.next (grantSpace_of_younger hqueue hyounger)
  case ordered =>
    obtain ⟨⟨hlisted, hregion, hborrowed⟩, hlatest⟩ := youngest_spec hyoungest
    refine ⟨⟨hlisted, hregion, hborrowed, hlatest⟩, fun hwait => ?_, fun hwait => congrArg Host.Outcome.next (orderYield_of_no_wait hwait)⟩
    have hbecomes := queueBecomes_setQueue s q { k with yieldOrdered := true }
    exact ⟨_, congrArg Host.Outcome.next (orderYield_of_wait hwait hyoungest), hbecomes.self, hbecomes.others,
      reg_bump_self .., ⟨fun x hx => find?_bump _ (by simpa using hx) _, rfl, rfl⟩, rfl⟩
  case unordered => exact congrArg Host.Outcome.next (yieldQueue_of_unordered hqueue hordered)
  case floor =>
    have hbecomes := queueBecomes_setQueue s q { k with yieldOrdered := false }
    exact ⟨_, congrArg Host.Outcome.next (yieldQueue_of_floor hqueue hordered hborrowed), hbecomes.self, hbecomes.others, rfl⟩
  case saved =>
    obtain ⟨t, images, since, hyields, hbecomes, hloft, hregs, hrest, hstill⟩ :=
      yieldQueue_saves hqueue hordered hborrowed hpart hpinned hstate hwrite hread
    refine ⟨t, _, congrArg Host.Outcome.next hyields, hbecomes.self, rfl, rfl, rfl, rfl, ?_, hbecomes.others, ?_, ?_, ?_, hregs,
      eq_of_besideYield hrest, hstill⟩
    · rw [part, hloft]
      exact part_setPart_self ..
    · rw [hloft]; rfl
    · rw [hloft]; rfl
    · rw [hloft]; rfl

end Sys2Proof.Machine
end

section
namespace Sys2Proof.Machine
open Safety

/-! ### A completion over a memory that is not in canonical form (R260)

The statement of O46 ranges over every state and asks nothing of its memory. A list of bytes whose addresses do not rise is
no canonical memory (`memOk`), but it is a value of `devMem`: the search for an address stops at a greater one, so a byte
behind it is hidden, and the write of a record, which puts its cells between the lower and the higher ones, brings the
hidden one out. -/

/-- The FENCE of `lastFenceOfBorrower`, finished. -/
def finishedFence : Cmd := { lastFence with wait := .done }

/-- Its state, over a memory that lists address 2^20 before address 0. -/
def unorderedMemory : State := { lastFenceOfBorrower with cmds := [finishedFence], devMem := [(2 ^ 20, 1), (0, 7)] }

/-- The record of the FENCE reaches the first place of the completion ring. -/
theorem finishedFence_reaches : unorderedMemory.reach 16 5 0x11000 64 1 = .ok ∧
    unorderedMemory.physOf 16 5 0x11000 64 1 = some 0x11000 := by
  decide +kernel

/-- The byte at address 0 reads as 0, and as 7 once the record stands at 0x11000. -/
theorem memByte_finishedFence : memByte unorderedMemory.devMem 0 = 0 ∧
    memByte (unorderedMemory.completeCmd 3 0).devMem 0 = 7 := by
  decide +kernel

/-- Refutes O46: no other byte of memory changes only where memory is in canonical form, and the statement does not ask
for it. -/
theorem not_completion : ¬ Obligations.Completion := by
  intro h
  obtain ⟨hreach, hphys⟩ := finishedFence_reaches
  obtain ⟨t, k, ht, -, -, -, -, -, -, -, -, -, -, hbytes, -⟩ :=
    (h.1 unorderedMemory 3 0 finishedFence rfl).2 borrowingQueue _ _ rfl rfl rfl rfl hreach hphys
      (fun _ hx => absurd hx List.not_mem_nil) fun x hx => by
        obtain rfl := List.mem_singleton.1 hx
        exact ⟨by decide, by decide, by decide⟩
  obtain ⟨hbefore, hafter⟩ := memByte_finishedFence
  have hresult : unorderedMemory.completeCmd 3 0 = t := by injection ht
  have hstands := (hbytes 0 (.inl (by decide))).1 (by decide)
  rw [← hresult, hafter, hbefore] at hstands
  exact absurd hstands (by decide)

end Sys2Proof.Machine
end

section
namespace Sys2Proof.Machine
open Safety

/-! ### Values of the dictionary that stand -/

section
variable {s t u : State} {ks ls : List Nat}

theorem regsBut_refl (s : State) (ks : List Nat) : RegsBut s s ks := ⟨fun _ _ => rfl, rfl, rfl⟩

theorem regsBut_of_dict (h : t.dict = s.dict) (ks : List Nat) : RegsBut s t ks := by
  rw [RegsBut, h]
  exact regsBut_refl s ks

theorem regsBut_widen (h : RegsBut s t ks) (hks : ks ⊆ ls) : RegsBut s t ls :=
  ⟨fun k hk => h.1 k fun hmem => hk (hks hmem), h.2⟩

theorem regsBut_trans (hst : RegsBut s t ks) (htu : RegsBut t u ks) : RegsBut s u ks :=
  ⟨fun k hk => (htu.1 k hk).trans (hst.1 k hk), htu.2.1.trans hst.2.1, htu.2.2.trans hst.2.2⟩

theorem reg_of_regsBut {i n : Nat} (h : RegsBut s t ks) (hkey : State.key i n ∉ ks) (d : Nat) : t.reg i n d = s.reg i n d :=
  congrArg (Option.getD · d) (h.1 _ hkey)

theorem regsBut_bump (s : State) (i n a : Nat) : RegsBut s (s.bump i n a) [State.key i n] :=
  ⟨fun _ hk => State.find?_bump _ (by simpa using hk) _, State.bump_kept .., State.bump_wearList ..⟩

theorem regsBut_setReg (s : State) (i n v : Nat) : RegsBut s (s.setReg i n v) [State.key i n] :=
  ⟨fun _ hk => State.find?_setReg _ (by simpa using hk) _, rfl, rfl⟩

end

/-! ### An answer to a peer (R307, R335) -/

/-- The counters of the data bytes that the Bruora ports carry (R398). -/
def portBytes : List Nat := (List.range 32).map fun n => State.key 0x2E30 (0x10 + n)

theorem mem_portBytes {p : Nat} (hp : p < 16) (b : Nat) (hb : b < 2) : State.key 0x2E30 (0x10 + b + 2 * p) ∈ portBytes := by
  refine List.mem_map.2 ⟨b + 2 * p, List.mem_range.2 (by omega), ?_⟩
  rw [Nat.add_assoc]

/-- From `s` to `t` nothing has happened but that messages have moved on the links. -/
structure LinksMoved (s t : State) : Prop where
  regs : RegsBut s t portBytes
  sent : ∀ o ∈ s.outbox, o ∈ t.outbox
  windows : t.bruora.windows = s.bruora.windows
  rest : t = { s with dict := t.dict, outbox := t.outbox, bruora := t.bruora }

namespace LinksMoved
variable {s t u : State}

theorem refl (s : State) : LinksMoved s s := ⟨regsBut_refl .., fun _ h => h, rfl, rfl⟩

theorem trans (hst : LinksMoved s t) (htu : LinksMoved t u) : LinksMoved s u where
  regs := regsBut_trans hst.regs htu.regs
  sent o ho := htu.sent o (hst.sent o ho)
  windows := htu.windows.trans hst.windows
  rest := htu.rest.trans (by rw [hst.rest])

theorem bump {p b : Nat} (hp : p < 16) (hb : b < 2) (a : Nat) : LinksMoved s (s.bump 0x2E30 (0x10 + b + 2 * p) a) where
  regs := regsBut_widen (regsBut_bump ..) (List.cons_subset.2 ⟨mem_portBytes hp b hb, List.nil_subset _⟩)
  sent _ ho := ho
  windows := rfl
  rest := rfl

theorem send (o : Out) : LinksMoved s (s.send o) where
  regs := regsBut_of_dict rfl _
  sent _ ho := List.mem_append_left _ ho
  windows := rfl
  rest := rfl

theorem of_bruora {b : Bruora} (h : b.windows = s.bruora.windows) : LinksMoved s { s with bruora := b } :=
  ⟨regsBut_of_dict rfl _, fun _ ho => ho, h, rfl⟩

theorem emit {p : Nat} (hp : p < 16) (m : Message) : LinksMoved s (s.emit p m) := by
  unfold State.emit
  dsimp only
  rw [State.pumpPort_eq]
  refine List.foldlRecOn (motive := LinksMoved s) _ _ ?_ fun t ht x _ => ?_
  · exact (of_bruora rfl).trans (of_bruora rfl)
  · exact ht.trans ((bump hp Nat.zero_lt_two _).trans (send _))

theorem lt_of_route {m : Message} {p : Nat} (h : s.route m.dst = .port p) : p < 16 := by
  unfold State.route at h
  dsimp only at h
  repeat' split at h
  all_goals cases h
  all_goals exact of_decide_eq_true (Bool.and_eq_true_iff.1 ‹_›).1

theorem answer (m : Message) : LinksMoved s (s.answer m) := by
  unfold State.answer
  split
  · exact emit (lt_of_route ‹_›) m
  · exact of_bruora rfl
  · exact refl s

theorem lt_of_arrivalPort {src p : Nat} (h : s.arrivalPort src = some p) : p < 16 := by
  rcases Option.or_eq_some_iff.1 h with hdirect | ⟨-, hup⟩
  · exact List.mem_range.1 (List.mem_of_find?_eq_some hdirect)
  · exact List.mem_range.1 (List.mem_of_find?_eq_some hup)

theorem answerPeer (peer : Nat) (r : Request) (bytes : List Byte) : LinksMoved s (s.answerPeer peer r bytes) := by
  unfold State.answerPeer
  refine trans ?_ (answer _)
  refine trans ?_ (of_bruora rfl)
  split
  · exact bump (b := 1) (lt_of_arrivalPort ‹_›) Nat.one_lt_two _
  · exact refl s

end LinksMoved

/-! ### An order that is served (R332) -/

/-- From `s` to `t` nothing has happened but that a request was answered with success. -/
structure AnsweredFrom (s t : State) (r : Request) : Prop where
  answered : Answered t r
  regs : RegsBut s t portBytes
  windows : t.bruora.windows = s.bruora.windows
  rest : t = { s with dict := t.dict, outbox := t.outbox, bruora := linkAfter s t r }

theorem respond_answers (s : State) {r : Request} (hop : r.badOp = none) : AnsweredFrom s (s.respond 1 r 0 []) r := by
  cases hpath : r.path with
  | peer p =>
    have hmoved : LinksMoved (s.send (.response r.path 1 r.tag 0 [])) (s.respond 1 r 0 []) := by
      unfold State.respond
      rw [hop, hpath]
      exact .answerPeer ..
    refine ⟨hmoved.sent _ (List.mem_append_right _ (List.mem_singleton.2 rfl)), hmoved.regs, hmoved.windows, ?_⟩
    rw [linkAfter, hpath]
    exact hmoved.rest
  | _ =>
    have hother : ∀ p, r.path ≠ .peer p := by simp [hpath]
    refine ⟨?_, ⟨fun k _ => by rw [State.respond_regs s hother], State.respond_kept s hother .., State.respond_wearList s hother ..⟩, ?_, ?_⟩
    · have hsent := State.respond_mem s hother 1 0 []
      rwa [hop] at hsent
    · rw [State.respond_eq s hother]
    · rw [linkAfter, hpath]
      exact State.respond_eq s hother ..

/-- R344: an entry that is written keeps, beside its new value, the one that a read of the same clk returns. -/
theorem notePrior_eq (s s1 : State) (index sub : Nat) (e : DictEntry) :
    ∃ prior, s.notePrior s1 index sub e = { s1 with dict := { s1.dict with prior := prior } } := by
  unfold State.notePrior
  extract_lets old
  split
  · exact ⟨_, rfl⟩
  · exact ⟨_, rfl⟩

theorem badOp_of_admitted {s : State} {r : Request} (h : Admitted s r) : r.badOp = none := by
  have haccess := h.1.2
  unfold State.accessAborts State.headerAborts at haccess
  simp only [List.append_eq_nil_iff] at haccess
  obtain ⟨⟨⟨-, hformed⟩, -⟩, -⟩ := haccess
  by_contra hbad
  obtain ⟨op, hop⟩ := Option.ne_none_iff_exists'.1 hbad
  rw [hop, Option.isSome_some, Bool.or_true] at hformed
  exact absurd hformed (by decide)

/-- R332, R344: an order that is admitted, unrivalled and applied without an abort is answered with success. -/
theorem serveWrite_answers {s s1 : State} {r : Request} {rivals : List Request} {e : DictEntry} (h : Admitted s r)
    (hu : Unrivalled s r rivals) (he : dictEntry? r.index r.sub = some e)
    (ha : (counted s).applyEntry r e (rivals.filter (counted s).passes) = (s1, 0)) :
    AnsweredFrom s1 (s.serveWrite r rivals) r := by
  obtain ⟨prior, hprior⟩ := notePrior_eq (counted s) s1 r.index r.sub e
  rw [State.serveWrite_ok h hu he ha, hprior]
  obtain ⟨hanswered, hregs, hwindows, hrest⟩ :=
    respond_answers { s1 with dict := { s1.dict with prior := prior } } (badOp_of_admitted h)
  exact ⟨hanswered, hregs, hwindows, hrest⟩

end Sys2Proof.Machine
end

section
namespace Sys2Proof.Machine
open Safety

/-! ### The orders of a queue (R257, R261) -/

section
variable {s : State} {r : Request} {e : DictEntry} {mates : List Request} (hindex : r.index = 0x2900)
include hindex

theorem applyEntry_queueBind (hsub : r.sub = 0x10) (hty : e.ty ≠ 1) :
    s.applyEntry r e mates = (s.bindQueue (written r % 2 ^ 32) (written r / 2 ^ 32), 0) := by
  unfold State.applyEntry
  rw [hindex, hsub]
  simp [dictFamily, entryRange, hty]

theorem applyEntry_queueUnbind (hsub : r.sub = 0x11) (hty : e.ty ≠ 1) :
    s.applyEntry r e mates = (s.unbindQueue (written r), 0) := by
  unfold State.applyEntry
  rw [hindex, hsub]
  simp [dictFamily, entryRange, hty]

theorem applyEntry_queueStop (hsub : r.sub = 0x12) (hty : e.ty ≠ 1) (hq : written r < 2 ^ 20) :
    s.applyEntry r e mates = (s.stopQueue (written r), 0) := by
  unfold State.applyEntry
  rw [hindex, hsub]
  simp [dictFamily, entryRange, hty]
  omega

theorem applyEntry_queueStart (hsub : r.sub = 0x13) (hty : e.ty ≠ 1) (hq : written r < 2 ^ 20) :
    s.applyEntry r e mates = (s.startQueue (written r), 0) := by
  unfold State.applyEntry
  rw [hindex, hsub]
  simp [dictFamily, entryRange, hty]
  omega

end
end Sys2Proof.Machine
end

section
namespace Sys2Proof.Machine
open Safety
namespace State

/-! ### Where a queue is placed (R257, R275) -/

section
variable {s t : State} {q w region : Nat}

/-- The queue of an image, in a region, with the entry of its partition. -/
def placedQueue (w region : Nat) (part : Option Nat) : Queue := { queueOf w region with part := part }

theorem placeIn_bound (h : s.placeIn q w region = (t, true)) : ∃ part, t.queue? q = some (placedQueue w region part) := by
  unfold placeIn at h
  dsimp only at h
  split at h
  · cases h
  · split at h
    · cases h
      exact ⟨none, (queueBecomes_setQueue ..).self⟩
    · split at h
      · cases h
        exact ⟨_, (queueBecomes_setQueue ..).self⟩
      · cases h

/-- R275: the regions are tried in turn, each from what the ones before it left, until one takes the queue. -/
theorem place_induction {P Q : State → Prop} (hs : P s)
    (hrefused : ∀ u v region, P u → u.placeIn q w region = (v, false) → P v)
    (htaken : ∀ u v region, P u → u.placeIn q w region = (v, true) → Q v) :
    ((s.place q w).2 = false → P (s.place q w).1) ∧ ((s.place q w).2 = true → Q (s.place q w).1) := by
  unfold place
  refine List.foldlRecOn (motive := fun a : State × Bool => (a.2 = false → P a.1) ∧ (a.2 = true → Q a.1)) _ _ ⟨fun _ => hs, nofun⟩
    fun a ha region _ => ?_
  split
  · exact ha
  · have hu := ha.1 (Bool.eq_false_iff.2 ‹_›)
    exact ⟨fun h => hrefused _ _ region hu (Prod.ext rfl h), fun h => htaken _ _ region hu (Prod.ext rfl h)⟩

/-- R275: the queue stands as its image says, in some region. -/
theorem place_bound (h : s.place q w = (t, true)) : ∃ region part, t.queue? q = some (placedQueue w region part) := by
  have hplaced := (place_induction (s := s) (q := q) (w := w) (P := fun _ => True)
    (Q := fun t => ∃ region part, t.queue? q = some (placedQueue w region part)) trivial (fun _ _ _ _ _ => trivial)
    fun _ _ region _ htaken => ⟨region, placeIn_bound htaken⟩).2
  rw [h] at hplaced
  exact hplaced rfl

/-- No parked or halted queue holds borrowings that a bind could take (R251, log entry 166). -/
def NoneSaved (s : State) : Prop := ∀ e ∈ s.queues, e.2.parked = true ∨ e.2.halted = true → e.2.borrowed = 0

/-- What a bind that saves no other queue's partition has done: queue `q` stands in its region with its floor. -/
structure Placed (s t : State) (q : Nat) : Prop where
  becomes : ∃ k, QueueBecomes s t q k
  rest : t = { s with queues := t.queues, loft := t.loft, free := t.free }

theorem placeIn_noneSaved (hnone : NoneSaved s) {ok : Bool} (h : s.placeIn q w region = (t, ok)) :
    (ok = false → t = s) ∧ (ok = true → Placed s t q) := by
  unfold placeIn at h
  dsimp only at h
  rw [makeRoom_of_idle _ fun x hx _ => hnone x hx] at h
  split at h
  · cases h
    exact ⟨fun _ => rfl, nofun⟩
  · split at h
    · cases h
      exact ⟨nofun, fun _ => ⟨⟨_, queueBecomes_setQueue ..⟩, rfl⟩⟩
    · split at h
      · rename_i hgiven
        cases h
        split at hgiven
        · obtain ⟨hrest, -⟩ := giveUnits_some (k := queueOf w region) rfl hgiven
          have heq := eq_of_besideGrant hrest
          refine ⟨nofun, fun _ => ⟨⟨_, (queueBecomes_setQueue ..).from_queues (congrArg queues hrest :)⟩, ?_⟩⟩
          rw [heq]
          rfl
        · cases hgiven
      · cases h
        exact ⟨fun _ => rfl, nofun⟩

theorem place_noneSaved (hnone : NoneSaved s) {ok : Bool} (h : s.place q w = (t, ok)) :
    (ok = false → t = s) ∧ (ok = true → Placed s t q) := by
  have hplaced := place_induction (s := s) (q := q) (w := w) (P := (· = s)) (Q := (Placed s · q)) rfl
    (fun _ _ _ hu hrefused => by subst hu; exact (placeIn_noneSaved hnone hrefused).1 rfl)
    (fun _ _ _ hu htaken => by subst hu; exact (placeIn_noneSaved hnone htaken).2 rfl)
  rwa [h] at hplaced

end
end State
end Sys2Proof.Machine
end

section
namespace Sys2Proof.Machine
open Safety
namespace State

/-! ### Bind (R257) -/

section
variable {s t u : State} {q w code : Nat}

/-- A bind that is refused leaves the state, but for what the search of a place has saved. -/
theorem tryBind_error (h : s.tryBind q w = .error (code, u)) (hstands : code ≠ 0x2907 ∨ NoneSaved s) : u = s := by
  unfold tryBind at h
  dsimp only at h
  split at h
  · cases h
    rfl
  · split at h
    · cases h
      rfl
    · split at h
      · cases h
        exact (place_noneSaved (hstands.resolve_left (fun hne => hne rfl)) ‹_›).1 rfl
      · cases h

theorem tryBind_ok (hq : q < 2 ^ 20) (hunbound : s.queue? q = none) (hformed : bindMalformed w = false) (hpasid : bits w 19 0 ≠ 0)
    (hpage : ∀ e ∈ s.queues, e.1 / 512 = q / 512 → e.1 ≠ q → e.2.pasid = bits w 19 0) (hsheaves : bits w 455 432 ≤ s.freeSheaves)
    (hplace : s.place q w = (u, true)) :
    s.tryBind q w = .ok { u with granary := { u.granary with staged := u.granary.staged + bits w 455 432 } } := by
  have hcheck : cond ((queueOf w 0).pasid == 0) 0x2802 ++
      cond (s.queues.any fun e => e.1 / 512 == q / 512 && e.1 != q && e.2.pasid != (queueOf w 0).pasid) 0x2903 ++
      cond (2 ^ 20 ≤ q || (s.queue? q).isSome || bindMalformed w) 0x2904 = [] := by
    have hnone : (queueOf w 0).pasid ≠ 0 := hpasid
    have hpages : (s.queues.any fun e => e.1 / 512 == q / 512 && e.1 != q && e.2.pasid != (queueOf w 0).pasid) = false := by
      rw [List.any_eq_false]
      intro e he
      simp only [Bool.and_eq_true, beq_iff_eq, bne_iff_ne, not_and, not_not]
      exact fun hsame => hpage e he hsame.1 hsame.2
    rw [hpages, beq_false_of_ne hnone, hunbound, hformed, decide_eq_false (Nat.not_le.2 hq)]
    rfl
  unfold tryBind
  dsimp only
  rw [hcheck, hplace]
  exact if_neg (Nat.not_lt.2 hsheaves)

theorem bindQueue_error (h : s.tryBind q w = .error (code, u)) : s.bindQueue q w = u.setReg 0x2900 0x16 code := by
  rw [bindQueue, h]

theorem openTask_eq (s : State) (pasid : Nat) : ∃ obs, s.openTask pasid = { s with obs := obs } := by
  unfold openTask
  split
  · exact ⟨_, rfl⟩
  · exact ⟨_, rfl⟩

theorem bindQueue_ok {k : Queue} (h : s.tryBind q w = .ok u) (hqueue : u.queue? q = some k) : ∃ parked halted obs,
    QueueBecomes u (s.bindQueue q w) q { k with parked := parked, halted := halted } ∧
      s.bindQueue q w = { u with queues := (s.bindQueue q w).queues, obs := obs }.setReg 0x2900 0x16 0 := by
  unfold bindQueue
  rw [h]
  dsimp only
  rw [onQueue_of_queue hqueue]
  obtain ⟨obs, hobs⟩ := openTask_eq (u.setQueue q { k with
    parked := u.queues.any fun e => e.2.pasid == bits w 19 0 && e.2.parked, halted := s.obs.halted.contains (bits w 19 0) })
    (bits w 19 0)
  rw [hobs]
  exact ⟨_, _, obs, (queueBecomes_setQueue ..).of_queues rfl, rfl⟩

/-! ### Unbind (R261) -/

theorem unbindQueue_refused {k : Queue} (hqueue : s.queue? q = some k) (h : k.state = 1 ∨ ∃ c ∈ s.cmds, c.q = q) :
    s.unbindQueue q = s.setReg 0x2900 0x16 0x2906 := by
  rw [unbindQueue, hqueue]
  refine if_pos ?_
  simpa using h

theorem unbindQueue_released {k : Queue} (hqueue : s.queue? q = some k) (hstate : k.state ≠ 1) (hidle : ∀ c ∈ s.cmds, c.q ≠ q) :
    s.unbindQueue q = (s.releaseQueue q k).setReg 0x2900 0x16 0 := by
  rw [unbindQueue, hqueue]
  refine if_neg ?_
  simpa using ⟨hstate, hidle⟩

/-- What an unbind gives back. -/
structure Released (s t : State) (q : Nat) (k : Queue) : Prop where
  gone : t.queue? q = none
  others : ∀ n x, n ≠ q → s.queue? n = some x → t.queue? n = some x
  part : ∀ e, k.part = some e → t.part k.region e = {}
  staged : t.granary.staged = s.granary.staged - k.stagingLeft
  windows : ∀ x ∈ t.bruora.windows, x.q ≠ q
  rest : t = { s with queues := t.queues, loft := t.loft, granary := t.granary, bruora := t.bruora, bell := t.bell, obs := t.obs }

theorem releaseQueue_released (s : State) (q : Nat) (k : Queue) : Released s (s.releaseQueue q k) q k := by
  have hwindows : ∀ x ∈ s.bruora.windows.filter (fun w => w.q != q), x.q ≠ q := fun x hx => by
    simpa using (List.mem_filter.1 hx).2
  cases hpart : k.part with
  | none =>
    unfold releaseQueue
    rw [hpart]
    exact ⟨Table.find?_drop_self .., fun n x hn hx => Table.find?_drop_ne hn hx,
      fun e he => (by cases hpart.symm.trans he), rfl, hwindows, rfl⟩
  | some e =>
    unfold releaseQueue
    rw [hpart]
    refine ⟨Table.find?_drop_self .., fun n x hn hx => Table.find?_drop_ne hn hx, fun e' he => ?_, rfl, hwindows, rfl⟩
    obtain rfl := Option.some.inj (hpart.symm.trans he)
    exact part_setPart_self ..

end
end State

open State

/-! ### Stop, start, unbind and bind as orders (R261, R257) -/

theorem portBytes_subset : portBytes ⊆ requestCounters := List.subset_append_right _ _

theorem lastBindCode_notMem_portBytes : key 0x2900 0x16 ∉ portBytes := by decide

theorem counted_regsBut (s : State) : RegsBut s (counted s) requestCounters :=
  regsBut_widen (regsBut_bump ..) (by decide)

section
variable {s s1 t : State} {r : Request}

theorem AnsweredFrom.counters (h : AnsweredFrom s1 t r) (hregs : RegsBut s s1 requestCounters) : RegsBut s t requestCounters :=
  regsBut_trans hregs (regsBut_widen h.regs portBytes_subset)

/-- R257, R261: an order that ends by writing `LAST_BIND_CODE`. -/
theorem AnsweredFrom.bindCode {u : State} {code : Nat} (h : AnsweredFrom (u.setReg 0x2900 0x16 code) t r) :
    t.reg 0x2900 0x16 0 = code ∧ RegsBut u t (key 0x2900 0x16 :: requestCounters) :=
  ⟨(reg_of_regsBut h.regs lastBindCode_notMem_portBytes 0).trans (reg_setReg_self ..),
    regsBut_trans (regsBut_widen (regsBut_setReg ..) (by simp)) (regsBut_widen h.regs (List.subset_cons_of_subset _ portBytes_subset))⟩

theorem AnsweredFrom.queues (h : AnsweredFrom s1 t r) : t.queues = s1.queues := by rw [h.rest]

end

section
variable {s s1 : State} {r : Request} {rivals : List Request} (h : Admitted s r) (hu : Unrivalled s r rivals)
  (hindex : r.index = 0x2900)
include h hu hindex

theorem exec_queueBind_answers (hsub : r.sub = 0x10) : ∃ t, exec (.queueBind r rivals) s = .next t ∧
    AnsweredFrom ((counted s).bindQueue (written r % 2 ^ 32) (written r / 2 ^ 32)) t r :=
  ⟨_, congrArg Host.Outcome.next (ownRow_eq (by rw [hindex]; rfl) (by rw [hsub]; rfl)),
    serveWrite_answers h hu (by rw [hindex, hsub]; rfl) (applyEntry_queueBind hindex hsub (by decide))⟩

theorem exec_queueUnbind_answers (hsub : r.sub = 0x11) : ∃ t, exec (.queueUnbind r rivals) s = .next t ∧
    AnsweredFrom ((counted s).unbindQueue (written r)) t r :=
  ⟨_, congrArg Host.Outcome.next (ownRow_eq (by rw [hindex]; rfl) (by rw [hsub]; rfl)),
    serveWrite_answers h hu (by rw [hindex, hsub]; rfl) (applyEntry_queueUnbind hindex hsub (by decide))⟩

theorem exec_queueStop_answers (hsub : r.sub = 0x12) (hq : written r < 2 ^ 20) : ∃ t, exec (.queueStop r rivals) s = .next t ∧
    AnsweredFrom ((counted s).stopQueue (written r)) t r :=
  ⟨_, congrArg Host.Outcome.next (ownRow_eq (by rw [hindex]; rfl) (by rw [hsub]; rfl)),
    serveWrite_answers h hu (by rw [hindex, hsub]; rfl) (applyEntry_queueStop hindex hsub (by decide) hq)⟩

theorem exec_queueStart_answers (hsub : r.sub = 0x13) (hq : written r < 2 ^ 20) : ∃ t, exec (.queueStart r rivals) s = .next t ∧
    AnsweredFrom ((counted s).startQueue (written r)) t r :=
  ⟨_, congrArg Host.Outcome.next (ownRow_eq (by rw [hindex]; rfl) (by rw [hsub]; rfl)),
    serveWrite_answers h hu (by rw [hindex, hsub]; rfl) (applyEntry_queueStart hindex hsub (by decide) hq)⟩

end

/-- R261: an order that takes its queue from `k` to `f k` has changed nothing else. -/
theorem AnsweredFrom.onQueue {s t : State} {r : Request} {q : Nat} {k : Queue} {f : Queue → Queue} (hqueue : s.queue? q = some k)
    (h : AnsweredFrom ((counted s).onQueue q f) t r) : Answered t r ∧ t.queue? q = some (f k) ∧
      (∀ n, n ≠ q → t.queue? n = s.queue? n) ∧ RegsBut s t requestCounters ∧
      t = { s with dict := t.dict, outbox := t.outbox, bruora := linkAfter s t r, queues := t.queues } := by
  rw [onQueue_of_queue (s := counted s) hqueue] at h
  have hbecomes := (queueBecomes_setQueue (counted s) q (f k)).of_queues h.queues
  refine ⟨h.answered, hbecomes.self, hbecomes.others, h.counters (counted_regsBut s), ?_⟩
  rw [h.queues]
  exact h.rest

/-- Settles O5: each order of a queue does what its rule says of the queue, answers, and leaves the rest. -/
theorem queueOrders : Obligations.QueueOrders := by
  refine ⟨fun s r rivals q k h hu hindex hwritten hq hqueue =>
      ⟨fun hsub => ?stop, fun hsub => ?start, fun hsub hstate hidle => ?unbind, fun hsub hbusy => ?refused⟩,
    fun s r rivals q w h hu hindex hsub hq hw =>
      ⟨fun s1 hlimit hunbound hformed hpasid hpage hsheaves hplace => ?bound, fun code u herror => ?unbound⟩⟩
  case stop =>
    obtain ⟨t, hexec, hanswers⟩ := exec_queueStop_answers h hu hindex hsub (hwritten ▸ hq)
    rw [hwritten, stopQueue] at hanswers
    have hstopped := hanswers.onQueue hqueue
    exact ⟨t, hexec, hstopped⟩
  case start =>
    obtain ⟨t, hexec, hanswers⟩ := exec_queueStart_answers h hu hindex hsub (hwritten ▸ hq)
    rw [hwritten, startQueue] at hanswers
    have hstarted := hanswers.onQueue hqueue
    exact ⟨t, hexec, hstarted⟩
  case unbind =>
    obtain ⟨t, hexec, hanswers⟩ := exec_queueUnbind_answers h hu hindex hsub
    rw [hwritten, unbindQueue_released (s := counted s) hqueue hstate hidle] at hanswers
    obtain ⟨hgone, hothers, hpart, hstaged, hwindows, hrest⟩ := releaseQueue_released (counted s) q k
    obtain ⟨hcode, hregs⟩ := hanswers.bindCode
    generalize (counted s).releaseQueue q k = u at *
    have hdict : u.dict = (counted s).dict := by rw [hrest]
    have hqueues (n : Nat) : t.queue? n = u.queue? n := queue?_of_queues hanswers.queues n
    refine ⟨t, hexec, hanswers.answered, (hqueues q).trans hgone, fun n x hn hx => (hqueues n).trans (hothers n x hn hx),
      fun e he => ?_, ?_, fun x hx => hwindows x (hanswers.windows ▸ hx), hcode, ?_, ?_⟩
    · rw [hanswers.rest]
      exact hpart e he
    · rw [hanswers.rest]
      exact hstaged
    · exact regsBut_trans (regsBut_trans (regsBut_widen (counted_regsBut s) (List.subset_cons_self ..)) (regsBut_of_dict hdict _)) hregs
    · have ht := hanswers.rest
      rw [hrest] at ht
      rw [ht]
      rfl
  case refused =>
    obtain ⟨t, hexec, hanswers⟩ := exec_queueUnbind_answers h hu hindex hsub
    rw [hwritten, unbindQueue_refused (s := counted s) hqueue hbusy] at hanswers
    obtain ⟨hcode, hregs⟩ := hanswers.bindCode
    exact ⟨t, hexec, hanswers.answered, hcode,
      regsBut_trans (regsBut_widen (counted_regsBut s) (List.subset_cons_self ..)) hregs, hanswers.rest⟩
  case bound =>
    obtain ⟨t, hexec, hanswers⟩ := exec_queueBind_answers h hu hindex hsub
    rw [hq, hw] at hanswers
    have hbind := tryBind_ok (s := counted s) hlimit hunbound hformed hpasid hpage hsheaves hplace
    obtain ⟨region, part, hplaced⟩ := place_bound hplace
    obtain ⟨parked, halted, obs, hbecomes, hrest⟩ := bindQueue_ok hbind hplaced
    generalize (counted s).bindQueue q w = u at *
    have hqueues := hbecomes.of_queues hanswers.queues
    rw [hrest] at hanswers
    obtain ⟨hcode, hregs⟩ := hanswers.bindCode
    refine ⟨t, _, hexec, hanswers.answered, hqueues.self, rfl, rfl, rfl, rfl, rfl, rfl, rfl, rfl, rfl, rfl, rfl, rfl, rfl,
      hqueues.others, ?_, hcode, ?_, fun hnone => ?_⟩
    · rw [hanswers.rest]
      rfl
    · exact congrArg (fun x : State => { x with queues := t.queues, granary := t.granary, obs := t.obs }) hanswers.rest
    · obtain ⟨⟨_, hplacedQueue⟩, hkeeps⟩ := (place_noneSaved (s := counted s) hnone hplace).2 rfl
      refine ⟨fun n hn => (hqueues.others n hn).trans (hplacedQueue.others n hn), ?_, ?_⟩
      · have hdict : s1.dict = (counted s).dict := by rw [hkeeps]
        exact regsBut_trans (regsBut_trans (regsBut_widen (counted_regsBut s) (List.subset_cons_self ..)) (regsBut_of_dict hdict _)) hregs
      · have ht := hanswers.rest
        rw [hkeeps] at ht
        exact congrArg (fun x : State => { x with
          queues := t.queues, loft := t.loft, granary := t.granary, obs := t.obs, issued := t.issued, free := t.free }) ht
  case unbound =>
    obtain ⟨t, hexec, hanswers⟩ := exec_queueBind_answers h hu hindex hsub
    rw [hq, hw, bindQueue_error herror] at hanswers
    obtain ⟨hcode, hregs⟩ := hanswers.bindCode
    refine ⟨t, hexec, hanswers.answered, hcode, hregs, hanswers.rest, fun hstands => ?_⟩
    obtain rfl := tryBind_error herror hstands
    exact ⟨regsBut_trans (regsBut_widen (counted_regsBut s) (List.subset_cons_self ..)) hregs, hanswers.rest⟩

end Sys2Proof.Machine
end

section
namespace Sys2Proof.Machine
open Safety
namespace State

/-! ### The count of issued commands (R270)

`COMMANDS_ISSUED` is raised once by an issue; the reads of the check and the Granary's work at issue leave it. -/

/-- `COMMANDS_ISSUED`. -/
def issuedCount (s : State) : Nat := s.reg 0x2900 0x08 0

section
variable (s : State)

theorem issuedCount_bump {i n : Nat} (h : key i n ≠ key 0x2900 0x08) (a : Nat) : (s.bump i n a).issuedCount = s.issuedCount :=
  reg_bump_ne _ h.symm ..

theorem barnLine_issuedCount (line hint : Nat) (write : Bool) (n : Nat) :
    (s.barnLine line hint write n).issuedCount = s.issuedCount := by
  unfold barnLine
  extract_lets hit s1 bytes rest
  have hs1 : s1.issuedCount = s.issuedCount := by
    simp only [s1]
    split
    · exact issuedCount_bump _ (by decide) _
    · exact issuedCount_bump _ (by decide) _
  have hbytes (t : State) : (bytes t).issuedCount = t.issuedCount := by
    simp only [bytes]
    split <;> split
    · rfl
    · exact issuedCount_bump _ (by decide) _
    · rfl
    · exact issuedCount_bump _ (by decide) _
  clear_value hit bytes
  split
  · split
    · exact (issuedCount_bump _ (by decide) _).trans hs1
    · split
      · exact (hbytes _).trans hs1
      · exact (hbytes _).trans hs1
  · split
    extract_lets held keeps
    split
    extract_lets s2 s3 s4
    have hs2 : s2.issuedCount = s.issuedCount := (hbytes _).trans hs1
    have hs3 : s3.issuedCount = s.issuedCount := by
      simp only [s3]
      split
      · exact (issuedCount_bump _ (by decide) _).trans hs2
      · exact hs2
    have hs4 : s4.issuedCount = s.issuedCount := by
      simp only [s4]
      split
      · split
        · exact (issuedCount_bump _ (by decide) _).trans hs3
        · exact hs3
      · exact hs3
    exact (issuedCount_bump _ (by decide) _).trans hs4

theorem devTouch_issuedCount (port pa n hint : Nat) (write : Bool) : (s.devTouch port pa n hint write).issuedCount = s.issuedCount := by
  unfold devTouch
  dsimp only
  split
  · exact (issuedCount_bump _ (by decide) _).trans (foldl_keeps issuedCount (fun s _ => s.barnLine_issuedCount ..) _ s)
  · exact (issuedCount_bump _ (by decide) _).trans (foldl_keeps issuedCount (fun s _ => s.barnLine_issuedCount ..) _ s)

/-- An access of the Drover, which no Carter makes. -/
theorem memTouch_issuedCount (port pasid pa n hint : Nat) (write : Bool) :
    (s.memTouch port pasid pa n hint write false).issuedCount = s.issuedCount := by
  unfold memTouch
  dsimp only
  rw [if_neg Bool.false_ne_true]
  split
  · split
    · exact issuedCount_bump _ (by decide) _
    · exact issuedCount_bump _ (by decide) _
  · exact devTouch_issuedCount ..

theorem touchEntry_issuedCount (port pasid va access : Nat) : (s.touchEntry port pasid va access).issuedCount = s.issuedCount := by
  unfold touchEntry setCarterEntries setDieEntries
  dsimp only
  repeat' split
  all_goals rfl

theorem noteVA_issuedCount (port pasid va len access hint : Nat) :
    (s.noteVA port pasid va len access hint false).issuedCount = s.issuedCount := by
  refine foldl_keeps issuedCount (fun s p => ?_) _ s
  split
  · extract_lets s1 s2
    have hs1 : s1.issuedCount = s.issuedCount := touchEntry_issuedCount ..
    have hs2 : s2.issuedCount = s.issuedCount := by
      simp only [s2]
      split
      · exact hs1
      · exact (memTouch_issuedCount ..).trans hs1
    split
    · exact hs2
    · exact (memTouch_issuedCount ..).trans hs2
  · rfl

end
end State
end Sys2Proof.Machine
end

section
namespace Sys2Proof.Machine
open Safety
namespace State

/-! ### What an issue changes (R182, R184, R262, R270) -/

/-- A state but for what the issue of a command may change. -/
def besideIssue (s : State) : State := { s with
  trans := {}, barn := [], dict := {}, obs := {}, cursors := [], waiting := [], queues := [], granary := {}, cmds := [], issued := 0 }

theorem eq_of_besideIssue {s t : State} (h : t.besideIssue = s.besideIssue) : t = { s with
    trans := t.trans, barn := t.barn, dict := t.dict, obs := t.obs, cursors := t.cursors, waiting := t.waiting, queues := t.queues,
    granary := t.granary, cmds := t.cmds, issued := t.issued } :=
  congrArg (fun r : State => { r with
    trans := t.trans, barn := t.barn, dict := t.dict, obs := t.obs, cursors := t.cursors, waiting := t.waiting, queues := t.queues,
    granary := t.granary, cmds := t.cmds, issued := t.issued }) h

theorem besideIssue_of_besideAccess {s t : State} (h : t.besideAccess = s.besideAccess) : t.besideIssue = s.besideIssue :=
  show t.besideAccess.besideIssue = s.besideAccess.besideIssue from h ▸ rfl

/-- From `s` to `t` only what an issue may change has changed: no command has been counted as issued, and of the queues none
has more than drawn from its staging sheaves. -/
structure GranaryWorks (s t : State) : Prop where
  rest : t.besideIssue = s.besideIssue
  count : t.issuedCount = s.issuedCount
  queue : ∀ q k, s.queue? q = some k → ∃ left, t.queue? q = some { k with stagingLeft := left }

namespace GranaryWorks
variable {s t u : State}

theorem refl (s : State) : GranaryWorks s s := ⟨rfl, rfl, fun _ k h => ⟨k.stagingLeft, h⟩⟩

theorem trans (hst : GranaryWorks s t) (htu : GranaryWorks t u) : GranaryWorks s u where
  rest := htu.rest.trans hst.rest
  count := htu.count.trans hst.count
  queue q k h := by
    obtain ⟨_, ht⟩ := hst.queue q k h
    obtain ⟨left, hu⟩ := htu.queue q _ ht
    exact ⟨left, hu⟩

theorem of_granary (s : State) (g : Granary) : GranaryWorks s { s with granary := g } := ⟨rfl, rfl, fun _ k h => ⟨k.stagingLeft, h⟩⟩

theorem foldl {α : Type} {f : State → α → State} (h : ∀ s a, GranaryWorks s (f s a)) (l : List α) (s : State) :
    GranaryWorks s (l.foldl f s) :=
  List.foldlRecOn l f (refl s) fun _ ht a _ => ht.trans (h _ a)

/-- A fold that counts beside the state. -/
theorem foldlCount {α : Type} {f : State × Nat → α → State × Nat} (h : ∀ a x, GranaryWorks a.1 (f a x).1) (l : List α)
    (a : State × Nat) : GranaryWorks a.1 (l.foldl f a).1 :=
  List.foldlRecOn (motive := fun b : State × Nat => GranaryWorks a.1 b.1) l f (refl a.1) fun _ hb x _ => hb.trans (h _ x)

end GranaryWorks

section
variable (s : State)

theorem granaryWorks_setSeq (id : Nat) (x : Sequence) : GranaryWorks s (s.setSeq id x) := .of_granary ..

theorem granaryWorks_lockSeq (id : Nat) (up : Bool) : GranaryWorks s (s.lockSeq id up) := by
  unfold lockSeq
  split
  · exact .refl s
  · exact granaryWorks_setSeq ..

theorem granaryWorks_beginRead (id die : Nat) : GranaryWorks s (s.beginRead id die) := by
  unfold beginRead
  split
  · exact .refl s
  · exact granaryWorks_setSeq ..

theorem granaryWorks_dropRefs (is : List Nat) : GranaryWorks s (s.dropRefs is).1 := by
  refine GranaryWorks.foldlCount (fun a i => ?_) is (s, 0)
  show GranaryWorks a.1 (a.1.dropRef i).1
  unfold dropRef
  split
  · exact .refl _
  · split
    · exact .of_granary ..
    · exact .of_granary ..

theorem granaryWorks_addRef (i : Nat) : GranaryWorks s (s.addRef i) := by
  unfold addRef
  split
  · exact .refl s
  · exact .of_granary ..

theorem granaryWorks_takeSheaf (i refs kind pasid : Nat) : GranaryWorks s (s.takeSheaf i refs kind pasid) := .of_granary ..

theorem granaryWorks_takeSheaves (is : List Nat) (refs kind pasid : Nat) : GranaryWorks s (s.takeSheaves is refs kind pasid) :=
  .foldl (fun s i => s.granaryWorks_takeSheaf i refs kind pasid) is s

theorem granaryWorks_bump {i n : Nat} (h : key i n ≠ key 0x2900 0x08) (a : Nat) : GranaryWorks s (s.bump i n a) :=
  ⟨rfl, issuedCount_bump _ h _, fun _ k hk => ⟨k.stagingLeft, hk⟩⟩

theorem granaryWorks_evict (id : Nat) (x : Sequence) : GranaryWorks s (s.evict id x) := by
  have hdropped := s.granaryWorks_dropRefs (x.tally.map Prod.snd ++ x.tallySheaves ++ x.dirSheaves)
  unfold evict
  generalize s.dropRefs _ = a at hdropped ⊢
  exact (hdropped.trans (granaryWorks_setSeq ..)).trans (granaryWorks_bump _ (by decide) _)

theorem granaryWorks_evictFor (need : Nat) : GranaryWorks s (s.evictFor need).1 := by
  unfold evictFor
  refine List.foldlRecOn (motive := fun a : State × Nat => GranaryWorks s a.1) _ _ (.refl s) fun a ha e _ => ?_
  split
  · exact ha
  · exact ha.trans (granaryWorks_evict ..)

theorem granaryWorks_newSeq (x : Sequence) : GranaryWorks s (s.newSeq x).1 := by
  have hevicted := s.granaryWorks_evictFor (x.tallyCount + x.dirCount)
  unfold newSeq
  dsimp only
  split
  · exact hevicted
  · split
    · exact hevicted
    · exact ((hevicted.trans (granaryWorks_takeSheaves ..)).trans (granaryWorks_takeSheaves ..)).trans (granaryWorks_setSeq ..)

theorem granaryWorks_truncateLayer (id layer n : Nat) : GranaryWorks s (s.truncateLayer id layer n).1 := by
  unfold truncateLayer
  split
  · exact .refl s
  · split
    · exact .refl s
    · exact (granaryWorks_dropRefs ..).trans (granaryWorks_setSeq ..)

/-- R275: a queue draws from its own staging sheaves. -/
theorem granaryWorks_drawStaging (q n : Nat) : GranaryWorks s (s.drawStaging q n) := by
  cases hqueue : s.queue? q with
  | none =>
    rw [drawStaging, hqueue]
    exact .refl s
  | some k =>
    rw [drawStaging, hqueue]
    refine ⟨rfl, rfl, fun n x hx => ?_⟩
    by_cases hn : n = q
    · subst hn
      obtain rfl := Option.some.inj (hqueue.symm.trans hx)
      exact ⟨_, Table.find?_put_self ..⟩
    · exact ⟨x.stagingLeft, (Table.find?_put_ne hn ..).trans hx⟩

/-! ### The work of a Granary command at its issue -/

/-- What would hold the sequence of a command while others are evicted for it. -/
theorem granaryWorks_evictBeside (id need : Nat) : GranaryWorks s (((s.lockSeq id true).evictFor need).1.lockSeq id false) :=
  ((granaryWorks_lockSeq ..).trans (granaryWorks_evictFor ..)).trans (granaryWorks_lockSeq ..)

theorem granaryWorks_reserveAppend (c : Cmd) : GranaryWorks s (s.reserveAppend c).1 := by
  unfold reserveAppend
  extract_lets r id
  split
  · exact .refl s
  · extract_lets es left
    clear_value left
    dsimp only
    split
    · exact granaryWorks_evictBeside ..
    · exact ((granaryWorks_evictBeside ..).trans (granaryWorks_drawStaging ..)).trans (granaryWorks_takeSheaves ..)

theorem granaryWorks_createKv (c : Cmd) : GranaryWorks s (s.createKv c).1 := by
  have hnew := s.granaryWorks_newSeq (createdSeq c.recs c.pasid)
  unfold createKv
  dsimp only
  split
  · rename_i heq
    rwa [heq] at hnew
  · rename_i heq
    rwa [heq] at hnew

theorem granaryWorks_shareKv (c : Cmd) : GranaryWorks s (s.shareKv c).1 := by
  unfold shareKv
  extract_lets r src
  split
  · exact .refl s
  · extract_lets new need named
    split
    rename_i s1 ev hevict
    extract_lets s2 no
    have hs2 : GranaryWorks s s2 := by
      have hbeside := s.granaryWorks_evictBeside src need
      rwa [hevict] at hbeside
    clear_value s2
    split
    · exact hs2
    · split
      · exact hs2
      · split
        · exact hs2
        · split
          · rename_i s3 ev2 id hnew
            have hs3 : GranaryWorks s s3 := by
              have hmade := (s2.beginRead src c.die).granaryWorks_newSeq new
              rw [hnew] at hmade
              exact (hs2.trans (granaryWorks_beginRead ..)).trans hmade
            extract_lets s4 s5
            have hs4 : GranaryWorks s s4 := hs3.trans (.foldl (fun s _ => s.granaryWorks_addRef _) _ _)
            show GranaryWorks s s5
            simp only [s5]
            split
            · exact hs4.trans (granaryWorks_setSeq ..)
            · exact hs4
          · exact hs2

theorem granaryWorks_truncateKv (c : Cmd) : GranaryWorks s (s.truncateKv c).1 := by
  unfold truncateKv
  dsimp only
  split
  · exact .refl s
  · have hlayers (layers : List Nat) := GranaryWorks.foldlCount
      (f := fun a l => ((a.1.truncateLayer (c.recs.b 20 21) l (c.recs.b 24 27)).1,
        a.2 + (a.1.truncateLayer (c.recs.b 20 21) l (c.recs.b 24 27)).2))
      (fun a l => granaryWorks_truncateLayer a.1 ..) layers (s, 0)
    dsimp only
    split
    · exact (hlayers _).trans (granaryWorks_setSeq ..)
    · exact hlayers _

/-- R182, R184: the Granary's work at the issue of a command. -/
theorem granaryWorks_kvAtIssue (c : Cmd) : GranaryWorks s (s.kvAtIssue c).1 := by
  unfold kvAtIssue
  dsimp only
  split
  · exact granaryWorks_reserveAppend ..
  · split
    · exact .refl s
    · split
      · exact granaryWorks_createKv ..
      · exact granaryWorks_shareKv ..
      · split
        · exact .refl s
        · exact granaryWorks_setSeq ..
      · exact granaryWorks_truncateKv ..
      · split
        · exact .refl s
        · exact granaryWorks_setSeq ..
      · exact .refl s

end
end State
end Sys2Proof.Machine
end

section
namespace Sys2Proof.Machine
open Safety

/-! ### What a fetched command has when its work begins (R259, R270) -/

/-- More fields of a fetched command that neither its Granary work at issue nor its samples change. -/
structure KeepsTask (c c' : Cmd) : Prop where
  pasid : c'.pasid = c.pasid
  region : c'.region = c.region
  refused : c'.refused = c.refused
  begun : c'.begun = c.begun

namespace State
variable (s : State)

theorem kvAtIssue_keepsTask {s s1 : State} {c c1 : Cmd} (h : s.kvAtIssue c = (s1, .ok c1)) : KeepsTask c c1 := by
  unfold kvAtIssue reserveAppend createKv shareKv truncateKv at h
  dsimp only at h
  repeat' split at h
  all_goals cases h
  all_goals exact ⟨rfl, rfl, rfl, rfl⟩

theorem sampleReads_keepsTask (c : Cmd) : KeepsTask c (s.sampleReads c).2 := by
  unfold sampleReads
  dsimp only
  repeat' split
  all_goals exact ⟨rfl, rfl, rfl, rfl⟩

theorem sampleIssue_keepsTask (k : Queue) (c : Cmd) : KeepsTask c (s.sampleIssue k c).2 := by
  unfold sampleIssue
  extract_lets arith env c1
  have hread := s.sampleReads_keepsTask (s.withLimits c1)
  generalize s.sampleReads (s.withLimits c1) = a at hread ⊢
  exact ⟨hread.pasid, hread.region, hread.refused, hread.begun⟩

/-! ### The queue is served, and the command sampled (R262, R270) -/

/-- R262: the head of a queue that is served moves on. -/
def servedQueue (k : Queue) : Queue := { k with head := (k.head + 1) % 2 ^ 32, issueWait := none, issueFailure := none }

theorem served_besideIssue (q : Nat) (k : Queue) : (s.served q k).besideIssue = s.besideIssue := by
  unfold served
  dsimp only
  split <;> split
  all_goals
    unfold onQueue
    split <;> rfl

theorem served_issuedCount (q : Nat) (k : Queue) : (s.served q k).issuedCount = s.issuedCount := by
  unfold served
  extract_lets die s1 s2
  have hs1 : s1.issuedCount = s.issuedCount := by
    simp only [s1]
    split <;> rfl
  have hs2 : s2.issuedCount = s.issuedCount := by
    simp only [s2]
    split
    · exact (issuedCount_bump _ (by decide) _).trans hs1
    · exact hs1
  rw [issuedCount, reg, onQueue_dict]
  exact hs2

theorem served_queue {s : State} {q : Nat} {k' : Queue} (h : s.queue? q = some k') (k : Queue) :
    (s.served q k).queue? q = some (servedQueue k') := by
  unfold served
  extract_lets die s1 s2
  have hs1 : s1.queues = s.queues := by
    simp only [s1]
    split <;> rfl
  have hs2 : s2.queues = s.queues := by
    simp only [s2]
    split
    · exact hs1
    · exact hs1
  rw [onQueue_of_queue (s := { s2 with waiting := Table.drop q s2.waiting }) ((queue?_of_queues hs2 q).trans h)]
  exact (queueBecomes_setQueue ..).self

theorem sampleReads_works (c : Cmd) : (s.sampleReads c).1.besideIssue = s.besideIssue ∧
    (s.sampleReads c).1.issuedCount = s.issuedCount ∧ (s.sampleReads c).1.queues = s.queues := by
  have hread (s : State) (id die : Nat) : (s.beginRead id die).besideIssue = s.besideIssue ∧
      (s.beginRead id die).issuedCount = s.issuedCount ∧ (s.beginRead id die).queues = s.queues := by
    unfold beginRead
    split <;> exact ⟨rfl, rfl, rfl⟩
  unfold sampleReads
  dsimp only
  generalize readSeqs c.recs c.prods = ids
  split
  · exact ⟨rfl, rfl, rfl⟩
  · exact ⟨foldl_keeps besideIssue (fun s _ => (hread s _ _).1) _ s, foldl_keeps issuedCount (fun s _ => (hread s _ _).2.1) _ s,
      foldl_keeps queues (fun s _ => (hread s _ _).2.2) _ s⟩

/-- R270: a command whose samples are taken is counted once as issued. -/
theorem sampleIssue_counts (k : Queue) (c : Cmd) : (s.sampleIssue k c).1.besideIssue = s.besideIssue ∧
    (s.sampleIssue k c).1.issuedCount = s.issuedCount + 1 ∧ (s.sampleIssue k c).1.queues = s.queues := by
  unfold sampleIssue
  extract_lets arith env c1
  split
  rename_i s1 c2 hreads
  extract_lets c3 s2 s3 s4 _ _ s5
  obtain ⟨hrest1, hcount1, hqueues1⟩ : s1.besideIssue = s.besideIssue ∧ s1.issuedCount = s.issuedCount ∧ s1.queues = s.queues := by
    have hworks := s.sampleReads_works (s.withLimits c1)
    rwa [hreads] at hworks
  obtain ⟨hrest2, hcount2, hqueues2⟩ : s2.besideIssue = s.besideIssue ∧ s2.issuedCount = s.issuedCount ∧ s2.queues = s.queues := by
    simp only [s2]
    split
    · exact ⟨hrest1, (issuedCount_bump _ (by decide) _).trans hcount1, hqueues1⟩
    · exact ⟨hrest1, hcount1, hqueues1⟩
  clear_value c3 s2
  obtain ⟨hrest4, hcount4, hqueues4⟩ : s4.besideIssue = s2.besideIssue ∧ s4.issuedCount = s2.issuedCount + 1 ∧ s4.queues = s2.queues :=
    ⟨rfl, reg_bump_self .., rfl⟩
  clear_value s4
  obtain ⟨hrest5, hcount5, hqueues5⟩ : s5.besideIssue = s4.besideIssue ∧ s5.issuedCount = s4.issuedCount ∧ s5.queues = s4.queues := by
    simp only [s5]
    split
    · exact ⟨rfl, rfl, rfl⟩
    · exact ⟨rfl, rfl, rfl⟩
  clear_value s5
  rw [← hrest2, ← hcount2, ← hqueues2, ← hrest4, ← hcount4, ← hqueues4, ← hrest5, ← hcount5, ← hqueues5]
  split
  · exact ⟨rfl, rfl, rfl⟩
  · have htraced := traces_traceBegin s5 c3
    refine ⟨besideIssue_of_besideAccess htraced.besideAccess, htraced.reg (by decide) 0, ?_⟩
    obtain ⟨_, _, heq, -⟩ := htraced
    exact (congrArg queues heq :)

end State
end Sys2Proof.Machine
end

section
namespace Sys2Proof.Machine
open Safety

/-! ### Whose turn it is (R262) -/

/-- Of a table the first entry that passes a test has the lowest key. -/
theorem Table.find?_fst_le {α : Type} {p : Nat × α → Bool} {t : Table α} (hrising : Table.rising t = true) {e x : Nat × α}
    (hfound : List.find? p t = some e) (hx : x ∈ t) (hpx : p x = true) : e.1 ≤ x.1 := by
  induction t with
  | nil => cases hx
  | cons y t ih =>
    obtain ⟨hrest, hlater⟩ := Table.rising_cons hrising
    rw [List.find?_cons] at hfound
    rcases List.mem_cons.1 hx with rfl | hx
    · rw [hpx] at hfound
      rw [Option.some.inj hfound]
    · split at hfound
      · rw [← Option.some.inj hfound]
        exact (hlater x hx).le
      · exact ih hrest hfound hx

theorem le_foldl_max {l : List Nat} {a : Nat} : ∀ {b : Nat}, a ≤ b ∨ a ∈ l → a ≤ l.foldl max b := by
  induction l with
  | nil => exact fun h => h.resolve_right List.not_mem_nil
  | cons x l ih =>
    intro b h
    refine ih ?_
    rcases h with h | h
    · exact .inl (h.trans (le_max_left ..))
    · rcases List.mem_cons.1 h with rfl | h
      · exact .inl (le_max_right ..)
      · exact .inr h

namespace State
variable {s : State} {q a die : Nat} {k x : Queue}

theorem agedChoice_some (hrising : Table.rising s.queues = true) (hx : s.queue? a = some x) (hdie : x.region / 8 = die)
    (hservable : s.servable (a, x) = true) (haged : s.aged a = true) :
    ∃ b, s.agedChoice die = some b ∧ s.aged b = true ∧ b ≤ a := by
  have hmem : (a, x) ∈ s.queues := Table.mem_of_find? hx
  have hpasses : (x.region / 8 == die && s.aged a && s.servable (a, x)) = true := by simp [hdie, hservable, haged]
  obtain ⟨e, hfound⟩ := Option.isSome_iff_exists.1
    (List.find?_isSome (p := fun e => e.2.region / 8 == die && s.aged e.1 && s.servable e).2 ⟨(a, x), hmem, hpasses⟩)
  refine ⟨e.1, congrArg (Option.map Prod.fst) hfound, ?_, Table.find?_fst_le hrising hfound hmem hpasses⟩
  have he := List.find?_some hfound
  simp only [Bool.and_eq_true] at he
  exact he.1.2

theorem agedChoice_none (hnone : ∀ n, s.aged n = false) (die : Nat) : s.agedChoice die = none := by
  unfold agedChoice
  rw [List.find?_eq_none.2]
  · rfl
  · simp [hnone]

/-- R262: the choice by class and cursor is of the highest class that is ready. -/
theorem choice_class (hrising : Table.rising s.queues = true) (hqueue : s.queue? q = some k) (hchoice : s.choice die = some q)
    (hx : s.queue? a = some x) (hdie : x.region / 8 = die) (hservable : s.servable (a, x) = true) :
    classOfQueue x ≤ classOfQueue k := by
  unfold choice at hchoice
  extract_lets r top cur mine at hchoice
  have hready : (a, x) ∈ r := List.mem_filter.2 ⟨Table.mem_of_find? hx, by simp [hdie, hservable]⟩
  have htop : classOfQueue x ≤ top := le_foldl_max (.inr (List.mem_map.2 ⟨_, hready, rfl⟩))
  have hmine : q ∈ mine := by
    split at hchoice
    · cases hchoice
      exact List.mem_of_find?_eq_some ‹_›
    · exact List.mem_of_head? hchoice
  obtain ⟨e, he, rfl⟩ := List.mem_map.1 hmine
  obtain ⟨her, hclass⟩ := List.mem_filter.1 he
  have hfound : s.queue? e.1 = some e.2 := Table.find?_of_mem hrising (List.mem_filter.1 her).1
  obtain rfl := Option.some.inj (hqueue.symm.trans hfound)
  rwa [beq_iff_eq.1 hclass]

theorem turn_of_aged (hturn : s.turn q k = true) {b : Nat} (haged : s.agedChoice (k.region / 8) = some b) : b = q := by
  unfold turn at hturn
  rw [haged] at hturn
  exact beq_iff_eq.1 hturn

theorem turn_of_choice (hturn : s.turn q k = true) (haged : s.agedChoice (k.region / 8) = none) :
    s.choice (k.region / 8) = some q := by
  unfold turn at hturn
  rw [haged] at hturn
  exact beq_iff_eq.1 hturn

/-! ### The rows of commands (R259) -/

theorem issueNext_unbound (h : s.queue? q = none) (takes : Recs → Bool) : s.issueNext takes q = s := by
  rw [issueNext, h]

theorem issueNext_of_not_turn (h : s.queue? q = some k) (hwaits : s.ready q k = false ∨ s.turn q k = false)
    (takes : Recs → Bool) : s.issueNext takes q = s := by
  rw [issueNext, h]
  exact if_pos (by rcases hwaits with hwaits | hwaits <;> simp [hwaits])

theorem issueNext_of_other_row {takes : Recs → Bool} (h : s.queue? q = some k)
    (hfetched : s.reach (16 + k.region / 8) k.pasid (descAt k) 64 0 = .ok) (hother : takes { desc := nextDesc s k } = false) :
    s.issueNext takes q = s := by
  unfold nextDesc descAt at hother
  unfold descAt at hfetched
  rw [issueNext, h]
  dsimp only
  split
  · rfl
  · rw [hfetched]
    dsimp only
    exact if_pos (by simp [hother])

end State

end Sys2Proof.Machine

namespace Sys2Proof.Safety
open Machine

section
variable {s v : State} {q : Nat} {k : Queue} {c : Cmd} {takes : Recs → Bool}

/-- R262, R270: a row that takes the next descriptor has its command checked. -/
theorem Checked.issueNext_eq (h : Checked s q k) (htakes : takes { desc := nextDesc s k } = true) :
    s.issueNext takes q = (afterReads s k).consider k (nextCmd s q k) true := by
  obtain ⟨hbound, hready, hturn, hfetched, hsound, hnoFailure, hreached, hwhole, hfree⟩ := h
  unfold checkReads nextDesc descAt at hreached hwhole
  unfold nextDesc descAt at htakes
  unfold descAt at hfetched hsound
  unfold State.issueNext
  rw [hbound]
  dsimp only
  rw [if_neg (by simp [hready, hturn]), hfetched]
  dsimp only
  rw [if_neg (by simp [htakes]), hsound, hnoFailure]
  dsimp only
  rw [hreached, hwhole]
  exact if_neg (ne_true_of_eq_false hfree)

theorem exec_row {row : Instr} (h : (row, takes) ∈ rowOf q) (s : State) : exec row s = .next (s.issueNext takes q) := by
  unfold rowOf at h
  fin_cases h
  all_goals rfl

end
end Sys2Proof.Safety
end

section
namespace Sys2Proof.Machine
open Safety
namespace State
variable {s s1 : State} {k : Queue} {c : Cmd} {code : Nat} {e : KvRefusal}

/-! ### A refusal (R270) -/

/-- R270: the code of the Granary gives way to no lower one. -/
theorem kvShort_lt (h : s.kvShort c code = some (s1, e)) : e.code < code := by
  unfold kvShort at h
  split at h
  · subst code
    split at h
    · cases h
      decide
    · split at h
      · cases h
        decide
      · cases h
  · split at h
    · split at h
      · cases h
        assumption
      · cases h
    · cases h

theorem consider_of_code (hcode : lowest (s.allCodes k c) = some code) (hshort : s.kvShort c code = none) :
    s.consider k c true = (s.served c.q k).refuse c code := by
  unfold consider
  rw [hcode]
  dsimp only
  rw [hshort]
  rfl

theorem consider_of_kvShort (hcode : lowest (s.allCodes k c) = some code) (hshort : s.kvShort c code = some (s1, e)) :
    s.consider k c true = (s1.served c.q k).refuse { c with detail := e.detail } e.code := by
  unfold consider
  rw [hcode]
  dsimp only
  rw [hshort]
  rfl

end State

end Sys2Proof.Machine

namespace Sys2Proof.Safety
open Machine State

section
variable {s v : State} {q : Nat} {k : Queue} {c : Cmd}

/-- The reads of the check change no queue and count no issue. -/
theorem afterReads_works (s : State) (k : Queue) : GranaryWorks s (afterReads s k) := by
  have hcount : (afterReads s k).issuedCount = s.issuedCount := by
    unfold afterReads
    exact foldl_keeps issuedCount (fun s (a : Access) => s.noteVA_issuedCount (16 + k.region / 8) k.pasid a.va a.len 0 0) _ s
  have hrest : (afterReads s k).besideAccess = s.besideAccess := by
    unfold afterReads
    exact besideAccess_foldl (fun s (a : Access) => s.noteVA_besideAccess (16 + k.region / 8) k.pasid a.va a.len 0 0 false) _ s
  have hqueues : (afterReads s k).queues = s.queues := by
    obtain ⟨_, _, _, _, heq⟩ := eq_of_besideAccess hrest
    rw [heq]
  exact ⟨besideIssue_of_besideAccess hrest, hcount, fun n x hx => ⟨x.stagingLeft, (queue?_of_queues hqueues n).trans hx⟩⟩

/-- What the issue of a command has done to its queue and to the rest of the state. -/
structure IssueOf (s v : State) (q : Nat) (k : Queue) : Prop where
  rest : v.besideIssue = s.besideIssue
  count : v.issuedCount = s.issuedCount + 1
  queue : ∃ left, v.queue? q = some (servedQueue { k with stagingLeft := left })

/-- R259, R270: the head of the queue moves past the command, which is counted. -/
theorem Issues.issueOf (h : Issues s q v c) (hqueue : s.queue? q = some k) : IssueOf s v q k := by
  obtain ⟨k', s1, c0, k1, hacc, -, hsample, -, -⟩ := h
  obtain rfl := Option.some.inj (hacc.bound.symm.trans hqueue)
  have hworks : GranaryWorks s s1 := by
    have hkv := (afterReads s k').granaryWorks_kvAtIssue (nextCmd s q k')
    rw [hacc.granary] at hkv
    exact (afterReads_works s k').trans hkv
  obtain ⟨left, hleft⟩ := hworks.queue q k' hqueue
  obtain ⟨hrest, hcount, hqueues⟩ := (taken s1 q k' c0).sampleIssue_counts k1 c0
  rw [hsample] at hrest hcount hqueues
  have htakenRest : (taken s1 q k' c0).besideIssue = s1.besideIssue := served_besideIssue ..
  have htakenCount : (taken s1 q k' c0).issuedCount = s1.issuedCount := served_issuedCount ..
  exact {
    rest := hrest.trans (htakenRest.trans hworks.rest)
    count := by rw [hcount, htakenCount, hworks.count]
    queue := ⟨left, (queue?_of_queues hqueues q).trans (served_queue hleft k')⟩ }

/-- R259, R270: the command is the one of its ring's descriptor, and has not begun. -/
theorem Issues.fetched (h : Issues s q v c) (hqueue : s.queue? q = some k) :
    KeepsFetched (nextCmd s q k) c ∧ KeepsTask (nextCmd s q k) c := by
  obtain ⟨k', s1, c0, k1, hacc, -, hsample, -, -⟩ := h
  obtain rfl := Option.some.inj (hacc.bound.symm.trans hqueue)
  have hkept := (taken s1 q k' c0).sampleIssue_keepsFetched k1 c0
  have htask := (taken s1 q k' c0).sampleIssue_keepsTask k1 c0
  rw [hsample] at hkept htask
  have hgranary := kvAtIssue_keepsTask hacc.granary
  exact ⟨(kvAtIssue_keepsFetched hacc.granary).trans hkept, {
    pasid := htask.pasid.trans hgranary.pasid
    region := htask.region.trans hgranary.region
    refused := htask.refused.trans hgranary.refused
    begun := htask.begun.trans hgranary.begun }⟩

end
end Sys2Proof.Safety

namespace Sys2Proof.Machine
open Safety State

/-- Settles O52: the row of the next descriptor, and no other, takes the command of a queue whose turn has come, and lets it
begin its work or refuses it. -/
theorem queueCommandsIssue : Obligations.QueueCommandsIssue := by
  intro s q row takes hrow
  rw [exec_row hrow]
  refine ⟨fun hunbound => ?unbound, fun k hqueue hwaits => ?waits, fun k a x hrising hqueue hturn hx hdie hservable => ⟨?aged, ?choice⟩,
    fun k hqueue hfetched hother => ?other, fun k code hchecked htakes hcode => ⟨fun hshort => ?refused, fun s1 e hshort => ?short⟩,
    fun v c hissues htakes => ?begins, fun k v c hissues hqueue => ?issued⟩
  case unbound => rw [issueNext_unbound hunbound]
  case waits => rw [issueNext_of_not_turn hqueue hwaits]
  case aged =>
    intro haged
    obtain ⟨b, hchosen, hb, hle⟩ := agedChoice_some hrising hx hdie hservable haged
    obtain rfl := turn_of_aged hturn hchosen
    exact ⟨hb, hle⟩
  case choice =>
    intro hnone
    exact choice_class hrising hqueue (turn_of_choice hturn (agedChoice_none hnone _)) hx hdie hservable
  case other => rw [issueNext_of_other_row hqueue hfetched hother]
  case refused =>
    rw [hchecked.issueNext_eq htakes, consider_of_code hcode hshort]
    rfl
  case short =>
    refine ⟨kvShort_lt hshort, ?_⟩
    rw [hchecked.issueNext_eq htakes, consider_of_kvShort hcode hshort]
    rfl
  case begins => exact ⟨_, congrArg Host.Outcome.next (hissues.issueNext_eq htakes), rfl⟩
  case issued =>
    obtain ⟨hq, hstatus, htiles, hstands⟩ := hissues.begins
    obtain ⟨hsemGot, htransfer⟩ := hissues.idle
    obtain ⟨hfetched, htask⟩ := hissues.fetched hqueue
    obtain ⟨hrest, hcount, left, hserved⟩ := hissues.issueOf hqueue
    rw [hq] at hstands
    have hdesc : c.recs.desc = nextDesc s k := (congrArg Recs.desc hfetched.recs).trans (fetchedCmd_desc ..)
    exact ⟨_, hstands, hq, hfetched.i, htask.pasid, htask.region, hstatus, htask.refused, htask.begun, htiles, hsemGot, htransfer,
      hdesc, hserved, rfl, rfl, rfl, hcount, eq_of_besideIssue hrest⟩

end Sys2Proof.Machine
end

section
namespace Sys2Proof.Machine
open Safety
namespace State

/-! ### Reel copies (R282, R283) -/

section
variable {s : State} {die bus dt : Nat} {r : Reel}

theorem reel_eq_time (s : State) (die : Nat) : s.reel die = (s.reelOf die).time := by
  unfold reel reelOf
  split <;> rfl

@[simp] theorem reelOf_setReel_self (s : State) (die : Nat) (r : Reel) : (s.setReel die r).reelOf die = r := by
  unfold reelOf setReel
  split <;> rfl

@[simp] theorem reel_setReel_self (s : State) (die : Nat) (r : Reel) : (s.setReel die r).reel die = r.time := by
  rw [reel_eq_time, reelOf_setReel_self]

theorem reelOf_setReel_other (hdie : die ≤ 1) (s : State) (r : Reel) :
    (s.setReel die r).reelOf (1 - die) = s.reelOf (1 - die) := by
  obtain rfl | rfl : die = 0 ∨ die = 1 := by omega
  · rfl
  · rfl

/-- R283: a copy more than 64 ns behind steps to the bus. -/
def stepped (r : Reel) (bus : Nat) : Reel :=
  { r with time := bus, state := 1, delta := 0, slew := 0, half := false, stepFrom := r.time, stepTo := bus }

/-- R283: a copy more than 64 ns ahead runs at half rate. -/
def halved (r : Reel) (bus : Nat) : Reel :=
  { r with state := 1, delta := (bus : Int) - r.time, slew := if r.half then r.slew else 0, half := true }

/-- R283: a closer copy is slewed; at half rate it stays until the offset is gone. -/
def slewed (r : Reel) (bus : Nat) : Reel :=
  { r with
    state := 1, delta := (bus : Int) - r.time, half := r.half && (bus : Int) - r.time < 0,
    slew := if (r.half && (bus : Int) - r.time < 0) == r.half then r.slew else 0 }

/-- R283: a copy without a bus runs on. -/
def heldOver (r : Reel) : Reel := { r with state := 2, delta := 0, slew := 0, half := false }

theorem timeBus_of_behind (h : (s.elapse dt).reel die + 64 < bus) : s.timeBus die bus dt =
    ((s.elapse dt).setReel die (stepped ((s.elapse dt).reelOf die) bus)).bump 0x2A00 0x04 1 := by
  rw [reel_eq_time] at h
  exact if_pos (by omega)

theorem timeBus_of_ahead (h : bus + 64 < (s.elapse dt).reel die) : s.timeBus die bus dt =
    ((s.elapse dt).setReel die (halved ((s.elapse dt).reelOf die) bus)).bump 0x2A00 0x04
      (boolNat (!((s.elapse dt).reelOf die).half)) := by
  rw [reel_eq_time] at h
  exact (if_neg (by omega)).trans (if_pos (by omega))

theorem timeBus_of_near (hlow : bus ≤ (s.elapse dt).reel die + 64) (hhigh : (s.elapse dt).reel die ≤ bus + 64) :
    s.timeBus die bus dt = (s.elapse dt).setReel die (slewed ((s.elapse dt).reelOf die) bus) := by
  rw [reel_eq_time] at hlow hhigh
  exact (if_neg (by omega)).trans (if_neg (by omega))

theorem busLost_of_disciplined (h : ((s.elapse dt).reelOf die).state = 1) : s.busLost die dt =
    ((s.elapse dt).setReel die (heldOver ((s.elapse dt).reelOf die))).bump 0x2A00 0x05 1 := if_pos h

/-- R282: a copy without an offset gains 5 eighths of a tick in a clk. -/
theorem reelOf_elapse_one (h : (s.reelOf die).delta = 0) : ((s.elapse 1).reelOf die).time =
    (s.reelOf die).time + ((s.reelOf die).frac + 5) / 8 ∧ ((s.elapse 1).reelOf die).frac = ((s.reelOf die).frac + 5) % 8 := by
  have hrun : (s.elapse 1).reelOf die = (s.reelOf die).run 1 := by
    unfold reelOf
    split <;> rfl
  have hafter : (s.reelOf die).after 1 = { s.reelOf die with
      time := (s.reelOf die).time + ((s.reelOf die).frac + 5) / 8, frac := ((s.reelOf die).frac + 5) % 8, half := false } := if_pos h
  rw [hrun, Reel.run, if_neg Nat.one_ne_zero, hafter]
  exact ⟨rfl, rfl⟩

end

/-! ### The bus heard and lost -/

section
variable {s : State} {die bus dt : Nat}

theorem exec_timeBusUpdate (h : s.hearsBus = true) : exec (.timeBusUpdate die bus dt) s = .next (s.timeBus die bus dt) :=
  congrArg Host.Outcome.next (if_pos h)

theorem exec_timeBusLoss (h : s.hearsBus = true) : exec (.timeBusLoss die dt) s = .next (s.busLost die dt) :=
  congrArg Host.Outcome.next (if_pos h)

/-- What a correction that is counted leaves: the copy as given, the other as it ran, and one counter. -/
theorem corrected_counted (hdie : die ≤ 1) (s : State) (dt : Nat) (r : Reel) (n a : Nat) :
    (((s.elapse dt).setReel die r).bump 0x2A00 n a).reg 0x2A00 n 0 = s.reg 0x2A00 n 0 + a ∧
      (((s.elapse dt).setReel die r).bump 0x2A00 n a).reelOf (1 - die) = (s.elapse dt).reelOf (1 - die) ∧
      RegsBut s (((s.elapse dt).setReel die r).bump 0x2A00 n a) [key 0x2A00 n] ∧
      ((s.elapse dt).setReel die r).bump 0x2A00 n a = { s.elapse dt with
        bell := (((s.elapse dt).setReel die r).bump 0x2A00 n a).bell, dict := (((s.elapse dt).setReel die r).bump 0x2A00 n a).dict } :=
  ⟨reg_bump_self .., reelOf_setReel_other hdie .., regsBut_trans (regsBut_of_dict rfl _) (regsBut_bump ..), rfl⟩

end
end State

open State

/-- Settles O26: each of the three ranges of the offset, and the loss of the bus, by the equation of its case; a clk without
an offset by the run of the copy. -/
theorem timeBus : Obligations.TimeBus := by
  refine ⟨fun s die bus dt hhears hdie =>
      ⟨fun hbehind => ?behind, fun hahead => ?ahead, fun hlow hhigh => ?near, fun hstate => ?lost⟩,
    fun s die hpending hdelta => ?run⟩
  case behind =>
    obtain ⟨hreg, hother, hregs, hframe⟩ := corrected_counted hdie s dt (stepped ((s.elapse dt).reelOf die) bus) 0x04 1
    exact ⟨_, (exec_timeBusUpdate hhears).trans (congrArg Host.Outcome.next (timeBus_of_behind hbehind)),
      reel_setReel_self .., congrArg Reel.state (reelOf_setReel_self ..), hreg, hother, hregs, hframe⟩
  case ahead =>
    obtain ⟨hreg, hother, hregs, hframe⟩ := corrected_counted hdie s dt (halved ((s.elapse dt).reelOf die) bus) 0x04
      (boolNat (!((s.elapse dt).reelOf die).half))
    have hcounted : boolNat (!((s.elapse dt).reelOf die).half) = if ((s.elapse dt).reelOf die).half then 0 else 1 := by
      cases ((s.elapse dt).reelOf die).half <;> rfl
    have hself := reelOf_setReel_self (s.elapse dt) die (halved ((s.elapse dt).reelOf die) bus)
    rw [reel_eq_time (s.elapse dt)]
    exact ⟨_, (exec_timeBusUpdate hhears).trans (congrArg Host.Outcome.next (timeBus_of_ahead hahead)),
      reel_setReel_self .., congrArg Reel.state hself, congrArg Reel.half hself, congrArg Reel.delta hself,
      hcounted ▸ hreg, hother, hregs, hframe⟩
  case near =>
    have hself := reelOf_setReel_self (s.elapse dt) die (slewed ((s.elapse dt).reelOf die) bus)
    refine ⟨_, (exec_timeBusUpdate hhears).trans (congrArg Host.Outcome.next (timeBus_of_near hlow hhigh)), ?_⟩
    rw [reel_eq_time (s.elapse dt)]
    exact ⟨reel_setReel_self .., congrArg Reel.state hself, congrArg Reel.delta hself, reelOf_setReel_other hdie .., rfl⟩
  case lost =>
    obtain ⟨hreg, hother, hregs, hframe⟩ := corrected_counted hdie s dt (heldOver ((s.elapse dt).reelOf die)) 0x05 1
    have hself := reelOf_setReel_self (s.elapse dt) die (heldOver ((s.elapse dt).reelOf die))
    rw [reel_eq_time (s.elapse dt)]
    exact ⟨_, (exec_timeBusLoss hhears).trans (congrArg Host.Outcome.next (busLost_of_disciplined hstate)),
      congrArg Reel.state hself, reel_setReel_self .., congrArg Reel.half hself, hreg, hother, hregs, hframe⟩
  case run =>
    refine ⟨s.elapse 1, by rw [step, hpending], rfl, ?_⟩
    rw [reel_eq_time, reel_eq_time]
    exact reelOf_elapse_one hdelta

end Sys2Proof.Machine
end

section
namespace Sys2Proof.Machine
open Safety
namespace State

/-! ### The event that fires first (R296) -/

section
variable {s : State} {pick : DueEvent → Bool} {x : DueEvent}

theorem firstDue_spec (h : s.firstDue pick = some x) :
    x ∈ s.eventsDue ∧ pick x = true ∧ ∀ y ∈ s.eventsDue, y.before x = false := by
  have hfirst := List.find?_some h
  rw [Bool.and_eq_true, Bool.not_eq_true', List.any_eq_false] at hfirst
  obtain ⟨hpick, hnone⟩ := hfirst
  exact ⟨List.mem_of_find?_eq_some h, hpick, fun y hy => eq_false_of_ne_true (hnone y hy)⟩

/-- An event that is picked by its kind and entry is of that entry. -/
theorem entry_of_firstDue {rank e : Nat} (h : s.firstDue (fun y => y.rank == rank && y.entry == e) = some x) : x.entry = e := by
  obtain ⟨-, hpick, -⟩ := firstDue_spec h
  rw [Bool.and_eq_true, beq_iff_eq, beq_iff_eq] at hpick
  exact hpick.2

end

/-! ### An entry's event is spent (R290, R296) -/

/-- An entry has fired on the frame, or an event that it owed is owed no more. -/
theorem spend_eq (s : State) (x : DueEvent) : ∃ fired owed,
    s.spend x = { s with bell := { s.bell with fired := fired, owed := owed } } ∧
      (x.owed = false → Table.find? x.entry fired = some x.frame ∧ owed = s.bell.owed) ∧ (x.owed = true → fired = s.bell.fired) := by
  unfold spend
  split
  · rename_i howed
    exact ⟨_, _, rfl, fun h => absurd (howed.symm.trans h) (by decide), fun _ => rfl⟩
  · rename_i hentry
    exact ⟨_, _, rfl, fun _ => ⟨Table.find?_put_self .., rfl⟩, fun h => absurd h hentry⟩

/-! ### Epochs (R297, R298, R372) -/

section
variable {s : State} {n dt : Nat} {x : DueEvent} {e : ClosedEpoch} {rest : List ClosedEpoch}

theorem endEpoch_by_length (hentries : (s.elapse dt).epochEntries = false)
    (hfirst : (s.elapse dt).firstDue (fun y => y.rank == 0 && !y.owed) = some x) :
    s.endEpoch none dt = (s.elapse dt).closeEpoch x.time := by
  unfold endEpoch
  dsimp only
  rw [if_neg (ne_true_of_eq_false hentries), hfirst]

theorem endEpoch_by_entry (hentries : (s.elapse dt).epochEntries = true)
    (hfirst : (s.elapse dt).firstDue (fun y => y.rank == 0 && y.entry == n) = some x) :
    s.endEpoch (some n) dt = ((s.elapse dt).spend x).closeEpoch x.time := by
  unfold endEpoch
  dsimp only
  rw [hfirst]
  dsimp only
  rw [if_pos (by rw [hentries, Bool.or_true])]

/-- R372: a recorded fault was exposed while a unit that it touches worked in the epoch. -/
theorem touches_iff : s.touches n = true ↔ ∃ w ∈ s.bell.work, w.epoch = n ∧ ∃ f ∈ s.integ.faults, f.exposed ≤ w.time ∧
    ∃ u ∈ w.units, locHolds (bareLoc f.loc) u = true ∨ locHolds u (bareLoc f.loc) = true := by
  simp only [touches, List.any_eq_true, List.mem_filter, beq_iff_eq, Bool.and_eq_true, decide_eq_true_eq, Bool.or_eq_true, and_assoc]

/-- R298: the outcome of the oldest closed epoch stands, and its work is forgotten. -/
def decided (s : State) (e : ClosedEpoch) (rest : List ClosedEpoch) : State :=
  { s with bell := { putOutcome s.bell e.n !s.touches e.n with
      closed := rest, confirmed := if (!s.touches e.n) = true then some e.n else s.bell.confirmed,
      denied := if (!s.touches e.n) = true then s.bell.denied else some e.n, work := s.bell.work.filter fun w => e.n < w.epoch } }

theorem decideEpoch_of_due (hclosed : s.bell.closed = e :: rest)
    (hdue : e.closed + (if e.degraded then 20000000 else 16000000) ≤ (s.elapse dt).bellTime) :
    Traces ((s.elapse dt).decided e rest) (s.decideEpoch dt) := by
  unfold decideEpoch
  dsimp only
  rw [show (s.elapse dt).bell.closed = e :: rest from hclosed]
  dsimp only
  rw [if_neg (Nat.not_lt.2 hdue)]
  exact traces_dayEvent ..

end
end State

open State

/-- Settles O30: an epoch ends by its length or by an entry with the same close, and the oldest closed one is decided by
whether a fault touches it. -/
theorem epochs : Obligations.Epochs := by
  refine ⟨fun s dt x hentries hfirst => ?length, fun s n dt x hentries hfirst => ?entry, fun s dt e rest hclosed hdue => ?decision⟩
  case length =>
    exact ⟨_, congrArg Host.Outcome.next (endEpoch_by_length hentries hfirst), rfl, rfl, ⟨_, rfl, rfl, rfl, rfl⟩, rfl⟩
  case entry =>
    obtain rfl := entry_of_firstDue hfirst
    obtain ⟨fired, owed, hspend, hentry, -⟩ := spend_eq (s.elapse dt) x
    have hend := endEpoch_by_entry hentries hfirst
    rw [hspend] at hend
    exact ⟨_, congrArg Host.Outcome.next hend, rfl, rfl, fun h => (hentry h).1, ⟨_, rfl, rfl, rfl, rfl⟩, rfl⟩
  case decision =>
    refine ⟨_, rfl, ?_⟩
    obtain ⟨regs, obs, hdecided, -⟩ := decideEpoch_of_due hclosed hdue
    rw [hdecided]
    refine ⟨rfl, fun htouched => ?_, fun huntouched => ?_, rfl⟩
    · have htouches : (s.elapse dt).touches e.n = true := touches_iff.2 htouched
      exact ⟨if_neg (by simp [htouches]), if_neg (by simp [htouches])⟩
    · have htouches : (s.elapse dt).touches e.n = false := eq_false_of_ne_true fun h => huntouched (touches_iff.1 h)
      exact ⟨if_pos (by simp [htouches]), if_pos (by simp [htouches])⟩

end Sys2Proof.Machine
end

section
namespace Sys2Proof.Machine
open Safety
namespace State

/-! ### Cadence inputs (R285) -/

section
variable {s : State} {c : Nat}

theorem input_setInput_self (hc : c < s.bell.inputs.length) (x : Input) : (s.setInput c x).input c = x := by
  simp [input, setInput, List.getD_eq_getElem?_getD, hc]

theorem input_setInput_ne {n : Nat} (hn : n ≠ c) (x : Input) : (s.setInput c x).input n = s.input n := by
  simp [input, setInput, List.getD_eq_getElem?_getD, hn, Function.comp_def]

/-- A queue without its events for the frames of input `c` that `pick` names. -/
def forgotten (c : Nat) (pick : Nat → Bool) (k : Queue) : Queue :=
  { k with
    missed := k.missed.filter fun p => !(p.1 == c && pick p.2.1),
    timedJudged := k.timedJudged.filter fun d => !(d.input == c && pick d.frame) }

theorem queue?_forgetFrames (s : State) (c : Nat) (pick : Nat → Bool) (q : Nat) :
    (s.forgetFrames c pick).queue? q = (s.queue? q).map (forgotten c pick) := Table.find?_mapValues (forgotten c pick) q s.queues

theorem forgetFrames_forgets (s : State) (c : Nat) (pick : Nat → Bool) : ForgetsEvents s (s.forgetFrames c pick) := by
  intro q
  rw [queue?_forgetFrames, Option.map_map]
  rfl

end

/-! ### A frame begins (R285, R286) -/

/-- The input as its next frame begins at reel time `t`. -/
def begun (s : State) (c t : Nat) (received : Bool) : Input :=
  let x := s.input c
  let rate := s.rateTaken c
  let frame := x.next.getD (if x.state = 1 then 0 else (x.frame + 1) % 2 ^ 64)
  let rebase := received || rate.1 != x.n || rate.2 != x.den
  { x with
    state := if received then 2 else 3, frame := frame, t := t, seen := s.bellTime, next := none,
    lastRx := if rebase then t else x.lastRx, synth := if rebase then 0 else x.synth + 1, n := rate.1, den := rate.2,
    prev := if x.state = 1 then none else some x.frame, times := Table.put frame (t, rate) x.times }

/-- A number that was given for the frame makes what was said of that frame void. -/
theorem beginFrame_eq (s : State) (c t : Nat) (received : Bool) : s.beginFrame c t received =
    if (s.input c).next.isNone then s.setInput c (s.begun c t received)
    else (s.setInput c (s.begun c t received)).forgetFrames c (· == (s.begun c t received).frame) := by
  unfold beginFrame begun
  dsimp only
  cases (s.input c).next <;> rfl

/-- From `s` to `t` input `c` has become `x`; beside it only the events that queues have had are forgotten, and none where no
number was given. -/
structure FrameBegins (s t : State) (c : Nat) (x : Input) : Prop where
  self : t.input c = x
  others : ∀ n, n ≠ c → t.input n = s.input n
  forgets : ForgetsEvents s t
  quiet : (s.input c).next = none → t.queues = s.queues
  rest : t = { s with bell := t.bell, queues := t.queues }

theorem beginFrame_begins {s : State} {c : Nat} (hc : c < s.bell.inputs.length) (t : Nat) (received : Bool) :
    FrameBegins s (s.beginFrame c t received) c (s.begun c t received) := by
  have hself := input_setInput_self hc (s.begun c t received)
  have hothers (n : Nat) (hn : n ≠ c) := input_setInput_ne (s := s) hn (s.begun c t received)
  rw [beginFrame_eq]
  split
  · exact ⟨hself, hothers, fun _ => rfl, fun _ => rfl, rfl⟩
  · rename_i hgiven
    exact ⟨hself, hothers, forgetFrames_forgets (s.setInput c _) _ _, fun hnone => absurd (by rw [hnone]; rfl) hgiven, rfl⟩

/-- The frame where a counter follows. -/
theorem FrameBegins.bump {s t : State} {c : Nat} {x : Input} (h : FrameBegins s t c x) (i n a : Nat) :
    t.bump i n a = { s with bell := t.bell, queues := t.queues, dict := (t.bump i n a).dict } :=
  (t.bump_eq i n a).trans (congrArg (fun u : State => { u with dict := (t.bump i n a).dict }) h.rest)

section
variable {s : State} {c t : Nat} {received : Bool}

theorem begun_frame_first (h : (s.input c).state = 1) : (s.begun c t received).frame = (s.input c).next.getD 0 := by
  simp [begun, h]

theorem begun_frame_next (h : 2 ≤ (s.input c).state) :
    (s.begun c t received).frame = (s.input c).next.getD (((s.input c).frame + 1) % 2 ^ 64) := by
  simp [begun, show (s.input c).state ≠ 1 by omega]

end

/-! ### Pulses and their windows (R285, R286) -/

section
variable {s : State} {c dt : Nat}

theorem pulse_of_first (h : (s.input c).state = 1) : s.pulse c dt = (s.elapse dt).beginFrame c (s.elapse dt).bellTime true :=
  (if_neg (fun hzero : (s.input c).state = 0 => by omega)).trans (if_pos h)

/-- No window has ended that had no pulse. -/
theorem flywheels_of_open (h : 8 * (s.input c).n * (s.bellTime - expected (s.input c)) ≤ 10 ^ 9 * (s.input c).den) (fuel : Nat) :
    flywheels c (fuel + 1) s = s := if_neg (Nat.not_lt.2 h)

theorem pulse_of_running (hstate : 2 ≤ (s.input c).state)
    (hopen : 8 * (s.input c).n * ((s.elapse dt).bellTime - expected (s.input c)) ≤ 10 ^ 9 * (s.input c).den) :
    s.pulse c dt =
      if 10 ^ 9 * (s.input c).den < 8 * (s.input c).n * (expected (s.input c) - (s.elapse dt).bellTime) then
        (s.elapse dt).bump (0x2A10 + c) 0x08 1
      else (s.elapse dt).beginFrame c (s.elapse dt).bellTime true := by
  unfold pulse
  dsimp only
  rw [flywheels_of_open (s := s.elapse dt) hopen]
  exact (if_neg (fun hzero : (s.input c).state = 0 => by omega)).trans (if_neg (fun hone : (s.input c).state = 1 => by omega))

theorem windowEnd_of_over (hstate : 2 ≤ (s.input c).state) (hpast : expected (s.input c) ≤ (s.elapse dt).bellTime)
    (hover : 10 ^ 9 * (s.input c).den ≤ 8 * (s.input c).n * ((s.elapse dt).bellTime - expected (s.input c))) :
    s.windowEnd c dt = (s.elapse dt).flywheel c :=
  if_pos ⟨hstate, Bool.and_eq_true_iff.2 ⟨decide_eq_true hpast, decide_eq_true hover⟩⟩

theorem exec_cadencePulse (h : s.pins.state = .ready) : exec (.cadencePulse c dt) s = .next (s.pulse c dt) :=
  congrArg Host.Outcome.next (if_pos (beq_iff_eq.2 h))

end
end State

open State

/-- Settles O27: a pulse or the end of a window takes one branch by the state and the time, and every frame begins alike. -/
theorem cadencePulses : Obligations.CadencePulses := by
  intro s c dt hinputs hc
  have hlisted : c < (s.elapse dt).bell.inputs.length := hinputs.symm ▸ hc
  refine ⟨fun hready hstate => ?disabled, fun hready hstate => ?first, fun hready hstate hearly hlate => ?within,
    fun hready hstate hearly => ?early, fun hstate hpast hover => ?windowEnd⟩
  case disabled => exact (exec_cadencePulse hready).trans (congrArg Host.Outcome.next (if_pos hstate))
  case first =>
    obtain ⟨hself, hothers, hforgets, hquiet, hrest⟩ := beginFrame_begins hlisted (s.elapse dt).bellTime true
    exact ⟨_, (exec_cadencePulse hready).trans (congrArg Host.Outcome.next (pulse_of_first hstate)),
      congrArg Input.state hself, (congrArg Input.frame hself).trans (begun_frame_first hstate), congrArg Input.t hself,
      congrArg Input.next hself, hothers, hforgets, hquiet, hrest⟩
  case within =>
    obtain ⟨hself, hothers, hforgets, hquiet, hrest⟩ := beginFrame_begins hlisted (s.elapse dt).bellTime true
    exact ⟨_, (exec_cadencePulse hready).trans
        (congrArg Host.Outcome.next ((pulse_of_running hstate hlate).trans (if_neg (Nat.not_lt.2 hearly)))),
      congrArg Input.state hself, (congrArg Input.frame hself).trans (begun_frame_next hstate), congrArg Input.t hself,
      congrArg Input.lastRx hself, congrArg Input.synth hself, congrArg Input.next hself,
      congrArg (fun x : Input => (x.n, x.den)) hself, hothers, hforgets, hquiet, hrest⟩
  case early =>
    have hbefore : (s.elapse dt).bellTime - expected (s.input c) = 0 := by
      by_contra hafter
      rw [show expected (s.input c) - (s.elapse dt).bellTime = 0 by omega, Nat.mul_zero] at hearly
      exact Nat.not_lt_zero _ hearly
    have hopen : 8 * (s.input c).n * ((s.elapse dt).bellTime - expected (s.input c)) ≤ 10 ^ 9 * (s.input c).den := by
      rw [hbefore, Nat.mul_zero]
      exact Nat.zero_le _
    exact ⟨_, (exec_cadencePulse hready).trans (congrArg Host.Outcome.next ((pulse_of_running hstate hopen).trans (if_pos hearly))),
      reg_bump_self (s.elapse dt) .., regsBut_bump (s.elapse dt) .., rfl⟩
  case windowEnd =>
    have hrest := (beginFrame_begins hlisted (expected (s.input c)) false).bump (0x2A10 + c) 0x07 1
    obtain ⟨hself, hothers, hforgets, hquiet, hframe⟩ := beginFrame_begins hlisted (expected (s.input c)) false
    have hdict : ((s.elapse dt).beginFrame c (expected (s.input c)) false).dict = s.dict := (congrArg State.dict hframe :)
    refine ⟨_, congrArg Host.Outcome.next (windowEnd_of_over hstate hpast hover), congrArg Input.state hself,
      (congrArg Input.frame hself).trans (begun_frame_next hstate), congrArg Input.t hself, (reg_bump_self ..).trans ?_, hothers,
      regsBut_trans (regsBut_of_dict hdict _) (regsBut_bump ..), hforgets, hquiet, hrest⟩
    exact congrArg (fun d : Dictionary => (Table.find? (key (0x2A10 + c) 0x07) d.regs).getD 0 + 1) hdict

end Sys2Proof.Machine
end

section
namespace Sys2Proof.Machine
open Safety
namespace State

/-! ### Releases (R291, R292) -/

/-- A queue as a release of entry `e` on a frame leaves it. -/
def launched (e frame : Nat) (boost : Bool) (k : Queue) : Queue :=
  if k.cadenceBound && k.slot == e && !k.released then { k with released := true, releaseFrame := some (frame, e), boosted := boost } else k

/-- The release of entry `e`, by contents `w`, on a frame. -/
def releaseMade (s : State) (e w frame : Nat) : Release :=
  { entry := e, input := entryInput w, frame := frame,
    queues := (s.queues.filter fun q => (q.2.cadenceBound && q.2.slot == e) && !q.2.released).map Prod.fst }

section
variable {s : State} {e w frame : Nat} {boost : Bool}

theorem queue?_fireRelease (q : Nat) :
    (s.fireRelease e w frame boost).queue? q = (s.queue? q).map (launched e frame boost) := by
  have hqueues : (s.fireRelease e w frame boost).queues = s.queues.map fun x => (x.1, launched e frame boost x.2) := by
    refine List.map_congr_left fun x _ => ?_
    unfold launched
    split <;> rfl
  rw [queue?, hqueues]
  exact Table.find?_mapValues ..

/-- The release that a deadline check will judge lists every queue that it has released. -/
theorem mem_releaseMade {q : Nat} {k : Queue} (hmem : (q, k) ∈ s.queues) (hbound : k.cadenceBound = true) (hslot : k.slot = e)
    (hreleased : k.released = false) : q ∈ (s.releaseMade e w frame).queues :=
  List.mem_map_of_mem (f := Prod.fst) (List.mem_filter.2 ⟨hmem, by simp [hbound, hslot, hreleased]⟩)

theorem fireRelease_releases :
    (s.fireRelease e w frame boost).bell.releases = s.bell.releases ++ [s.releaseMade e w frame] := rfl

theorem exec_release {dt : Nat} {x : DueEvent}
    (hfirst : (s.elapse dt).firstDue (fun y => y.rank == (if boost then 3 else 4) && y.entry == e) = some x) :
    exec (if boost then .prefetchLaunch e dt else .scheduleRelease e dt) s =
      .next (((s.elapse dt).spend x).fireRelease e x.word x.frame boost) := by
  have hfires {kind : Nat} (h : (s.elapse dt).firstDue (fun y => y.rank == kindRank kind && y.entry == e) = some x) :
      s.releaseEntry e dt kind = ((s.elapse dt).spend x).fireRelease e x.word x.frame (kind == 2) := by
    unfold releaseEntry
    dsimp only
    rw [h]
  cases boost with
  | true => exact congrArg Host.Outcome.next (hfires (kind := 2) hfirst)
  | false => exact congrArg Host.Outcome.next (hfires (kind := 1) hfirst)

end

/-! ### Snapshots (R291, R399) -/

section
variable {s : State} {t : Nat}

theorem orderFreeze_of_live (hfrozen : s.obs.frozen = false) (hdue : s.obs.due = none) :
    s.orderFreeze t = { s with obs := { s.obs with due := some (t, s.pins.dies) } } :=
  if_neg (by simp [hfrozen, hdue])

/-- R400: a freeze that is ignored is counted; the first of its clk is kept. -/
theorem orderFreeze_of_busy (h : s.obs.frozen = true ∨ s.obs.due ≠ none) :
    s.orderFreeze t = { s with obs := { s.obs with missed := (s.orderFreeze t).obs.missed } }.bump 0x2E00 0x05 1 := by
  rw [orderFreeze, if_pos (by simpa [← Option.ne_none_iff_isSome] using h)]
  rfl

theorem exec_counterSnapshot {e dt : Nat} {x : DueEvent}
    (hfirst : (s.elapse dt).firstDue (fun y => y.rank == 2 && y.entry == e) = some x) :
    exec (.counterSnapshot e dt) s = .next (((s.elapse dt).spend x).orderFreeze
      (((s.elapse dt).pointReel (entryInput x.word) x.frame (entryPhase x.word)).getD x.time)) := by
  refine congrArg Host.Outcome.next ?_
  unfold snapshotEntry
  dsimp only
  rw [hfirst]

end
end State

open State

/-- Settles O28: what fires is first among what is due; a release and a snapshot act on the state with the entry's event
spent. -/
theorem scheduleEvents : Obligations.ScheduleEvents := by
  refine ⟨fun s pick x hfirst => firstDue_spec hfirst, fun s e dt boost x hfirst => ?release, fun s e dt x hfirst => ?snapshot⟩
  case release =>
    obtain rfl := entry_of_firstDue hfirst
    obtain ⟨fired, owed, hspend, hentry, howed⟩ := spend_eq (s.elapse dt) x
    have hexec := exec_release hfirst
    rw [hspend] at hexec
    exact ⟨_, hexec, queue?_fireRelease,
      ⟨_, fireRelease_releases, rfl, rfl, fun _ _ => mem_releaseMade⟩, hentry, howed, reg_bump_self .., regsBut_bump .., rfl⟩
  case snapshot =>
    obtain rfl := entry_of_firstDue hfirst
    obtain ⟨fired, owed, hspend, hentry, -⟩ := spend_eq (s.elapse dt) x
    have hexec := exec_counterSnapshot hfirst
    rw [hspend] at hexec
    refine ⟨fun hfrozen hdue => ?taken, fun hbusy => ?ignored⟩
    case taken =>
      exact ⟨_, _, hexec.trans (congrArg Host.Outcome.next (orderFreeze_of_live hfrozen hdue)), rfl, fun p hp => by rw [hp]; rfl,
        fun h => (hentry h).1, rfl⟩
    case ignored =>
      exact ⟨_, hexec.trans (congrArg Host.Outcome.next (orderFreeze_of_busy hbusy)), reg_bump_self .., regsBut_bump ..,
        fun h => (hentry h).1, rfl, rfl, rfl⟩

end Sys2Proof.Machine
end

section
namespace Sys2Proof.Machine
open Safety
namespace State

/-! ### A deadline-miss event (R295, R236) -/

/-- The queue has had its event for the deadline at a point. -/
def noteMiss (p : Nat × Nat × Nat) (k : Queue) : Queue := if p ∈ k.missed then k else { k with missed := k.missed ++ [p] }

/-- From `s` to `t` queue `q`, which stood as `k`, has its event for the deadline at `p`: it is counted where it is new, and
for the Carters where a transfer is late. -/
structure Misses (s t : State) (q : Nat) (k : Queue) (p : Nat × Nat × Nat) (carter : Bool) : Prop where
  count : t.reg 0x2A00 0x0A 0 = s.reg 0x2A00 0x0A 0 + if p ∈ k.missed then 0 else 1
  carters : t.reg 0x2700 0x0A 0 = s.reg 0x2700 0x0A 0 + if p ∈ k.missed then 0 else boolNat carter
  queue : QueueBecomes s t q (noteMiss p k)
  rest : t = { s with queues := t.queues, dict := t.dict, outbox := t.outbox, obs := t.obs }

/-- The frame where the command is put back. -/
theorem Misses.setCmd {s t : State} {q : Nat} {k : Queue} {p : Nat × Nat × Nat} {carter : Bool} (h : Misses s t q k p carter) (c : Cmd) :
    t.setCmd c = { s with cmds := (t.setCmd c).cmds, queues := t.queues, dict := t.dict, outbox := t.outbox, obs := t.obs } :=
  congrArg (fun u : State => { u with cmds := (t.setCmd c).cmds }) h.rest

/-- The counters of a miss, and the record of the last one. -/
def missCounted (s : State) (late : Nat) (carter : Bool) : State :=
  if carter then ((s.bump 0x2A00 0x0A 1).setReg 0x2A00 0x0B late).bump 0x2700 0x0A 1
  else (s.bump 0x2A00 0x0A 1).setReg 0x2A00 0x0B late

theorem missCounted_regs (s : State) (late : Nat) (carter : Bool) :
    (∃ dict, s.missCounted late carter = { s with dict := dict }) ∧
      (s.missCounted late carter).reg 0x2A00 0x0A 0 = s.reg 0x2A00 0x0A 0 + 1 ∧
      (s.missCounted late carter).reg 0x2700 0x0A 0 = s.reg 0x2700 0x0A 0 + boolNat carter := by
  have hrecord {i n : Nat} (h : key i n ≠ key 0x2A00 0x0B) : ((s.bump 0x2A00 0x0A 1).setReg 0x2A00 0x0B late).reg i n 0 =
      (s.bump 0x2A00 0x0A 1).reg i n 0 := congrArg (Option.getD · 0) (find?_setReg _ h late)
  have hmissed : ((s.bump 0x2A00 0x0A 1).setReg 0x2A00 0x0B late).reg 0x2A00 0x0A 0 = s.reg 0x2A00 0x0A 0 + 1 :=
    (hrecord (by decide)).trans (reg_bump_self ..)
  have hcarters : ((s.bump 0x2A00 0x0A 1).setReg 0x2A00 0x0B late).reg 0x2700 0x0A 0 = s.reg 0x2700 0x0A 0 :=
    (hrecord (by decide)).trans (reg_bump_ne _ (by decide) ..)
  cases carter with
  | false => exact ⟨⟨_, rfl⟩, hmissed, hcarters⟩
  | true => exact ⟨⟨_, rfl⟩, (reg_bump_ne _ (by decide) ..).trans hmissed, (reg_bump_self ..).trans (congrArg (· + 1) hcarters)⟩

theorem missDeadline_of_seen {s : State} {q : Nat} {k : Queue} {p : Nat × Nat × Nat} (hqueue : s.queue? q = some k)
    (hseen : p ∈ k.missed) (deadline die : Nat) (carter : Bool) : s.missDeadline q (some p) deadline die carter = s := by
  unfold missDeadline
  rw [hqueue]
  exact if_pos (by simpa using hseen)

theorem missDeadline_of_unseen {s : State} {q : Nat} {k : Queue} {p : Nat × Nat × Nat} (hqueue : s.queue? q = some k)
    (hunseen : p ∉ k.missed) (deadline die : Nat) (carter : Bool) : s.missDeadline q (some p) deadline die carter =
      (((((s.missCounted (q + 2 ^ 32 * min (2 ^ 32 - 1) (s.reel die - s.lateFrom die deadline) + 2 ^ 64 * (deadline % 2 ^ 64))
        carter).setQueue q { k with missed := k.missed ++ [p] }).bumpTask k.pasid 14 1).interrupt k.vector).dayEvent
          die 0 0 0 6 (q + 2 ^ 32 * (deadline % 2 ^ 32))) := by
  unfold missDeadline
  rw [hqueue]
  exact if_neg (by simpa using hunseen)

theorem missDeadline_misses {s : State} {q : Nat} {k : Queue} (hqueue : s.queue? q = some k) (p : Nat × Nat × Nat)
    (deadline die : Nat) (carter : Bool) : Misses s (s.missDeadline q (some p) deadline die carter) q k p carter := by
  by_cases hseen : p ∈ k.missed
  · rw [missDeadline_of_seen hqueue hseen]
    exact ⟨by rw [if_pos hseen]; rfl, by rw [if_pos hseen]; rfl, by rw [noteMiss, if_pos hseen]; exact .refl hqueue, rfl⟩
  · rw [missDeadline_of_unseen hqueue hseen]
    generalize q + 2 ^ 32 * min (2 ^ 32 - 1) (s.reel die - s.lateFrom die deadline) + 2 ^ 64 * (deadline % 2 ^ 64) = late
    obtain ⟨⟨counted, hcounted⟩, hmissed, hcarters⟩ := s.missCounted_regs late carter
    rw [hcounted] at hmissed hcarters ⊢
    obtain ⟨dict, obs, outbox, hevent, hregs⟩ := interrupt_dayEvent
      ((({ s with dict := counted } : State).setQueue q { k with missed := k.missed ++ [p] }).bumpTask k.pasid 14 1)
      k.vector die 0 0 0 6 (q + 2 ^ 32 * (deadline % 2 ^ 32))
    have hreg (i n : Nat) (h : key i n ≠ droppedKey) :
        (Table.find? (key i n) dict.regs).getD 0 = ({ s with dict := counted } : State).reg i n 0 :=
      congrArg (Option.getD · 0) (hregs _ h)
    rw [hevent]
    refine ⟨(hreg 0x2A00 0x0A (by decide)).trans ?_, (hreg 0x2700 0x0A (by decide)).trans ?_, ?_, rfl⟩
    · rwa [if_neg hseen]
    · rwa [if_neg hseen]
    · rw [noteMiss, if_neg hseen]
      exact (queueBecomes_setQueue s q _).of_queues rfl

/-- But for its events the queue stands. -/
theorem noteMiss_forgets (p : Nat × Nat × Nat) (k : Queue) :
    { noteMiss p k with missed := [], timedJudged := [] } = { k with missed := [], timedJudged := [] } := by
  unfold noteMiss
  split <;> rfl

/-! ### The events of the queues of a list (R295) -/

/-- A bound queue has not had its event for the deadline at a point. -/
def unseen (s : State) (p : Nat × Nat × Nat) (q : Nat) : Bool := (s.queue? q).any fun k => !k.missed.contains p

/-- From `s` to `t` each queue of a list has its event for the deadline at `p`. -/
structure AllMiss (s t : State) (qs : List Nat) (p : Nat × Nat × Nat) : Prop where
  count : t.reg 0x2A00 0x0A 0 = s.reg 0x2A00 0x0A 0 + (qs.filter (s.unseen p)).length
  queue : ∀ q, t.queue? q = if q ∈ qs then (s.queue? q).map (noteMiss p) else s.queue? q
  rest : t = { s with queues := t.queues, dict := t.dict, outbox := t.outbox, obs := t.obs }

section
variable {s t u : State} {p : Nat × Nat × Nat} {q : Nat} {qs : List Nat}

theorem length_unseen_singleton {k : Queue} (hqueue : s.queue? q = some k) :
    ([q].filter (s.unseen p)).length = if p ∈ k.missed then 0 else 1 := by
  by_cases hseen : p ∈ k.missed <;> simp [unseen, hqueue, hseen]

theorem AllMiss.nil (s : State) (p : Nat × Nat × Nat) : AllMiss s s [] p := ⟨rfl, fun _ => by simp, rfl⟩

/-- A queue that is not bound has no event. -/
theorem AllMiss.unbound (h : s.queue? q = none) : AllMiss s s [q] p where
  count := by simp [unseen, h]
  queue n := by
    by_cases hn : n = q
    · simp [hn, h]
    · simp [hn]
  rest := rfl

theorem Misses.allMiss {k : Queue} {carter : Bool} (hqueue : s.queue? q = some k) (h : Misses s t q k p carter) : AllMiss s t [q] p where
  count := by rw [h.count, length_unseen_singleton hqueue]
  queue n := by
    by_cases hn : n = q
    · rw [if_pos (List.mem_singleton.2 hn), hn, h.queue.self, hqueue, Option.map_some]
    · rw [if_neg (mt List.mem_singleton.1 hn), h.queue.others n hn]
  rest := h.rest

theorem AllMiss.cons (hq : AllMiss s t [q] p) (hqs : AllMiss t u qs p) (hnew : q ∉ qs) : AllMiss s u (q :: qs) p where
  count := by
    have hothers : qs.filter (t.unseen p) = qs.filter (s.unseen p) := List.filter_congr fun n hn => by
      have hne : n ≠ q := fun h => hnew (h ▸ hn)
      rw [unseen, hq.queue n, if_neg (mt List.mem_singleton.1 hne), unseen]
    rw [hqs.count, hq.count, hothers]
    cases hunseen : s.unseen p q <;> simp [hunseen]
    omega
  queue n := by
    rw [hqs.queue n, hq.queue n]
    by_cases hn : n = q
    · subst hn
      simp [hnew]
    · simp [hn]
  rest := by rw [hqs.rest, hq.rest]

theorem AllMiss.foldl {f : State → Nat → State} (hf : ∀ s q, AllMiss s (f s q) [q] p) (hnodup : qs.Nodup) (s : State) :
    AllMiss s (qs.foldl f s) qs p := by
  induction qs generalizing s with
  | nil => exact .nil s p
  | cons q qs ih =>
    obtain ⟨hnew, hnodup⟩ := List.nodup_cons.1 hnodup
    exact (hf s q).cons (ih hnodup (f s q)) hnew

/-- What it leaves of a state whose commands were marked before. -/
theorem AllMiss.cmds {cmds : List Cmd} (h : AllMiss { s with cmds := cmds } u qs p) : u.cmds = cmds ∧
    u = { s with cmds := u.cmds, queues := u.queues, dict := u.dict, outbox := u.outbox, obs := u.obs } := by
  have hcmds : u.cmds = cmds := (congrArg State.cmds h.rest :)
  subst hcmds
  exact ⟨rfl, h.rest⟩

/-- The queue forgets nothing but may have had an event. -/
theorem AllMiss.forgets (h : AllMiss s t qs p) : ForgetsEvents s t := by
  intro q
  rw [h.queue q]
  split
  · rw [Option.map_map]
    exact congrArg (Option.map · (s.queue? q)) (funext (noteMiss_forgets p))
  · rfl

end

theorem nodup_eraseDups (l : List Nat) : l.eraseDups.Nodup := by
  induction hn : l.length using Nat.strong_induction_on generalizing l with
  | _ n ih =>
    cases l with
    | nil => simp
    | cons a l =>
      rw [List.eraseDups_cons, List.nodup_cons, List.mem_eraseDups, List.mem_filter]
      refine ⟨by simp, ih _ ?_ _ rfl⟩
      rw [← hn, List.length_cons]
      exact Nat.lt_succ_of_le (List.length_filter_le ..)

/-! ### A deadline is judged (R294, R295) -/

/-- A command as the deadline that falls due at reel time `t` leaves it. -/
def lateMarked (s : State) (t : Nat) (carries : Cmd → Bool) (c : Cmd) : Cmd :=
  if carries c && c.missedAt.isNone then { c with missedAt := some (s.lateFrom c.die t) } else c

theorem missQueues_allMiss (s : State) (qs : List Nat) (d : Due) (carries : Cmd → Bool) :
    AllMiss { s with cmds := s.cmds.map (s.lateMarked ((s.dueReel d).getD s.bellTime) carries) } (s.missQueues qs d carries)
      qs.eraseDups d.point := by
  refine AllMiss.foldl (fun u q => ?_) (nodup_eraseDups qs) _
  cases hqueue : u.queue? q with
  | none => exact .unbound hqueue
  | some k => exact (missDeadline_misses hqueue ..).allMiss hqueue

section
variable {s : State} {n q dt : Nat} {x : DueEvent} {r : Release} {d : Due}

theorem checkDeadline_of_release (hfirst : (s.elapse dt).firstDue (fun y => y.rank == 1 && y.entry == n) = some x)
    (hfound : s.bell.releases.find? (fun y => y.frame == x.frame && (((s.elapse dt).releaseDue y).map Prod.fst) == some n) = some r)
    (hdue : (s.elapse dt).releaseDue r = some (n, d)) : s.checkDeadline (some n) q dt = (s.elapse dt).judgeRelease r d := by
  unfold checkDeadline
  dsimp only
  rw [hfirst]
  dsimp only
  rw [show (s.elapse dt).bell.releases = s.bell.releases from rfl, hfound]
  dsimp only
  rw [hdue]

theorem checkDeadline_of_timed (hfirst : (s.elapse dt).firstDue (fun y => y.rank == 1 && y.entry == 4096 + q) = some x)
    (hfound : ((s.elapse dt).timedDues q).find? (fun y => (s.elapse dt).dueAt y 1 (4096 + q) 0 == [x]) = some d) :
    s.checkDeadline none q dt = (s.elapse dt).judgeTimed q d := by
  unfold checkDeadline
  dsimp only
  rw [hfirst]
  dsimp only
  rw [hfound]

theorem cmd?_of_cmds {s t : State} (h : t.cmds = s.cmds) (q i : Nat) : t.cmd? q i = s.cmd? q i := by
  rw [cmd?, h, cmd?]

/-- A MOVE with a transfer whose deadline fell due at reel time `t`. -/
def withLateTransfer (c : Cmd) (tr : Transfer) (y : Slot) (t : Nat) : Cmd :=
  { c with late := true, transfer := some (putSlot tr { y with missed := some t }) }

/-- The deadline of a transfer that has not landed in time is missed by its command and by the transfer (R236). -/
theorem transferDue_of_late {i dl : Nat} {c : Cmd} {tr : Transfer} {y : Slot} (hcmd : s.cmd? q i = some c)
    (htransfer : c.transfer = some tr) (hslot : tr.slots.find? (fun z => z.d == n && z.missed.isNone) = some y)
    (hdeadline : (s.elapse dt).slotDeadline (Xfer.ofBytes y.bytes) = some dl) (hpast : dl ≤ (s.elapse dt).reel c.die)
    (hlate : ∀ a, y.landed = some a → dl < a) :
    s.transferDue q i n dt = ((s.elapse dt).missDeadline c.q (some (s.slotPoint (Xfer.ofBytes y.bytes))) dl c.die true).setCmd
      (withLateTransfer c tr y ((s.elapse dt).lateFrom c.die dl)) := by
  unfold transferDue
  dsimp only
  rw [show (s.elapse dt).cmd? q i = some c from hcmd]
  dsimp only
  rw [htransfer]
  dsimp only
  rw [hslot]
  dsimp only
  rw [hdeadline]
  refine if_neg ?_
  rw [Bool.or_eq_true, decide_eq_true_eq, not_or]
  refine ⟨Nat.not_lt.2 hpast, ?_⟩
  cases hlanded : y.landed with
  | none => exact Bool.false_ne_true
  | some a => simpa using hlate a hlanded

end
end State

open State

/-- Settles O29: a release and a TIMED are judged by one event for each of their queues, and a late transfer by one for its
queue. -/
theorem deadlines : Obligations.Deadlines := by
  refine ⟨fun s n q dt x r d hfirst hfound hdue => ?release, fun s q dt k x d hqueue hfirst hfound => ?timed,
    fun s q i n dt dl c tr x k hcmd hqueue htransfer hslot hdeadline hpast hlate => ?transfer⟩
  case release =>
    have hmiss := (s.elapse dt).missQueues_allMiss (((s.cmds.filter fun c => c.deadline == some d).map Cmd.q) ++ r.queues) d
      fun c => c.deadline == some d
    obtain ⟨hcmds, hrest⟩ := hmiss.cmds
    refine ⟨_, congrArg Host.Outcome.next (checkDeadline_of_release hfirst hfound hdue), ?_, hmiss.count, fun q k hq hqueue hnew => ?_,
      hmiss.forgets, ?_, ?_⟩
    · refine hcmds.trans (List.map_congr_left fun c _ => ?_)
      simp [lateMarked]
    · refine (hmiss.queue q).trans ?_
      rw [if_pos (List.mem_eraseDups.2 (List.mem_append_right _ hq))]
      refine (congrArg (Option.map (noteMiss d.point)) hqueue).trans ?_
      rw [Option.map_some, noteMiss, if_neg hnew]
    · exact (congrArg (fun u : State => u.bell.releases.erase r) hrest :)
    · exact congrArg (fun u : State => { u with bell := ((s.elapse dt).judgeRelease r d).bell }) hrest
  case timed =>
    have hmiss := (s.elapse dt).missQueues_allMiss [q] d fun c => c.q == q && c.deadline == some d
    obtain ⟨hcmds, hrest⟩ := hmiss.cmds
    have hjudged : ((s.elapse dt).missQueues [q] d fun c => c.q == q && c.deadline == some d).queue? q = some (noteMiss d.point k) := by
      refine (hmiss.queue q).trans ?_
      rw [if_pos (List.mem_eraseDups.2 (List.mem_singleton.2 rfl))]
      exact congrArg (Option.map (noteMiss d.point)) hqueue
    have hexec := checkDeadline_of_timed hfirst hfound
    rw [judgeTimed, onQueue_of_queue hjudged] at hexec
    refine ⟨_, congrArg Host.Outcome.next hexec, ?_, (Table.find?_put_self ..).trans ?_, hmiss.count.trans ?_, ?_⟩
    · refine hcmds.trans (List.map_congr_left fun c _ => ?_)
      simp [lateMarked, and_assoc]
    · unfold noteMiss
      split <;> rfl
    · exact congrArg (s.reg 0x2A00 0x0A 0 + ·) (length_unseen_singleton hqueue)
    · exact congrArg (·.setQueue q { noteMiss d.point k with timedJudged := (noteMiss d.point k).timedJudged ++ [d] }) hrest
  case transfer =>
    obtain ⟨rfl, rfl⟩ := key_of_cmd? hcmd
    have hmiss := missDeadline_misses (s := s.elapse dt) hqueue (s.slotPoint (Xfer.ofBytes x.bytes)) dl c.die true
    have hcmds : ((s.elapse dt).missDeadline c.q (some (s.slotPoint (Xfer.ofBytes x.bytes))) dl c.die true).cmds = s.cmds :=
      (congrArg State.cmds hmiss.rest :)
    exact ⟨_, congrArg Host.Outcome.next (transferDue_of_late hcmd htransfer hslot hdeadline hpast hlate),
      cmd?_setCmd_of_key ((cmd?_of_cmds hcmds ..).trans hcmd) rfl rfl,
      fun a b hab => (cmd?_setCmd_ne _ (c := withLateTransfer c tr x ((s.elapse dt).lateFrom c.die dl)) hab).trans
        (cmd?_of_cmds hcmds ..),
      hmiss.carters, hmiss.setCmd _⟩

end Sys2Proof.Machine
end

section
namespace Sys2Proof.Machine
open Safety

/-! ### An order that its value refuses (R338, R351) -/

/-- From `s` to `t` nothing has happened but that a request was answered with an abort. -/
structure AbortedFrom (s t : State) (r : Request) (a : Nat) : Prop where
  aborted : Out.response r.path 1 r.tag a [] ∈ t.outbox
  regs : RegsBut s t requestCounters
  rest : t = { s with dict := t.dict, outbox := t.outbox, bruora := linkAfter s t r }

theorem respond_aborts (s : State) {r : Request} (hop : r.badOp = none) (a : Nat) : AbortedFrom s (s.respond 1 r a []) r a := by
  cases hpath : r.path with
  | peer p =>
    have hmoved : LinksMoved (s.send (.response r.path 1 r.tag a [])) (s.respond 1 r a []) := by
      unfold State.respond
      rw [hop, hpath]
      exact .answerPeer ..
    refine ⟨hmoved.sent _ (List.mem_append_right _ (List.mem_singleton.2 rfl)), regsBut_widen hmoved.regs portBytes_subset, ?_⟩
    rw [linkAfter, hpath]
    exact hmoved.rest
  | _ =>
    have hother : ∀ p, r.path ≠ .peer p := by simp [hpath]
    have hsent := State.respond_mem s hother 1 a []
    rw [hop] at hsent
    refine ⟨hsent, ⟨fun k _ => ?_, State.respond_kept s hother .., State.respond_wearList s hother ..⟩, ?_⟩
    · rw [State.respond_regs s hother]
    · rw [linkAfter, hpath]
      exact State.respond_eq s hother ..

theorem countAbort_regsBut (s : State) (r : Request) (a : Nat) : RegsBut s (s.countAbort r a) requestCounters :=
  regsBut_trans (regsBut_widen (regsBut_bump ..) (by decide)) (regsBut_widen (regsBut_setReg ..) (by decide))

/-- R338: an order that is aborted by its value is counted and answered. -/
theorem serveWrite_aborts {s : State} {r : Request} {rivals : List Request} {e : DictEntry} {a : Nat} (h : Admitted s r)
    (he : dictEntry? r.index r.sub = some e) (hne : a ≠ 0)
    (ha : (counted s).applyEntry r e (rivals.filter (counted s).passes) = (counted s, a)) :
    AbortedFrom s (s.serveWrite r rivals) r a := by
  have hregs := regsBut_trans (counted_regsBut s) (countAbort_regsBut (counted s) r a)
  obtain ⟨dict, hcounted⟩ : ∃ dict, (counted s).countAbort r a = { s with dict := dict } := ⟨_, rfl⟩
  rw [State.serveWrite_abort h he hne ha, State.abortWith, hcounted]
  rw [hcounted] at hregs
  obtain ⟨haborted, hanswer, hrest⟩ := respond_aborts { s with dict := dict } (badOp_of_admitted h) a
  exact ⟨haborted, regsBut_trans hregs hanswer, hrest⟩

end Sys2Proof.Machine
end

section
namespace Sys2Proof.Machine
open Safety
namespace State

/-! ### The write of a kept entry (R340–R342) -/

/-- From `s` to `t` something was noted in the ledgers, the Daybook or the list of worn entries, or sent; no kept value changed. -/
def Notices (s t : State) : Prop := t.besideLedger = s.besideLedger ∧ t.dict.kept = s.dict.kept

theorem eq_of_besideLedger {s t : State} (h : t.besideLedger = s.besideLedger) :
    t = { s with dict := t.dict, obs := t.obs, integ := t.integ, outbox := t.outbox } :=
  (congrArg (fun u : State => { u with dict := t.dict, obs := t.obs, integ := t.integ, outbox := t.outbox }) h :)

section
variable {s t u : State}

theorem Notices.refl (s : State) : Notices s s := ⟨rfl, rfl⟩

theorem Notices.trans (hst : Notices s t) (htu : Notices t u) : Notices s u := ⟨htu.1.trans hst.1, htu.2.trans hst.2⟩

theorem Traces.notices (h : Traces s t) : Notices s t := by
  obtain ⟨_, _, rfl, -⟩ := h
  exact ⟨rfl, rfl⟩

theorem notices_interrupt (s : State) (v : Nat) : Notices s (s.interrupt v) := ⟨interrupt_besideLedger s v, interrupt_kept s v⟩

theorem ledgerWrite_kept (s : State) (die : Nat) (e : LedgerEntry) : (s.ledgerWrite die e).1.dict.kept = s.dict.kept := by
  unfold ledgerWrite
  extract_lets l entry fits first l1 vec place s1 s2 s3 s4
  split
  · have hs2 : s2.dict.kept = s.dict.kept := by
      unfold s2
      split
      · exact interrupt_kept s1 vec
      · rfl
    have hs3 : s3.dict.kept = s2.dict.kept := by
      unfold s3
      split <;> rfl
    exact (traces_dayEvent s3 ..).notices.2.trans (hs3.trans hs2)
  · dsimp only
    split
    · exact interrupt_kept s4 vec
    · rfl

theorem notices_keptNotice (s : State) (code k : Nat) : Notices s (s.keptNotice code k) :=
  List.foldlRecOn _ _ (Notices.refl s) fun _ ht _ _ => ht.trans ⟨ledgerWrite_besideLedger .., ledgerWrite_kept ..⟩

theorem notices_setWear (s : State) (k state : Nat) : Notices s (s.setWear k state) :=
  Notices.trans (t := { s with dict := { s.dict with wearList := _ } }) ⟨rfl, rfl⟩ (traces_dayEvent ..).notices

theorem notices_warnWear (s : State) (k : Nat) : Notices s (s.warnWear k) :=
  (Notices.trans (t := s.notify 3 k) ⟨rfl, rfl⟩ (notices_interrupt ..)).trans (notices_setWear ..)

/-- R340: an entry that is neither worn nor stuck takes the value. -/
theorem commitKept_commits {k v : Nat} (hworn : s.keptWorn k = false) (hstuck : s.stuckCopies k = 0) :
    (∃ e, Table.find? k (s.commitKept k v).dict.kept = some e ∧ e.value = v) ∧ (s.commitKept k v).besideLedger = s.besideLedger := by
  unfold commitKept
  rw [if_neg (ne_true_of_eq_false hworn), if_neg (by simp [hstuck])]
  extract_lets e _ s1
  have hnoted : Notices s1 (if e.writes = 180000 then s1.warnWear k
      else if e.writes = 200000 then (s1.setWear k 2).keptNotice 0x1011 k else s1) := by
    split
    · exact notices_warnWear ..
    · split
      · exact (notices_setWear ..).trans (notices_keptNotice ..)
      · exact .refl s1
  exact ⟨⟨e, (congrArg (Table.find? k) hnoted.2).trans (Table.find?_put_self ..), rfl⟩, hnoted.1⟩

end

/-! ### An entry of the schedule is written (R289, R290) -/

section
variable {s : State} {e w : Nat}

theorem armEntry_eq (s : State) (e from_ : Nat) : ∃ fired, s.armEntry e from_ = { s with bell := { s.bell with fired := fired } } := by
  unfold armEntry markFired
  extract_lets w x passed drop
  repeat' split
  all_goals exact ⟨_, rfl⟩

theorem setSchedule_eq (s : State) (e w : Nat) : ∃ bell cmds, s.setSchedule e w = { s with bell := bell, cmds := cmds } ∧
    bell.schedule = if w = 0 then Table.drop e s.bell.schedule else Table.put e w s.bell.schedule := by
  unfold setSchedule
  extract_lets s1 old _ s2 cmd passed
  obtain ⟨fired, harm⟩ := armEntry_eq { s2 with
    cmds := s2.cmds.map cmd, bell := { s2.bell with releases := s2.bell.releases.filter fun r => !passed r } } e (s2.bellTime + 1)
  exact ⟨_, _, harm, rfl⟩

/-- The entry reads as written, an entry of 0 as unlisted. -/
theorem schedule?_of_written_self {t : State}
    (h : t.bell.schedule = if w = 0 then Table.drop e s.bell.schedule else Table.put e w s.bell.schedule) : t.schedule? e = w := by
  rw [schedule?, h]
  split
  · rw [Table.find?_drop_self, ‹w = 0›, Option.getD_none]
  · rw [Table.find?_put_self, Option.getD_some]

theorem schedule?_of_written_ne {t : State} (hrising : Table.rising s.bell.schedule = true)
    (h : t.bell.schedule = if w = 0 then Table.drop e s.bell.schedule else Table.put e w s.bell.schedule) {n : Nat} (hn : n ≠ e) :
    t.schedule? n = s.schedule? n := by
  rw [schedule?, h, schedule?]
  split
  · rw [Table.drop, Table.find?_filter hrising _ _ fun _ => by simpa using hn]
  · rw [Table.find?_put_ne hn]

end

/-! ### The mode changes (R299) -/

/-- A queue bound to the Bellman stands unreleased. -/
def unreleased (q : Nat × Queue) : Nat × Queue :=
  if q.2.cadenceBound then (q.1, { q.2 with released := false, releaseFrame := none, boosted := false }) else q

theorem unreleased_released {q : Nat × Queue} (h : (unreleased q).2.cadenceBound = true) : (unreleased q).2.released = false := by
  unfold unreleased at h ⊢
  split
  · rfl
  · rename_i hunbound
    rw [if_neg hunbound] at h
    exact absurd h hunbound

/-- A TIMED waits for no release any more. -/
def timedFreed (c : Cmd) : Cmd := if c.wait = .release then { c with wait := .done } else c

theorem wait_timedFreed (c : Cmd) : (timedFreed c).wait ≠ .release := by
  unfold timedFreed
  split
  · exact Wait.noConfusion
  · assumption

theorem deadline_timedFreed (c : Cmd) : (timedFreed c).deadline = c.deadline := by
  unfold timedFreed
  split <;> rfl

/-- R299: no TIMED waits, no release is to be judged and no event is owed. -/
def intoFreeRun (s : State) : State :=
  { s with cmds := s.cmds.map timedFreed, bell := { s.bell with releases := [], owed := [] } }

section
variable {s : State}

/-- Into cadence mode: the entries take part from now. -/
theorem changeMode_on (s : State) : ∃ fired,
    s.changeMode true = { s with queues := s.queues.map unreleased, bell := { s.bell with fired := fired } } := by
  refine List.foldlRecOn (motive := fun t : State => ∃ fired, t =
    { s with queues := s.queues.map unreleased, bell := { s.bell with fired := fired } }) _ _ ⟨_, rfl⟩ fun t ht e _ => ?_
  obtain ⟨_, rfl⟩ := ht
  obtain ⟨fired, harm⟩ := armEntry_eq { s with queues := s.queues.map unreleased, bell := { s.bell with fired := _ } } e _
  exact ⟨fired, harm⟩

/-- Deadlines that `pick` names are abandoned (R285, R299): no command and no queue keeps one. -/
theorem abandon_eq (s : State) (pick counts : Due → Bool) : ∃ n bell, s.abandon pick counts =
    { s with
      cmds := s.cmds.map fun c => { c with deadline := c.deadline.bind fun d => if pick d then none else some d },
      queues := s.queues.map fun q : Nat × Queue =>
        (q.1, { q.2 with timedDeadline := q.2.timedDeadline.bind fun d => if pick d then none else some d }),
      bell := bell : State }.bump 0x2A00 0x0D n := ⟨_, _, rfl⟩

/-- Into free-run: no deadline is pending and no TIMED waits. -/
theorem changeMode_off (s : State) : ∃ queues cmds bell regs,
    s.changeMode false = { s with queues := queues, cmds := cmds, bell := bell, dict := { s.dict with regs := regs } } ∧
      bell.releases = [] ∧ (∀ c ∈ cmds, c.wait ≠ .release ∧ c.deadline = none) ∧
      ∀ e ∈ queues, e.2.cadenceBound = true → e.2.released = false := by
  obtain ⟨n, bell, habandon⟩ := abandon_eq { s with queues := s.queues.map unreleased } (fun _ => true) fun _ => true
  have hmode : s.changeMode false =
      intoFreeRun (({ s with queues := s.queues.map unreleased } : State).abandon (fun _ => true) fun _ => true) := rfl
  rw [hmode, habandon]
  refine ⟨_, _, _, _, rfl, rfl, fun c hc => ?_, fun e he => ?_⟩
  · obtain ⟨c1, hc1, rfl⟩ := List.mem_map.1 hc
    obtain ⟨c2, -, rfl⟩ := List.mem_map.1 hc1
    refine ⟨wait_timedFreed _, (deadline_timedFreed _).trans ?_⟩
    cases c2.deadline <;> simp
  · obtain ⟨e1, he1, rfl⟩ := List.mem_map.1 he
    obtain ⟨e2, -, rfl⟩ := List.mem_map.1 he1
    exact unreleased_released

/-- The mode is a kept value. -/
theorem cadence_of_kept {t : State} (h : t.dict.kept = s.dict.kept) : t.cadence = s.cadence := by
  rw [cadence, keptReg, h, cadence, keptReg]

end
end State

open State

/-! ### The schedule and the mode as orders (R290, R299) -/

theorem dictFamily_bellman : dictFamily 0x2A00 = (0x2A00, 0) := rfl

section
variable {s : State} {r : Request} {e : DictEntry} {mates : List Request} (hindex : r.index = 0x2A00)
include hindex

theorem applyEntry_scheduleEntry (hsub : r.sub = 0x0F) (hty : e.ty ≠ 1) : s.applyEntry r e mates =
    if s.scheduleBad (s.reg 0x2A00 0x0E 0) (written r) then (s, valueRange) else (s.setSchedule (s.reg 0x2A00 0x0E 0) (written r), 0) := by
  unfold State.applyEntry
  rw [hindex, hsub, dictFamily_bellman]
  exact if_neg (by simp [show entryRange 0x2A00 0x0F = none from rfl, hty])

theorem applyEntry_bellmanMode (hsub : r.sub = 0x01) (hvalue : written r ≤ 1)
    (hfeature : written r = 1 → bit s.fuses.features 16 = true) (hchanges : s.cadence ≠ (written r == 1)) :
    s.applyEntry r e mates = ((s.storeValue 0x2A00 0x01 e (written r)).changeMode (written r == 1), 0) := by
  have hallowed : ¬(written r = 1 ∧ (!bit s.fuses.features 16) = true) := fun ⟨hone, hshut⟩ => by simp [hfeature hone] at hshut
  unfold State.applyEntry
  rw [hindex, hsub, dictFamily_bellman]
  refine (if_neg ?_).trans ((if_neg hallowed).trans (if_neg hchanges))
  simp [show entryRange 0x2A00 0x01 = some (0, 1) from rfl, Nat.not_lt.2 hvalue]

end

section
variable {s : State} {r : Request} {e : DictEntry}

/-- R342: a worn entry refuses every write. -/
theorem keptWorn_of_accessible (h : s.accessAborts r true = []) (he : dictEntry? r.index r.sub = some e) (hkept : e.kept = true) :
    s.keptWorn (key r.index r.sub) = false := by
  unfold accessAborts at h
  rw [he] at h
  simp only [List.append_eq_nil_iff] at h
  obtain ⟨-, ⟨⟨⟨⟨hwritable, -⟩, -⟩, -⟩, -⟩, -⟩ := h
  unfold keptWorn
  split
  · rename_i x hx
    rw [hx, hkept] at hwritable
    by_contra hworn
    rw [Bool.not_eq_false, beq_iff_eq] at hworn
    simp [cond, hworn] at hwritable
  · rfl

/-- R340, R341: an admitted order of a kept entry stores its value; beside it only what wear leaves has changed. -/
theorem storeValue_of_admitted (h : Admitted s r) (he : dictEntry? r.index r.sub = some e) (hkept : e.kept = true) :
    ((counted s).storeValue r.index r.sub e (written r)).keptReg r.index r.sub e.default = written r ∧
      ((counted s).storeValue r.index r.sub e (written r)).besideLedger = s.besideLedger := by
  obtain ⟨⟨-, haborts⟩, hstuck⟩ := h
  unfold storeValue writeKept
  rw [if_pos hkept]
  by_cases hsame : (counted s).keptReg r.index r.sub e.default = written r
  · rw [if_pos hsame]
    exact ⟨hsame, rfl⟩
  · rw [if_neg hsame]
    have hcopies : (counted s).stuckCopies (key r.index r.sub) = 0 := by
      unfold orderStuck commitFails at hstuck
      rw [he] at hstuck
      dsimp only at hstuck
      rwa [if_pos hkept, if_neg (by rwa [← counted_keptReg])] at hstuck
    obtain ⟨⟨x, hx, hvalue⟩, hrest⟩ :=
      commitKept_commits (s := counted s) (v := written r) (keptWorn_of_accessible haborts he hkept) hcopies
    exact ⟨by rw [keptReg, hx]; exact hvalue, hrest⟩

end

section
variable {s : State} {r : Request} {rivals : List Request} (hindex : r.index = 0x2A00)
include hindex

theorem exec_scheduleEntry (hsub : r.sub = 0x0F) : exec (.scheduleEntry r rivals) s = .next (s.serveWrite r rivals) :=
  congrArg Host.Outcome.next (ownRow_eq (by rw [hindex]; rfl) (by rw [hsub]; rfl))

theorem exec_bellmanMode (hsub : r.sub = 0x01) : exec (.bellmanMode r rivals) s = .next (s.serveWrite r rivals) :=
  congrArg Host.Outcome.next (ownRow_eq (by rw [hindex]; rfl) (by rw [hsub]; rfl))

/-- R299: the mode is stored, and the rest of the change follows. -/
theorem bellmanMode_answers (h : Admitted s r) (hu : Unrivalled s r rivals) (hsub : r.sub = 0x01) (hvalue : written r ≤ 1)
    (hfeature : written r = 1 → bit s.fuses.features 16 = true) (hchanges : s.cadence ≠ (written r == 1)) :
    ∃ dict obs integ outbox, ({ s with dict := dict } : State).cadence = (written r == 1) ∧
      AnsweredFrom (({ s with dict := dict, obs := obs, integ := integ, outbox := outbox } : State).changeMode (written r == 1))
        (s.serveWrite r rivals) r := by
  have hentry : dictEntry? r.index r.sub = some ⟨0x01, 2, 1, .rw, true, true, 0⟩ := by rw [hindex, hsub]; rfl
  obtain ⟨hstored, hrest⟩ := storeValue_of_admitted h hentry rfl
  have hanswers := serveWrite_answers h hu hentry (applyEntry_bellmanMode (s := counted s) hindex hsub hvalue hfeature
    (by rwa [cadence_of_kept (counted_kept s)]))
  rw [hindex, hsub] at hstored hrest
  rw [eq_of_besideLedger hrest] at hstored hanswers
  exact ⟨_, _, _, _, congrArg (· == 1) hstored, hanswers⟩

end

/-- What an order that changes the mode leaves alone. -/
theorem AnsweredFrom.of_mode {s t : State} {r : Request} {queues : Table Queue} {cmds : List Cmd} {bell : Bellman} {dict : Dictionary}
    {integ : Integrity} {obs : Observe} {outbox : List Out}
    (h : AnsweredFrom { s with
      queues := queues, cmds := cmds, bell := bell, dict := dict, integ := integ, obs := obs, outbox := outbox } t r) :
    t.queues = queues ∧ t.cmds = cmds ∧ t.bell = bell ∧ t.cadence = ({ s with dict := dict } : State).cadence ∧
      t = { s with
        dict := t.dict, outbox := t.outbox, bruora := linkAfter s t r, bell := t.bell, queues := t.queues, cmds := cmds, integ := t.integ,
        obs := t.obs } := by
  have hcadence : t.cadence = ({ s with dict := dict } : State).cadence := cadence_of_kept h.regs.2.1
  obtain rfl : t.queues = queues := (congrArg State.queues h.rest :)
  obtain rfl : t.cmds = cmds := (congrArg State.cmds h.rest :)
  obtain rfl : t.bell = bell := (congrArg State.bell h.rest :)
  obtain rfl : t.integ = integ := (congrArg State.integ h.rest :)
  obtain rfl : t.obs = obs := (congrArg State.obs h.rest :)
  exact ⟨rfl, rfl, rfl, hcadence, h.rest⟩

/-- Settles O9: a schedule entry is stored or refused as its check says; a new mode is stored and the change follows, which leaves
every bound queue unreleased and, into free-run, no deadline. -/
theorem bellmanSchedule : Obligations.BellmanSchedule := by
  intro s r rivals v h hu hindex hwritten
  subst hwritten
  have hentry : (counted s).reg 0x2A00 0x0E 0 = s.reg 0x2A00 0x0E 0 := reg_of_regsBut (counted_regsBut s) (by decide) 0
  refine ⟨fun hsub hinv hgood => ?stored, fun hsub hbad => ?refused, fun hsub hone hfeature hfree => ?cadence,
    fun hsub hzero hcadence => ?free⟩
  case stored =>
    obtain ⟨bell, cmds, hset, hschedule⟩ := setSchedule_eq (counted s) (s.reg 0x2A00 0x0E 0) (written r)
    have hanswers := serveWrite_answers h hu (by rw [hindex, hsub]; rfl)
      ((applyEntry_scheduleEntry hindex hsub (by decide)).trans (if_neg (by rw [hentry]; exact ne_true_of_eq_false hgood)))
    rw [hentry, hset] at hanswers
    obtain rfl : (s.serveWrite r rivals).bell = bell := (congrArg State.bell hanswers.rest :)
    obtain rfl : (s.serveWrite r rivals).cmds = cmds := (congrArg State.cmds hanswers.rest :)
    exact ⟨_, exec_scheduleEntry hindex hsub, hanswers.answered, schedule?_of_written_self (s := s) hschedule,
      fun n hn => schedule?_of_written_ne (s := s) hinv.schedule hschedule hn,
      hanswers.counters (regsBut_trans (counted_regsBut s) (regsBut_of_dict rfl _)), hanswers.rest⟩
  case refused =>
    obtain ⟨haborted, hregs, hrest⟩ := serveWrite_aborts (rivals := rivals) h (by rw [hindex, hsub]; rfl) (by decide)
      ((applyEntry_scheduleEntry hindex hsub (by decide)).trans (if_pos (by rwa [hentry])))
    exact ⟨_, exec_scheduleEntry hindex hsub, haborted, hregs, hrest⟩
  case cadence =>
    obtain ⟨dict, obs, integ, outbox, hmode, hanswers⟩ := bellmanMode_answers hindex h hu hsub (by omega) (fun _ => hfeature)
      (by rw [hfree, hone]; decide)
    obtain ⟨fired, hchange⟩ := changeMode_on { s with dict := dict, obs := obs, integ := integ, outbox := outbox }
    rw [hone] at hmode hanswers
    rw [beq_self_eq_true, hchange] at hanswers
    obtain ⟨hqueues, -, -, hcadence, hrest⟩ := hanswers.of_mode
    refine ⟨_, exec_bellmanMode hindex hsub, hanswers.answered, hcadence.trans hmode, fun e he => ?_, hrest⟩
    rw [hqueues] at he
    obtain ⟨e0, -, rfl⟩ := List.mem_map.1 he
    exact unreleased_released
  case free =>
    obtain ⟨dict, obs, integ, outbox, hmode, hanswers⟩ := bellmanMode_answers hindex h hu hsub (by omega) (fun hone => by omega)
      (by rw [hcadence, hzero]; decide)
    obtain ⟨queues, cmds, bell, regs, hchange, hreleases, hcmdsFree, hqueuesFree⟩ :=
      changeMode_off { s with dict := dict, obs := obs, integ := integ, outbox := outbox }
    rw [hzero] at hmode hanswers
    rw [show ((0 : Nat) == 1) = false from rfl, hchange] at hanswers
    have hcmds : (s.serveWrite r rivals).cmds = cmds := (congrArg State.cmds hanswers.rest :)
    obtain ⟨hqueues, -, hbell, hcadence', hrest⟩ := hanswers.of_mode
    rw [← hbell] at hreleases
    rw [← hqueues] at hqueuesFree
    subst hcmds
    exact ⟨_, exec_bellmanMode hindex hsub, hanswers.answered, hcadence'.trans hmode, hreleases, hcmdsFree, hqueuesFree, hrest⟩

end Sys2Proof.Machine
end

/-! ## Every step keeps the invariant

A lemma per function of the model that answers a state: what it answers meets the invariant where its argument does. Most
functions write fields that the invariant does not read, which `iff_parts` lets `grind` see; the few that write one of its
fields (a ledger, the ports, the inputs, the schedule, the halt records, memory) have proofs of their own. -/

section
open Sys2Proof Sys2Proof.Machine Sys2Proof.Safety

namespace Sys2Proof.Safety.Inv

/-! ### What the invariant reads -/

/-- The invariant, of the parts of a state that it reads. -/
def Parts (dev host : List Host.Cell) (l0 l1 : Ledger) (ports inputs dies halts haltNext : Nat) (schedule : Table Nat) : Prop :=
  (Memory.wf dev = true ∧ Memory.wf host = true) ∧ ringOk l0 ∧ ringOk l1 ∧ ports = 16 ∧ inputs = 4 ∧ dies < 4 ∧
    (halts ≤ 16 ∧ haltNext < 16) ∧ Table.rising schedule = true

theorem iff_parts {s : State} : Inv s ↔ Parts s.devMem s.hostMem s.integ.ledger0 s.integ.ledger1 s.bruora.ports.length
    s.bell.inputs.length s.pins.dies s.obs.halts.length s.obs.haltNext s.bell.schedule :=
  ⟨fun h => ⟨h.1,h.2,h.3,h.4,h.5,h.6,h.7,h.8⟩, fun ⟨h1,h2,h3,h4,h5,h6,h7,h8⟩ => ⟨h1,h2,h3,h4,h5,h6,h7,h8⟩⟩

theorem foldl {α : Type} {f : State → α → State} {s : State} (h : Inv s) (hf : ∀ s x, Inv s → Inv (f s x)) (l : List α) : Inv (l.foldl f s) := by
  induction l generalizing s with
  | nil => exact h
  | cons x l ih => exact ih (hf s x h)

theorem foldl_fst {α β : Type} {f : State × β → α → State × β} {p : State × β} (h : Inv p.1)
    (hf : ∀ p x, Inv p.1 → Inv (f p x).1) (l : List α) : Inv (l.foldl f p).1 := by
  induction l generalizing p with
  | nil => exact h
  | cons x l ih => exact ih (hf p x h)

theorem physWrite {s : State} (h : Inv s) (pa : Nat) (bs : List Byte) : Inv (s.physWrite pa bs) := by
  have hm := State.physWrite_memOk h.mem pa bs
  unfold State.physWrite at *
  split <;> rename_i hpa <;> simp only [hpa, if_true, if_false] at hm <;> exact { h with mem := hm }

theorem setInput {s : State} (h : Inv s) (i : Nat) (x : Input) : Inv (s.setInput i x) :=
  { h with inputs := by simp [State.setInput, h.inputs] }

theorem setPort {s : State} (h : Inv s) (p : Nat) (x : Port) : Inv (s.setPort p x) :=
  { h with ports := by simp [State.setPort, h.ports] }

theorem setLedger {s : State} (h : Inv s) (die : Nat) {l : Ledger} (hl : Safety.ringOk l) : Inv (s.setLedger die l) := by
  unfold State.setLedger
  split
  · exact { h with ledger0 := hl }
  · exact { h with ledger1 := hl }

theorem ledger {s : State} (h : Inv s) (die : Nat) : Safety.ringOk (s.ledger die) := by
  unfold State.ledger; split
  · exact h.ledger0
  · exact h.ledger1

theorem interrupt {s : State} (h : Inv s) (v : Nat) : Inv (s.interrupt v) := by
  unfold State.interrupt State.setVector State.send
  grind [iff_parts]

theorem setDaybook {s : State} (h : Inv s) (die : Nat) (b : DaybookBuffer) : Inv (s.setDaybook die b) := by
  grind [State.setDaybook, iff_parts]

theorem bump {s : State} (h : Inv s) (index sub n : Nat) : Inv (s.bump index sub n) := by
  grind [State.bump, iff_parts]

theorem dayEvent {s : State} (h : Inv s) (die place region cluster kind payload : Nat) :
    Inv (s.dayEvent die place region cluster kind payload) := by
  grind [State.dayEvent, Inv.bump, Inv.setDaybook]

theorem notify {s : State} (h : Inv s) (k v : Nat) : Inv (s.notify k v) := by
  grind [State.notify, State.send, iff_parts]

theorem ledgerWrite {s : State} (h : Inv s) (die : Nat) (e : LedgerEntry) : Inv (s.ledgerWrite die e).1 := by
  obtain ⟨hhead, hcount, htail⟩ := h.ledger die
  have hplaced (l : Ledger) (hl : l.head = (s.ledger die).head ∧ l.count = (s.ledger die).count + 1 ∧
      l.tail = ((s.ledger die).tail + 1) % 1024) (hroom : (s.ledger die).count < 1024) : Inv (s.setLedger die l) :=
    h.setLedger die ⟨by omega, by omega, by omega⟩
  have hkept (l : Ledger) (hl : l.head = (s.ledger die).head ∧ l.count = (s.ledger die).count ∧
      l.tail = (s.ledger die).tail) : Inv (s.setLedger die l) :=
    h.setLedger die ⟨by omega, by omega, by omega⟩
  grind [State.ledgerWrite, Inv.interrupt, Inv.notify, Inv.dayEvent]

theorem clearWorst {s : State} (h : Inv s) (die : Nat) : Inv (s.clearWorst die) := by
  have hring := h.ledger die
  unfold State.clearWorst
  refine h.setLedger die ?_
  grind [Safety.ringOk]

theorem ledgerRetire {s t : State} (h : Inv s) {die v : Nat} (ht : s.ledgerRetire die v = some t) : Inv t := by
  obtain ⟨hhead, hcount, htail⟩ := h.ledger die
  unfold State.ledgerRetire at ht
  dsimp only at ht
  split at ht
  · cases ht
  · cases ht
    refine h.setLedger die ⟨?_, ?_, ?_⟩ <;> dsimp only <;> omega

theorem putHalt {s : State} (h : Inv s) (x : HaltRecord) : Inv (s.putHalt x) := by
  unfold State.putHalt
  split
  · exact { h with halts := ⟨by simp; omega, h.halts.2⟩ }
  · exact { h with halts := ⟨by simpa using h.halts.1, Nat.mod_lt _ (by decide)⟩ }

/-! ### Reads and writes of the state -/

theorem draw {s : State} (h : Inv s) : Inv s.draw.2 := by
  grind [State.draw, iff_parts]

theorem setReg {s : State} (h : Inv s) (index sub v : Nat) : Inv (s.setReg index sub v) := by
  grind [State.setReg, iff_parts]

theorem bumpFree {s : State} (h : Inv s) (index sub : Nat) : Inv (s.bumpFree index sub) := by
  grind [State.bumpFree, Inv.draw, Inv.bump]

theorem send {s : State} (h : Inv s) (o : Out) : Inv (s.send o) := by
  grind [State.send, iff_parts]

theorem setVector {s : State} (h : Inv s) (v : Nat) (e : IrqVector) : Inv (s.setVector v e) := by
  grind [State.setVector, iff_parts]

theorem withCmds {s : State} (h : Inv s) (cmds : List Cmd) : Inv { s with cmds := cmds } := { h with }

theorem setQueue {s : State} (h : Inv s) (q : Nat) (r : Queue) : Inv (s.setQueue q r) := { h with }

theorem onQueue {s : State} (h : Inv s) (q : Nat) (f : Queue → Queue) : Inv (s.onQueue q f) := by
  grind [State.onQueue, Inv.setQueue, iff_parts]

theorem setCmd {s : State} (h : Inv s) (c : Cmd) : Inv (s.setCmd c) := by
  grind [State.setCmd, iff_parts]

theorem dropCmd {s : State} (h : Inv s) (q i : Nat) : Inv (s.dropCmd q i) := by
  grind [State.dropCmd, iff_parts]

theorem bumpTask {s : State} (h : Inv s) (pasid n amount : Nat) : Inv (s.bumpTask pasid n amount) := by
  grind [State.bumpTask, iff_parts]

/-! ### Ledgers -/

theorem notice {s : State} (h : Inv s) (die code phys detail : Nat) : Inv (s.notice die code phys detail) := by
  grind [State.notice, Inv.ledgerWrite]

/-! ### The Loft -/

theorem setRow {s : State} (h : Inv s) (k : Nat) (r : LoftRow) : Inv (s.setRow k r) := by
  grind [State.setRow, iff_parts]

theorem setSem {s : State} (h : Inv s) (k v : Nat) : Inv (s.setSem k v) := by
  grind [State.setSem, iff_parts]

theorem setCtr {s : State} (h : Inv s) (k v : Nat) : Inv (s.setCtr k v) := by
  grind [State.setCtr, iff_parts]

theorem setPart {s : State} (h : Inv s) (region entry : Nat) (p : Partition) : Inv (s.setPart region entry p) := by
  grind [State.setPart, iff_parts]

theorem landRow {s : State} (h : Inv s) (p : Partition) (region cluster row : Nat) (b : List Byte)
    (signalled : Bool) :
    Inv (s.landRow p region cluster row b signalled) := by
  grind [State.landRow, Inv.setRow, iff_parts]

theorem settleRows {s : State} (h : Inv s) (p : Partition) (region cluster : Nat) (rows : List Nat) :
    Inv (s.settleRows p region cluster rows) := by
  grind [State.settleRows, Inv.setRow, Inv.foldl, Inv.foldl_fst, iff_parts]

theorem hazardAt {s : State} (h : Inv s) (p : Partition) (region cluster row pasid q : Nat) :
    Inv (s.hazardAt p region cluster row pasid q) := by
  grind [State.hazardAt, Inv.bump, Inv.dayEvent]

theorem signalOne {s : State} (h : Inv s) (p : Partition) (region cluster : Nat) (w : SemWord) :
    Inv (s.signalOne p region cluster w).1 := by
  grind [State.signalOne, Inv.setSem]

theorem signalMask {s : State} (h : Inv s) (p : Partition) (region mask : Nat) (w : SemWord) :
    Inv (s.signalMask p region mask w).1 := by
  grind [State.signalMask, Inv.signalOne, Inv.foldl, Inv.foldl_fst]

theorem signalRows {s : State} (h : Inv s) (p : Partition) (region mask : Nat) (w : SemWord) (rows : List Nat) :
    Inv (s.signalRows p region mask w rows).1 := by
  grind [State.signalRows, Inv.settleRows, Inv.signalOne, Inv.foldl, Inv.foldl_fst]

theorem waitMask {s : State} (h : Inv s) (p : Partition) (region mask got : Nat) (w : SemWord) :
    Inv (s.waitMask p region mask got w).1 := by
  grind [State.waitMask, Inv.setSem, Inv.foldl, Inv.foldl_fst]

theorem countUp {s : State} (h : Inv s) (p : Partition) (region cluster index n : Nat) :
    Inv (s.countUp p region cluster index n) := by
  grind [State.countUp, Inv.setCtr]

theorem grantRows {s : State} (h : Inv s) (region mask base units pasid : Nat) :
    Inv (s.grantRows region mask base units pasid) := by
  grind [State.grantRows, Inv.draw, Inv.setRow, Inv.foldl, Inv.foldl_fst, iff_parts]

theorem clearMarks {s : State} (h : Inv s) (region mask semBase semCount ctrBase ctrCount : Nat) :
    Inv (s.clearMarks region mask semBase semCount ctrBase ctrCount) := by
  grind [State.clearMarks, Inv.setSem, Inv.setCtr, Inv.foldl, Inv.foldl_fst]

theorem restorePart {s : State} (h : Inv s) (region : Nat) (p : Partition) (v : SavedPartition) :
    Inv (s.restorePart region p v) := by
  grind [State.restorePart, Inv.setRow, Inv.setSem, Inv.setCtr, Inv.foldl, Inv.foldl_fst, iff_parts]

theorem compact {s : State} (h : Inv s) (region : Nat) : Inv (s.compact region) := by
  grind [State.compact, Inv.setPart, Inv.restorePart, Inv.foldl, Inv.foldl_fst, iff_parts]

theorem resizePart {s : State} (h : Inv s) (region entry units pasid : Nat) :
    ∀ t, s.resizePart region entry units pasid = some t → Inv t := by
  grind [State.resizePart, Inv.setPart, Inv.grantRows, Inv.restorePart, Inv.compact, iff_parts]

/-! ### Translation -/

theorem setCarterEntries {s : State} (h : Inv s) (port : Nat) (l : List Entry) : Inv (s.setCarterEntries port l) := by
  grind [State.setCarterEntries, iff_parts]

theorem setDieEntries {s : State} (h : Inv s) (die : Nat) (l : List Entry) : Inv (s.setDieEntries die l) := by
  grind [State.setDieEntries, iff_parts]

theorem touchEntry {s : State} (h : Inv s) (port pasid va access : Nat) : Inv (s.touchEntry port pasid va access) := by
  grind [State.touchEntry, Inv.setCarterEntries, Inv.setDieEntries, iff_parts]

theorem barnLine {s : State} (h : Inv s) (line hint : Nat) (write : Bool) (n : Nat) : Inv (s.barnLine line hint write n) := by
  unfold State.barnLine
  extract_lets hit s1 bytes rest
  have hs1 : Inv s1 := h.bump ..
  have hbytes {t : State} (ht : Inv t) : Inv (bytes t) := by grind [Inv.bump]
  have hput (barn : List BarnLine) : Inv (bytes { s1 with barn := barn }) := hbytes { hs1 with }
  clear_value bytes hit s1
  split
  · grind [Inv.bump]
  · split
    extract_lets held keeps
    split
    next final demoted _ =>
      extract_lets s2 s3 s4
      have hs3 : Inv s3 := by grind [Inv.bump]
      have hs4 : Inv s4 := by grind [Inv.bump]
      exact hs4.bump ..

theorem track {s : State} (h : Inv s) (region n : Nat) : Inv (s.track region n) := by
  grind [State.track, Inv.bump, iff_parts]

theorem countCarter {s : State} (h : Inv s) (port pasid pa n : Nat) (write : Bool) :
    Inv (s.countCarter port pasid pa n write) := by
  grind [State.countCarter, Inv.bump, Inv.bumpTask, Inv.track]

theorem devTouch {s : State} (h : Inv s) (port pa n hint : Nat) (write : Bool) :
    Inv (s.devTouch port pa n hint write) := by
  grind [State.devTouch, Inv.bump, Inv.barnLine, Inv.foldl, Inv.foldl_fst]

theorem memTouch {s : State} (h : Inv s) (port pasid pa n0 hint : Nat) (write carter : Bool) :
    Inv (s.memTouch port pasid pa n0 hint write carter) := by
  grind [State.memTouch, Inv.bump, Inv.countCarter, Inv.devTouch]

theorem writeVA {s : State} (h : Inv s) (port pasid va access : Nat) (bs : List Byte) :
    Inv (s.writeVA port pasid va access bs) := by
  grind [State.writeVA, Inv.physWrite, Inv.foldl, Inv.foldl_fst, iff_parts]

theorem noteVA {s : State} (h : Inv s) (port pasid va len access hint : Nat) (carter : Bool) :
    Inv (s.noteVA port pasid va len access hint carter) := by
  grind [State.noteVA, Inv.touchEntry, Inv.memTouch, Inv.foldl, Inv.foldl_fst, iff_parts]

theorem scramble {s : State} (h : Inv s) (port pasid va len : Nat) : Inv (s.scramble port pasid va len) := by
  grind [State.scramble, Inv.physWrite, Inv.draw, Inv.foldl, Inv.foldl_fst, iff_parts]

theorem askTranslation {s : State} (h : Inv s) (port pasid va access : Nat) (who : Nat × Nat × Nat) :
    Inv (s.askTranslation port pasid va access who) := by
  grind [State.askTranslation, Inv.bump, Inv.send, iff_parts]

theorem saveTiles {s : State} (h : Inv s) (q : Nat) (k : Queue) : Inv (s.saveTiles q k) := by
  grind [State.saveTiles, Inv.draw, Inv.bump, Inv.onQueue, Inv.scramble, iff_parts]

theorem park {s : State} (h : Inv s) (pasid : Nat) : Inv (s.park pasid) := by
  grind [State.park, Inv.bump, Inv.saveTiles, Inv.foldl, Inv.foldl_fst, iff_parts]

theorem pageFault {s : State} (h : Inv s) (port pasid va access : Nat) : Inv (s.pageFault port pasid va access) := by
  grind [State.pageFault, Inv.bump, Inv.send, Inv.park, iff_parts]

theorem pumpPages {s : State} (h : Inv s) : Inv s.pumpPages := by
  grind [State.pumpPages, Inv.bump, Inv.send, Inv.foldl, Inv.foldl_fst, iff_parts]

theorem dropEntries {s : State} (h : Inv s) (pasid va bytes : Nat) : Inv (s.dropEntries pasid va bytes) := by
  grind [State.dropEntries, iff_parts]

/-! ### The Granary -/

theorem setSeq {s : State} (h : Inv s) (id : Nat) (q : Sequence) : Inv (s.setSeq id q) := by
  grind [State.setSeq, iff_parts]

theorem takeSheaf {s : State} (h : Inv s) (i refs kind pasid : Nat) : Inv (s.takeSheaf i refs kind pasid) := by
  grind [State.takeSheaf, iff_parts]

theorem takeSheaves {s : State} (h : Inv s) (is : List Nat) (refs kind pasid : Nat) :
    Inv (s.takeSheaves is refs kind pasid) := by
  grind [State.takeSheaves, Inv.takeSheaf, Inv.foldl, Inv.foldl_fst]

theorem dropRef {s : State} (h : Inv s) (i : Nat) : Inv (s.dropRef i).1 := by
  grind [State.dropRef, iff_parts]

theorem dropRefs {s : State} (h : Inv s) (is : List Nat) : Inv (s.dropRefs is).1 := by
  grind [State.dropRefs, Inv.dropRef, Inv.foldl, Inv.foldl_fst]

theorem addRef {s : State} (h : Inv s) (i : Nat) : Inv (s.addRef i) := by
  grind [State.addRef, iff_parts]

theorem setSheafBytes {s : State} (h : Inv s) (i off : Nat) (bs : List Byte) : Inv (s.setSheafBytes i off bs) := by
  grind [State.setSheafBytes, iff_parts]

theorem copySheaf {s : State} (h : Inv s) (src dst : Nat) : Inv (s.copySheaf src dst) := by
  grind [State.copySheaf, iff_parts]

theorem evict {s : State} (h : Inv s) (id : Nat) (q : Sequence) : Inv (s.evict id q) := by
  grind [State.evict, Inv.bump, Inv.setSeq, Inv.dropRefs, iff_parts]

theorem evictFor {s : State} (h : Inv s) (need : Nat) : Inv (s.evictFor need).1 := by
  grind [State.evictFor, Inv.evict, Inv.foldl, Inv.foldl_fst]

theorem sheafTouch {s : State} (h : Inv s) (region pasid sheaf off n hint : Nat) (write carter : Bool) :
    Inv (s.sheafTouch region pasid sheaf off n hint write carter) := by
  grind [State.sheafTouch, Inv.countCarter, Inv.devTouch]

theorem walk {s : State} (h : Inv s) (region id index : Nat) : Inv (s.walk region id index) := by
  grind [State.walk, Inv.bump, Inv.sheafTouch, iff_parts]

theorem deliverKv {s : State} (h : Inv s) (region pasid : Nat) (rs : List KvRead) :
    Inv (s.deliverKv region pasid rs) := by
  grind [State.deliverKv, Inv.sheafTouch, Inv.walk, Inv.foldl, Inv.foldl_fst, iff_parts]

theorem touchAppend {s : State} (h : Inv s) (q : Sequence) (region pasid : Nat) (reserved : List (Nat × Nat))
    (layer atPos n : Nat) :
    Inv (s.touchAppend q region pasid reserved layer atPos n) := by
  grind [State.touchAppend, Inv.sheafTouch, Inv.foldl, Inv.foldl_fst, iff_parts]

theorem copyBlocks {s : State} (h : Inv s) (q : Sequence) (reserved : List (Nat × Nat)) :
    Inv (s.copyBlocks q reserved).1 := by
  grind [State.copyBlocks, Inv.copySheaf, Inv.foldl, Inv.foldl_fst, iff_parts]

theorem writeTokens {s : State} (h : Inv s) (q : Sequence) (reserved : List (Nat × Nat)) (layer atPos n : Nat)
    (bytesOf : Nat → Nat → List Byte × List Byte × List Byte) :
    Inv (s.writeTokens q reserved layer atPos n bytesOf) := by
  grind [State.writeTokens, Inv.setSheafBytes, Inv.foldl, Inv.foldl_fst, iff_parts]

theorem commitAppend {s : State} (h : Inv s) (id : Nat) (reserved : List (Nat × Nat)) (layer newLen : Nat) :
    Inv (s.commitAppend id reserved layer newLen) := by
  grind [State.commitAppend, Inv.setSeq, Inv.dropRefs, Inv.addRef, Inv.foldl, Inv.foldl_fst, iff_parts]

theorem releaseSeq {s : State} (h : Inv s) (id : Nat) (q : Sequence) : Inv (s.releaseSeq id q).1 := by
  grind [State.releaseSeq, Inv.dropRefs, iff_parts]

theorem newSeq {s : State} (h : Inv s) (q : Sequence) : Inv (s.newSeq q).1 := by
  grind [State.newSeq, Inv.setSeq, Inv.takeSheaves, Inv.evictFor, iff_parts]

theorem truncateLayer {s : State} (h : Inv s) (id layer n : Nat) : Inv (s.truncateLayer id layer n).1 := by
  grind [State.truncateLayer, Inv.setSeq, Inv.dropRefs, iff_parts]

theorem beginRead {s : State} (h : Inv s) (id die : Nat) : Inv (s.beginRead id die) := by
  grind [State.beginRead, Inv.setSeq, iff_parts]

theorem endRead {s : State} (h : Inv s) (id : Nat) : Inv (s.endRead id) := by
  grind [State.endRead, Inv.setSeq, iff_parts]

/-! ### Unit maps -/

theorem setMap {s : State} (h : Inv s) (r : Nat) (m : List (Option Nat)) : Inv (s.setMap r m) := by
  grind [State.setMap, iff_parts]

theorem setHosts {s : State} (h : Inv s) (r c : Nat) (h : ClusterHosts) : Inv (s.setHosts r c h) := by
  grind [State.setHosts, iff_parts]

theorem buildMaps {s : State} (h : Inv s) : Inv s.buildMaps := by
  grind [State.buildMaps, iff_parts]

theorem noteFault {s : State} (h : Inv s) (loc sev exposed : Nat) : Inv (s.noteFault loc sev exposed) := by
  grind [State.noteFault, iff_parts]

/-! ### Reads of the dictionary -/

theorem notePrior {t : State} (h : Inv t) (s : State) (index sub : Nat) (e : DictEntry) : Inv (s.notePrior t index sub e) := by
  grind [State.notePrior, iff_parts]

theorem countAbort {s : State} (h : Inv s) (r : Request) (abort : Nat) : Inv (s.countAbort r abort) := by
  grind [State.countAbort, Inv.setReg, Inv.bump]

/-! ### Messages of the Bruora links -/

theorem pumpPort {s : State} (h : Inv s) (p : Nat) : Inv (s.pumpPort p) := by
  grind [State.pumpPort, Inv.bump, Inv.send, Inv.setPort, Inv.foldl, Inv.foldl_fst]

theorem emit {s : State} (h : Inv s) (p : Nat) (m : Message) : Inv (s.emit p m) := by
  grind [State.emit, Inv.setPort, Inv.pumpPort, iff_parts]

theorem answer {s : State} (h : Inv s) (m : Message) : Inv (s.answer m) := by
  grind [State.answer, Inv.emit, iff_parts]

theorem noteBadRow {s : State} (h : Inv s) (region cluster absRow : Nat) (c : Option Cmd) :
    Inv (s.noteBadRow region cluster absRow c) := by
  grind [State.noteBadRow, Inv.bump, Inv.ledgerWrite, Inv.setRow, Inv.noteFault, iff_parts]

theorem writeHeld {s : State} (h : Inv s) (w : Window) (va : Nat) (bs : List Byte) : Inv (s.writeHeld w va bs) := by
  grind [State.writeHeld, Inv.physWrite, Inv.memTouch, Inv.foldl, Inv.foldl_fst, iff_parts]

theorem readHeld {s : State} (h : Inv s) (w : Window) (va n : Nat) : Inv (s.readHeld w va n).2 := by
  grind [State.readHeld, Inv.memTouch, Inv.foldl, Inv.foldl_fst, iff_parts]

theorem countRows {s : State} (h : Inv s) (pasid rows receivers : Nat) : Inv (s.countRows pasid rows receivers) := by
  grind [State.countRows, Inv.bump, Inv.bumpTask]

theorem landWindow {s : State} (h : Inv s) (w : Window) (m : Message) : Inv (s.landWindow w m) := by
  grind [State.landWindow, Inv.bump, Inv.landRow, Inv.countUp, Inv.writeHeld, Inv.countRows, Inv.foldl, Inv.foldl_fst]

theorem readWindow {s : State} (h : Inv s) (w : Window) (m : Message) : Inv (s.readWindow w m).2 := by
  grind [State.readWindow, Inv.bump, Inv.hazardAt, Inv.readHeld, Inv.foldl, Inv.foldl_fst]

theorem markLanded {s : State} (h : Inv s) (m : Message) : Inv (s.markLanded m) := by
  grind [State.markLanded, iff_parts]

theorem serveWindow {s : State} (h : Inv s) (m : Message) (write : Bool) : Inv (s.serveWindow m write).2.2 := by
  grind [State.serveWindow, Inv.draw, Inv.bump, Inv.noteBadRow, Inv.landWindow, Inv.readWindow, Inv.markLanded,
    iff_parts]

theorem sendTo {s : State} (h : Inv s) (q i d ref : Nat) (write : Bool) (off len : Nat)
    (segs : List (Nat × List Byte)) (elem : Nat) :
    Inv (s.sendTo q i d ref write off len segs elem).2 := by
  grind [State.sendTo, Inv.emit, Inv.serveWindow, iff_parts]

/-! ### Completion of commands -/

theorem countCode {s : State} (h : Inv s) (code : Nat) (refused : Bool) : Inv (s.countCode code refused) := by
  grind [State.countCode, Inv.bump, iff_parts]

theorem queueError {s : State} (h : Inv s) (q code : Nat) : Inv (s.queueError q code) := by
  grind [State.queueError, Inv.interrupt, Inv.setQueue, iff_parts]

theorem irqRecord {s : State} (h : Inv s) (q : Nat) : Inv (s.irqRecord q) := by
  grind [State.irqRecord, Inv.interrupt, Inv.setQueue, iff_parts]

theorem traceBegin {s : State} (h : Inv s) (c : Cmd) : Inv (s.traceBegin c) := by
  grind [State.traceBegin, Inv.dayEvent, Inv.foldl, Inv.foldl_fst]

theorem traceEnd {s : State} (h : Inv s) (c : Cmd) : Inv (s.traceEnd c) := by
  grind [State.traceEnd, Inv.dayEvent, Inv.foldl, Inv.foldl_fst]

theorem noteAll {s : State} (h : Inv s) (port pasid : Nat) (as : List Access) : Inv (s.noteAll port pasid as) := by
  grind [State.noteAll, Inv.noteVA, Inv.foldl, Inv.foldl_fst]

theorem layoutUndef {s : State} (h : Inv s) (c : Cmd) (firstNamed named : Nat) :
    Inv (s.layoutUndef c firstNamed named) := by
  grind [State.layoutUndef, Inv.draw, Inv.setRow, Inv.foldl, Inv.foldl_fst, iff_parts]

theorem failCmd {s : State} (h : Inv s) (c : Cmd) (code detail : Nat) : Inv (s.failCmd c code detail) := by
  grind [State.failCmd, Inv.setCmd, Inv.scramble, Inv.countCode, Inv.traceEnd, Inv.foldl, Inv.foldl_fst, iff_parts]

theorem poisonFail {s : State} (h : Inv s) (c : Cmd) (line : Nat) : Inv (s.poisonFail c line) := by
  grind [State.poisonFail, Inv.ledgerWrite, Inv.failCmd]

theorem faultCmd {s : State} (h : Inv s) (c : Cmd) (va kind : Nat) : Inv (s.faultCmd c va kind) := by
  grind [State.faultCmd, Inv.setCmd, Inv.pageFault, Inv.failCmd, iff_parts]

theorem stall {s : State} (h : Inv s) (c : Cmd) (g : Got) (kind : Nat) : Inv (s.stall c g kind) := by
  cases g with
  | ok => exact h
  | miss va => exact (h.askTranslation ..).setCmd _
  | fault va => exact h.faultCmd ..
  | failed code va => exact h.failCmd ..

theorem withAccess {s : State} (h : Inv s) (c : Cmd) (as : List Access)
    (work : State → State) (hwork : ∀ u, Inv u → Inv (work u)) :
    Inv (s.withAccess c as work) := by
  grind [State.withAccess, Inv.noteAll, Inv.poisonFail, Inv.stall, iff_parts]

theorem countGather {s : State} (h : Inv s) (g : Gather) : Inv (s.countGather g) := by
  grind [State.countGather, Inv.bump, Inv.foldl, Inv.foldl_fst]

theorem countBusy {s : State} (h : Inv s) (c : Cmd) : Inv (s.countBusy c) := by
  grind [State.countBusy, Inv.draw, Inv.bumpFree, Inv.bumpTask, Inv.foldl, Inv.foldl_fst]

theorem countMacs {s : State} (h : Inv s) (c : Cmd) (r : Recs) (macs : Nat) : Inv (s.countMacs c r macs) := by
  grind [State.countMacs, Inv.bump, Inv.bumpTask]

theorem countChain {s : State} (h : Inv s) (c : Cmd) : Inv (s.countChain c) := by
  grind [State.countChain, Inv.bump]

theorem shrinkQueue {s : State} (h : Inv s) (q : Nat) : Inv (s.shrinkQueue q) := by
  grind [State.shrinkQueue, Inv.setQueue, Inv.setPart, iff_parts]

theorem noteSealed {s : State} (h : Inv s) (c : Cmd) : Inv (s.noteSealed c) := by
  grind [State.noteSealed, Inv.bump, iff_parts]

theorem returnStaging {s : State} (h : Inv s) (q n : Nat) : Inv (s.returnStaging q n) := by
  grind [State.returnStaging, Inv.setQueue, iff_parts]

theorem settleGranary {s : State} (h : Inv s) (c : Cmd) : Inv (s.settleGranary c) := by
  grind [State.settleGranary, Inv.setSeq, Inv.dropRefs, Inv.commitAppend, Inv.endRead, Inv.returnStaging, Inv.foldl,
    Inv.foldl_fst, iff_parts]

theorem putRecord {s : State} (h : Inv s) (k : Queue) (c : Cmd) : Inv (s.putRecord k c) := by
  grind [State.putRecord, Inv.bump, Inv.onQueue, Inv.dropCmd, Inv.bumpTask, Inv.writeVA, Inv.noteVA, Inv.irqRecord,
    Inv.traceEnd, Inv.countChain, Inv.shrinkQueue, Inv.noteSealed, Inv.settleGranary, iff_parts]

theorem tryRecord {s : State} (h : Inv s) (c : Cmd) : Inv (s.tryRecord c) := by
  grind [State.tryRecord, Inv.setCmd, Inv.dropCmd, Inv.askTranslation, Inv.pageFault, Inv.queueError,
    Inv.settleGranary, Inv.putRecord, iff_parts]

theorem refuse {s : State} (h : Inv s) (c : Cmd) (code : Nat) : Inv (s.refuse c code) := by
  grind [State.refuse, Inv.bump, Inv.bumpTask, Inv.countCode, Inv.tryRecord, iff_parts]

theorem failUnissued {s : State} (h : Inv s) (c : Cmd) (code : Nat) : Inv (s.failUnissued c code) := by
  grind [State.failUnissued, Inv.countCode, Inv.tryRecord, iff_parts]

/-! ### Faults -/

theorem faultOn {s : State} (h : Inv s) (c : Cmd) (parity : Bool) (loc : Nat) : Inv (s.faultOn c parity loc).1 := by
  grind [State.faultOn, Inv.setCmd, Inv.failCmd, iff_parts]

theorem setPhase {s : State} (h : Inv s) (l : Nat) (p : UnitPhase) : Inv (s.setPhase l p) := by
  grind [State.setPhase, iff_parts]

theorem sendToTest {s : State} (h : Inv s) (l : Nat) : Inv (s.sendToTest l) := by
  grind [State.sendToTest, Inv.setPhase, iff_parts]

theorem noteSlot {s : State} (h : Inv s) (l : Nat) : Inv (s.noteSlot l) := by
  grind [State.noteSlot, iff_parts]

theorem vacate {s0 : State} (h : Inv s0) (l : Nat) : Inv (s0.vacate l) := by
  grind [State.vacate, Inv.setHosts, Inv.noteSlot, iff_parts]

theorem benchUnit {s : State} (h : Inv s) (l : Nat) : Inv (s.benchUnit l) := by
  grind [State.benchUnit, Inv.sendToTest, Inv.vacate]

theorem hostInTurn {s : State} (h : Inv s) (r c : Nat) : Inv (s.hostInTurn r c) := by
  grind [State.hostInTurn, Inv.setMap, iff_parts]

theorem benchCluster {s : State} (h : Inv s) (r c : Nat) : Inv (s.benchCluster r c) := by
  grind [State.benchCluster, Inv.benchUnit, Inv.hostInTurn, Inv.foldl, Inv.foldl_fst]

theorem slotStopped {s : State} (h : Inv s) : Inv s.slotStopped := by
  grind [State.slotStopped, iff_parts]

theorem stopDie {s : State} (h : Inv s) (die : Nat) (fatal : Bool) : Inv (s.stopDie die fatal) := by
  unfold State.stopDie
  extract_lets s1 s2
  have hs1 : Inv s1 := h.foldl (fun _ c hs => hs.failCmd c ..) _
  have hs2 : Inv s2 := hs1.foldl (fun _ q hs => hs.queueError q.1 _) _
  cases fatal with
  | false => exact { hs2 with }
  | true =>
    simp only [if_true]
    exact { hs2.slotStopped with dies := hs2.dies }

theorem actOn {s : State} (h : Inv s) (sev loc : Nat) (parity : Bool) (affected : Option (Nat × Nat)) (atUse : Bool) :
    Inv (s.actOn sev loc parity affected atUse).1 := by
  unfold State.actOn
  extract_lets one works all
  have hone {t : State} (ht : Inv t) : Inv (one t).1 := by grind [Inv.faultOn]
  have hall {t : State} (ht : Inv t) : Inv (all t).1 :=
    foldl_fst (p := (t, false)) ht (fun p c hp => by grind [Inv.faultOn]) _
  clear_value one works all
  split
  · exact h
  · split
    · exact hone h
    · exact (hall h).benchUnit _
  · exact (hall h).benchCluster ..
  · exact Inv.foldl (Inv.foldl (hall h) (fun _ _ hs => hs.benchCluster ..) _) (fun _ _ hs => hs.sendToTest _) _
  · exact h.stopDie ..
  · exact h.stopDie ..

theorem setDomain {s : State} (h : Inv s) (root die : Nat) (d : Domain) : Inv (s.setDomain root die d) := by
  grind [State.setDomain, iff_parts]

theorem raiseDomain (fuel : Nat) {s : State} (h : Inv s) (d : Domain) (code loc least detail : Nat) (parity : Bool)
    (affected : Option (Nat × Nat)) (atUse : Bool) : Inv (State.raiseDomain fuel s d code loc least detail parity affected atUse) := by
  induction fuel generalizing s d least affected with
  | zero => exact h
  | succ fuel ih =>
    unfold State.raiseDomain
    grind [Inv.actOn, Inv.ledgerWrite, Inv.noteFault, Inv.setDomain]

/-- A ledger whose entries are marked again is the same ring. -/
theorem setPlaces {s : State} (h : Inv s) (die : Nat) (places : Table LedgerEntry) :
    Inv (s.setLedger die { s.ledger die with places := places }) :=
  h.setLedger die (h.ledger die)

theorem reopen {s : State} (h : Inv s) (loc : Nat) : Inv (s.reopen loc) := by
  unfold State.reopen
  split
  · exact h
  next x _ =>
    extract_lets es s1
    have hs1 : Inv s1 := h.foldl (fun _ die hs => hs.setPlaces die _) _
    exact { hs1 with ledger0 := hs1.ledger0 }

theorem raiseFault {s0 : State} (h : Inv s0) (code loc detail : Nat) (affected : Option (Nat × Nat)) (atUse : Bool) :
    Inv (s0.raiseFault code loc detail affected atUse) := by
  grind [State.raiseFault, Inv.ledgerWrite, Inv.noteFault, Inv.actOn, Inv.raiseDomain, Inv.reopen, iff_parts]

theorem escalate {s : State} (h : Inv s) (code loc : Nat) (parity : Bool) : Inv (s.escalate code loc parity) := by
  grind [State.escalate, Inv.raiseDomain, iff_parts]

theorem parityRead {s : State} (h : Inv s) (c again : Cmd) (region cluster absRow : Nat) :
    Inv (s.parityRead c again region cluster absRow) := by
  grind [State.parityRead, Inv.bump, Inv.setCmd, Inv.bumpTask, Inv.noteBadRow, Inv.traceBegin, Inv.traceEnd,
    Inv.failCmd, Inv.escalate, iff_parts]

theorem closeEntries {s : State} (h : Inv s) (es : List (Nat × Nat)) (st : Nat) : Inv (s.closeEntries es st) :=
  h.foldl (fun _ die hs => hs.setPlaces die _) _

theorem closeDomain {s : State} (h : Inv s) (d : Domain) (st : Nat) : Inv (s.closeDomain d st) := by
  grind [State.closeDomain, Inv.closeEntries, iff_parts]

theorem closeTied {s : State} (h : Inv s) (q i : Nat) : Inv (s.closeTied q i) := by
  grind [State.closeTied, Inv.closeDomain, Inv.foldl, Inv.foldl_fst]

theorem comeBack {s : State} (h : Inv s) : Inv s.comeBack := by
  grind [State.comeBack, Inv.setMap, Inv.foldl, Inv.foldl_fst, iff_parts]

theorem settleDomains {s : State} (h : Inv s) : Inv s.settleDomains := by
  grind [State.settleDomains, Inv.closeDomain, Inv.comeBack, Inv.foldl, Inv.foldl_fst]

/-! ### Captures and dumps -/

theorem captureIssue {s : State} (h : Inv s) (c : Cmd) : Inv (s.captureIssue c) := by
  grind [State.captureIssue, iff_parts]

theorem captureRun {s : State} (h : Inv s) (pre : State) (c : Cmd) : Inv (s.captureRun pre c) := by
  grind [State.captureRun, iff_parts]

theorem dropCapture {s : State} (h : Inv s) (q i : Nat) : Inv (s.dropCapture q i) := by
  grind [State.dropCapture, iff_parts]

theorem endDump {s : State} (h : Inv s) (q i status detail : Nat) : Inv (s.endDump q i status detail) := by
  grind [State.endDump, Inv.failCmd, Inv.dropCapture, iff_parts]

theorem attemptDump {s : State} (h : Inv s) (c : Cmd) : Inv (s.attemptDump c) := by
  grind [State.attemptDump, Inv.setCmd, Inv.writeVA, Inv.failCmd, Inv.withAccess, Inv.dropCapture, Inv.endDump,
    iff_parts]

theorem capturePart {s : State} (h : Inv s) (k : Capture) (c : Cmd) : Inv (s.capturePart k c) := by
  grind [State.capturePart, Inv.setCmd, Inv.hazardAt, Inv.parityRead, Inv.foldl, Inv.foldl_fst, iff_parts]

theorem captureEnd {s : State} (h : Inv s) (c : Cmd) : Inv (s.captureEnd c) := by
  grind [State.captureEnd, Inv.endDump, Inv.attemptDump, Inv.capturePart, Inv.foldl, Inv.foldl_fst, iff_parts]

theorem captureClosed {s : State} (h : Inv s) : Inv s.captureClosed := by
  grind [State.captureClosed, Inv.endDump, Inv.foldl, Inv.foldl_fst]

/-! ### The Carter -/

theorem noteRow {s : State} (h : Inv s) (c : Cmd) (x : Xfer) (runs : List (Nat × Nat)) (buffer : List Nat) :
    Inv (s.noteRow c x runs buffer).1 := by
  grind [State.noteRow, Inv.noteVA, Inv.foldl, Inv.foldl_fst]

theorem askWindow {s : State} (h : Inv s) (c : Cmd) (slot : Slot) (x : Xfer) (runs : List (Int × Nat)) :
    Inv (s.askWindow c slot x runs).1 := by
  induction runs generalizing s slot with
  | nil => exact h
  | cons a as ih =>
    have hsent := h.sendTo c.q c.i slot.d x.src false (windowOffset (x.srcBase + a.1)) a.2 [] x.elem
    unfold State.askWindow
    grind

theorem formRow {s : State} (h : Inv s) (c : Cmd) (p : Partition) (x : Xfer) (slot : Slot) (buffer : List Nat) (r : Nat) :
    Inv (s.formRow c p x slot buffer r).s := by
  unfold State.formRow
  dsimp only
  split
  · grind [Inv.noteRow]
  · split
    · exact h
    · exact (h.foldl (fun _ g hs => hs.hazardAt ..) _).bump ..
  · grind [Inv.askWindow]
  · exact h

theorem countGroup {s : State} (h : Inv s) (c : Cmd) (p : Partition) (x : Xfer) (r : Nat) :
    Inv (s.countGroup c p x r) := by
  grind [State.countGroup, Inv.settleRows, Inv.countUp, Inv.foldl, Inv.foldl_fst]

theorem signalSlot {s : State} (h : Inv s) (c : Cmd) (p : Partition) (x : Xfer) : Inv (s.signalSlot c p x).1 := by
  grind [State.signalSlot, Inv.signalRows]

theorem landRowAt {w : Running} (h : Inv w.s) (p : Partition) (x : Xfer) (r : Nat) (b : List Byte) :
    Inv (State.landRowAt w p x r b).s := by
  unfold State.landRowAt
  extract_lets s0 b
  split
  · split
    · exact h
    · exact (((h.noteVA ..).writeVA ..).draw).bump ..
  · dsimp only
    split
    · exact (((foldl_fst (p := (s0, w.t)) h (fun _ _ hp => hp.landRow ..) _).countRows ..).draw).countGroup ..
    · exact ((foldl_fst (p := (s0, w.t)) h (fun _ _ hp => hp.landRow ..) _).countRows ..).draw
  · exact h.draw

theorem sendGroup {w : Running} (h : Inv w.s) (x : Xfer) : Inv (State.sendGroup w x).s := by
  grind [State.sendGroup, Inv.sendTo]

theorem endSlot {w : Running} (h : Inv w.s) (p : Partition) (x : Xfer) : Inv (State.endSlot w p x).s := by
  grind [State.endSlot, Inv.signalSlot]

theorem runRows (p : Partition) (x : Xfer) (fuel : Nat) {w : Running} (h : Inv w.s) : Inv (State.runRows_ p x fuel w).s := by
  induction fuel generalizing w with
  | zero => exact h
  | succ fuel ih =>
    have hformed := h.formRow w.c p x w.slot w.buffer w.slot.formed
    unfold State.runRows_
    dsimp only
    split
    · exact h
    · split
      · exact ih (h.sendGroup x)
      · split
        · exact h.endSlot ..
        · split
          · exact hformed
          · split
            · exact h
            · exact ih (landRowAt (w := Running.mk ..) hformed ..)

theorem settleSlot {w : Running} (h : Inv w.s) : Inv (State.settleSlot w).1 := by
  unfold State.settleSlot
  extract_lets keep failed
  split
  · exact h
  · exact h
  · exact h.askTranslation ..
  · split
    · exact h
    · exact h.pageFault ..
  · exact h
  · exact h.ledgerWrite ..
  · exact h
  · exact h
  · exact h

theorem startSlot {s : State} (h : Inv s) (c : Cmd) (p : Partition) (t : Transfer) (slot : Slot) :
    Inv (s.startSlot c p t slot).1 := by
  grind [State.startSlot, Inv.waitMask, iff_parts]

theorem runSlots (ds : List Nat) {s : State} (h : Inv s) (c : Cmd) (t : Transfer) : Inv (State.runSlots ds s c t).1 := by
  induction ds generalizing s c t with
  | nil => exact h
  | cons d ds ih =>
    unfold State.runSlots
    split
    · exact ih h ..
    next slot0 _ =>
      split
      · exact ih h ..
      · extract_lets p
        have hstart := h.startSlot c p t slot0
        split
        next s1 slot1 hslot =>
          rw [hslot] at hstart
          split
          · exact ih hstart ..
          · extract_lets x w
            have hw : Inv w.s := hstart.runRows ..
            split
            · exact hw
            · exact ih hw.settleSlot ..

theorem transferEnd {s : State} (h : Inv s) (c : Cmd) (t : Transfer) : Inv (s.transferEnd c t) := by
  grind [State.transferEnd, Inv.setCmd, Inv.traceEnd, Inv.failCmd, iff_parts]

theorem advanceMove {s : State} (h : Inv s) (c : Cmd) : Inv (s.advanceMove c) := by
  grind [State.advanceMove, Inv.parityRead, Inv.runSlots, Inv.transferEnd, iff_parts]

theorem missDeadline {s : State} (h : Inv s) (q : Nat) (point : Option (Nat × Nat × Nat)) (deadline die : Nat)
    (carter : Bool) :
    Inv (s.missDeadline q point deadline die carter) := by
  grind [State.missDeadline, Inv.setReg, Inv.bump, Inv.interrupt, Inv.dayEvent, Inv.setQueue, Inv.bumpTask, iff_parts]

theorem missSlot {s : State} (h : Inv s) (c : Cmd) (t : Transfer) (slot : Slot) (deadline : Nat) :
    Inv (s.missSlot c t slot deadline).1 := by
  grind [State.missSlot, Inv.missDeadline, iff_parts]

/-- One descriptor of a burst, whatever takes the descriptors after it. -/
theorem takeBurstStep {s : State} (h : Inv s) (b : List Byte) (bs : List (List Byte)) (rest)
    (hrest : ∀ {u : State}, Inv u → ∀ c t, Inv (rest.1 u c t).1) (c : Cmd) (t : Transfer) :
    Inv (State.takeBurst._f (b :: bs) rest s c t).1 := by
  have hs1 : Inv (if (Xfer.ofBytes b).overlaps && !c.nonRerunnable then s.bump 0x2C00 0x0F 1 else s) := by grind [Inv.bump]
  delta State.takeBurst._f
  dsimp only
  split
  · exact h
  · generalize (if (Xfer.ofBytes b).overlaps && !c.nonRerunnable then s.bump 0x2C00 0x0F 1 else s) = s1 at hs1 ⊢
    split
    · split
      · exact hrest (hs1.draw.missSlot ..) ..
      · exact hrest hs1.draw ..
    · exact hrest hs1.draw ..

theorem takeBurst (bs : List (List Byte)) {s : State} (h : Inv s) (c : Cmd) (t : Transfer) :
    Inv (State.takeBurst bs s c t).1 := by
  delta State.takeBurst
  induction bs generalizing s c t with
  | nil => exact h
  | cons b bs ih =>
    refine h.takeBurstStep b bs (List.rec _ _ bs) ?_ c t
    intro u hu c t
    exact ih hu c t

theorem wantSpace {s : State} (h : Inv s) (q need : Nat) : Inv (s.wantSpace q need) := by
  grind [State.wantSpace, Inv.bumpFree, Inv.setQueue, iff_parts]

theorem fetchBurst {s : State} (h : Inv s) (c : Cmd) : Inv (s.fetchBurst c) := by
  unfold State.fetchBurst
  split
  next t k _ _ =>
    split
    · exact h
    · extract_lets as failed
      have hfailed (code detail : Nat) : Inv (failed s code detail) := h.advanceMove _
      split
      · exact (h.askTranslation ..).setCmd _
      · split
        · exact hfailed ..
        · exact (h.pageFault ..).setCmd _
      · exact hfailed ..
      · exact h
      · split
        · exact hfailed ..
        · dsimp only
          split
          · exact (h.wantSpace ..).setCmd _
          · have hburst := takeBurst (as.map fun a => s.readVA c.region c.pasid a.va 128) (h.noteAll c.region c.pasid as) c { t with burst := false, burstPage := none }
            exact hburst.advanceMove _
  · exact h

theorem resumeMove {s : State} (h : Inv s) (c : Cmd) : Inv (s.resumeMove c) := by
  grind [State.resumeMove, Inv.bump, Inv.advanceMove, Inv.fetchBurst, iff_parts]

theorem refusePage {s : State} (h : Inv s) (c : Cmd) (bad : Nat → Bool) (code : Nat) :
    Inv (s.refusePage c bad code) := by
  grind [State.refusePage, Inv.transferEnd, Inv.foldl, Inv.foldl_fst, iff_parts]

/-! ### Running of commands -/

theorem beginTrace {s : State} (h : Inv s) (c : Cmd) : Inv (s.beginTrace c).1 := by
  grind [State.beginTrace, Inv.traceBegin, iff_parts]

theorem countSpill {s : State} (h : Inv s) (c : Cmd) (images : Nat) : Inv (s.countSpill c images) := by
  grind [State.countSpill, Inv.bump, Inv.bumpTask]

theorem scrambleSplit {s : State} (h : Inv s) (c : Cmd) : Inv (s.scrambleSplit c) := by
  grind [State.scrambleSplit, Inv.scramble, Inv.foldl, Inv.foldl_fst]

theorem trySends {s : State} (h : Inv s) (c : Cmd) (ref : Nat) (ts : List (Nat × List Byte)) : Inv (s.trySends c ref ts) := by
  induction ts generalizing s c with
  | nil =>
    unfold State.trySends
    split
    · exact h.setCmd _
    · exact (h.setCmd _).traceEnd _
  | cons t ts ih =>
    unfold State.trySends
    extract_lets elem
    have hsent := h.sendTo c.q c.i t.1 ref true 0 0 [(windowOffset (refOffset ref + t.1), t.2)] elem
    split <;> rename_i hres <;> rw [hres] at hsent
    · exact ih hsent _
    · exact ih hsent _
    · exact hsent.failCmd ..
    · exact hsent.failCmd ..
    · exact hsent.setCmd _

theorem sendOn {s : State} (h : Inv s) (c : Cmd) : Inv (s.sendOn c) := by
  grind [State.sendOn, Inv.setCmd, Inv.trySends, iff_parts]

theorem finishPlan {s : State} (h : Inv s) (pre : State) (c0 : Cmd) (p : Plan) : Inv (s.finishPlan pre c0 p) := by
  grind [State.finishPlan, Inv.setCmd, Inv.writeVA, Inv.traceEnd, Inv.layoutUndef, Inv.failCmd, Inv.countGather,
    Inv.countBusy, Inv.countMacs, Inv.captureRun, Inv.countSpill, Inv.scrambleSplit, Inv.sendOn, Inv.foldl,
    Inv.foldl_fst, iff_parts]

theorem withSheaves {s : State} (h : Inv s) (c : Cmd) (rs : List KvRead)
    (work : State → State) (hwork : ∀ u, Inv u → Inv (work u)) :
    Inv (s.withSheaves c rs work) := by
  grind [State.withSheaves, Inv.deliverKv, Inv.poisonFail, iff_parts]

theorem runPlan {s : State} (h : Inv s) (c : Cmd) : Inv (s.runPlan c) := by
  grind [State.runPlan, Inv.withAccess, Inv.beginTrace, Inv.finishPlan, Inv.withSheaves]

theorem attemptPlan {s : State} (h : Inv s) (c : Cmd) : Inv (s.attemptPlan c) := by
  grind [State.attemptPlan, Inv.setCmd, Inv.sendOn, Inv.runPlan, iff_parts]

theorem signalEnd {s : State} (h : Inv s) (c : Cmd) (mask word : Nat) (rows : List Nat) :
    Inv (s.signalEnd c mask word rows) := by
  grind [State.signalEnd, Inv.setCmd, Inv.signalRows, Inv.traceEnd, Inv.failCmd, iff_parts]

theorem attemptFill {s0 : State} (h : Inv s0) (c0 : Cmd) : Inv (s0.attemptFill c0) := by
  grind [State.attemptFill, Inv.landRow, Inv.beginTrace, Inv.signalEnd, Inv.foldl, Inv.foldl_fst]

theorem attemptCopy {s0 : State} (h : Inv s0) (c0 : Cmd) : Inv (s0.attemptCopy c0) := by
  have hbegun := h.beginTrace c0
  unfold State.attemptCopy
  split
  next s c hs =>
    rw [hs] at hbegun
    extract_lets r p cells got hz s1 src found s1b signals s2
    have hs1 : Inv s1 := hbegun.foldl (fun _ g hs => hs.hazardAt ..) _
    have hs1b : Inv s1b := hs1.foldl (fun _ g hs => hs.noteBadRow ..) _
    have hs2 : Inv s2 := hs1b.foldl (fun _ g hs => by grind [Inv.landRow, Inv.setRow]) _
    exact hs2.signalEnd ..

theorem attemptAppend {s0 : State} (h : Inv s0) (c0 : Cmd) : Inv (s0.attemptAppend c0) := by
  grind [State.attemptAppend, Inv.bump, Inv.setCmd, Inv.touchAppend, Inv.copyBlocks, Inv.writeTokens, Inv.traceEnd,
    Inv.failCmd, Inv.withAccess, Inv.captureRun, Inv.beginTrace, iff_parts]

theorem gatherMemory {s0 : State} (h : Inv s0) (c0 : Cmd) (q : Sequence) : Inv (s0.gatherMemory c0 q) := by
  grind [State.gatherMemory, Inv.setCmd, Inv.writeVA, Inv.traceEnd, Inv.withAccess, Inv.captureRun, Inv.beginTrace,
    Inv.withSheaves, Inv.foldl, Inv.foldl_fst, iff_parts]

theorem gatherLoft {s0 : State} (h : Inv s0) (c0 : Cmd) (q : Sequence) : Inv (s0.gatherLoft c0 q) := by
  grind [State.gatherLoft, Inv.setCmd, Inv.landRow, Inv.countUp, Inv.countRows, Inv.traceEnd, Inv.beginTrace,
    Inv.withSheaves, Inv.foldl, Inv.foldl_fst, iff_parts]

theorem attemptGather {s : State} (h : Inv s) (c : Cmd) : Inv (s.attemptGather c) := by
  grind [State.attemptGather, Inv.failCmd, Inv.gatherMemory, Inv.gatherLoft, iff_parts]

theorem attemptQuery {s : State} (h : Inv s) (c : Cmd) : Inv (s.attemptQuery c) := by
  grind [State.attemptQuery, Inv.setCmd, Inv.writeVA, Inv.failCmd, Inv.withAccess, iff_parts]

theorem attemptFree {s : State} (h : Inv s) (c : Cmd) : Inv (s.attemptFree c) := by
  grind [State.attemptFree, Inv.bumpFree, Inv.setCmd, Inv.releaseSeq, iff_parts]

theorem attemptSemaphore {s : State} (h : Inv s) (c : Cmd) : Inv (s.attemptSemaphore c) := by
  grind [State.attemptSemaphore, Inv.setCmd, Inv.signalMask, Inv.waitMask, Inv.failCmd, iff_parts]

theorem attemptCounter {s : State} (h : Inv s) (c : Cmd) : Inv (s.attemptCounter c) := by
  grind [State.attemptCounter, Inv.setCmd, iff_parts]

theorem pollMemory {s : State} (h : Inv s) (c : Cmd) : Inv (s.pollMemory c) := by
  grind [State.pollMemory, Inv.setCmd, Inv.withAccess, iff_parts]

theorem attemptStore {s : State} (h : Inv s) (c : Cmd) (add : Bool) : Inv (s.attemptStore c add) := by
  grind [State.attemptStore, Inv.setCmd, Inv.writeVA, Inv.withAccess, iff_parts]

theorem attemptSync {s : State} (h : Inv s) (c : Cmd) : Inv (s.attemptSync c) := by
  unfold State.attemptSync
  split
  · exact h.attemptSemaphore c
  · exact h.attemptCounter c
  · exact h.setCmd _
  · exact h.attemptStore ..
  · exact h.attemptStore ..

theorem loadImage {s : State} (h : Inv s) (c : Cmd) (b : List Byte) : Inv (s.loadImage c b) := by
  cases hcode : lowest (s.loadCodes c.recs.form b) with
  | none =>
    have hmills : Inv { s with mills := State.loadedMills s.mills c.recs.form b } := { h with }
    rw [State.loadImage_of_ok hcode]
    exact (hmills.bump ..).setCmd _
  | some code =>
    obtain ⟨free, detail, heq⟩ := State.loadImage_of_code hcode
    have hfree : Inv { s with free := free } := { h with }
    rw [heq]
    exact hfree.failCmd ..

theorem attemptTable {s : State} (h : Inv s) (c : Cmd) : Inv (s.attemptTable c) := by
  grind [State.attemptTable, Inv.setCmd, Inv.withAccess, Inv.loadImage, iff_parts]

theorem closeRelease {s : State} (h : Inv s) (q : Nat) : Inv (s.closeRelease q) := by
  grind [State.closeRelease, Inv.setQueue, iff_parts]

theorem startTimed {s : State} (h : Inv s) (c : Cmd) : Inv (s.startTimed c) := by
  grind [State.startTimed, Inv.onQueue, Inv.setCmd, Inv.closeRelease, iff_parts]

theorem dictAbort {s : State} (h : Inv s) (c : Cmd) (r : Request) (abort : Nat) : Inv (s.dictAbort c r abort) := by
  grind [State.dictAbort, Inv.countAbort, Inv.failCmd]

theorem addWindow {s : State} (h : Inv s) (q : Nat) (k : Queue) (w : State.WindowRecord) : Inv (s.addWindow q k w) := by
  grind [State.addWindow, Inv.setPart, iff_parts]

theorem dropWindow {s t : State} (h : Inv s) {pasid id : Nat} (ht : s.dropWindow pasid id = some t) : Inv t := by
  unfold State.dropWindow at ht
  obtain ⟨w, -, rfl⟩ := Option.map_eq_some_iff.1 ht
  grind [Inv.setPart, iff_parts]

theorem openWindow {s : State} (h : Inv s) (c : Cmd) (req : Request) (b : List Byte) : Inv (s.openWindow c req b) := by
  unfold State.openWindow
  extract_lets w
  split
  · exact h
  · split
    · exact h.dictAbort ..
    · split
      · exact h.stall ..
      · exact (h.addWindow ..).setCmd _

theorem closeWindow {s : State} (h : Inv s) (c : Cmd) (req : Request) (id : Nat) : Inv (s.closeWindow c req id) := by
  unfold State.closeWindow
  split
  · exact h.dictAbort ..
  next hs => exact (h.dropWindow hs).setCmd _

theorem attemptDict {s : State} (h : Inv s) (c : Cmd) : Inv (s.attemptDict c) := by
  grind [State.attemptDict, Inv.bump, Inv.setCmd, Inv.writeVA, Inv.withAccess, Inv.dictAbort, Inv.openWindow,
    Inv.closeWindow, iff_parts]

theorem attempt {s : State} (h : Inv s) (c : Cmd) : Inv (s.attempt c) := by
  grind [State.attempt, Inv.setCmd, Inv.beginTrace, Inv.attemptPlan, Inv.attemptFill, Inv.attemptCopy,
    Inv.attemptAppend, Inv.attemptGather, Inv.attemptQuery, Inv.attemptFree, Inv.attemptSync, Inv.attemptTable,
    Inv.startTimed, Inv.attemptDict, iff_parts]

/-! ### Issue -/

theorem served {s : State} (h : Inv s) (q : Nat) (k : Queue) : Inv (s.served q k) := by
  grind [State.served, Inv.bump, Inv.onQueue, iff_parts]

theorem elapse {s : State} (h : Inv s) (n : Nat) : Inv (s.elapse n) := { h with }

theorem lockSeq {s : State} (h : Inv s) (id : Nat) (up : Bool) : Inv (s.lockSeq id up) := by
  grind [State.lockSeq, Inv.setSeq, iff_parts]

theorem drawStaging {s : State} (h : Inv s) (q n : Nat) : Inv (s.drawStaging q n) := by
  grind [State.drawStaging, Inv.setQueue, iff_parts]

theorem reserveAppend {s : State} (h : Inv s) (c : Cmd) : Inv (s.reserveAppend c).1 := by
  grind [State.reserveAppend, Inv.takeSheaves, Inv.evictFor, Inv.lockSeq, Inv.drawStaging, iff_parts]

theorem createKv {s : State} (h : Inv s) (c : Cmd) : Inv (s.createKv c).1 := by
  grind [State.createKv, Inv.newSeq, iff_parts]

theorem shareKv {s : State} (h : Inv s) (c : Cmd) : Inv (s.shareKv c).1 := by
  grind [State.shareKv, Inv.setSeq, Inv.addRef, Inv.evictFor, Inv.newSeq, Inv.beginRead, Inv.lockSeq, Inv.foldl,
    Inv.foldl_fst, iff_parts]

theorem truncateKv {s : State} (h : Inv s) (c : Cmd) : Inv (s.truncateKv c).1 := by
  grind [State.truncateKv, Inv.setSeq, Inv.truncateLayer, Inv.foldl, Inv.foldl_fst, iff_parts]

theorem kvAtIssue {s : State} (h : Inv s) (c : Cmd) : Inv (s.kvAtIssue c).1 := by
  grind [State.kvAtIssue, Inv.setSeq, Inv.reserveAppend, Inv.createKv, Inv.shareKv, Inv.truncateKv, iff_parts]

theorem kvShort {s : State} (h : Inv s) (c : Cmd) (m : Nat) : ∀ t, s.kvShort c m = some t → Inv t.1 := by
  grind [State.kvShort, Inv.kvAtIssue, iff_parts]

theorem sampleReads {s : State} (h : Inv s) (c : Cmd) : Inv (s.sampleReads c).1 := by
  grind [State.sampleReads, Inv.beginRead, Inv.foldl, Inv.foldl_fst, iff_parts]

theorem sampleIssue {s : State} (h : Inv s) (k : Queue) (c0 : Cmd) : Inv (s.sampleIssue k c0).1 := by
  grind [State.sampleIssue, Inv.bump, Inv.setCmd, Inv.traceBegin, Inv.captureIssue, Inv.sampleReads, iff_parts]

theorem issueCmd {s : State} (h : Inv s) (k : Queue) (c0 : Cmd) : Inv (s.issueCmd k c0) := by
  grind [State.issueCmd, Inv.attempt, Inv.sampleIssue]

theorem consider {s : State} (h : Inv s) (k : Queue) (c : Cmd) (fresh : Bool) : Inv (s.consider k c fresh) := by
  have hissue := h.kvAtIssue c
  unfold State.consider
  generalize s.kvAtIssue c = issue at hissue
  obtain ⟨s1, r⟩ := issue
  extract_lets take need
  have htake {t : State} (ht : Inv t) : Inv (take t) := by grind [Inv.served, Inv.dropCmd]
  clear_value take need
  split
  · split
    next hshort => exact (htake (h.kvShort _ _ _ hshort)).refuse ..
    · exact (htake h).refuse ..
  · split
    · exact h.wantSpace ..
    · cases r with
      | error e => exact (htake hissue).refuse ..
      | ok c1 =>
        dsimp -zeta only
        extract_lets t s2
        have hs2 : Inv s2 := by
          simp only [s2]
          split
          · exact (hissue.served ..).withCmds _
          · exact hissue
        clear_value s2
        split
        · exact hs2.issueCmd ..
        · exact hs2

theorem lostRecord {s : State} (h : Inv s) (c : Cmd) (line : Nat) : Inv (s.lostRecord c line) := by
  grind [State.lostRecord, Inv.ledgerWrite, iff_parts]

theorem failAtCheck {s : State} (h : Inv s) (q : Nat) (k : Queue) (c : Cmd) (code detail : Nat) :
    Inv (s.failAtCheck q k c code detail) := by
  unfold State.failAtCheck
  extract_lets low
  split
  next hshort => exact ((h.kvShort _ _ _ hshort).served ..).refuse ..
  · split
    · exact (h.served ..).refuse ..
    · exact (h.served ..).failUnissued ..

theorem issueNext {s : State} (h : Inv s) (takes : Recs → Bool) (q : Nat) : Inv (s.issueNext takes q) := by
  unfold State.issueNext
  split
  · exact h
  next k _ =>
    split
    · exact h
    · extract_lets port va wait desc r0 rd as c c' s1 t
      have hwait {t : State} (ht : Inv t) (a : Nat) (desc fault : Bool) : Inv (wait t a desc fault) := ht.onQueue ..
      clear_value wait
      split
      · exact hwait (h.askTranslation ..) ..
      · split
        · exact h.queueError ..
        · exact hwait (h.pageFault ..) ..
      · exact h.queueError ..
      · split
        · exact h
        · split
          · exact (h.lostRecord ..).queueError ..
          · split
            · exact h.failAtCheck ..
            · split
              · exact hwait (h.askTranslation ..) ..
              · split
                · exact h.failAtCheck ..
                · exact hwait (h.pageFault ..) ..
              · exact h.failAtCheck ..
              · exact h
              · split
                · exact (h.lostRecord ..).failAtCheck ..
                · have hs1 : Inv s1 := h.foldl (fun _ a hs => hs.noteVA ..) _
                  have ht : Inv t := by grind [Inv.served, Inv.bumpFree]
                  clear_value s1 t
                  split
                  · exact ht.withCmds _
                  · exact hs1.consider ..

/-! ### Space of partitions -/

theorem resumeCmd {s : State} (h : Inv s) (c : Cmd) : Inv (s.resumeCmd c) := by
  grind [State.resumeCmd, Inv.attemptDump, Inv.resumeMove, Inv.sendOn, Inv.attempt, iff_parts]

theorem resumeThose {s : State} (h : Inv s) (pick : Cmd → Bool) : Inv (s.resumeThose pick) := by
  grind [State.resumeThose, Inv.resumeCmd, Inv.foldl, Inv.foldl_fst, iff_parts]

theorem areaReach {s : State} (h : Inv s) (q : Nat) (k : Queue) : Inv (s.areaReach q k).1 := by
  -- unfolded in a hypothesis: in the goal the kernel would walk the bytes of the area
  generalize hreached : s.areaReach q k = reached
  unfold State.areaReach at hreached
  extract_lets try_ at hreached
  have htry {a : State × Bool} (ha : Inv a.1) (kind : Nat) : Inv (try_ a kind).1 := by
    simp only [try_]
    split
    · exact ha
    · split
      · exact ha
      · exact ha.askTranslation ..
      · dsimp only
        split
        · exact ha
        · exact ha.pageFault ..
      · exact ha
  clear_value try_
  rw [← hreached]
  exact htry (htry h _) _

theorem saveQueue {s : State} (h : Inv s) (q : Nat) (k : Queue) : Inv (s.saveQueue q k).1 := by
  have harea := h.areaReach q k
  unfold State.saveQueue
  generalize s.areaReach q k = reached at harea
  obtain ⟨s0, ok⟩ := reached
  have hscramble {t : State} (ht : Inv t) (va n : Nat) (x : Queue) :
      Inv ((t.scramble k.region k.pasid va n).setQueue q x) := (ht.scramble ..).setQueue ..
  generalize State.areaBytes k = n
  split
  · exact h
  · dsimp only
    split
    · exact h
    · split
      · exact harea
      · exact hscramble (h.setPart ..) ..

theorem makeRoom {s : State} (h : Inv s) (k : Queue) (n : Nat) : Inv (s.makeRoom k n) := by
  grind [State.makeRoom, Inv.saveQueue, Inv.foldl, Inv.foldl_fst, iff_parts]

theorem giveUnits {s : State} (h : Inv s) (k : Queue) (units : Nat) : ∀ t, s.giveUnits k units = some t → Inv t.1 := by
  intro t ht
  unfold State.giveUnits at ht
  split at ht
  next e _ =>
    extract_lets p s0 at ht
    have hs0 : Inv s0 := by grind [Inv.setPart]
    clear_value s0
    split at ht
    · cases ht
    next s1 hs1 =>
      have hs1 := hs0.resizePart _ _ _ _ _ hs1
      split at ht <;> cases ht
      · exact hs1.restorePart ..
      · exact hs1
  · extract_lets mask at ht
    split at ht
    · extract_lets at ht
      obtain ⟨s1, hs1, rfl⟩ := Option.map_eq_some_iff.1 ht
      exact ((h.setPart ..).resizePart _ _ _ _ _ hs1).clearMarks ..
    · cases ht

theorem resumeBursts {s : State} (h : Inv s) (q : Nat) : Inv (s.resumeBursts q) := by
  grind [State.resumeBursts, Inv.fetchBurst, Inv.foldl, Inv.foldl_fst, iff_parts]

theorem grantSpace {s : State} (h : Inv s) (q : Nat) : Inv (s.grantSpace q) := by
  unfold State.grantSpace
  split
  · exact h
  next k _ =>
    split
    · exact h
    · extract_lets units holds extra s0
      have hs0 : Inv s0 := h.makeRoom ..
      split
      · exact hs0.bumpFree ..
      · split
        · exact hs0.bumpFree ..
        next s1 e hgive =>
          have hs1 : Inv { s1 with issued := s1.issued + 1 } := { hs0.giveUnits _ _ _ hgive with }
          exact ((hs1.setQueue ..).resumeBursts _).resumeThose _

theorem orderYield {s : State} (h : Inv s) (region : Nat) : Inv (s.orderYield region) := by
  grind [State.orderYield, Inv.bump, Inv.setQueue, iff_parts]

theorem yieldQueue {s : State} (h : Inv s) (q : Nat) : Inv (s.yieldQueue q) := by
  grind [State.yieldQueue, Inv.setQueue, Inv.onQueue, Inv.saveTiles, Inv.saveQueue, iff_parts]

/-! ### Events of waiting commands -/

theorem settle {s : State} (h : Inv s) : Inv s.settle := by
  grind [State.settle, Inv.attempt, Inv.foldl, Inv.foldl_fst, iff_parts]

theorem complete {s : State} (h : Inv s) (c : Cmd) : Inv (s.complete c) := by
  grind [State.complete, Inv.tryRecord, Inv.closeTied, Inv.captureEnd, Inv.settle]

theorem completeCmd {s : State} (h : Inv s) (q i : Nat) : Inv (s.completeCmd q i) := by
  grind [State.completeCmd, Inv.complete, iff_parts]

theorem rerun {s : State} (h : Inv s) (c : Cmd) (given : Bool) : Inv (s.rerun c given) := by
  grind [State.rerun, Inv.bump, Inv.setCmd, Inv.bumpTask, Inv.traceEnd, Inv.failCmd, Inv.escalate, Inv.attempt,
    iff_parts]

theorem onWait {s : State} (h : Inv s) (q i : Nat) (is : Cmd → Bool)
    (go : State → Cmd → State) (hgo : ∀ u c, Inv u → Inv (go u c)) :
    Inv (s.onWait q i is go) := by
  grind [State.onWait, iff_parts]

theorem semaphoreWait {s : State} (h : Inv s) (q i : Nat) (d : Option Nat) : Inv (s.semaphoreWait q i d) := by
  cases d with
  | none => exact h.onWait _ _ _ _ fun _ c hu => hu.attempt c
  | some n => exact h.onWait _ _ _ _ fun _ c hu => hu.advanceMove c

theorem signalTimes {s : State} (h : Inv s) (p : Partition) (region mask : Nat) (w : SemWord) (n : Nat) :
    Inv (s.signalTimes p region mask w n).1 := by
  grind [State.signalTimes, Inv.signalMask, Inv.foldl, Inv.foldl_fst]

theorem startTile {s0 : State} (h : Inv s0) (c0 : Cmd) (tile : Nat) : Inv (s0.startTile c0 tile) := by
  grind [State.startTile, Inv.bumpFree, Inv.setCmd, Inv.hazardAt, Inv.failCmd, Inv.parityRead, Inv.beginTrace,
    Inv.attempt, Inv.signalTimes, Inv.foldl, Inv.foldl_fst, iff_parts]

theorem gatedTile {s : State} (h : Inv s) (q i tile : Nat) : Inv (s.gatedTile q i tile) := by
  grind [State.gatedTile, Inv.setCmd, Inv.onWait, Inv.startTile, iff_parts]

theorem gateTimeout {s : State} (h : Inv s) (q i : Nat) : Inv (s.gateTimeout q i) := by
  grind [State.gateTimeout, Inv.bump, Inv.bumpFree, Inv.failCmd, Inv.missDeadline, Inv.onWait, iff_parts]

theorem endDescriptor {s : State} (h : Inv s) (q i d : Nat) : Inv (s.endDescriptor q i d) := by
  grind [State.endDescriptor, Inv.advanceMove, iff_parts]

theorem granaryRelease {s : State} (h : Inv s) (q i : Nat) : Inv (s.granaryRelease q i) := by
  grind [State.granaryRelease, Inv.attempt, Inv.consider, iff_parts]

theorem releasePoint {s : State} (h : Inv s) (q i dt : Nat) : Inv (s.releasePoint q i dt) := by
  grind [State.releasePoint, Inv.setCmd, Inv.elapse, iff_parts]

theorem releaseFence {s : State} (h : Inv s) (q i : Nat) : Inv (s.releaseFence q i) := by
  grind [State.releaseFence, Inv.setCmd, Inv.complete, iff_parts]

theorem lapse {s : State} (h : Inv s) (place : Nat) : Inv (s.lapse place) := by
  grind [State.lapse, Inv.endDump, iff_parts]

/-! ### Translations and page requests -/

theorem install {s : State} (h : Inv s) (port : Nat) (e : Entry) : Inv (s.install port e) := by
  grind [State.install, Inv.setCarterEntries, Inv.setDieEntries]

theorem withTransient {s : State} (h : Inv s) (die : Nat) (e : Entry)
    (go : State → State) (hgo : ∀ u, Inv u → Inv (go u)) :
    Inv (s.withTransient die e go) := by
  grind [State.withTransient, iff_parts]

theorem dropStale {s : State} (h : Inv s) (p : PageReq) : Inv (s.dropStale p) := by
  grind [State.dropStale, iff_parts]

theorem wakeIssue {s : State} (h : Inv s) (die pasid page : Nat) : Inv (s.wakeIssue die pasid page) := by
  unfold State.wakeIssue
  refine h.foldl (fun t e ht => ?_) _
  split
  · exact ht
  next k _ =>
    split
    · exact ht
    · split
      · exact ht
      · extract_lets stop
        have hstop (code detail : Nat) : Inv (stop t code detail) := by
          simp only [stop]
          split
          · exact ht.queueError ..
          · exact ht.setQueue ..
        clear_value stop
        split
        · exact ht.setQueue ..
        · exact ht.setQueue ..
        · split
          · exact hstop ..
          · exact (ht.setQueue ..).pageFault ..
        · exact hstop ..

theorem proceed {s : State} (h : Inv s) (c : Cmd) : Inv (s.proceed c) := by
  grind [State.proceed, Inv.setCmd, Inv.faultCmd, Inv.attemptDump, Inv.advanceMove, Inv.fetchBurst, Inv.attempt,
    Inv.complete, iff_parts]

theorem wake {s : State} (h : Inv s) (port pasid page : Nat) : Inv (s.wake port pasid page) := by
  grind [State.wake, Inv.wakeIssue, Inv.proceed, Inv.foldl, Inv.foldl_fst, iff_parts]

theorem countParked {s : State} (h : Inv s) (pasid : Nat) : Inv (s.countParked pasid) := by
  grind [State.countParked, Inv.draw, Inv.bumpTask]

theorem restoreTiles {s : State} (h : Inv s) (pasid : Nat) : Inv (s.restoreTiles pasid) := by
  grind [State.restoreTiles, iff_parts]

theorem askRestore {s : State} (h : Inv s) (pasid : Nat) : Inv (s.askRestore pasid) := by
  grind [State.askRestore, iff_parts]

theorem goOn {s : State} (h : Inv s) (pasid : Nat) : Inv (s.goOn pasid) := by
  grind [State.goOn, Inv.resumeThose, Inv.complete, Inv.countParked, Inv.restoreTiles, Inv.askRestore, Inv.foldl,
    Inv.foldl_fst, iff_parts]

theorem unpark {s : State} (h : Inv s) (pasid : Nat) : Inv (s.unpark pasid) := by
  grind [State.unpark, Inv.goOn, iff_parts]

theorem unparkFree {s : State} (h : Inv s) (pasids : List Nat) : Inv (s.unparkFree pasids) := by
  grind [State.unparkFree, Inv.unpark, Inv.foldl, Inv.foldl_fst]

theorem dropPages {s : State} (h : Inv s) (bad : PageReq → Bool) : Inv (s.dropPages bad) := by
  grind [State.dropPages, Inv.pumpPages, iff_parts]

theorem releasePage {s : State} (h : Inv s) (p : PageReq) : Inv (s.releasePage p) := by
  grind [State.releasePage, iff_parts]

theorem failWaiters {s : State} (h : Inv s) (pasid : Nat) (bad : Nat → Bool) (code : Nat) :
    Inv (s.failWaiters pasid bad code) := by
  grind [State.failWaiters, Inv.setQueue, Inv.dropCmd, Inv.queueError, Inv.failCmd, Inv.settleGranary, Inv.refusePage,
    Inv.foldl, Inv.foldl_fst, iff_parts]

theorem failPages {s : State} (h : Inv s) (bad : PageReq → Bool) (code : Nat) : Inv (s.failPages bad code) := by
  grind [State.failPages, Inv.unparkFree, Inv.dropPages, Inv.failWaiters, Inv.foldl, Inv.foldl_fst]

theorem answerPage {s : State} (h : Inv s) (p : PageReq) (granted : Bool) : Inv (s.answerPage p granted) := by
  grind [State.answerPage, Inv.bump, Inv.send, Inv.unparkFree, Inv.dropPages, Inv.releasePage, Inv.failPages,
    iff_parts]

theorem translated {s : State} (h : Inv s) (die pasid va : Nat) (answer : TransAnswer) : Inv (s.translated die pasid va answer) := by
  unfold State.translated
  extract_lets same page
  have hwake {t : State} (ht : Inv t) (port : Nat) : Inv (t.wake port pasid page) := ht.wake ..
  split
  · exact h
  next r _ =>
    extract_lets s0 page? s1 s2
    have hs0 : Inv s0 := { h with }
    have hs1 : Inv s1 := by grind [Inv.answerPage]
    have hs2 : Inv s2 := by grind [Inv.failPages]
    clear_value s0 page? s1 s2
    split
    · exact hs0.askTranslation ..
    · split
      · split
        · exact h
        · dsimp only
          split
          · exact hwake ((hs0.install ..).answerPage ..) _
          · exact hwake (hs0.install ..) _
      · exact hs1.withTransient _ _ _ fun _ hu => hwake hu _
      · exact hs2.withTransient _ _ _ fun _ hu => hwake hu _

theorem pageResponse {s : State} (h : Inv s) (die pasid page : Nat) (answer : PageAnswer) :
    Inv (s.pageResponse die pasid page answer) := by
  grind [State.pageResponse, Inv.askTranslation, Inv.answer, Inv.dropStale, Inv.failPages, iff_parts]

theorem pageTimeout {s : State} (h : Inv s) (die pasid page : Nat) : Inv (s.pageTimeout die pasid page) := by
  grind [State.pageTimeout, Inv.failPages, iff_parts]

theorem endInvalidation {s : State} (h : Inv s) (pasid va bytes : Nat) : Inv (s.endInvalidation pasid va bytes) := by
  grind [State.endInvalidation, Inv.bump, Inv.send]

theorem invalidate {s : State} (h : Inv s) (pasid va bytes : Nat) : Inv (s.invalidate pasid va bytes) := by
  grind [State.invalidate, Inv.dropEntries, Inv.endInvalidation, iff_parts]

theorem invalidated {s : State} (h : Inv s) (pasid va bytes : Nat) : Inv (s.invalidated pasid va bytes) := by
  grind [State.invalidated, Inv.endInvalidation, iff_parts]

/-! ### Queues -/

theorem doorbell {s : State} (h : Inv s) (q : Nat) (ok : Queue → Bool) (take : Queue → Queue) :
    Inv (s.doorbell q ok take) := by
  grind [State.doorbell, Inv.bump, Inv.send, Inv.setQueue, Inv.queueError, Inv.shrinkQueue, iff_parts]

theorem doorbellTail {s : State} (h : Inv s) (q v : Nat) : Inv (s.doorbellTail q v) := by
  grind [State.doorbellTail, Inv.doorbell, iff_parts]

theorem doorbellHead {s : State} (h : Inv s) (q v : Nat) : Inv (s.doorbellHead q v) := by
  grind [State.doorbellHead, Inv.doorbell, iff_parts]

theorem placeIn {s : State} (h : Inv s) (q w region : Nat) : Inv (s.placeIn q w region).1 := by
  unfold State.placeIn
  extract_lets k s1
  have hs1 : Inv s1 := h.makeRoom ..
  clear_value s1
  split
  · exact h
  · split
    · exact h.setQueue ..
    · split
      next t hgive =>
        split at hgive
        · exact (hs1.giveUnits _ _ _ hgive).setQueue ..
        · cases hgive
      · exact hs1

theorem place {s : State} (h : Inv s) (q w : Nat) : Inv (s.place q w).1 := by
  grind [State.place, Inv.placeIn, Inv.foldl, Inv.foldl_fst]

theorem tryBind_error {s : State} (h : Inv s) {q w : Nat} {e : Nat × State} (he : s.tryBind q w = .error e) : Inv e.2 := by
  have hplace := h.place q w
  unfold State.tryBind at he
  generalize s.place q w = placed at hplace he
  obtain ⟨s1, ok⟩ := placed
  dsimp only at he
  split at he
  · cases he; exact h
  · split at he
    · cases he; exact h
    · cases ok <;> cases he
      exact hplace

theorem tryBind_ok {s t : State} (h : Inv s) {q w : Nat} (ht : s.tryBind q w = .ok t) : Inv t := by
  have hplace := h.place q w
  unfold State.tryBind at ht
  generalize s.place q w = placed at hplace ht
  obtain ⟨s1, ok⟩ := placed
  dsimp only at ht
  split at ht
  · cases ht
  · split at ht
    · cases ht
    · cases ok <;> cases ht
      exact { hplace with }

theorem openTask {s : State} (h : Inv s) (pasid : Nat) : Inv (s.openTask pasid) := by
  grind [State.openTask, iff_parts]

theorem bindQueue {s : State} (h : Inv s) (q w : Nat) : Inv (s.bindQueue q w) := by
  unfold State.bindQueue
  split
  next hbind => exact (h.tryBind_error hbind).setReg ..
  next hbind => exact (((h.tryBind_ok hbind).onQueue ..).openTask _).setReg ..

theorem stopQueue {s : State} (h : Inv s) (q : Nat) : Inv (s.stopQueue q) := by
  grind [State.stopQueue, Inv.onQueue, iff_parts]

theorem startQueue {s : State} (h : Inv s) (q : Nat) : Inv (s.startQueue q) := by
  grind [State.startQueue, Inv.onQueue, iff_parts]

theorem releaseQueue {s : State} (h : Inv s) (q : Nat) (k : Queue) : Inv (s.releaseQueue q k) := by
  grind [State.releaseQueue, Inv.setPart, iff_parts]

theorem unbindQueue {s : State} (h : Inv s) (q : Nat) : Inv (s.unbindQueue q) := by
  grind [State.unbindQueue, Inv.setReg, Inv.releaseQueue, iff_parts]

/-! ### Freezes, breakpoints and scopes -/

theorem orderFreeze {s : State} (h : Inv s) (t : Nat) : Inv (s.orderFreeze t) := by
  grind [State.orderFreeze, Inv.bump, iff_parts]

theorem withObs {s : State} (h : Inv s) (o : Observe) (halts : o.halts = s.obs.halts) (next : o.haltNext = s.obs.haltNext) :
    Inv { s with obs := o } :=
  { h with halts := by simpa only [halts, next] using h.halts }

theorem thaw {s : State} (h : Inv s) : Inv s.thaw := by
  unfold State.thaw
  dsimp only
  have hclear := (h.withObs { s.obs with frozen := false, snapshot := [], snapshotTasks := [], missed := none } rfl rfl).dayEvent
    s.noticeDie 0 0 0 9 0
  split
  · exact h
  · split
    · exact hclear
    · split
      · exact hclear
      · exact (hclear.setReg ..).withObs _ rfl rfl

theorem freezeOn {s : State} (h : Inv s) (die dt : Nat) : Inv (s.freezeOn die dt) := by
  grind [State.freezeOn, Inv.dayEvent, Inv.elapse, iff_parts]

theorem daySync {s : State} (h : Inv s) (die : Nat) : Inv (s.daySync die) := by
  grind [State.daySync, Inv.setDaybook, Inv.dayEvent, iff_parts]

theorem syncDue {s : State} (h : Inv s) (die dt : Nat) : Inv (s.syncDue die dt) := by
  grind [State.syncDue, Inv.elapse, Inv.daySync]

theorem resumeHeld {s : State} (h : Inv s) : Inv s.resumeHeld := by
  grind [State.resumeHeld, Inv.resumeThose]

theorem setBreakpoint {s : State} (h : Inv s) (b w : Nat) : Inv (s.setBreakpoint b w) := by
  grind [State.setBreakpoint, Inv.resumeHeld, iff_parts]

theorem haltTask {s : State} (h : Inv s) (die : Nat) (r : HaltRecord) : Inv (s.haltTask die r) := by
  grind [State.haltTask, Inv.dayEvent, Inv.putHalt, iff_parts]

theorem hit {s : State} (h : Inv s) (b loc offset : Nat) (image : List Byte) (cmd : Option (Nat × Nat)) :
    Inv (s.hit b loc offset image cmd) := by
  unfold State.hit
  dsimp only
  split
  · exact h
  · split
    · split
      · exact h.haltTask ..
      · exact h
    · split
      · exact h
      · split
        · exact (h.setCmd _).haltTask ..
        · exact h
    · exact h

theorem resumeTask {s : State} (h : Inv s) (pasid : Nat) : Inv (s.resumeTask pasid) := by
  grind [State.resumeTask, Inv.goOn, iff_parts]

theorem breakResume {s : State} (h : Inv s) (pasid : Nat) : Inv (s.breakResume pasid).1 := by
  grind [State.breakResume, Inv.hit, Inv.resumeTask]

theorem closeScopes {s : State} (h : Inv s) (mask : Nat) : Inv (s.closeScopes mask) := by
  grind [State.closeScopes, Inv.captureClosed, Inv.resumeHeld, Inv.resumeTask, Inv.foldl, Inv.foldl_fst, iff_parts]

/-! ### Cadence -/

theorem setReel {s : State} (h : Inv s) (die : Nat) (r : Reel) : Inv (s.setReel die r) := by
  grind [State.setReel, iff_parts]

theorem timeBus {s0 : State} (h : Inv s0) (die bus dt : Nat) : Inv (s0.timeBus die bus dt) := by
  grind [State.timeBus, Inv.bump, Inv.elapse, Inv.setReel, iff_parts]

theorem busLost {s0 : State} (h : Inv s0) (die dt : Nat) : Inv (s0.busLost die dt) := by
  grind [State.busLost, Inv.bump, Inv.elapse, Inv.setReel, iff_parts]

theorem noteRate {s : State} (h : Inv s) (c : Nat) (old : Nat × Nat) : Inv (s.noteRate c old) := by
  grind [State.noteRate, Inv.setInput, iff_parts]

theorem forgetFrames {s : State} (h : Inv s) (c : Nat) (pick : Nat → Bool) : Inv (s.forgetFrames c pick) := by
  grind [State.forgetFrames, iff_parts]

theorem beginFrame {s : State} (h : Inv s) (c t : Nat) (received : Bool) : Inv (s.beginFrame c t received) := by
  grind [State.beginFrame, Inv.setInput, Inv.forgetFrames, iff_parts]

theorem flywheel {s : State} (h : Inv s) (c : Nat) : Inv (s.flywheel c) := by
  grind [State.flywheel, Inv.bump, Inv.beginFrame]

theorem flywheels (c fuel : Nat) {s : State} (h : Inv s) : Inv (State.flywheels c fuel s) := by
  induction fuel generalizing s with
  | zero => exact h
  | succ fuel ih =>
    unfold State.flywheels
    dsimp only
    split
    · exact ih (h.flywheel c)
    · exact h

theorem pulse {s : State} (h : Inv s) (c dt : Nat) : Inv (s.pulse c dt) := by
  have hnow := h.elapse dt
  unfold State.pulse
  dsimp only
  split
  · exact hnow
  · split
    · exact hnow.beginFrame ..
    · split
      · exact (hnow.flywheels ..).bump ..
      · exact (hnow.flywheels ..).beginFrame ..

theorem windowEnd {s0 : State} (h : Inv s0) (c dt : Nat) : Inv (s0.windowEnd c dt) := by
  grind [State.windowEnd, Inv.elapse, Inv.flywheel]

theorem markFired {s : State} (h : Inv s) (e frame : Nat) : Inv (s.markFired e frame) := by
  grind [State.markFired, iff_parts]

theorem spend {s : State} (h : Inv s) (x : DueEvent) : Inv (s.spend x) := by
  grind [State.spend, Inv.markFired, iff_parts]

theorem fireRelease {s : State} (h : Inv s) (e w frame : Nat) (boost : Bool) : Inv (s.fireRelease e w frame boost) := by
  grind [State.fireRelease, Inv.bump, iff_parts]

theorem releaseEntry {s0 : State} (h : Inv s0) (e dt kind : Nat) : Inv (s0.releaseEntry e dt kind) := by
  grind [State.releaseEntry, Inv.elapse, Inv.spend, Inv.fireRelease, iff_parts]

theorem snapshotEntry {s0 : State} (h : Inv s0) (e dt : Nat) : Inv (s0.snapshotEntry e dt) := by
  grind [State.snapshotEntry, Inv.elapse, Inv.orderFreeze, Inv.spend, iff_parts]

theorem missQueues {s : State} (h : Inv s) (qs : List Nat) (d : Due) (carries : Cmd → Bool) :
    Inv (s.missQueues qs d carries) := by
  grind [State.missQueues, Inv.missDeadline, Inv.foldl, Inv.foldl_fst, iff_parts]

theorem judgeRelease {s : State} (h : Inv s) (r : Release) (d : Due) : Inv (s.judgeRelease r d) := by
  grind [State.judgeRelease, Inv.missQueues, iff_parts]

theorem judgeTimed {s : State} (h : Inv s) (q : Nat) (d : Due) : Inv (s.judgeTimed q d) := by
  grind [State.judgeTimed, Inv.onQueue, Inv.missQueues, iff_parts]

theorem checkDeadline {s : State} (h : Inv s) (e : Option Nat) (q dt : Nat) : Inv (s.checkDeadline e q dt) := by
  have hnow := h.elapse dt
  cases e with
  | some n =>
    unfold State.checkDeadline
    dsimp only
    split
    · exact h
    · split
      · exact h
      · split
        · exact hnow.judgeRelease ..
        · exact h
  | none =>
    unfold State.checkDeadline
    dsimp only
    split
    · exact h
    · split
      · exact hnow.judgeTimed ..
      · exact h

theorem transferDue {s : State} (h : Inv s) (q i d dt : Nat) : Inv (s.transferDue q i d dt) := by
  have hnow := h.elapse dt
  unfold State.transferDue
  generalize s.elapse dt = now at hnow
  extract_lets now'
  split
  · exact h
  · split
    · exact h
    next t _ =>
      split
      · exact h
      · split
        · exact h
        · extract_lets onTime
          clear_value onTime
          split
          · exact h
          · exact (hnow.missSlot _ t ..).setCmd _

theorem noteDegraded {s : State} (h : Inv s) : Inv s.noteDegraded := by
  grind [State.noteDegraded, iff_parts]

theorem closeEpoch {s : State} (h : Inv s) (t : Nat) : Inv (s.closeEpoch t) := by
  grind [State.closeEpoch, iff_parts]

theorem endEpoch {s : State} (h : Inv s) (e : Option Nat) (dt : Nat) : Inv (s.endEpoch e dt) := by
  have hnow := h.elapse dt
  unfold State.endEpoch
  generalize s.elapse dt = now at hnow
  cases e with
  | none =>
    dsimp only
    split
    · exact h
    · split
      · exact hnow.closeEpoch _
      · exact h
  | some n =>
    dsimp only
    split
    · split
      · exact (hnow.spend _).closeEpoch _
      · exact h
    · exact h

theorem decideEpoch {s : State} (h : Inv s) (dt : Nat) : Inv (s.decideEpoch dt) := by
  have hnow := h.elapse dt
  unfold State.decideEpoch
  generalize s.elapse dt = now at hnow
  dsimp only
  split
  · exact h
  next e _ _ =>
    generalize (if e.degraded = true then 20000000 else 16000000) = wait
    split
    · exact h
    · refine dayEvent ?_ ..
      exact { hnow with inputs := hnow.inputs, schedule := hnow.schedule }

theorem abandon {s : State} (h : Inv s) (pick counts : Due → Bool) : Inv (s.abandon pick counts) := by
  grind [State.abandon, Inv.bump, iff_parts]

theorem armEntry {s : State} (h : Inv s) (e from_ : Nat) : Inv (s.armEntry e from_) := by
  grind [State.armEntry, Inv.markFired, iff_parts]

theorem oweEntry {s : State} (h : Inv s) (e : Nat) : Inv (s.oweEntry e) := by
  grind [State.oweEntry, iff_parts]

theorem withSchedule {s : State} (h : Inv s) (cmds : List Cmd) (b : Bellman) (inputs : b.inputs = s.bell.inputs)
    (schedule : Table.rising b.schedule = true) : Inv { s with cmds := cmds, bell := b } :=
  { h with inputs := by simpa only [inputs] using h.inputs, schedule := schedule }

theorem setSchedule {s : State} (h : Inv s) (e w : Nat) : Inv (s.setSchedule e w) := by
  have howed := h.oweEntry e
  unfold State.setSchedule
  dsimp only
  refine Inv.armEntry (howed.withSchedule _ _ ?_ ?_) ..
  · rfl
  dsimp only
  split
  · exact Table.rising_filter _ howed.schedule
  · exact Table.rising_put _ _ howed.schedule

theorem changeMode {s : State} (h : Inv s) (cadence : Bool) : Inv (s.changeMode cadence) := by
  grind [State.changeMode, Inv.abandon, Inv.armEntry, Inv.foldl, Inv.foldl_fst, iff_parts]

theorem enableInput {s : State} (h : Inv s) (c : Nat) (on : Bool) : Inv (s.enableInput c on) := by
  grind [State.enableInput, Inv.setInput, Inv.forgetFrames, Inv.abandon, iff_parts]

/-! ### Ports and messages of other packages -/

theorem portFault {s : State} (h : Inv s) (p lane code : Nat) : Inv (s.portFault p lane code) := by
  grind [State.portFault, Inv.raiseFault]

theorem stopPort {s : State} (h : Inv s) (p : Nat) : Inv (s.stopPort p) := by
  grind [State.stopPort, iff_parts]

theorem leaveUp {s : State} (h : Inv s) (p state : Nat) (retrain : Bool) : Inv (s.leaveUp p state retrain) := by
  grind [State.leaveUp, Inv.bump, Inv.setPort, Inv.stopPort, iff_parts]

theorem darkPort {s : State} (h : Inv s) (p : Nat) : Inv (s.darkPort p) := by
  grind [State.darkPort, Inv.leaveUp]

theorem lightPort {s : State} (h : Inv s) (p : Nat) : Inv (s.lightPort p) := by
  grind [State.lightPort, Inv.setPort, iff_parts]

theorem enablePort {s : State} (h : Inv s) (p : Nat) (on : Bool) : Inv (s.enablePort p on) := by
  grind [State.enablePort, Inv.setPort, Inv.leaveUp, iff_parts]

theorem endTraining {s : State} (h : Inv s) (p lanes package port incarnation : Nat) (ok : Bool) :
    Inv (s.endTraining p lanes package port incarnation ok) := by
  grind [State.endTraining, Inv.bump, Inv.setPort, Inv.portFault, iff_parts]

theorem dropLaneWith {s : State} (h : Inv s) (p lane : Nat)
    (entry : State → State) (hentry : ∀ u, Inv u → Inv (entry u)) :
    Inv (s.dropLaneWith p lane entry) := by
  grind [State.dropLaneWith, Inv.bump, Inv.setPort, Inv.portFault, Inv.leaveUp, iff_parts]

theorem dropLane {s : State} (h : Inv s) (p lane : Nat) : Inv (s.dropLane p lane) := by
  grind [State.dropLane, Inv.dropLaneWith]

theorem loseLane {s : State} (h : Inv s) (p lane : Nat) : Inv (s.loseLane p lane) := by
  grind [State.loseLane, Inv.portFault, Inv.dropLaneWith]

theorem laneErrors {s : State} (h : Inv s) (p lane errors : Nat) : Inv (s.laneErrors p lane errors) := by
  grind [State.laneErrors, Inv.loseLane]

theorem acceptFlit {s : State} (h : Inv s) (p : Nat) (flit : List Byte) : Inv (s.acceptFlit p flit) := by
  grind [State.acceptFlit, Inv.setPort, Inv.pumpPort, iff_parts]

theorem takeFlit {s : State} (h : Inv s) (p : Nat) (flit : List Byte) (fecBad : Bool)
    (corrected uncorrectable : Nat) :
    Inv (s.takeFlit p flit fecBad corrected uncorrectable) := by
  grind [State.takeFlit, Inv.bump, Inv.send, Inv.acceptFlit]

theorem replayFrom {s : State} (h : Inv s) (p seq : Nat) : Inv (s.replayFrom p seq) := by
  grind [State.replayFrom, Inv.send, Inv.setPort, Inv.leaveUp, Inv.foldl, Inv.foldl_fst, iff_parts]

theorem noteArrival {s : State} (h : Inv s) (m : Message) : Inv (s.noteArrival m) := by
  grind [State.noteArrival, Inv.bump, iff_parts]

theorem remoteWrite {s0 : State} (h : Inv s0) (m : Message) : Inv (s0.remoteWrite m) := by
  grind [State.remoteWrite, Inv.answer, Inv.serveWindow, Inv.noteArrival]

theorem remoteRead {s0 : State} (h : Inv s0) (m : Message) : Inv (s0.remoteRead m) := by
  grind [State.remoteRead, Inv.answer, Inv.serveWindow, Inv.noteArrival]

theorem dropSent {s : State} (h : Inv s) (x : Sent) : Inv (s.dropSent x) := by
  grind [State.dropSent, iff_parts]

theorem afterAnswer {s : State} (h : Inv s) (q i : Nat) : Inv (s.afterAnswer q i) := by
  grind [State.afterAnswer, Inv.advanceMove, Inv.sendOn, iff_parts]

theorem sendHeld {s : State} (h : Inv s) (dst : Nat) : Inv (s.sendHeld dst) := by
  grind [State.sendHeld, Inv.emit, Inv.answer, Inv.foldl, Inv.foldl_fst, iff_parts]

theorem retryRoutes {s0 : State} (h : Inv s0) (dst : Nat) : Inv (s0.retryRoutes dst) := by
  grind [State.retryRoutes, Inv.advanceMove, Inv.sendOn, Inv.sendHeld, Inv.foldl, Inv.foldl_fst, iff_parts]

theorem acknowledged {s : State} (h : Inv s) (m : Message) : Inv (s.acknowledged m) := by
  grind [State.acknowledged, Inv.bump, Inv.setCmd, Inv.dropSent, Inv.afterAnswer, Inv.retryRoutes, iff_parts]

theorem readData {s0 : State} (h : Inv s0) (m : Message) : Inv (s0.readData m) := by
  grind [State.readData, Inv.setCmd, Inv.noteArrival, Inv.afterAnswer, iff_parts]

theorem failLink {s : State} (h : Inv s) (c : Cmd) (which : Slot → Bool) (code : Nat) :
    Inv (s.failLink c which code) := by
  grind [State.failLink, Inv.failCmd, Inv.transferEnd, Inv.foldl, Inv.foldl_fst, iff_parts]

theorem nacked {s : State} (h : Inv s) (m : Message) : Inv (s.nacked m) := by
  grind [State.nacked, Inv.dropSent, Inv.retryRoutes, Inv.failLink, iff_parts]

theorem forward {s : State} (h : Inv s) (m : Message) : Inv (s.forward m) := by
  grind [State.forward, Inv.emit, Inv.answer, Inv.noteArrival, iff_parts]

theorem linkTimeout {s : State} (h : Inv s) (dst : Nat) : Inv (s.linkTimeout dst) := by
  grind [State.linkTimeout, Inv.failLink, Inv.foldl, Inv.foldl_fst, iff_parts]

theorem linkBack {s : State} (h : Inv s) (dst : Nat) : Inv (s.linkBack dst) := by
  grind [State.linkBack, Inv.emit, Inv.resumeThose, Inv.sendHeld, Inv.foldl, Inv.foldl_fst, iff_parts]

/-! ### Kept entries -/

theorem keptNotice {s : State} (h : Inv s) (code k : Nat) : Inv (s.keptNotice code k) := by
  grind [State.keptNotice, Inv.notice, Inv.foldl, Inv.foldl_fst]

theorem setWear {s : State} (h : Inv s) (k state : Nat) : Inv (s.setWear k state) := by
  grind [State.setWear, Inv.dayEvent, iff_parts]

theorem warnWear {s : State} (h : Inv s) (k : Nat) : Inv (s.warnWear k) := by
  grind [State.warnWear, Inv.notify, Inv.interrupt, Inv.setWear]

theorem commitNotices {s : State} (h : Inv s) (k dies : Nat) : Inv (s.commitNotices k dies) := by
  grind [State.commitNotices, Inv.notice, Inv.foldl, Inv.foldl_fst]

theorem commitKept {s : State} (h : Inv s) (k value : Nat) : Inv (s.commitKept k value) := by
  grind [State.commitKept, Inv.keptNotice, Inv.setWear, Inv.warnWear, Inv.commitNotices, iff_parts]

theorem writeKept {s : State} (h : Inv s) (index sub default value : Nat) :
    Inv (s.writeKept index sub default value) := by
  grind [State.writeKept, Inv.commitKept]

theorem cutKept {s : State} (h : Inv s) (index sub default value committed : Nat) :
    Inv (s.cutKept index sub default value committed) := by
  grind [State.cutKept, iff_parts]

theorem reconcileKept {s : State} (h : Inv s) : Inv s.reconcileKept := by
  grind [State.reconcileKept, iff_parts]

/-! ### Units -/

theorem unitNotice {s : State} (h : Inv s) (code l : Nat) : Inv (s.unitNotice code l) := by
  grind [State.unitNotice, Inv.ledgerWrite]

theorem dropPhases {s : State} (h : Inv s) (l : Nat) : Inv (s.dropPhases l) := by
  grind [State.dropPhases, iff_parts]

theorem recordRetired {s : State} (h : Inv s) (l : Nat) : Inv (s.recordRetired l) := by
  grind [State.recordRetired, Inv.commitKept, Inv.unitNotice, iff_parts]

theorem clearRecords {s : State} (h : Inv s) (is : Nat → Bool) : Inv (s.clearRecords is) := by
  grind [State.clearRecords, Inv.commitKept, iff_parts]

theorem dropLostClusters {s : State} (h : Inv s) : Inv s.dropLostClusters := by
  grind [State.dropLostClusters, Inv.setMap, Inv.foldl, Inv.foldl_fst, iff_parts]

theorem afterUnits {s : State} (h : Inv s) : Inv s.afterUnits := by
  grind [State.afterUnits, Inv.settleDomains, Inv.noteDegraded, Inv.dropLostClusters]

theorem fillBanks {s : State} (h : Inv s) (r c : Nat) : Inv (s.fillBanks r c) := by
  grind [State.fillBanks, Inv.setHosts, Inv.foldl, Inv.foldl_fst, iff_parts]

theorem portOut {s : State} (h : Inv s) (l : Nat) : Inv (s.portOut l) := by
  grind [State.portOut, Inv.leaveUp, Inv.dropLane]

theorem partsOut {s : State} (h : Inv s) (l : Nat) : Inv (s.partsOut l) := by
  grind [State.partsOut, Inv.fillBanks, Inv.portOut, iff_parts]

theorem partsBack {s : State} (h : Inv s) (l : Nat) : Inv (s.partsBack l) := by
  grind [State.partsBack, Inv.enablePort, Inv.fillBanks, iff_parts]

theorem retireNow {s : State} (h : Inv s) (l : Nat) : Inv (s.retireNow l) := by
  grind [State.retireNow, Inv.vacate, Inv.dropPhases, Inv.recordRetired, Inv.afterUnits, Inv.partsOut]

theorem quarantineNow {s : State} (h : Inv s) (l : Nat) : Inv (s.quarantineNow l) := by
  grind [State.quarantineNow, Inv.vacate, Inv.hostInTurn, Inv.dropPhases, Inv.afterUnits, Inv.portOut, Inv.foldl,
    Inv.foldl_fst, iff_parts]

theorem orderOut {s : State} (h : Inv s) (l : Nat) (quarantine : Bool) : Inv (s.orderOut l quarantine) := by
  grind [State.orderOut, Inv.retireNow, Inv.quarantineNow, iff_parts]

theorem startTests {s : State} (h : Inv s) (ls : List Nat) : Inv (s.startTests ls) := by
  grind [State.startTests, Inv.sendToTest, Inv.foldl, Inv.foldl_fst]

theorem retireUnit {s : State} (h : Inv s) (l : Nat) : Inv (s.retireUnit l) := by
  grind [State.retireUnit, Inv.orderOut]

theorem returnUnit {s : State} (h : Inv s) (l : Nat) : Inv (s.returnUnit l) := by
  grind [State.returnUnit, Inv.startTests, iff_parts]

theorem orderNotice {s : State} (h : Inv s) (l : Nat) : Inv (s.orderNotice l) := by
  grind [State.orderNotice, Inv.unitNotice]

theorem quarantineUnit {s : State} (h : Inv s) (l : Nat) : Inv (s.quarantineUnit l) := by
  grind [State.quarantineUnit, Inv.orderOut, Inv.orderNotice]

theorem releaseUnit {s : State} (h : Inv s) (l : Nat) : Inv (s.releaseUnit l) := by
  grind [State.releaseUnit, Inv.startTests, Inv.orderNotice, iff_parts]

theorem backInService {s : State} (h : Inv s) (l : Nat) : Inv (s.backInService l) := by
  grind [State.backInService, Inv.dropPhases, Inv.clearRecords, Inv.afterUnits, Inv.partsBack]

theorem setPassed {s : State} (h : Inv s) (l : Nat) : Inv (s.setPassed l) := by
  grind [State.setPassed, iff_parts]

theorem testEntry {s : State} (h : Inv s) (l : Nat) : Inv (s.testEntry l) := by
  grind [State.testEntry, Inv.ledgerWrite, Inv.noteFault, iff_parts]

theorem testPassed {s : State} (h : Inv s) (l : Nat) : Inv (s.testPassed l) := by
  grind [State.testPassed, Inv.setPhase, Inv.backInService, Inv.setPassed]

theorem testComplete {s : State} (h : Inv s) (l : Nat) (res : TestResult) : Inv (s.testComplete l res) := by
  unfold State.testComplete
  split
  · exact h
  · cases res with
    | pass => exact h.testPassed l
    | fail =>
      dsimp only
      split
      · exact (h.testEntry l).orderOut ..
      · exact (h.testEntry l).retireNow l
    | columns failed =>
      dsimp only
      split
      · exact h
      · split
        · exact h.testPassed l
        · split
          · exact (h.foldl (fun _ c hs => (hs.testEntry _).recordRetired _) _).setPhase ..
          · exact (h.testEntry l).retireNow l

theorem rotate {s : State} (h : Inv s) (r c : Nat) (gleaners : Bool) : Inv (s.rotate r c gleaners) := by
  grind [State.rotate, Inv.setHosts, Inv.setPhase, iff_parts]

theorem probationDone {s : State} (h : Inv s) (l : Nat) : Inv (s.probationDone l) := by
  grind [State.probationDone, Inv.setPhase, Inv.setPassed]

theorem probationLate {s : State} (h : Inv s) (r c : Nat) (gleaners : Bool) : Inv (s.probationLate r c gleaners) := by
  grind [State.probationLate, Inv.setHosts, Inv.noteDegraded, iff_parts]

theorem takeSlot {s0 : State} (h : Inv s0) (l : Nat) : Inv (s0.takeSlot l) := by
  grind [State.takeSlot, Inv.setHosts, Inv.noteSlot, Inv.backInService, iff_parts]

theorem handover {s : State} (h : Inv s) (l : Nat) : Inv (s.handover l) := by
  grind [State.handover, Inv.afterUnits, Inv.retireNow, Inv.quarantineNow, Inv.takeSlot, iff_parts]

theorem saveForMove {s : State} (h : Inv s) (r n : Nat) : Inv (s.saveForMove r n).1 := by
  unfold State.saveForMove
  refine foldl_fst (p := (s, true)) h (fun p e hp => ?_) _
  have harea := hp.areaReach e.1 e.2
  generalize p.1.areaReach e.1 e.2 = reached at harea
  obtain ⟨s1, ok⟩ := reached
  dsimp only
  generalize State.areaBytes e.2 = bytes
  split
  · exact hp
  · split
    · exact hp
    · split
      · exact harea.scramble ..
      · exact harea

theorem moveCluster {s : State} (h : Inv s) (r n : Nat) : Inv (s.moveCluster r n) := by
  grind [State.moveCluster, Inv.setMap, Inv.setHosts, Inv.noteSlot, Inv.afterUnits, Inv.startTests, Inv.saveForMove,
    Inv.foldl, Inv.foldl_fst, iff_parts]

/-! ### Detected failures -/

theorem markRow {s : State} (h : Inv s) (region cluster row : Nat) : Inv (s.markRow region cluster row) := by
  grind [State.markRow, Inv.setRow, iff_parts]

theorem markCopied {s : State} (h : Inv s) (affected : Option (Nat × Nat)) (region cluster row : Nat) :
    Inv (s.markCopied affected region cluster row) := by
  grind [State.markCopied, Inv.markRow, iff_parts]

theorem probationMismatch {s : State} (h : Inv s) (loc detail : Nat) (affected : Option (Nat × Nat)) :
    Inv (s.probationMismatch loc detail affected) := by
  grind [State.probationMismatch, Inv.bump, Inv.benchUnit, Inv.raiseFault, iff_parts]

theorem duplicateMismatch {s : State} (h : Inv s) (loc detail : Nat) (affected : Option (Nat × Nat)) :
    Inv (s.duplicateMismatch loc detail affected) := by
  grind [State.duplicateMismatch, Inv.benchUnit, Inv.raiseFault]

theorem barnLost {s : State} (h : Inv s) (line : Nat) : Inv (s.barnLost line) := by
  grind [State.barnLost, iff_parts]

theorem metadataLost {s : State} (h : Inv s) (what seq index : Nat) : Inv (s.metadataLost what seq index) := by
  grind [State.metadataLost, Inv.setSeq, iff_parts]

theorem memoryLost {s : State} (h : Inv s) (loc address : Nat) (c : Cmd) : Inv (s.memoryLost loc address c) := by
  grind [State.memoryLost, Inv.ledgerWrite, Inv.noteFault, Inv.failCmd, iff_parts]

theorem faultDetected {s : State} (h : Inv s) (code loc0 detail : Nat) (affected : Option (Nat × Nat)) (atUse : Bool) :
    Inv (s.faultDetected code loc0 detail affected atUse) := by
  unfold State.faultDetected
  extract_lets loc idle generic
  have hgeneric {t : State} (ht : Inv t) : Inv (generic t) := ht.raiseFault ..
  clear_value generic
  split
  · exact h
  · split
    · exact h.probationMismatch ..
    · exact h.duplicateMismatch ..
    · refine hgeneric ?_
      split
      · exact ((h.bump ..).markRow ..).markCopied ..
      · exact h.bump ..
    · refine hgeneric ?_
      split
      · exact h.barnLost _
      · exact h
    · exact (h.metadataLost ..).raiseFault ..
    · refine hgeneric ?_
      split
      · exact h.queueError ..
      · exact h
    · split
      · exact h.memoryLost ..
      · exact hgeneric h
    · exact h.foldl (fun _ d hs => hs.raiseFault ..) _
    · exact hgeneric h

theorem correctedLimit {s : State} (h : Inv s) (loc count : Nat) : Inv (s.correctedLimit loc count) := by
  grind [State.correctedLimit, Inv.bump, Inv.raiseFault]

theorem scrub {s : State} (h : Inv s) (die : Nat) (what : Scrubbed) (corrected : Nat) (bad : List (Nat × Nat × Nat)) :
    Inv (s.scrub die what corrected bad) := by
  grind [State.scrub, Inv.bump, Inv.setRow, Inv.raiseFault, Inv.foldl, Inv.foldl_fst, iff_parts]

theorem dieTested {s : State} (h : Inv s) (die : Nat) (pass : Bool) : Inv (s.dieTested die pass) := by
  have hserves : Inv { s with pins := { s.pins with stopped := clearBit s.pins.stopped die } } := { h with dies := h.dies }
  unfold State.dieTested
  split
  · exact h
  · exact hserves.foldl (fun _ d hs => hs.closeDomain d 1) _

theorem yardViolation {s : State} (h : Inv s) (loc q i : Nat) : Inv (s.yardViolation loc q i) := by
  grind [State.yardViolation, Inv.ledgerWrite, Inv.failCmd, iff_parts]

/-! ### Firmware -/

theorem verifySlot {s : State} (h : Inv s) : Inv s.verifySlot.1 := by
  grind [State.verifySlot, Inv.draw, iff_parts]

theorem startImage {s : State} (h : Inv s) (keySlot svn version : Nat) : Inv (s.startImage keySlot svn version) := by
  grind [State.startImage, iff_parts]

theorem countSlotWrite {s : State} (h : Inv s) : Inv s.countSlotWrite := by
  grind [State.countSlotWrite, Inv.commitKept]

theorem fwUpdate {s : State} (h : Inv s) (v : Nat) : Inv (s.fwUpdate v).1 := by
  grind [State.fwUpdate, iff_parts]

theorem updateFailed {s : State} (h : Inv s) (code : Nat) : Inv (s.updateFailed code) := by
  grind [State.updateFailed, iff_parts]

theorem updateFetched {s : State} (h : Inv s) (ok : Bool) : Inv (s.updateFetched ok) := by
  grind [State.updateFetched, Inv.updateFailed, iff_parts]

theorem updateChecked {s : State} (h : Inv s) : Inv s.updateChecked := by
  unfold State.updateChecked
  generalize s.fuses.verify s.fw.fetched (some s.fw.staged.2) = code
  cases code with
  | none => exact countSlotWrite { h with }
  | some c => exact h.updateFailed c

theorem updateWritten {s : State} (h : Inv s) : Inv s.updateWritten := by
  grind [State.updateWritten, iff_parts]

theorem rollbackCommit {s : State} (h : Inv s) (v : Nat) : Inv (s.rollbackCommit v).1 := by
  grind [State.rollbackCommit, iff_parts]

theorem keyRevoke {s : State} (h : Inv s) (n : Nat) : Inv (s.keyRevoke n).1 := by
  grind [State.keyRevoke, iff_parts]

theorem debugLockRaise {s : State} (h : Inv s) (v : Nat) : Inv (s.debugLockRaise v).1 := by
  grind [State.debugLockRaise, iff_parts]

theorem ownerHashProgram {s : State} (h : Inv s) (v : Nat) : Inv (s.ownerHashProgram v).1 := by
  grind [State.ownerHashProgram, iff_parts]

theorem decommission {s : State} (h : Inv s) (v : Nat) : Inv (s.decommission v).1 := by
  grind [State.decommission, iff_parts]

theorem openScopes {s : State} (h : Inv s) (mask : Nat) (challenge : Bool) : Inv (s.openScopes mask challenge) := by
  grind [State.openScopes, iff_parts]

theorem attemptFailed {s : State} (h : Inv s) (code : Nat) : Inv (s.attemptFailed code).1 := by
  grind [State.attemptFailed, Inv.notice, iff_parts]

theorem spendNonce {s : State} (h : Inv s) : Inv s.spendNonce := by
  grind [State.spendNonce, iff_parts]

theorem freshNonce {s : State} (h : Inv s) : Inv s.freshNonce.1 := { h.draw with }

theorem debugResponse {s : State} (h : Inv s) (v : Nat) : Inv (s.debugResponse v).1 := by
  grind [State.debugResponse, Inv.openScopes, Inv.attemptFailed, Inv.spendNonce, iff_parts]

theorem ownerPassword {s : State} (h : Inv s) (v : Nat) : Inv (s.ownerPassword v).1 := by
  grind [State.ownerPassword, Inv.openScopes, Inv.attemptFailed]

theorem answerRecovery {s : State} (h : Inv s) (endpoint code : Nat) : Inv (s.answerRecovery endpoint code) := by
  grind [State.answerRecovery, Inv.send]

theorem recovery {s : State} (h : Inv s) (endpoint : Nat) (go : State → State) (hgo : ∀ u, Inv u → Inv (go u)) :
    Inv (s.recovery endpoint go) := by
  grind [State.recovery, Inv.answerRecovery, iff_parts]

theorem recoveryStatus {s : State} (h : Inv s) (endpoint : Nat) : Inv (s.recoveryStatus endpoint) := by
  grind [State.recoveryStatus, Inv.answerRecovery, Inv.recovery]

theorem recoveryBegin {s : State} (h : Inv s) (endpoint length : Nat) : Inv (s.recoveryBegin endpoint length) := by
  grind [State.recoveryBegin, Inv.answerRecovery, Inv.recovery, iff_parts]

theorem recoveryData {s : State} (h : Inv s) (endpoint offset : Nat) (data : List Byte) :
    Inv (s.recoveryData endpoint offset data) := by
  grind [State.recoveryData, Inv.countSlotWrite, Inv.answerRecovery, Inv.recovery, iff_parts]

theorem recoveryEnd {s : State} (h : Inv s) (endpoint : Nat) : Inv (s.recoveryEnd endpoint) := by
  grind [State.recoveryEnd, Inv.verifySlot, Inv.startImage, Inv.answerRecovery, Inv.recovery, iff_parts]

theorem recoveryAbort {s : State} (h : Inv s) (endpoint : Nat) : Inv (s.recoveryAbort endpoint) := by
  grind [State.recoveryAbort, Inv.answerRecovery, Inv.recovery, iff_parts]

/-! ### Resets and start-up -/

theorem applyCap {s : State} (h : Inv s) : Inv s.applyCap := by
  grind [State.applyCap, Inv.bumpFree, Inv.notice, iff_parts]

theorem throttle {s : State} (h : Inv s) (low : Bool) : Inv (s.throttle low) := by
  grind [State.throttle, Inv.applyCap, iff_parts]

theorem powerCap {s : State} (h : Inv s) (v : Nat) : Inv (s.powerCap v).1 := by
  grind [State.powerCap, Inv.setReg, Inv.applyCap]

theorem isolate {s : State} (h : Inv s) : Inv s.isolate := by
  grind [State.isolate, Inv.send, Inv.foldl, Inv.foldl_fst]

/-- The ledger of a reset engine is an empty ring. -/
theorem ringOk_default : ringOk {} := ⟨by decide, by decide, rfl⟩

theorem coldState {s : State} (h : Inv s) (state : Boundary) (cause : Nat) : Inv (s.coldState state cause) := by
  have hdrawn := h.isolate.slotStopped.draw
  unfold State.coldState
  exact
    { mem := ⟨rfl, hdrawn.mem.2⟩, ledger0 := ringOk_default, ledger1 := ringOk_default, ports := by simp, inputs := by simp
      dies := by simp, halts := by simp, schedule := rfl }

theorem powerFall {s : State} (h : Inv s) : Inv s.powerFall := by
  grind [State.powerFall, Inv.coldState, iff_parts]

theorem powerRise {s : State} (h : Inv s) : Inv s.powerRise := by
  grind [State.powerRise, Inv.coldState, iff_parts]

theorem coldAssert {s : State} (h : Inv s) : Inv s.coldAssert := by
  grind [State.coldAssert, Inv.coldState, iff_parts]

theorem dropWritable {s : State} (h : Inv s) : Inv s.dropWritable := by
  grind [State.dropWritable, iff_parts]

theorem warmState {s : State} (h : Inv s) (cause : Nat) : Inv (s.warmState cause) := by
  have hclosed : Inv ((s.integ.domains.filter fun d => d.cmd.isSome).foldl (fun s d => s.closeDomain d 3) s) :=
    h.foldl (fun _ d hs => hs.closeDomain d 3) _
  have hdrawn := hclosed.isolate.dropWritable.draw
  unfold State.warmState
  dsimp only
  have hcounted := (hdrawn.bump 0x2F00 0x0D 1).bump 0x2B00 0x13
  refine { hcounted _ with ports := ?_, inputs := ?_, schedule := rfl, halts := (hcounted _).halts }
  · simpa only [List.length_map] using (hcounted _).ports
  · simpa only [List.length_map] using (hcounted _).inputs

theorem warmEntry {s : State} (h : Inv s) (pin : Bool) : Inv (s.warmEntry pin) := by
  grind [State.warmEntry, Inv.coldState, Inv.warmState, iff_parts]

theorem updateStep {s : State} (h : Inv s) (fetched : Bool) : Inv (s.updateStep fetched) := by
  grind [State.updateStep, Inv.updateFetched, Inv.updateChecked, Inv.updateWritten, Inv.warmState, iff_parts]

theorem nextIncarnation {s : State} (h : Inv s) : Inv s.nextIncarnation := by
  unfold State.nextIncarnation
  extract_lets b k s1
  have hs1 : Inv s1 := { h with ports := h.ports }
  clear_value s1
  split
  · exact h.commitNotices ..
  · split
    · split
      · exact hs1.warnWear k
      · exact hs1
    · dsimp only
      have hs2 (w : Nat) : Inv { s.draw.2 with bruora := { b with incarnation := w, incarnationWorn := true } } :=
        { h.draw with ports := h.ports }
      split
      · exact hs2 _
      · exact ((hs2 _).setWear ..).keptNotice ..

theorem failDies {s : State} (h : Inv s) (dies : Nat) : Inv (s.failDies dies) := by
  grind [State.failDies, Inv.raiseFault, Inv.foldl, Inv.foldl_fst]

theorem finishStart {s : State} (h : Inv s) : Inv s.finishStart := by
  unfold State.finishStart
  extract_lets s1 enabled _ _ _ s2 s3
  have hs1 : Inv s1 := by grind [Inv.buildMaps]
  have hs2 : Inv s2 := { hs1 with inputs := by simp [s2, hs1.inputs] }
  have hs3 : Inv s3 := by
    simp only [s3]
    split
    · exact hs2
    · exact hs2.foldl (fun _ d hs => hs.daySync d) _
  exact hs3.applyCap.notify ..

theorem trainAll {s : State} (h : Inv s) (dies light : Nat) : Inv (s.trainAll dies light) := by
  have hs := h.failDies dies
  unfold State.trainAll
  extract_lets s d _ lit mapped port mask _ s1
  have hs1 : Inv s1 := { hs with ports := by simp [s1, hs.ports, s], dies := Nat.mod_lt _ (by decide) }
  clear_value s1
  split
  · exact { hs with dies := by simp }
  · split
    · exact hs1.finishStart
    · exact hs1

theorem withFirmware {s : State} (h : Inv s) (f : Firmware) : Inv { s with fw := f } := { h with }

theorem coldRelease {s : State} (h : Inv s) (us dies light : Nat) : Inv (s.coldRelease us dies light) := by
  unfold State.coldRelease
  extract_lets pass _ _ _ now stop s1 forced
  have hpass {t : State} (ht : Inv t) : Inv (pass t) := ht.elapse _
  have hnow : Inv now := { h.reconcileKept with inputs := h.inputs, dies := h.dies, schedule := h.schedule }
  have hs1 : Inv s1 := (hpass hnow).nextIncarnation
  have hverified := hs1.verifySlot
  have hstop {t : State} (ht : Inv t) (st : Boundary) (step : Nat) : Inv (stop t st step) := { ht with }
  clear_value pass now stop s1
  generalize s1.verifySlot = found at hverified
  obtain ⟨s2, code, k, svn, ver⟩ := found
  have hfail (c : Nat) : Inv ({ stop s2 .recovery 3 with fw := { (stop s2 .recovery 3).fw with recoveryCode := c } }.writeKept
      0x2D00 0x0B 0 0) :=
    ((hstop hverified .recovery 3).withFirmware _).writeKept ..
  split
  · exact (hpass h).trainAll ..
  · split
    · exact h
    · split
      · exact hstop (hpass hnow) ..
      · split
        · exact hstop (hpass hnow) ..
        · dsimp only
          split
          · exact hfail 0
          · split
            · exact hfail _
            · exact (hverified.startImage ..).trainAll ..

theorem warmRelease {s : State} (h : Inv s) (us dies : Nat) : Inv (s.warmRelease us dies) := by
  unfold State.warmRelease
  extract_lets now _ shut s1 s2 d _ port _
  have hnow : Inv now := h.elapse _
  have hserves : Inv { now with pins := { now.pins with fatal := 0, stopped := 0, isolated := false } } :=
    { hnow with dies := hnow.dies }
  have hs1 : Inv s1 := hserves.foldl (fun _ d hs => hs.closeDomain d 1) _
  have hs2 : Inv s2 := hs1.failDies dies
  clear_value now s1 s2 port
  split
  · exact h
  · split
    · exact { hnow with dies := hnow.dies }
    · split
      · exact { hs2 with dies := by simp }
      · exact finishStart { hs2 with ports := by simp [hs2.ports], dies := Nat.mod_lt _ (by decide) }

theorem portSettled {s : State} (h : Inv s) (p : Nat) : Inv (s.portSettled p) := by
  grind [State.portSettled, Inv.finishStart, iff_parts]

theorem budgetEnd {s : State} (h : Inv s) : Inv s.budgetEnd := by
  grind [State.budgetEnd, Inv.finishStart]

theorem startTimeout {s : State} (h : Inv s) : Inv s.startTimeout := by
  grind [State.startTimeout, Inv.notice, iff_parts]

theorem orderReset {s : State} (h : Inv s) (v : Nat) : Inv (s.orderReset v).1 := by
  grind [State.orderReset, iff_parts]

/-! ### Dictionary requests -/

theorem storeValue {s : State} (h : Inv s) (index sub : Nat) (e : DictEntry) (v : Nat) :
    Inv (s.storeValue index sub e v) := by
  grind [State.storeValue, Inv.setReg, Inv.writeKept]

theorem unitOrder {s : State} (h : Inv s) (v : Nat) (refused : Option Nat) (go : State → State) (hgo : ∀ u, Inv u → Inv (go u)) :
    Inv (s.unitOrder v refused go).1 := by
  unfold State.unitOrder
  split
  · exact h
  · cases refused with
    | none => exact hgo s h
    | some c => exact h

theorem freezeWrite {s : State} (h : Inv s) (v : Nat) (thawing : Bool) : Inv (s.freezeWrite v thawing) := by
  grind [State.freezeWrite, Inv.orderFreeze, Inv.thaw]

theorem dayEnable {s : State} (h : Inv s) (index sub : Nat) (e : DictEntry) (v : Nat) :
    Inv (s.dayEnable index sub e v) := by
  grind [State.dayEnable, Inv.daySync, Inv.storeValue, Inv.foldl, Inv.foldl_fst]

theorem windowOrder {s : State} (h : Inv s) (r : Request) (opens : Bool) : Inv (s.windowOrder r opens).1 := by
  grind [State.windowOrder, Inv.addWindow, Inv.dropWindow, iff_parts]

theorem applyEntry {s : State} (h : Inv s) (r : Request) (e : DictEntry) (mates : List Request) :
    Inv (s.applyEntry r e mates).1 := by
  unfold State.applyEntry
  generalize dictFamily r.index = family
  obtain ⟨base, m⟩ := family
  extract_lets v store has reshut n
  have hstore : Inv store := h.storeValue ..
  have hreshut {o : State × Nat} (ho : Inv o.1) : Inv (reshut o).1 := by
    simp only [reshut]
    split
    · exact ho.closeScopes _
    · exact ho
  clear_value store has reshut
  dsimp -zeta only
  extract_lets bad
  clear_value bad
  split
  · exact h
  · split
    · exact h.unitOrder _ _ _ fun _ hu => hu.retireUnit _
    · exact h.unitOrder _ _ _ fun _ hu => hu.returnUnit _
    · exact h.bindQueue ..
    · exact h.unbindQueue _
    · exact h.stopQueue _
    · exact h.startQueue _
    · split
      · exact h
      · split
        · exact hstore
        · exact hstore.changeMode _
    · split
      · exact h
      · exact h.setSchedule ..
    · split
      · exact h
      · exact hstore.noteRate ..
    · split
      · exact h
      · exact hstore.noteRate ..
    · exact hstore.enableInput ..
    · exact h.setInput ..
    · exact h.windowOrder ..
    · exact h.windowOrder ..
    · split
      · exact h
      · exact hstore.enablePort ..
    · exact h.unitOrder _ _ _ fun _ hu => hu.quarantineUnit _
    · exact h.unitOrder _ _ _ fun _ hu => hu.releaseUnit _
    · split
      next ht => exact h.ledgerRetire ht
      · exact h
    · split
      · exact h.setLedger m (h.ledger m)
      · exact h
    · split
      · exact h.clearWorst _
      · exact h
    · exact h.fwUpdate _
    · exact h.rollbackCommit _
    · exact h.keyRevoke _
    · exact h.debugLockRaise _
    · split
      · exact h.closeScopes _
      · exact h
    · exact hreshut (h.debugResponse _)
    · exact hreshut (h.ownerPassword _)
    · exact h.ownerHashProgram _
    · exact h.decommission _
    · exact h.freezeWrite ..
    · split
      · exact h.thaw
      · exact h
    · exact h.dayEnable ..
    · exact h.breakResume _
    · split
      · exact h
      · exact h.setBreakpoint ..
    · exact h.orderReset _
    · exact h.powerCap _
    · exact hstore

theorem tryWrite {s : State} (h : Inv s) (r : Request) (mates : List Request) : Inv (s.tryWrite r mates).1 := by
  grind [State.tryWrite, Inv.applyEntry, iff_parts]

theorem answerPeer {s : State} (h : Inv s) (peer : Nat) (r : Request) (bytes : List Byte) :
    Inv (s.answerPeer peer r bytes) := by
  grind [State.answerPeer, Inv.bump, Inv.answer, iff_parts]

theorem respond {s : State} (h : Inv s) (op0 : Nat) (r : Request) (abort : Nat) (data : List Byte) :
    Inv (s.respond op0 r abort data) := by
  grind [State.respond, Inv.send, Inv.interrupt, Inv.answerPeer, iff_parts]

theorem abortWith {s : State} (h : Inv s) (op : Nat) (r : Request) (abort : Nat) : Inv (s.abortWith op r abort) := by
  grind [State.abortWith, Inv.countAbort, Inv.respond]

theorem serveWrite {s : State} (h : Inv s) (r : Request) (rivals : List Request) : Inv (s.serveWrite r rivals) := by
  grind [State.serveWrite, Inv.bump, Inv.notePrior, Inv.commitNotices, Inv.tryWrite, Inv.respond, Inv.abortWith,
    iff_parts]

theorem serveRead {s : State} (h : Inv s) (r : Request) : Inv (s.serveRead r) := by
  grind [State.serveRead, Inv.bump, Inv.freshNonce, Inv.respond, Inv.abortWith, iff_parts]

theorem serveDescribe {s : State} (h : Inv s) (r : Request) : Inv (s.serveDescribe r) := by
  grind [State.serveDescribe, Inv.bump, Inv.respond, Inv.abortWith, iff_parts]

theorem ownRow {s : State} (h : Inv s) (r : Request) (rivals : List Request) (base : Nat) (subs : List Nat) :
    Inv (s.ownRow r rivals base subs) := by
  grind [State.ownRow, Inv.serveWrite]

theorem stray {s : State} (h : Inv s) : Inv s.stray := by
  grind [State.stray, Inv.bump]

theorem mailboxGo {s : State} (h : Inv s) (header data : List Byte) : Inv (s.mailboxGo header data) := by
  grind [State.mailboxGo, Inv.bump, Inv.abortWith, Inv.stray, iff_parts]

theorem mailboxDone {s : State} (h : Inv s) (value : Nat) : Inv (s.mailboxDone value) := by
  grind [State.mailboxDone, iff_parts]

theorem strayAccess {s : State} (h : Inv s) (write : Bool) (off : Nat) : Inv (s.strayAccess write off) := by
  grind [State.strayAccess, Inv.send, Inv.stray]

theorem vectorWrite {s : State} (h : Inv s) (v address data : Nat) (mask : Bool) :
    Inv (s.vectorWrite v address data mask) := by
  grind [State.vectorWrite, Inv.setVector, Inv.interrupt, iff_parts]

theorem cutWrite {s : State} (h : Inv s) (r : Request) (rivals : List Request) (dies : Nat) :
    Inv (s.cutWrite r rivals dies) := by
  grind [State.cutWrite, Inv.cutKept, iff_parts]
/-! ### Every command -/

/-- What an outcome leaves is the state that it names. -/
theorem kept {t : State} (h : Inv t) : ∀ u, (.next t : Host.Outcome State Fault Refusal) = .next u → Inv u := by
  rintro _ ⟨⟩
  exact h

theorem ite {t u : State} {c : Prop} [Decidable c] (ht : Inv t) (hu : Inv u) : Inv (if c then t else u) := by
  split
  · exact ht
  · exact hu

theorem exec_keeps {s : State} (h : Inv s) (i : Instr) : ∀ t, exec i s = .next t → Inv t := by
  cases i
  case attend | gemm | chain2 | norm | func | moveTransfer | moveFill | moveCopy | moveConvert | kvAppend | kvGather |
      kvCreate | kvSharePrefix | kvFree | kvTruncate | kvHint | kvQuery | syncSemaphore | syncCounterWait |
      syncMemoryWait | syncMemoryAdd | syncMemoryStore | table | dump | timed | fence | dictRead | dictWrite |
      windowOpen | windowClose =>
    exact (h.issueNext ..).kept
  case queueBind | queueUnbind | queueStop | queueStart | retireUnit | returnUnit | quarantineUnit | releaseUnit |
      ledgerHead | ledgerOverflowClear | worstClear | inputEnable | nextFrame | cadenceRate | scheduleEntry |
      bellmanMode | fwUpdate | rollbackCommit | keyRevoke | debugLockRaise | ownerHashProgram | decommission |
      scopeClose | debugResponse | ownerPassword | counterFreeze | counterThaw | breakpoint | breakResume | powerCap
      =>
    exact (h.ownRow ..).kept
  case dumpLapse => exact (h.lapse ..).kept
  case timedReleasePoint => exact (h.releasePoint ..).kept
  case fenceRelease => exact (h.releaseFence ..).kept
  case commandCompletion => exact (h.completeCmd ..).kept
  case borrowGrant => exact (h.grantSpace ..).kept
  case mutualWaitYield => exact (h.orderYield ..).kept
  case queueYield => exact (h.yieldQueue ..).kept
  case slotHandover => exact (h.handover ..).kept
  case clusterMove => exact (h.moveCluster ..).kept
  case rotationStep => exact (h.rotate ..).kept
  case selfTestComplete => exact (h.testComplete ..).kept
  case probationComplete => exact (h.probationDone ..).kept
  case probationOverrun => exact (h.probationLate ..).kept
  case faultDetected => exact (h.faultDetected ..).kept
  case correctedLimitExceeded => exact (h.correctedLimit ..).kept
  case scrubSweep => exact (h.scrub ..).kept
  case dieSelfTestComplete => exact (h.dieTested ..).kept
  case yardAccessViolation => exact (h.yardViolation ..).kept
  case descriptorCompletion => exact (h.endDescriptor ..).kept
  case semaphoreWaitSatisfied => exact (h.semaphoreWait ..).kept
  case gatedTileStart => exact (h.gatedTile ..).kept
  case gateTimeout => exact (h.gateTimeout ..).kept
  case granaryWriterRelease => exact (h.granaryRelease ..).kept
  case invalidationCompletion => exact (h.invalidated ..).kept
  case pageRequestTimeout => exact (h.pageTimeout ..).kept
  case pulseWindowEnd => exact (h.windowEnd ..).kept
  case scheduleRelease => exact (h.releaseEntry ..).kept
  case prefetchLaunch => exact (h.releaseEntry ..).kept
  case deadlineCheck => exact (h.checkDeadline ..).kept
  case transferDeadlineDue => exact (h.transferDue ..).kept
  case counterSnapshot => exact (h.snapshotEntry ..).kept
  case epochEnd => exact (h.endEpoch ..).kept
  case epochDecision => exact (h.decideEpoch ..).kept
  case flitReceived => exact (h.takeFlit ..).kept
  case replayRequest => exact (h.replayFrom ..).kept
  case laneLoss => exact (h.loseLane ..).kept
  case laneErrorRateCheck => exact (h.laneErrors ..).kept
  case remoteWrite => exact (h.remoteWrite ..).kept
  case remoteReadRequest => exact (h.remoteRead ..).kept
  case readData => exact (h.readData ..).kept
  case acknowledge => exact (h.acknowledged ..).kept
  case nack => exact (h.nacked ..).kept
  case transitForward => exact (h.forward ..).kept
  case linkRecoveryTimeout => exact (h.linkTimeout ..).kept
  case linkRecovered => exact (h.linkBack ..).kept
  case requestRead => exact (h.serveRead ..).kept
  case requestDescribe => exact (h.serveDescribe ..).kept
  case mailboxGo => exact (h.mailboxGo ..).kept
  case mailboxDoneClear => exact (h.mailboxDone ..).kept
  case mmioStrayAccess => exact (h.strayAccess ..).kept
  case vectorTableWrite => exact (h.vectorWrite ..).kept
  case recoveryStatus => exact (h.recoveryStatus ..).kept
  case recoveryBegin => exact (h.recoveryBegin ..).kept
  case recoveryData => exact (h.recoveryData ..).kept
  case recoveryEnd => exact (h.recoveryEnd ..).kept
  case recoveryAbort => exact (h.recoveryAbort ..).kept
  case freezeSnapshot => exact (h.freezeOn ..).kept
  case daybookSync => exact (h.syncDue ..).kept
  case breakpointHit => exact (h.hit ..).kept
  case throttleAssert => exact (h.throttle ..).kept
  case throttleRelease => exact (h.throttle ..).kept
  case pwrGoodFall => exact (h.powerFall).kept
  case pwrGoodRise => exact (h.powerRise).kept
  case coldResetAssert => exact (h.coldAssert).kept
  case coldResetRelease => exact (h.coldRelease ..).kept
  case warmResetEntry => exact (h.warmEntry ..).kept
  case warmResetRelease => exact (h.warmRelease ..).kept
  case bruoraTrainingBudgetEnd => exact (h.budgetEnd).kept
  case startupTimeout => exact (h.startTimeout).kept
  case fwSlotWriteComplete => exact (h.updateStep ..).kept
  case commandRerun =>
    exact kept (by
      split
      · exact h.rerun ..
      · exact h)
  case doorbellDescTail =>
    exact (h.ite (h.doorbellTail ..)).kept
  case doorbellComplHead =>
    exact (h.ite (h.doorbellHead ..)).kept
  case knownAnswerTile =>
    exact h.kept
  case descriptorBurstArrival =>
    exact (h.onWait _ _ _ _ fun _ c hu => hu.fetchBurst c).kept
  case arrivalWaitSatisfied =>
    exact (h.onWait _ _ _ _ fun _ c hu => hu.attempt c).kept
  case memoryWaitPoll =>
    exact (h.onWait _ _ _ _ fun _ c hu => hu.pollMemory c).kept
  case translationCompletion =>
    exact (h.ite (h.translated ..)).kept
  case invalidation =>
    exact (ite (h.send _) (h.invalidate ..)).kept
  case pageRequestResponse =>
    exact (h.ite (h.pageResponse ..)).kept
  case timeBusUpdate =>
    exact (ite (h.timeBus ..) h).kept
  case timeBusLoss =>
    exact (ite (h.busLost ..) h).kept
  case cadencePulse =>
    exact (ite (h.pulse ..) h).kept
  case lightDetected =>
    exact (ite (h.lightPort _) h).kept
  case trainingComplete =>
    exact ((h.endTraining ..).portSettled _).kept
  case portDarkTimeout =>
    exact ((h.darkPort _).portSettled _).kept
  case requestWrite =>
    exact kept (by
      split
      · exact (h.cutWrite ..).powerFall
      · exact h.serveWrite ..)
  case debugNonceRead =>
    exact (ite (h.serveRead _) h).kept
  case resetOrderWarm =>
    exact (ite (h.ownRow ..) h).kept
  case resetOrderCold =>
    exact (ite (h.ownRow ..) h).kept

theorem step_keeps {s t : State} (h : Inv s) (hstep : step s = .next t) : Inv t := by
  unfold step at hstep
  split at hstep
  · exact (h.elapse 1).kept t hstep
  next c rest _ => exact exec_keeps (s := { s with pending := rest }) { h with } c t hstep

/-- Settles O3: every field of the reset engine is what its declaration says. -/
theorem invariantAtReset : Obligations.InvariantAtReset :=
  { mem := ⟨rfl, rfl⟩, ledger0 := ringOk_default, ledger1 := ringOk_default, ports := List.length_replicate, inputs := rfl
    dies := by decide, halts := by decide, schedule := rfl }

/-- Settles O4, by the lemma of what the command does, for each command of the block. -/
theorem everyStepKeepsTheInvariant : Obligations.EveryStepKeepsTheInvariant :=
  fun _ _ h hstep => h.step_keeps hstep

end Sys2Proof.Safety.Inv
end

section
namespace Sys2Proof.Machine
open Safety
namespace State

/-! ### An entry of a ledger (R369) -/

section
variable (s : State)

theorem ledger_setLedger_self (die : Nat) (l : Ledger) : (s.setLedger die l).ledger die = l := by
  unfold setLedger ledger
  split <;> rfl

theorem ledger_setLedger_ne {die other : Nat} (h : ¬(die = 0 ↔ other = 0)) (l : Ledger) :
    (s.setLedger die l).ledger other = s.ledger other := by
  unfold setLedger ledger
  by_cases hdie : die = 0
  · have hother : other ≠ 0 := fun hother => h (iff_of_true hdie hother)
    simp only [hdie, hother, if_true, if_false]
  · have hother : other = 0 := by_contra fun hother => h (iff_of_false hdie hother)
    simp only [hdie, hother, if_true, if_false]

theorem ledger_of_integ {s t : State} (h : t.integ = s.integ) (die : Nat) : t.ledger die = s.ledger die := by
  rw [ledger, h, ledger]

/-- The entry as it is written: its number and its time are given by the ledger. -/
def stamped (die : Nat) (e : LedgerEntry) : LedgerEntry :=
  { e with seq := (s.ledger die).seq, time := s.reel die, root := if e.nested then e.root else (s.ledger die).seq }

/-- The ledger that an entry is written to: it stands at the tail, or is dropped. -/
def ledgerAfter (die : Nat) (e : LedgerEntry) : Ledger :=
  let l := s.ledger die
  let l1 : Ledger := { l with
    seq := l.seq + 1,
    worst := if l.worst ≤ e.severity then e.severity else l.worst,
    worstEntry := if l.worst ≤ e.severity then some (s.stamped die e) else l.worstEntry,
    newest := match l.newest with
      | some (clk, x) => if clk = s.clk ∧ e.severity < x.severity then some (clk, x) else some (s.clk, s.stamped die e)
      | none => some (s.clk, s.stamped die e) }
  if (if e.severity = 5 then l.count < 1024 else l.count < 1022) then
    { l1 with places := Table.put l.tail (s.stamped die e) l1.places, tail := (l.tail + 1) % 1024, count := l.count + 1 }
  else { l1 with dropped := l.dropped + 1, overflow := true }

/-- From `s` to `t` an entry was written or dropped, and what that is told to (the Daybook, an interrupt, a notice). -/
structure Enters (s t : State) (die : Nat) (e : LedgerEntry) : Prop where
  integ : t.integ = (s.setLedger die (s.ledgerAfter die e)).integ
  regs : RegsBut s t [droppedKey]
  prior : t.dict.prior = s.dict.prior
  sent : ∀ o ∈ s.outbox, o ∈ t.outbox
  rest : t.besideLedger = s.besideLedger

/-- From `s` to `t` something was sent or observed. -/
structure Tells (s t : State) : Prop where
  integ : t.integ = s.integ
  regs : RegsBut s t [droppedKey]
  prior : t.dict.prior = s.dict.prior
  sent : ∀ o ∈ s.outbox, o ∈ t.outbox
  rest : t.besideLedger = s.besideLedger

variable {s} {t u : State}

theorem Tells.refl (s : State) : Tells s s := ⟨rfl, regsBut_refl .., rfl, fun _ h => h, rfl⟩

theorem Tells.trans (hst : Tells s t) (htu : Tells t u) : Tells s u :=
  ⟨htu.integ.trans hst.integ, regsBut_trans hst.regs htu.regs, htu.prior.trans hst.prior, fun o ho => htu.sent o (hst.sent o ho), htu.rest.trans hst.rest⟩

theorem Traces.tells (h : Traces s t) : Tells s t := by
  obtain ⟨_, _, rfl, hregs⟩ := h
  exact ⟨rfl, ⟨fun k hk => hregs k (by simpa using hk), rfl, rfl⟩, rfl, fun _ ho => ho, rfl⟩

theorem interrupt_prior (s : State) (v : Nat) : (s.interrupt v).dict.prior = s.dict.prior := by
  unfold interrupt
  dsimp only
  repeat' split
  all_goals rfl

theorem tells_interrupt (s : State) (v : Nat) : Tells s (s.interrupt v) where
  integ := by rw [interrupt_eq]
  regs := ⟨fun _ _ => by rw [interrupt_regs], interrupt_kept .., interrupt_wearList ..⟩
  prior := interrupt_prior ..
  sent _ ho := mem_interrupt _ _ ho
  rest := interrupt_besideLedger ..

theorem tells_notify (s : State) (k v : Nat) : Tells s (s.notify k v) :=
  ⟨rfl, regsBut_of_dict rfl _, rfl, fun _ ho => List.mem_append_left _ ho, rfl⟩

theorem tells_dayEvent (s : State) (die place region cluster kind payload : Nat) :
    Tells s (s.dayEvent die place region cluster kind payload) := (s.traces_dayEvent ..).tells

/-- An entry that has been written is told of. -/
theorem Tells.enters {die : Nat} {e : LedgerEntry} (h : Tells (s.setLedger die (s.ledgerAfter die e)) t) : Enters s t die e :=
  ⟨h.integ, h.regs, h.prior, h.sent, h.rest⟩

theorem ledgerWrite_enters (s : State) (die : Nat) (e : LedgerEntry) : Enters s (s.ledgerWrite die e).1 die e := by
  refine Tells.enters ?_
  have hafter : s.ledgerAfter die e = s.ledgerAfter die e := rfl
  unfold ledgerWrite
  conv at hafter => rhs; unfold ledgerAfter
  extract_lets l e1 fits first l1 vec place s1 s2 s3 s4
  split
  · rename_i hfits
    have hs1 : s.setLedger die (s.ledgerAfter die e) = s1 := by
      rw [hafter]
      exact congrArg (s.setLedger die) (if_pos hfits)
    rw [hs1]
    have hs2 : Tells s1 s2 := by
      unfold s2
      split
      · exact tells_interrupt ..
      · exact .refl s1
    have hs3 : Tells s2 s3 := by
      unfold s3
      split
      · exact tells_notify ..
      · exact .refl s2
    exact (hs2.trans hs3).trans (tells_dayEvent s3 ..)
  · rename_i hfull
    have hs4 : s.setLedger die (s.ledgerAfter die e) = s4 := by
      rw [hafter]
      exact congrArg (s.setLedger die) (if_neg hfull)
    rw [hs4]
    dsimp only
    split
    · exact (tells_interrupt ..).trans (tells_notify ..)
    · exact .refl s4

theorem notice_enters (s : State) (die code phys detail : Nat) : ∃ e : LedgerEntry,
    e.code = code ∧ e.severity = 0 ∧ e.detail = detail ∧ e.phys = phys ∧ Enters s (s.notice die code phys detail) die e :=
  ⟨_, rfl, rfl, rfl, rfl, ledgerWrite_enters ..⟩

namespace Enters
variable {die : Nat} {e : LedgerEntry} (h : Enters s t die e)
include h

theorem ledger : t.ledger die = s.ledgerAfter die e :=
  (ledger_of_integ h.integ die).trans (ledger_setLedger_self ..)

theorem others {other : Nat} (hne : ¬(die = 0 ↔ other = 0)) : t.ledger other = s.ledger other :=
  (ledger_of_integ h.integ other).trans (ledger_setLedger_ne _ hne _)

/-- An entry that fits stands at the tail. -/
theorem entry (hfits : (s.ledger die).count < 1022) :
    Table.find? (s.ledger die).tail (t.ledger die).places = some (s.stamped die e) := by
  rw [h.ledger, ledgerAfter]
  dsimp only
  rw [if_pos (by split <;> omega)]
  exact Table.find?_put_self ..

theorem seq : (t.ledger die).seq = (s.ledger die).seq + 1 := by
  rw [h.ledger, ledgerAfter]
  exact (apply_ite Ledger.seq _ _ _).trans (ite_self _)

end Enters
end
end State
end Sys2Proof.Machine
end

/-! ## Orders of the dictionary -/

section
namespace Sys2Proof.Machine
open Safety

/-- R329–R346: an order that its value does not refuse ends as what it does to its entry, answered. -/
theorem serveWrite_answers_of_applyEntry {s s1 : State} {r : Request} {rivals : List Request} {e : DictEntry} (h : Admitted s r)
    (hu : Unrivalled s r rivals) (he : dictEntry? r.index r.sub = some e)
    (ha : (counted s).applyEntry r e (rivals.filter (counted s).passes) = (s1, 0))
    (hregs : RegsBut (counted s) s1 requestCounters) :
    AnsweredFrom s1 (s.serveWrite r rivals) r ∧ RegsBut s (s.serveWrite r rivals) requestCounters :=
  have hanswers := serveWrite_answers h hu he ha
  ⟨hanswers, hanswers.counters (regsBut_trans (counted_regsBut s) hregs)⟩

/-! ### Revoking a key (R384) -/

theorem bit_setBit (x i n : Nat) : bit (setBit x i) n = (bit x n || n == i) := by
  unfold setBit
  split
  · by_cases hn : n = i
    · rw [hn, ‹bit x i = true›, Bool.true_or]
    · simp [hn]
  · rw [bit_add_two_pow (Bool.eq_false_iff.2 ‹_›), Bool.or_comm]
    rfl

namespace State
variable {s : State} {n : Nat}

/-- R384: another slot stays usable. -/
def OtherUsable (s : State) (n : Nat) : Prop :=
  ∃ k, k < 4 ∧ k ≠ n ∧ bit s.fuses.keysProgrammed k = true ∧ bit s.fuses.keysRevoked k = false

theorem otherUsable_iff : OtherUsable s n ↔
    ((List.range 4).any fun k => k != n && bit s.fuses.keysProgrammed k && !bit s.fuses.keysRevoked k) = true := by
  simp [OtherUsable, and_assoc]

theorem keyRevoke_burns (hn : n < 4) (hrunning : n ≠ s.fw.runningKey) (hother : OtherUsable s n) :
    s.keyRevoke n = ({ s with fuses := { s.fuses with keysRevoked := setBit s.fuses.keysRevoked n } }, 0) := by
  unfold keyRevoke
  rw [otherUsable_iff.1 hother, if_neg (Nat.not_le.2 hn), if_neg (by simp [hrunning])]

theorem keyRevoke_refused (hn : n < 4) (h : n = s.fw.runningKey ∨ ¬OtherUsable s n) : s.keyRevoke n = (s, ownerRefused 0x2D09) := by
  rw [otherUsable_iff, Bool.not_eq_true, ← Bool.not_eq_true'] at h
  unfold keyRevoke
  rw [if_neg (Nat.not_le.2 hn), if_pos (by simpa using h)]

end State

theorem applyEntry_keyRevoke {s : State} {r : Request} {e : DictEntry} {mates : List Request} (hindex : r.index = 0x2D00)
    (hsub : r.sub = 0x0D) (hty : e.ty ≠ 1) (hvalue : written r < 4) : s.applyEntry r e mates = s.keyRevoke (written r) := by
  unfold State.applyEntry
  rw [hindex, hsub]
  simp [dictFamily, entryRange, hty]
  omega

/-- Settles O11: the revoke fuse of the slot is burnt, or the order is aborted, as the conditions say. -/
theorem keyRevoke : Obligations.KeyRevoke := by
  intro s r rivals n h hu hindex hsub hwritten hn
  subst hwritten
  have hexec : exec (.keyRevoke r rivals) s = .next (s.serveWrite r rivals) :=
    congrArg Host.Outcome.next (State.ownRow_eq (by rw [hindex]; rfl) (by rw [hsub]; rfl))
  have hentry : dictEntry? r.index r.sub = some ⟨0x0D, 2, 1, .wo, true, false, 0⟩ := by rw [hindex, hsub]; rfl
  have happly := applyEntry_keyRevoke (s := counted s) (mates := rivals.filter (counted s).passes) hindex hsub
    (e := ⟨0x0D, 2, 1, .wo, true, false, 0⟩) (by decide) hn
  refine ⟨fun ⟨hrunning, hother⟩ => ?burnt, fun hnone => ?refused⟩
  case burnt =>
    obtain ⟨hanswers, hregs⟩ := serveWrite_answers_of_applyEntry h hu hentry
      (happly.trans (State.keyRevoke_burns (s := counted s) hn hrunning hother)) (regsBut_of_dict rfl _)
    have hfuses : (s.serveWrite r rivals).fuses = { s.fuses with keysRevoked := setBit s.fuses.keysRevoked (written r) } :=
      (congrArg State.fuses hanswers.rest :)
    refine ⟨_, hexec, hanswers.answered, fun b => ?_, ?_, hregs, ?_⟩
    · rw [hfuses]
      exact bit_setBit ..
    · rw [hfuses]
    · rw [hfuses]
      exact hanswers.rest
  case refused =>
    have hfew : written r = s.fw.runningKey ∨ ¬s.OtherUsable (written r) :=
      hnone.imp id fun hall ⟨k, hk, hne, hprogrammed, husable⟩ => by simp [hall k hk hne hprogrammed] at husable
    obtain ⟨haborted, hregs, hrest⟩ := serveWrite_aborts (rivals := rivals) h hentry (by decide)
      (happly.trans (State.keyRevoke_refused (s := counted s) hn hfew))
    exact ⟨_, hexec, haborted, hregs, hrest⟩

end Sys2Proof.Machine
end

section
namespace Sys2Proof.Machine
open Safety
namespace State

/-! ### The cap in force (R427, R428) -/

section
variable (s : State)

/-- R428: the cap that the pin and the stored value give. -/
def capNow : Nat := if s.pins.throttleLow then min 1000 (s.reg 0x2F00 0x07 3200) else s.reg 0x2F00 0x07 3200

/-- From `s` to `t` the cap has been taken into force. -/
structure Caps (s t : State) : Prop where
  pins : t.pins = { s.pins with capEffective := s.capNow, capUnmet := t.pins.capUnmet }
  regs : RegsBut s t [droppedKey, key 0x2F00 0x0B]
  sent : ∀ o ∈ s.outbox, o ∈ t.outbox
  rest : t = { s with pins := t.pins, dict := t.dict, integ := t.integ, obs := t.obs, outbox := t.outbox, free := t.free }

theorem applyCap_caps : Caps s s.applyCap := by
  unfold applyCap
  extract_lets cap unmet _ s1 s2
  have hs2 : s2.pins = s1.pins ∧ RegsBut s1 s2 [droppedKey] ∧ (∀ o ∈ s1.outbox, o ∈ s2.outbox) ∧ s2.besideLedger = s1.besideLedger := by
    unfold s2
    split
    · obtain ⟨_, -, -, -, -, hnotice⟩ := s1.notice_enters s1.noticeDie 0x2F02 (s1.dieLoc s1.noticeDie) 0
      exact ⟨(congrArg State.pins hnotice.rest :), hnotice.regs, hnotice.sent, hnotice.rest⟩
    · exact ⟨rfl, regsBut_refl .., fun _ ho => ho, rfl⟩
  obtain ⟨hpins, hregs, hsent, hrest⟩ := hs2
  have heq := eq_of_besideLedger hrest
  refine ⟨?_, ?_, fun o ho => hsent o ho, ?_⟩
  · exact hpins.trans (congrArg (fun p : Pins => { s.pins with capEffective := cap, capUnmet := p.capUnmet }) hpins).symm
  · exact regsBut_trans (regsBut_widen (s := s) (t := s2) hregs (by simp)) (regsBut_widen (regsBut_bump s2.draw.2 0x2F00 0x0B _) (by simp))
  · exact congrArg (fun u : State => { u with dict := (s2.bumpFree 0x2F00 0x0B).dict, free := (s2.bumpFree 0x2F00 0x0B).free, pins := s2.pins }) heq

end
end State

open State

/-! ### Caps and resets as orders (R427–R431) -/

section
variable {s : State} {r : Request} {e : DictEntry} {mates : List Request} (hindex : r.index = 0x2F00) (hty : e.ty ≠ 1)
include hindex hty

theorem applyEntry_powerCap (hsub : r.sub = 0x07) : s.applyEntry r e mates = s.powerCap (written r) := by
  unfold State.applyEntry
  rw [hindex, hsub]
  simp [dictFamily, entryRange, hty]

theorem applyEntry_resetOrder (hsub : r.sub = 0x03) : s.applyEntry r e mates = s.orderReset (written r) := by
  unfold State.applyEntry
  rw [hindex, hsub]
  simp [dictFamily, entryRange, hty]

end

theorem powerCap_stored {s : State} {v : Nat} (hlow : 1000 ≤ v) (hhigh : v ≤ 3200) (hstep : v % 50 = 0) :
    s.powerCap v = ((s.setReg 0x2F00 0x07 v).applyCap, 0) := if_neg (by simp; omega)

theorem powerCap_refused {s : State} {v : Nat} (h : v < 1000 ∨ 3200 < v ∨ v % 50 ≠ 0) : s.powerCap v = (s, valueRange) :=
  if_pos (by simpa using h)

/-- R429, R430: a warm reset is ordered, where no cold one is. -/
theorem orderReset_warm (s : State) :
    s.orderReset 1 = ({ s with pins := { s.pins with ordered := if s.pins.ordered = 2 then 2 else 1 } }, 0) := by
  unfold orderReset
  rw [if_pos rfl]
  split
  · rename_i hcold
    rw [← hcold]
  · rfl

theorem orderReset_cold (s : State) : s.orderReset 2 = ({ s with pins := { s.pins with ordered := 2 } }, 0) := rfl

/-- Settles O14: a cap that is stored is in force, any other is aborted, and a reset is ordered. -/
theorem powerAndResetOrders : Obligations.PowerAndResetOrders := by
  intro s r rivals v h hu hindex hwritten
  subst hwritten
  have hrow (hsub : r.sub = 0x03) : s.ownRow r rivals 0x2F00 [0x03] = s.serveWrite r rivals :=
    ownRow_eq (by rw [hindex]; rfl) (by rw [hsub]; rfl)
  have hcap (hsub : r.sub = 0x07) : exec (.powerCap r rivals) s = .next (s.serveWrite r rivals) :=
    congrArg Host.Outcome.next (ownRow_eq (by rw [hindex]; rfl) (by rw [hsub]; rfl))
  refine ⟨fun hsub hlow hhigh hstep => ?stored, fun hsub hbad => ?refused, fun hsub hone => ?warm, fun hsub htwo => ?cold⟩
  case stored =>
    have hanswers := serveWrite_answers h hu (by rw [hindex, hsub]; rfl)
      ((applyEntry_powerCap hindex (by decide) hsub).trans (powerCap_stored hlow hhigh hstep))
    have hcaps := applyCap_caps ((counted s).setReg 0x2F00 0x07 (written r))
    generalize ((counted s).setReg 0x2F00 0x07 (written r)).applyCap = u at hanswers hcaps
    have hrest := hanswers.rest
    have hexec := hcap hsub
    generalize s.serveWrite r rivals = t at hanswers hrest hexec
    have hpins : t.pins = u.pins := (congrArg State.pins hrest :)
    have hinteg : t.integ = u.integ := (congrArg State.integ hrest :)
    have hobs : t.obs = u.obs := (congrArg State.obs hrest :)
    have hfree : t.free = u.free := (congrArg State.free hrest :)
    refine ⟨t, hexec, hanswers.answered, ?_, ?_, ?_⟩
    · rw [reg_of_regsBut hanswers.regs (by decide), reg_of_regsBut hcaps.regs (by decide), reg_setReg_self]
    · rw [hpins]
      refine hcaps.pins.trans ?_
      rw [capNow, reg_setReg_self, Nat.min_eq_left hlow]
      rfl
    · refine hrest.trans ?_
      rw [hpins, hinteg, hobs, hfree]
      exact congrArg (fun x : State => { x with dict := t.dict, outbox := t.outbox, bruora := linkAfter x t r }) hcaps.rest
  case refused =>
    obtain ⟨haborted, hregs, hrest⟩ := serveWrite_aborts (rivals := rivals) h (by rw [hindex, hsub]; rfl) (by decide)
      ((applyEntry_powerCap hindex (by decide) hsub).trans (powerCap_refused hbad))
    exact ⟨_, hcap hsub, haborted, hregs, hrest⟩
  case warm =>
    obtain ⟨hanswers, hregs⟩ := serveWrite_answers_of_applyEntry h hu (by rw [hindex, hsub]; rfl)
      ((applyEntry_resetOrder hindex (by decide) hsub).trans ((congrArg (counted s).orderReset hone).trans (orderReset_warm _))) (regsBut_of_dict rfl _)
    have hpins : (s.serveWrite r rivals).pins = { s.pins with ordered := if s.pins.ordered = 2 then 2 else 1 } :=
      (congrArg State.pins hanswers.rest :)
    refine ⟨_, congrArg Host.Outcome.next ((if_pos hone).trans (hrow hsub)), hanswers.answered, hpins, hregs, ?_⟩
    rw [hpins]
    exact hanswers.rest
  case cold =>
    obtain ⟨hanswers, hregs⟩ := serveWrite_answers_of_applyEntry h hu (by rw [hindex, hsub]; rfl)
      ((applyEntry_resetOrder hindex (by decide) hsub).trans ((congrArg (counted s).orderReset htwo).trans (orderReset_cold _))) (regsBut_of_dict rfl _)
    have hpins : (s.serveWrite r rivals).pins = { s.pins with ordered := 2 } :=
      (congrArg State.pins hanswers.rest :)
    refine ⟨_, congrArg Host.Outcome.next ((if_pos htwo).trans (hrow hsub)), hanswers.answered, hpins, hregs, ?_⟩
    rw [hpins]
    exact hanswers.rest

end Sys2Proof.Machine
end

section
namespace Sys2Proof.Machine
open Safety State

/-! ### Orders of a ledger (R370) -/

section
variable {s : State} {r : Request} {e : DictEntry} {mates : List Request} {die : Nat} (hdie : die ≤ 1)
  (hindex : r.index = 0x2C10 + die)
include hdie hindex

theorem dictFamily_ledger : dictFamily r.index = (0x2C10, die) := by
  rw [hindex]
  obtain rfl | rfl : die = 0 ∨ die = 1 := by omega
  · rfl
  · rfl

theorem applyEntry_ledgerHead (hsub : r.sub = 0x01) (hty : e.ty ≠ 1) : s.applyEntry r e mates =
    match s.ledgerRetire die (written r) with
    | some t => (t, 0)
    | none => (s, valueRange) := by
  unfold State.applyEntry
  rw [dictFamily_ledger hdie hindex, hsub]
  exact if_neg (by simp [show entryRange 0x2C10 0x01 = none from rfl, hty])

theorem applyEntry_overflowClear (hsub : r.sub = 0x04) (hone : written r = 1) :
    s.applyEntry r e mates = (s.setLedger die { s.ledger die with overflow := false }, 0) := by
  unfold State.applyEntry
  rw [dictFamily_ledger hdie hindex, hsub, hone]
  exact if_neg (by simp [show entryRange 0x2C10 0x04 = none from rfl])

theorem applyEntry_worstClear (hsub : r.sub = 0x08) (hone : written r = 1) : s.applyEntry r e mates = (s.clearWorst die, 0) := by
  unfold State.applyEntry
  rw [dictFamily_ledger hdie hindex, hsub, hone]
  exact if_neg (by simp [show entryRange 0x2C10 0x08 = none from rfl])

/-- An entry of a ledger's family is one of both ledgers. -/
theorem dictEntry?_ledger (hentry : dictEntry? 0x2C10 r.sub = some e) : dictEntry? r.index r.sub = some e := by
  rw [← hentry, hindex]
  obtain rfl | rfl : die = 0 ∨ die = 1 := by omega
  · rfl
  · rfl

end

/-- R370: entries below a head value are retired. -/
def retired (l : Ledger) (v : Nat) : Ledger :=
  { l with
    head := v, count := l.count - (v + 1024 - l.head) % 1024,
    places := l.places.filter fun p => !((p.1 + 1024 - l.head) % 1024 < (v + 1024 - l.head) % 1024) }

theorem mem_retired {l : Ledger} {v : Nat} {p : Nat × LedgerEntry} :
    p ∈ (retired l v).places ↔ p ∈ l.places ∧ (v + 1024 - l.head) % 1024 ≤ (p.1 + 1024 - l.head) % 1024 := by
  simp [retired]

section
variable {s : State} {die v : Nat}

theorem ledgerRetire_some (hv : v < 1024) (hin : (v + 1024 - (s.ledger die).head) % 1024 ≤ (s.ledger die).count) :
    s.ledgerRetire die v = some (s.setLedger die (retired (s.ledger die) v)) := if_neg (by omega)

theorem ledgerRetire_none (h : 1024 ≤ v ∨ (s.ledger die).count < (v + 1024 - (s.ledger die).head) % 1024) :
    s.ledgerRetire die v = none := if_pos h

/-- R370: what stands after `WORST_CLEAR`: the worst fault of the same clk, which takes effect after it. -/
def worstCleared (clk : Nat) (l : Ledger) : Ledger := match l.newest with
  | some (at_, e) => if at_ = clk then { l with worst := e.severity, worstEntry := some e } else { l with worst := 0, worstEntry := none }
  | none => { l with worst := 0, worstEntry := none }

theorem clearWorst_eq (s : State) (die : Nat) : s.clearWorst die = s.setLedger die (worstCleared s.clk (s.ledger die)) := rfl

theorem worstCleared_of_older {clk : Nat} {l : Ledger} (h : l.newest.map Prod.fst ≠ some clk) :
    worstCleared clk l = { l with worst := 0, worstEntry := none } := by
  unfold worstCleared
  split
  · rename_i hnewest
    rw [hnewest] at h
    exact if_neg fun hclk => h (congrArg some hclk)
  · rfl

theorem worstCleared_of_now {clk : Nat} {l : Ledger} {e : LedgerEntry} (h : l.newest = some (clk, e)) :
    worstCleared clk l = { l with worst := e.severity, worstEntry := some e } := by
  unfold worstCleared
  rw [h]
  exact if_pos rfl

end

/-- What an order that leaves one ledger as `l` has done. -/
structure LedgerOrdered (s t : State) (r : Request) (die : Nat) (l : Ledger) : Prop where
  answered : Answered t r
  ledger : t.ledger die = l
  other : t.ledger (1 - die) = s.ledger (1 - die)
  regs : RegsBut s t requestCounters
  rest : t = { s with dict := t.dict, outbox := t.outbox, bruora := linkAfter s t r, integ := t.integ }

theorem serveWrite_ledgerOrdered {s : State} {r : Request} {rivals : List Request} {e : DictEntry} {die : Nat} {l : Ledger}
    (h : Admitted s r) (hu : Unrivalled s r rivals) (he : dictEntry? r.index r.sub = some e) (hdie : die ≤ 1)
    (ha : (counted s).applyEntry r e (rivals.filter (counted s).passes) = ((counted s).setLedger die l, 0)) :
    LedgerOrdered s (s.serveWrite r rivals) r die l := by
  obtain ⟨hanswers, hregs⟩ := serveWrite_answers_of_applyEntry h hu he ha (regsBut_of_dict rfl _)
  have hinteg : (s.serveWrite r rivals).integ = (s.setLedger die l).integ := (congrArg State.integ hanswers.rest :)
  refine ⟨hanswers.answered, (ledger_of_integ hinteg die).trans (ledger_setLedger_self ..),
    (ledger_of_integ hinteg _).trans (ledger_setLedger_ne s (by omega) l), hregs, ?_⟩
  rw [hinteg]
  exact hanswers.rest

/-- `LEDGER_HEAD` in the tables. -/
def headEntry : DictEntry := ⟨0x01, 3, 2, .rw, true, false, 0⟩

/-- Settles O7: each order leaves its ledger as its rule says, or is refused, and leaves the other ledger. -/
theorem ledgerOrders : Obligations.LedgerOrders := by
  intro s r rivals die l h hu hdie hindex hl
  subst hl
  have hrow {row : List Nat} (hmem : row.contains r.sub = true) : s.ownRow r rivals 0x2C10 row = s.serveWrite r rivals :=
    ownRow_eq (congrArg Prod.fst (dictFamily_ledger hdie hindex)) hmem
  refine ⟨fun hsub hv hin => ?head, fun hsub hout => ?refused, fun hsub hone => ?overflow, fun hsub hone => ?worst⟩
  case head =>
    have happly := (applyEntry_ledgerHead (s := counted s) (mates := rivals.filter (counted s).passes) hdie hindex hsub
      (e := headEntry) (by decide)).trans (by rw [ledgerRetire_some (s := counted s) hv hin])
    have hordered := serveWrite_ledgerOrdered h hu (dictEntry?_ledger hdie hindex (by rw [hsub]; rfl)) hdie happly
    refine ⟨_, congrArg Host.Outcome.next (hrow (by rw [hsub]; rfl)), hordered.answered, ?_⟩
    rw [hordered.ledger]
    exact ⟨rfl, rfl, rfl, rfl, rfl, fun _ => mem_retired, hordered.other, hordered.regs, hordered.rest⟩
  case refused =>
    have happly := (applyEntry_ledgerHead (s := counted s) (mates := rivals.filter (counted s).passes) hdie hindex hsub
      (e := headEntry) (by decide)).trans (by rw [ledgerRetire_none (s := counted s) hout])
    obtain ⟨haborted, hregs, hrest⟩ :=
      serveWrite_aborts (rivals := rivals) h (dictEntry?_ledger hdie hindex (by rw [hsub]; rfl)) (by decide) happly
    exact ⟨_, congrArg Host.Outcome.next (hrow (by rw [hsub]; rfl)), haborted, hregs, hrest⟩
  case overflow =>
    have hordered := serveWrite_ledgerOrdered h hu (dictEntry?_ledger hdie hindex (by rw [hsub]; rfl)) hdie
      (applyEntry_overflowClear hdie hindex hsub hone)
    exact ⟨_, congrArg Host.Outcome.next (hrow (by rw [hsub]; rfl)), hordered.answered, hordered.ledger, hordered.other,
      hordered.regs, hordered.rest⟩
  case worst =>
    have hordered := serveWrite_ledgerOrdered h hu (dictEntry?_ledger hdie hindex (by rw [hsub]; rfl)) hdie
      ((applyEntry_worstClear hdie hindex hsub hone).trans (by rw [clearWorst_eq]))
    exact ⟨_, congrArg Host.Outcome.next (hrow (by rw [hsub]; rfl)), hordered.answered,
      fun holder => hordered.ledger.trans (worstCleared_of_older holder),
      fun _ hnow => hordered.ledger.trans (worstCleared_of_now hnow), hordered.other, hordered.regs, hordered.rest⟩

end Sys2Proof.Machine
end

section
namespace Sys2Proof.Machine
open Safety

/-! ### A breakpoint that is written lets go of what it held (R412, R413)

The frame that O13 gives a write of a breakpoint record leaves `cmds` as it stood. A command that the old record held before
its first tile goes on as the record is replaced, and its own state changes. -/

/-- A FENCE of queue 3 that a breakpoint holds before its first tile. -/
def heldFence : Cmd :=
  { q := 3, i := 0, pasid := 5, die := 0, region := 0, clusters := 1, recs := { desc := leBytes 64 14 }, wait := .parked }

/-- Breakpoint 1 holds the FENCE: a record of kind 2 that names its PASID, its tag and its queue, with every scope open. -/
def fenceHeld : State :=
  { State.reset with
    queues := [(3, { queueOf 0 0 with pasid := 5 })]
    cmds := [heldFence]
    fw := { scopes := 15, byChallenge := 15 }
    obs := { breakpoints := [(1, 5 + 2 ^ 20 * 2 + 2 ^ 64 * 3)] } }

/-- A write of breakpoint record 1 that disables it. -/
def disableBreakpoint : Request :=
  { path := .management, tag := 0, index := 0x2E60, sub := 0x01, length := 16, offset := 0, reserved := false, data := leBytes 16 0 }

/-- The order is admitted, the record is well-formed, and the command is held. -/
theorem fenceHeld_admits : Admitted fenceHeld disableBreakpoint ∧ Unrivalled fenceHeld disableBreakpoint [] ∧
    written disableBreakpoint = 0 ∧ State.breakpointMalformed 0 = false ∧ fenceHeld.breakHolds heldFence = true := by
  decide +kernel

/-- The FENCE has gone on: it waits for the commands before it. -/
theorem serveWrite_disableBreakpoint :
    (fenceHeld.ownRow disableBreakpoint [] 0x2E60 [0x01, 0x02, 0x03, 0x04, 0x05, 0x06, 0x07, 0x08]).cmds.map Cmd.wait = [.fence] := by
  decide +kernel

/-- Refutes O13: the clause of a breakpoint record frames the commands in flight, but one that the old record held goes on. -/
theorem not_observeOrders : ¬ Obligations.ObserveOrders := by
  intro h
  obtain ⟨hadmitted, hunrivalled, hwritten, hformed, -⟩ := fenceHeld_admits
  obtain ⟨-, -, -, hbreakpoint, -⟩ := h fenceHeld disableBreakpoint [] 0 hadmitted hunrivalled hwritten
  obtain ⟨t, ht, -, -, -, -, hframe⟩ := hbreakpoint rfl (by decide) (by decide) hformed
  have hresult : fenceHeld.ownRow disableBreakpoint [] 0x2E60 [0x01, 0x02, 0x03, 0x04, 0x05, 0x06, 0x07, 0x08] = t := by injection ht
  have hcmds : t.cmds = [heldFence] := (congrArg State.cmds hframe :)
  have hwaits := serveWrite_disableBreakpoint
  rw [hresult, hcmds] at hwaits
  exact absurd hwaits (by decide)

end Sys2Proof.Machine
end

section
namespace Sys2Proof.Machine
open Safety
namespace State

/-! ### What a read of the same clk returns stands through an answer (R344) -/

section
variable (s : State)

theorem prior_pumpPort (p : Nat) : (s.pumpPort p).dict.prior = s.dict.prior := by
  rw [pumpPort_eq]
  exact List.foldlRecOn (motive := fun t : State => t.dict.prior = s.dict.prior) _ _ rfl fun _ ht _ _ => ht

theorem prior_emit (p : Nat) (m : Message) : (s.emit p m).dict.prior = s.dict.prior := prior_pumpPort ..

theorem prior_answer (m : Message) : (s.answer m).dict.prior = s.dict.prior := by
  unfold answer
  split
  · exact prior_emit ..
  · rfl
  · rfl

theorem prior_answerPeer (peer : Nat) (r : Request) (bytes : List Byte) : (s.answerPeer peer r bytes).dict.prior = s.dict.prior := by
  unfold answerPeer
  refine (prior_answer ..).trans ?_
  dsimp only
  split <;> rfl

theorem prior_respond (op : Nat) (r : Request) (a : Nat) (b : List Byte) : (s.respond op r a b).dict.prior = s.dict.prior := by
  unfold respond
  dsimp only
  split
  · rfl
  · rfl
  · exact prior_answerPeer ..
  · exact interrupt_prior ..
  · rfl

end

/-! ### A kept entry that is written (R340–R342) -/

section
variable {s : State}

theorem keptNotice_tells (s : State) (code k : Nat) : (s.keptNotice code k).dict.prior = s.dict.prior := by
  refine List.foldlRecOn (motive := fun t : State => t.dict.prior = s.dict.prior) _ _ rfl fun t ht die _ => ?_
  obtain ⟨_, -, -, -, -, hnotice⟩ := t.notice_enters die code (mkLoc true t.packageId die 0 0x1F 0xB 0 0xFF) k
  exact hnotice.prior.trans ht

theorem prior_setWear (s : State) (k state : Nat) : (s.setWear k state).dict.prior = s.dict.prior := (tells_dayEvent ..).prior

theorem prior_warnWear (s : State) (k : Nat) : (s.warnWear k).dict.prior = s.dict.prior :=
  (prior_setWear ..).trans (interrupt_prior ..)

/-- R340: an entry that is neither worn nor stuck takes the value, and its write is counted. -/
theorem commitKept_counts {k v : Nat} (hworn : s.keptWorn k = false) (hstuck : s.stuckCopies k = 0) :
    Table.find? k (s.commitKept k v).dict.kept =
      some (countedWrite ((Table.find? k s.dict.kept).getD { value := v, writes := 0 }) v) ∧
      (s.commitKept k v).dict.prior = s.dict.prior := by
  unfold commitKept
  rw [if_neg (ne_true_of_eq_false hworn), if_neg (by simp [hstuck])]
  extract_lets e _ s1
  have hnoted : (if e.writes = 180000 then s1.warnWear k
      else if e.writes = 200000 then (s1.setWear k 2).keptNotice 0x1011 k else s1).dict.kept = s1.dict.kept ∧
      (if e.writes = 180000 then s1.warnWear k
      else if e.writes = 200000 then (s1.setWear k 2).keptNotice 0x1011 k else s1).dict.prior = s.dict.prior := by
    split
    · exact ⟨(notices_warnWear ..).2, prior_warnWear ..⟩
    · split
      · exact ⟨((notices_setWear ..).trans (notices_keptNotice ..)).2, (keptNotice_tells ..).trans (prior_setWear ..)⟩
      · exact ⟨rfl, rfl⟩
  exact ⟨(congrArg (Table.find? k) hnoted.1).trans (Table.find?_put_self ..), hnoted.2⟩

end

end State

open State

/-! ### Entries without a rule of their own (R327) -/

/-- R338: the value is outside what the table of the entry admits. -/
def outOfRange (r : Request) (e : DictEntry) : Bool :=
  (e.ty == 1 && 1 < written r) || (match entryRange (dictFamily r.index).1 r.sub with
    | some (lo, hi) => written r < lo || hi < written r
    | none => false)

theorem outOfRange_of_inRange {r : Request} {e : DictEntry} (h : InRange r.index r.sub e (written r)) : outOfRange r e = false := by
  obtain ⟨htruth, hrange⟩ := h
  unfold outOfRange
  rw [Bool.or_eq_false_iff]
  constructor
  · by_cases hty : e.ty = 1
    · simp [hty, Nat.not_lt.2 (htruth hty)]
    · simp [hty]
  · split
    · rename_i lo hi hentry
      obtain ⟨hlo, hhi⟩ := hrange lo hi hentry
      simp [Nat.not_lt.2 hlo, Nat.not_lt.2 hhi]
    · rfl

section
variable {s : State} {r : Request} {e : DictEntry} {mates : List Request}

theorem applyEntry_of_plain (hplain : (r.index, r.sub) ∈ plainEntries) : s.applyEntry r e mates =
    if outOfRange r e then (s, valueRange) else (s.storeValue r.index r.sub e (written r), 0) := by
  have hall : ∀ x ∈ plainEntries, (r.index, r.sub) = x → s.applyEntry r e mates =
      if outOfRange r e then (s, valueRange) else (s.storeValue r.index r.sub e (written r), 0) := by
    simp only [plainEntries, List.forall_mem_cons, List.not_mem_nil, false_imp_iff, implies_true, and_true, Prod.mk.injEq, and_imp]
    and_intros <;> intro hindex hsub <;> unfold applyEntry outOfRange <;> rw [hindex, hsub] <;> rfl
  exact hall _ hplain rfl

/-- No other field of the state holds the value of a plain entry. -/
theorem liveField_of_plain (hplain : (r.index, r.sub) ∈ plainEntries) (pasid : Nat) :
    s.liveField (dictFamily r.index).1 (dictFamily r.index).2 r.sub pasid = none := by
  have hall : ∀ x ∈ plainEntries, s.liveField (dictFamily x.1).1 (dictFamily x.1).2 x.2 pasid = none := by
    simp only [plainEntries, List.forall_mem_cons, List.not_mem_nil, false_imp_iff, implies_true, and_true]
    and_intros <;> rfl
  exact hall _ hplain

theorem access_of_plain (hplain : (r.index, r.sub) ∈ plainEntries) (he : dictEntry? r.index r.sub = some e) :
    e.access = .rw ∧ r.sub ≠ 0 ∧ key r.index r.sub ∉ requestCounters := by
  have hall : ∀ x ∈ plainEntries, ((dictEntry? x.1 x.2).map DictEntry.access = some .rw ∧ x.2 ≠ 0 ∧ key x.1 x.2 ∉ requestCounters) := by
    decide
  obtain ⟨haccess, hrest⟩ := hall _ hplain
  rw [he] at haccess
  exact ⟨Option.some.inj haccess, hrest⟩

/-- The stored value of an entry. -/
def State.storedValue (s : State) (index sub : Nat) (e : DictEntry) : Nat :=
  if e.kept then s.keptReg index sub e.default else s.reg index sub e.default

/-- A read of a plain entry returns what is stored. -/
theorem entryValue_of_plain (hplain : (r.index, r.sub) ∈ plainEntries) (he : dictEntry? r.index r.sub = some e) :
    s.entryValue r.index r.sub 0 e = s.storedValue r.index r.sub e % 2 ^ (8 * e.len) := by
  obtain ⟨haccess, hsub, -⟩ := access_of_plain hplain he
  have hlive : s.liveValue r.index r.sub 0 e = s.storedValue r.index r.sub e % 2 ^ (8 * e.len) := by
    unfold liveValue
    dsimp only
    rw [if_neg hsub, liveField_of_plain hplain, haccess]
    rfl
  unfold entryValue
  rw [if_neg (by simp [isCounter, haccess]), hlive]

end
end Sys2Proof.Machine
end

section
namespace Sys2Proof.Machine
open Safety State

/-! ### A write of a plain entry (R327, R340, R344) -/

section
variable {s t u : State} {r : Request} {rivals : List Request} {e : DictEntry}

/-- R333, R338: a write that no check refuses carries the whole entry. -/
theorem lengths_of_accessible (h : s.accessAborts r true = []) (he : dictEntry? r.index r.sub = some e) :
    r.data.length = e.len ∧ r.length = e.len ∧ r.offset = 0 := by
  unfold State.accessAborts at h
  rw [he] at h
  simp only [List.append_eq_nil_iff] at h
  obtain ⟨-, -, hlengths⟩ := h
  by_contra hwrong
  rw [← and_assoc, not_and_or, not_and_or] at hwrong
  rw [if_pos trivial, show (r.data.length != e.len || r.length != e.len || r.offset != 0) = true by simpa [or_assoc] using hwrong] at hlengths
  exact absurd hlengths (by decide)

theorem leNat_lt (bs : List Byte) : leNat bs < 256 ^ bs.length := by
  have htake := leNat_take bs bs.length
  rw [List.take_length] at htake
  rw [htake]
  exact Nat.mod_lt _ (by positivity)

theorem written_lt (h : s.accessAborts r true = []) (he : dictEntry? r.index r.sub = some e) : written r < 2 ^ (8 * e.len) := by
  have hlt := leNat_lt r.data
  rwa [(lengths_of_accessible h he).1, show (256 : Nat) = 2 ^ 8 from rfl, ← pow_mul] at hlt

theorem storedValue_of_regsBut {ks : List Nat} (h : RegsBut s t ks) (hkey : key r.index r.sub ∉ ks) :
    t.storedValue r.index r.sub e = s.storedValue r.index r.sub e := by
  obtain ⟨hregs, hkept, -⟩ := h
  unfold State.storedValue State.keptReg State.reg
  rw [hregs _ hkey, hkept]

/-- R341: where the value differs from the stored one, both copies of an admitted order commit. -/
theorem stuckCopies_of_admitted (h : Admitted s r) (he : dictEntry? r.index r.sub = some e) (hkept : e.kept = true)
    (hdiffers : s.keptReg r.index r.sub e.default ≠ written r) : s.stuckCopies (key r.index r.sub) = 0 := by
  have hstuck := h.2
  unfold State.orderStuck State.commitFails at hstuck
  rw [he] at hstuck
  dsimp only at hstuck
  rwa [if_pos hkept, if_neg hdiffers] at hstuck

/-- What the store of a value has done before its answer: the value stands, and beside it only what wear leaves has changed. -/
structure Stores (s u : State) (r : Request) (e : DictEntry) : Prop where
  value : u.storedValue r.index r.sub e = written r
  prior : u.dict.prior = s.dict.prior
  rest : u.besideLedger = s.besideLedger

theorem storeValue_stores (h : Admitted s r) (he : dictEntry? r.index r.sub = some e) :
    Stores s ((counted s).storeValue r.index r.sub e (written r)) r e := by
  by_cases hkept : e.kept = true
  · obtain ⟨hvalue, hrest⟩ := storeValue_of_admitted h he hkept
    refine ⟨(if_pos hkept).trans hvalue, ?_, hrest⟩
    unfold State.storeValue State.writeKept
    rw [if_pos hkept]
    split
    · rfl
    · rename_i hdiffers
      exact (commitKept_counts (keptWorn_of_accessible (s := counted s) (by rw [counted_accessAborts]; exact h.1.2) he hkept)
        (stuckCopies_of_admitted (s := s) h he hkept (by rwa [counted_keptReg] at hdiffers))).2
  · unfold State.storeValue
    rw [if_neg hkept]
    exact ⟨(if_neg hkept).trans (reg_setReg_self ..), rfl, rfl⟩

/-- R344: a read in the clk of the write returns what stood before. -/
theorem seenValue_of_notePrior (hclk : u.clk = s.clk) (hprior : u.dict.prior = s.dict.prior) (hfresh : s.dict.prior.1 ≠ s.clk)
    (htclk : t.clk = s.clk) (ht : t.dict.prior = (s.notePrior u r.index r.sub e).dict.prior)
    (hvalue : t.entryValue r.index r.sub 0 e = u.entryValue r.index r.sub 0 e) :
    t.seenValue r.index r.sub 0 e = s.entryValue r.index r.sub 0 e := by
  have hold : u.dict.prior.1 ≠ u.clk := by rwa [hprior, hclk]
  unfold State.notePrior at ht
  rw [if_neg hold] at ht
  unfold State.seenValue
  by_cases hsame : s.entryValue r.index r.sub 0 e = u.entryValue r.index r.sub 0 e
  · rw [if_pos (.inl hsame)] at ht
    rw [ht, hprior, htclk, if_neg hfresh]
    exact hvalue.trans hsame.symm
  · rw [if_neg (by simp [hsame])] at ht
    rw [ht, htclk, ← hclk, if_pos rfl]
    simp

/-- R341: an order that arrives is not one whose commit is cut. -/
theorem exec_requestWrite (h : s.arrives 1 r = true) : exec (.requestWrite r rivals) s = .next (s.serveWrite r rivals) := by
  have hcut : r.cut = none := by
    unfold State.arrives at h
    simp only [Bool.and_eq_true, Option.isNone_iff_eq_none] at h
    exact h.1.1.1.1.2
  exact congrArg Host.Outcome.next (by rw [hcut])

theorem writes_countedWrite (x : Option Kept) (v : Nat) :
    (countedWrite (x.getD { value := v, writes := 0 }) v).writes = (x.map Kept.writes).getD 0 + 1 := by
  cases x <;> rfl

/-- Settles O15: the store of the value leaves what its kind of entry says, and the answer leaves that. -/
theorem plainWriteIsReadBack : Obligations.PlainWriteIsReadBack := by
  intro s r rivals e v h hu hplain he hwritten hrange
  subst hwritten
  obtain ⟨-, -, hkey⟩ := access_of_plain hplain he
  have happly := (applyEntry_of_plain (s := counted s) (mates := rivals.filter (counted s).passes) hplain).trans
    (if_neg (ne_true_of_eq_false (outOfRange_of_inRange hrange)))
  have hanswers := serveWrite_answers h hu he happly
  have hstores := storeValue_stores h he
  have hprior := congrArg (fun x : State => x.dict.prior) (serveWrite_ok h hu he happly)
  have hstored : (counted s).storeValue r.index r.sub e (written r) = if e.kept then
      if s.keptReg r.index r.sub e.default = written r then counted s
      else (counted s).commitKept (key r.index r.sub) (written r)
    else (counted s).setReg r.index r.sub (written r) := by
    rw [← counted_keptReg]
    rfl
  generalize (counted s).storeValue r.index r.sub e (written r) = u at hanswers hstores hprior hstored
  have hexec := exec_requestWrite (rivals := rivals) h.1.1
  generalize s.serveWrite r rivals = t at hanswers hprior hexec
  have hclk : u.clk = s.clk := (congrArg State.clk hstores.rest :)
  have hrest := hanswers.rest
  have hvalue := (storedValue_of_regsBut hanswers.regs (fun hmem => hkey (portBytes_subset hmem))).trans hstores.value
  have hentry {x : State} : x.entryValue r.index r.sub 0 e = x.storedValue r.index r.sub e % 2 ^ (8 * e.len) := entryValue_of_plain hplain he
  refine ⟨t, hexec, hanswers.answered, ?_, fun hfresh => ?_, fun hkept => ?_, fun hkept hsame => ?_, fun hkept hdiffers => ?_⟩
  · rw [hentry, hvalue, Nat.mod_eq_of_lt (written_lt h.1.2 he)]
  · have hcounted : (counted s).entryValue r.index r.sub 0 e = s.entryValue r.index r.sub 0 e := by
      rw [hentry, hentry, storedValue_of_regsBut (counted_regsBut s) hkey]
    rw [← hcounted]
    refine seenValue_of_notePrior (s := counted s) hclk hstores.prior hfresh ?_ (hprior.trans (prior_respond ..)) ?_
    · exact (congrArg State.clk hrest :).trans hclk
    · rw [hentry, hentry, hvalue, hstores.value]
  · rw [if_neg (by simp [hkept])] at hstored
    subst hstored
    exact ⟨regsBut_trans (regsBut_widen (counted_regsBut s) (List.subset_cons_self ..))
      (regsBut_trans (regsBut_widen (regsBut_setReg ..) (by simp))
        (regsBut_widen hanswers.regs (List.subset_cons_of_subset _ portBytes_subset))), hrest⟩
  · rw [if_pos hkept, if_pos hsame] at hstored
    subst hstored
    exact ⟨hanswers.counters (counted_regsBut s), hrest⟩
  · rw [if_pos hkept, if_neg hdiffers] at hstored
    obtain ⟨hcounts, -⟩ := commitKept_counts (s := counted s) (v := written r)
      (keptWorn_of_accessible (by rw [counted_accessAborts]; exact h.1.2) he hkept) (stuckCopies_of_admitted (s := s) h he hkept hdiffers)
    rw [← hstored, counted_kept] at hcounts
    refine ⟨_, (congrArg (Table.find? _) hanswers.regs.2.1).trans hcounts, rfl, writes_countedWrite .., ?_⟩
    have hinteg : t.integ = u.integ := (congrArg State.integ hrest :)
    have hobs : t.obs = u.obs := (congrArg State.obs hrest :)
    refine hrest.trans ?_
    rw [hinteg, hobs]
    exact congrArg (fun x : State => { x with dict := t.dict, outbox := t.outbox, bruora := linkAfter x t r })
      (eq_of_besideLedger hstores.rest)

end
end Sys2Proof.Machine
end

section
namespace Sys2Proof.Machine
open Safety State

/-! ### A request that is answered (R332) -/

/-- From `s` to `t` nothing has happened but that a request was answered. -/
structure RespondedFrom (s t : State) (r : Request) (op a : Nat) (d : List Byte) : Prop where
  responded : Out.response r.path op r.tag a d ∈ t.outbox
  regs : RegsBut s t requestCounters
  rest : t = { s with dict := t.dict, outbox := t.outbox, bruora := linkAfter s t r }

section
variable {s t u : State} {r : Request} {rivals : List Request} {op a : Nat} {d : List Byte}

theorem respond_portBytes (s : State) (r : Request) (op a : Nat) (d : List Byte) : RegsBut s (s.respond op r a d) portBytes ∧
    Out.response r.path (r.badOp.getD op) r.tag a d ∈ (s.respond op r a d).outbox ∧
    s.respond op r a d = { s with
      dict := (s.respond op r a d).dict, outbox := (s.respond op r a d).outbox, bruora := linkAfter s (s.respond op r a d) r } := by
  cases hpath : r.path with
  | peer p =>
    have hmoved : LinksMoved (s.send (.response r.path (r.badOp.getD op) r.tag a d)) (s.respond op r a d) := by
      unfold State.respond
      rw [hpath]
      exact .answerPeer ..
    refine ⟨hmoved.regs, hpath ▸ hmoved.sent _ (List.mem_append_right _ (List.mem_singleton.2 rfl)), ?_⟩
    rw [linkAfter, hpath]
    exact hmoved.rest
  | _ =>
    have hother : ∀ p, r.path ≠ .peer p := by simp [hpath]
    refine ⟨⟨fun k _ => ?_, State.respond_kept s hother .., State.respond_wearList s hother ..⟩, hpath ▸ State.respond_mem s hother .., ?_⟩
    · rw [State.respond_regs s hother]
    · rw [linkAfter, hpath]
      exact State.respond_eq s hother ..

theorem respond_responds (s : State) (r : Request) (op a : Nat) (d : List Byte) :
    RespondedFrom s (s.respond op r a d) r (r.badOp.getD op) a d :=
  have ⟨hregs, hsent, hrest⟩ := respond_portBytes s r op a d
  ⟨hsent, regsBut_widen hregs portBytes_subset, hrest⟩

/-- An abort leaves every counter but those of requests, and counts no order as superseded. -/
theorem reg_superseded_abortWith (s : State) (op : Nat) (r : Request) (a : Nat) :
    (s.abortWith op r a).reg 0x1010 0x07 0 = s.reg 0x1010 0x07 0 := by
  unfold State.abortWith State.countAbort
  rw [reg_of_regsBut (respond_portBytes ..).1 (by decide), reg_of_regsBut (regsBut_setReg ..) (by decide), reg_bump_ne _ (by decide)]

/-- What was counted before an answer counts with it. -/
theorem RespondedFrom.of_counted {dict : Dictionary} (h : RespondedFrom { s with dict := dict } t r op a d)
    (hregs : RegsBut s { s with dict := dict } requestCounters) : RespondedFrom s t r op a d :=
  ⟨h.responded, regsBut_trans hregs h.regs, h.rest⟩

/-- R338, R351: a request that is aborted is counted and answered. -/
theorem abortWith_responds (hs : RegsBut s u requestCounters) (hrest : u = { s with dict := u.dict }) (op : Nat) (r : Request) (a : Nat) :
    RespondedFrom s (u.abortWith op r a) r (r.badOp.getD op) a [] := by
  have hcounted : u.countAbort r a = { s with dict := (u.countAbort r a).dict } :=
    congrArg (fun x : State => { x with dict := (u.countAbort r a).dict }) hrest
  have hresponds := respond_responds (u.countAbort r a) r op a []
  rw [hcounted] at hresponds
  refine .of_counted (s := s) (dict := (u.countAbort r a).dict) ?_ ?_
  · unfold State.abortWith
    rw [hcounted]
    exact hresponds
  · rw [← hcounted]
    exact regsBut_trans hs (countAbort_regsBut u r a)

theorem badOp_of_accessible {write : Bool} (h : s.accessAborts r write = []) : r.badOp = none := by
  unfold State.accessAborts State.headerAborts at h
  simp only [List.append_eq_nil_iff] at h
  obtain ⟨⟨⟨-, hformed⟩, -⟩, -⟩ := h
  by_contra hbad
  obtain ⟨op, hop⟩ := Option.ne_none_iff_exists'.1 hbad
  rw [hop, Option.isSome_some, Bool.or_true] at hformed
  exact absurd hformed (by decide)

/-! ### Orders that are refused (R338, R344, R346) -/

/-- R338: of the aborts of an access and of its value the lowest is reported. -/
theorem tryWrite_of_aborts (hne : s.accessAborts r true ≠ []) (ha : lowestAbort (s.accessAborts r true ++ s.valueAborts r) = some a)
    (mates : List Request) : s.tryWrite r mates = (s, a) := by
  unfold State.tryWrite
  split
  · rename_i hnil _
    exact absurd hnil hne
  · rw [ha, Option.getD_some]

theorem tryWrite_of_accessible {e : DictEntry} (h : s.accessAborts r true = []) (he : dictEntry? r.index r.sub = some e)
    (mates : List Request) : s.tryWrite r mates = s.applyEntry r e mates := by
  unfold State.tryWrite
  rw [h, he]

theorem eq_of_mem_cond {b : Bool} {c a : Nat} (h : a ∈ cond b c) : a = c := by
  cases b with
  | false => cases h
  | true => exact List.mem_singleton.1 h

/-- Every abort of an access has a code. -/
theorem ne_zero_of_mem_accessAborts {write : Bool} (h : a ∈ s.accessAborts r write) : a ≠ 0 := by
  have hcond {b : Bool} {c : Nat} (hc : c ≠ 0) (hmem : a ∈ cond b c) : a ≠ 0 := fun hzero => hc ((eq_of_mem_cond hmem).symm.trans hzero)
  unfold State.accessAborts State.headerAborts at h
  obtain h | h := List.mem_append.1 h
  · obtain h | h := List.mem_append.1 h
    · obtain h | h := List.mem_append.1 h
      · exact hcond (by decide) h
      · exact hcond (by decide) h
    · split at h
      · rw [List.mem_singleton.1 h]
        decide
      · exact hcond (by decide) h
  · split at h
    · cases h
    · simp only [List.mem_append, or_assoc] at h
      obtain h | h | h | h | h | h := h
      · exact hcond (by decide) h
      · exact hcond (by decide) h
      · exact hcond (by decide) h
      · exact hcond (by decide) h
      · split at h
        · exact hcond (by decide) h
        · cases h
      · repeat' split at h
        all_goals exact hcond (by decide) h

theorem ne_zero_of_mem_valueAborts (h : a ∈ s.valueAborts r) : a ≠ 0 := by
  unfold State.valueAborts at h
  split at h
  · cases h
  · rename_i e _
    rw [eq_of_mem_cond h]
    cases hzero : (s.applyEntry r e []).2 != 0 with
    | false => rw [hzero] at h; cases h
    | true => simpa using hzero

theorem mem_of_lowestAbort {cs : List Nat} (h : lowestAbort cs = some a) : a ∈ cs := by
  unfold lowestAbort at h
  split at h
  · cases h
  · exact List.mem_of_find?_eq_some h

/-- R344: an order that passes is refused by no check of its access. -/
theorem accessAborts_of_passes {mates : List Request} (h : (s.tryWrite r mates).2 = 0) : s.accessAborts r true = [] := by
  by_contra hne
  unfold State.tryWrite at h
  split at h
  · exact absurd ‹_› hne
  · dsimp only at h
    cases hlowest : lowestAbort (s.accessAborts r true ++ s.valueAborts r) with
    | none => rw [hlowest] at h; exact absurd h (by decide)
    | some b =>
      rw [hlowest] at h
      obtain hmem | hmem := List.mem_append.1 (mem_of_lowestAbort hlowest)
      · exact ne_zero_of_mem_accessAborts hmem h
      · exact ne_zero_of_mem_valueAborts hmem h

/-- An order that a check refuses is aborted. -/
theorem serveWrite_of_abort (h : s.arrives 1 r = true) (hne : a ≠ 0)
    (ha : (counted s).tryWrite r (rivals.filter (counted s).passes) = (u, a)) : s.serveWrite r rivals = u.abortWith 1 r a := by
  have ha' : (s.bump 0x1010 0x05 1).tryWrite r (rivals.filter (s.bump 0x1010 0x05 1).passes) = (u, a) := ha
  unfold State.serveWrite
  rw [h]
  simp [ha', hne]

/-- R346: an order that loses against another of its clk is superseded. -/
theorem serveWrite_of_loss (h : s.arrives 1 r = true) (ha : ((counted s).tryWrite r (rivals.filter (counted s).passes)).2 = 0)
    (hloses : (counted s).loses r rivals = true) :
    s.serveWrite r rivals = ((counted s).bump 0x1010 0x07 1).abortWith 1 r superseded := by
  have ha' : ((s.bump 0x1010 0x05 1).tryWrite r (rivals.filter (s.bump 0x1010 0x05 1).passes)).2 = 0 := ha
  have hloses' : (s.bump 0x1010 0x05 1).loses r rivals = true := hloses
  unfold State.serveWrite
  rw [h]
  simp only [ha', hloses', Bool.not_true, Bool.false_eq_true, if_false, bne_self_eq_false, if_true]
  rfl

/-- R341: an order that a copy fails to commit is aborted, and noted. -/
theorem serveWrite_of_stuck (h : s.arrives 1 r = true) (ha : ((counted s).tryWrite r (rivals.filter (counted s).passes)).2 = 0)
    (hu : Unrivalled s r rivals) (hstuck : s.orderStuck r ≠ 0) :
    s.serveWrite r rivals = ((counted s).commitNotices (key r.index r.sub) (s.orderStuck r)).abortWith 1 r keptFailure := by
  have ha' : ((s.bump 0x1010 0x05 1).tryWrite r (rivals.filter (s.bump 0x1010 0x05 1).passes)).2 = 0 := ha
  have hu' : (s.bump 0x1010 0x05 1).loses r rivals = false := hu
  have hstuck' : (s.bump 0x1010 0x05 1).orderStuck r = s.orderStuck r := counted_orderStuck s r
  unfold State.serveWrite
  rw [h]
  simp only [ha', hu', hstuck', Bool.not_true, Bool.false_eq_true, if_false, bne_self_eq_false, bne_iff_ne, ne_eq, hstuck,
    not_false_eq_true, if_true]
  rfl

/-- The row of an entry serves an order of that entry. -/
theorem exec_ownRow : ∀ x ∈ ownRows, exec (x.1 r rivals) s = .next (s.ownRow r rivals x.2.1 x.2.2) := by
  simp only [ownRows, List.forall_mem_cons, List.not_mem_nil, false_imp_iff, implies_true, and_true]
  and_intros <;> rfl

end

/-! ### What a failed commit leaves (R341, R439) -/

/-- From `s` to `t` a notice was written to the ledger of a die, where `noted` says so. -/
structure MayNotice (s t : State) (die : Nat) (noted : Bool) (code detail : Nat) : Prop where
  entry : noted = true → (s.ledger die).count < 1022 →
    ∃ x, Table.find? (s.ledger die).tail (t.ledger die).places = some x ∧ x.code = code ∧ x.severity = 0 ∧ x.detail = detail
  stands : noted = false → t.ledger die = s.ledger die
  others : ∀ other, ¬(die = 0 ↔ other = 0) → t.ledger other = s.ledger other
  regs : RegsBut s t [droppedKey]
  rest : t.besideLedger = s.besideLedger

theorem notice_mayNotice (s : State) (die code phys detail : Nat) (noted : Bool) :
    MayNotice s (if noted then s.notice die code phys detail else s) die noted code detail := by
  cases noted with
  | false => exact ⟨nofun, fun _ => rfl, fun _ _ => rfl, regsBut_refl .., rfl⟩
  | true =>
    obtain ⟨e, hcode, hseverity, hdetail, -, henters⟩ := s.notice_enters die code phys detail
    exact ⟨fun _ hfits => ⟨_, henters.entry hfits, hcode, hseverity, hdetail⟩, nofun, fun _ hne => henters.others hne, henters.regs,
      henters.rest⟩

section
variable {s t : State} {k dies : Nat}

/-- The two dies' notices of a failed commit. -/
theorem commitNotices_mayNotice (s : State) (k dies : Nat) : ∃ u, MayNotice s u 0 (bit dies 0) 0x1012 k ∧
    MayNotice u (s.commitNotices k dies) 1 (bit dies 1) 0x1012 k :=
  ⟨_, notice_mayNotice .., notice_mayNotice ..⟩

/-- R341: each die whose copy failed has its notice, and no other ledger changes. -/
theorem ledger_commitNotices (s : State) (k dies : Nat) {die : Nat} (hdie : die < 2) :
    (bit dies die = true → (s.ledger die).count < 1022 → ∃ x,
      Table.find? (s.ledger die).tail ((s.commitNotices k dies).ledger die).places = some x ∧
        x.code = 0x1012 ∧ x.severity = 0 ∧ x.detail = k) ∧
      (bit dies die = false → (s.commitNotices k dies).ledger die = s.ledger die) := by
  obtain ⟨u, hfirst, hsecond⟩ := commitNotices_mayNotice s k dies
  obtain rfl | rfl : die = 0 ∨ die = 1 := by omega
  · rw [hsecond.others 0 (by decide)]
    exact ⟨hfirst.entry, hfirst.stands⟩
  · rw [← hfirst.others 1 (by decide)]
    exact ⟨hsecond.entry, hsecond.stands⟩

theorem commitNotices_rest (s : State) (k dies : Nat) :
    RegsBut s (s.commitNotices k dies) [droppedKey] ∧ (s.commitNotices k dies).besideLedger = s.besideLedger := by
  obtain ⟨u, hfirst, hsecond⟩ := commitNotices_mayNotice s k dies
  exact ⟨regsBut_trans hfirst.regs hsecond.regs, hsecond.rest.trans hfirst.rest⟩

end

/-- Settles O16: an order that its access refuses, one that loses and one that a copy fails to commit are aborted, each with its
code, before anything of the entry is written. -/
theorem refusedOrdersChangeNothing : Obligations.RefusedOrdersChangeNothing := by
  intro s r rivals harrives
  have hexec := exec_requestWrite (rivals := rivals) harrives
  have hcounted := counted_regsBut s
  refine ⟨fun a hne ha hzero => ?refused, fun hpasses hloses happlied => ?superseded, fun e haccess hu hplain he hrange hstuck => ?stuck,
    fun x hx hfamily hsub => ?row⟩
  case refused =>
    rw [← counted_accessAborts] at hne ha
    obtain ⟨hresponse, hregs, hrest⟩ := abortWith_responds (op := 1) (r := r) (a := a) hcounted rfl
    rw [← serveWrite_of_abort (rivals := rivals) harrives hzero (tryWrite_of_aborts hne ha _)] at hresponse hregs hrest
    exact ⟨_, hexec, hresponse, hregs, hrest⟩
  case superseded =>
    have hop : r.badOp = none := badOp_of_accessible (accessAborts_of_passes happlied)
    have hbump := regsBut_widen (regsBut_bump (counted s) 0x1010 0x07 1) (show _ ⊆ requestCounters by decide)
    obtain ⟨hresponse, hregs, hrest⟩ := abortWith_responds (op := 1) (r := r) (a := superseded) (regsBut_trans hcounted hbump) rfl
    have hcount : (((counted s).bump 0x1010 0x07 1).abortWith 1 r superseded).reg 0x1010 0x07 0 = s.reg 0x1010 0x07 0 + 1 := by
      rw [reg_superseded_abortWith, reg_bump_self, counted, reg_bump_ne _ (by decide)]
    rw [← serveWrite_of_loss harrives happlied hloses] at hresponse hregs hrest hcount
    rw [hop] at hresponse
    exact ⟨_, hexec, hresponse, hcount, hregs, hrest⟩
  case stuck =>
    have happly := (applyEntry_of_plain (s := counted s) (mates := rivals.filter (counted s).passes) hplain).trans
      (if_neg (ne_true_of_eq_false (outOfRange_of_inRange hrange)))
    have happlied : ((counted s).tryWrite r (rivals.filter (counted s).passes)).2 = 0 := by
      rw [tryWrite_of_accessible (by rw [counted_accessAborts]; exact haccess.2) he, happly]
    have hnotices (die : Nat) (hdie : die < 2) := ledger_commitNotices (counted s) (key r.index r.sub) (s.orderStuck r) hdie
    obtain ⟨hregs, hrest⟩ := commitNotices_rest (counted s) (key r.index r.sub) (s.orderStuck r)
    rw [serveWrite_of_stuck harrives happlied hu hstuck] at hexec
    generalize (counted s).commitNotices (key r.index r.sub) (s.orderStuck r) = u at hnotices hregs hrest hexec
    obtain ⟨hresponse, habort, hanswer⟩ := abortWith_responds (s := u) (regsBut_refl ..) rfl 1 r keptFailure
    generalize u.abortWith 1 r keptFailure = t at hexec hresponse habort hanswer
    have hledger := ledger_of_integ (s := u) (t := t) (congrArg State.integ hanswer :)
    have hinteg : t.integ = u.integ := (congrArg State.integ hanswer :)
    have hobs : t.obs = u.obs := (congrArg State.obs hanswer :)
    rw [badOp_of_accessible haccess.2] at hresponse
    refine ⟨t, hexec, hresponse, fun die hdie hbit hfits => ?_, fun die hdie hbit => ?_, ?_, ?_⟩
    · rw [hledger]
      exact (hnotices die hdie).1 hbit hfits
    · rw [hledger]
      exact (hnotices die hdie).2 hbit
    · have hwide {x y : State} (h : RegsBut x y requestCounters) := regsBut_widen h (List.subset_cons_self droppedKey requestCounters)
      exact regsBut_trans (hwide hcounted) (regsBut_trans (regsBut_widen hregs (by simp)) (hwide habort))
    · refine hanswer.trans ?_
      rw [hinteg, hobs]
      exact congrArg (fun x : State => { x with dict := t.dict, outbox := t.outbox, bruora := linkAfter x t r }) (eq_of_besideLedger hrest)
  case row =>
    exact (exec_ownRow x hx).trans ((congrArg Host.Outcome.next (ownRow_eq hfamily (List.contains_iff_mem.2 hsub))).trans hexec.symm)

end Sys2Proof.Machine
end

section
namespace Sys2Proof.Machine
open Safety State

/-! ### Bounds of the tables (R325) -/

/-- The types and the lengths of a table fit the fields of a describe, and what can be written fits one request. -/
def rowsBounded (rows : List DictEntry) : Bool :=
  rows.all fun e => e.ty < 256 && e.len < 65536 && (e.access == .ro || e.len ≤ 1024)

theorem rowsBounded_of_dictRows {index top : Nat} {rows : List DictEntry} (h : dictRows index = some (rows, top)) :
    rowsBounded rows = true := by
  unfold dictRows at h
  split at h <;> cases h <;> decide

theorem dictEntry?_bounds {index sub : Nat} {e : DictEntry} (h : dictEntry? index sub = some e) :
    e.ty < 256 ∧ e.len < 65536 ∧ e.sub = sub ∧ (e.access ≠ .ro → e.len ≤ 1024) := by
  unfold dictEntry? at h
  split at h
  · cases h
  · rename_i rows top hrows
    split at h
    · rename_i hzero
      cases h
      exact ⟨by simp, by simp, hzero.symm, fun hne => absurd rfl hne⟩
    · have hall := List.all_eq_true.1 (rowsBounded_of_dictRows hrows) e (List.mem_of_find?_eq_some h)
      have hsub : e.sub = sub := by simpa using List.find?_some h
      simp only [Bool.and_eq_true, Bool.or_eq_true, decide_eq_true_eq, beq_iff_eq] at hall
      obtain ⟨⟨hty, hlen⟩, hwritable⟩ := hall
      exact ⟨hty, hlen, hsub, hwritable.resolve_left⟩

/-! ### Reads and describes (R333, R334) -/

theorem length_leBytes (n x : Nat) : (leBytes n x).length = n := by
  induction n generalizing x with
  | zero => rfl
  | succ n ih => rw [leBytes, List.length_cons, ih]

section
variable {s : State} {r : Request} {e : DictEntry} {a : Nat}

/-- A read that no check refuses answers the bytes of the entry. -/
theorem serveRead_of_accessible (h : s.arrives 0 r = true) (haccess : s.accessAborts r false = [])
    (he : dictEntry? r.index r.sub = some e) (hnonce : ¬(r.index = 0x2D00 ∧ r.sub = 0x12)) :
    s.serveRead r = (counted s).respond 0 r 0 ((counted s).readBytes r e) := by
  have haccess' : (s.bump 0x1010 0x05 1).accessAborts r false = [] := (counted_accessAborts s r false).trans haccess
  unfold State.serveRead
  rw [h]
  simp only [haccess', he, lowestAbort_nil, if_neg hnonce, Bool.not_true, Bool.false_eq_true, if_false]
  rfl

/-- One that a check refuses is aborted with the lowest code. -/
theorem serveRead_of_abort (h : s.arrives 0 r = true) (ha : lowestAbort (s.accessAborts r false) = some a) :
    s.serveRead r = (counted s).abortWith 0 r a := by
  have ha' : lowestAbort ((s.bump 0x1010 0x05 1).accessAborts r false) = some a :=
    (congrArg lowestAbort (counted_accessAborts s r false)).trans ha
  unfold State.serveRead
  rw [h]
  simp only [ha', Bool.not_true, Bool.false_eq_true, if_false]
  rfl

/-- A read of any path but a DICT command's answers a piece of the entry. -/
theorem readBytes_of_path (hpath : ∀ q, r.path ≠ .dictCommand q) :
    s.readBytes r e = ((leBytes e.len (s.seenValue r.index r.sub 0 e)).drop r.offset).take r.length := by
  unfold State.readBytes State.pasidOf
  split
  · rename_i q hq
    exact absurd hq (hpath q)
  · rfl

/-- What was written in an earlier clk reads as it stands. -/
theorem seenValue_of_older (h : s.dict.prior.1 ≠ s.clk) (index sub pasid : Nat) :
    s.seenValue index sub pasid e = s.entryValue index sub pasid e := by
  unfold State.seenValue
  rw [if_neg h]

/-- R333: a read beyond the entry, or of more than 1,024 bytes, is refused. -/
theorem typeLength_mem_accessAborts (he : dictEntry? r.index r.sub = some e) (hpath : ∀ q, r.path ≠ .dictCommand q)
    (h : e.len ≤ r.offset ∨ 1024 < r.length) : typeLength ∈ s.accessAborts r false := by
  have hread : typeLength ∈ cond (e.len ≤ r.offset || 1024 < r.length) typeLength := by
    rw [show (decide (e.len ≤ r.offset) || decide (1024 < r.length)) = true by simpa using h]
    exact List.mem_singleton.2 rfl
  unfold State.accessAborts
  rw [he]
  refine List.mem_append_right _ (List.mem_append_right _ ?_)
  rw [if_neg Bool.false_ne_true]
  split
  · rename_i q hq
    exact absurd hq (hpath q)
  · exact hread

end

/-- Settles O17: a read answers its piece of the value or its abort, and what a request can carry is bounded by the tables. -/
theorem readAnswers : Obligations.ReadAnswers := by
  refine ⟨fun s r e harrives haccess he hnonce hpath => ?answered, fun s r e harrives he hpath hlong ha => ?aborted,
    fun s r e he hpath hlong => typeLength_mem_accessAborts he hpath hlong, fun s r e he haccess => lengths_of_accessible haccess he,
    fun index sub e he => (dictEntry?_bounds he).2.2.2⟩
  case answered =>
    obtain ⟨hresponse, hregs, hrest⟩ := respond_responds (counted s) r 0 0 ((counted s).readBytes r e)
    rw [badOp_of_accessible haccess] at hresponse
    have hread : (counted s).readBytes r e = _ := readBytes_of_path hpath
    refine ⟨_, _, congrArg Host.Outcome.next (serveRead_of_accessible harrives haccess he hnonce), hresponse, ?_, hread, fun hfresh => ?_,
      regsBut_trans (counted_regsBut s) hregs, hrest⟩
    · rw [hread, List.length_take, List.length_drop, length_leBytes]
    · rw [hread, seenValue_of_older (s := counted s) hfresh]
  case aborted =>
    obtain ⟨hresponse, hregs, hrest⟩ := abortWith_responds (op := 0) (r := r) (a := 0x1005) (counted_regsBut s) rfl
    exact ⟨_, congrArg Host.Outcome.next (serveRead_of_abort harrives ha), hresponse, hregs, hrest⟩

/-- A describe that no check refuses answers its 16 bytes. -/
theorem serveDescribe_of_accessible {s : State} {r : Request} {e : DictEntry} (h : s.arrives 2 r = true)
    (hready : s.dictReady r.index r.sub false = true) (hreserved : r.reserved = false) (hop : r.badOp = none)
    (he : dictEntry? r.index r.sub = some e) :
    s.serveDescribe r = (counted s).respond 2 r 0 (describeBytes r.index e) := by
  have hrows : ∃ rows, dictRows r.index = some rows := by
    unfold dictEntry? at he
    split at he
    · cases he
    · exact ⟨_, ‹_›⟩
  obtain ⟨rows, hrows⟩ := hrows
  have hready' : (s.bump 0x1010 0x05 1).dictReady r.index r.sub false = true := hready
  have hheader : (s.bump 0x1010 0x05 1).headerAborts r false = [] := by
    unfold State.headerAborts
    rw [hready', hreserved, hop, hrows, he]
    rfl
  unfold State.serveDescribe
  rw [h]
  simp only [hheader, he, lowestAbort_nil, Bool.not_true, Bool.false_eq_true, if_false]
  rfl

end Sys2Proof.Machine
end

section
namespace Sys2Proof.Machine
open Safety State

/-! ### The bytes of a describe (R334) -/

theorem leNat_append (as bs : List Byte) : leNat (as ++ bs) = leNat as + 256 ^ as.length * leNat bs := by
  induction as with
  | nil => simp [leNat]
  | cons a as ih =>
    rw [List.cons_append, leNat, ih, leNat, List.length_cons, pow_succ']
    ring

/-- The number of the access in byte 4. -/
def accessCode (e : DictEntry) : Nat := match e.access with
  | .ro => 0
  | .rw => 1
  | .wo => 2
  | .w1c => 3

theorem accessCode_lt (e : DictEntry) : accessCode e < 4 := by
  unfold accessCode
  split <;> decide

/-- Byte 4: the access with its marks. -/
def accessByte (index : Nat) (e : DictEntry) : Nat :=
  accessCode e + 4 * boolNat e.priv + 8 * boolNat e.kept + 16 * boolNat (runState index e.sub)

/-- The marks of byte 4 stand in their bits. -/
theorem accessByte_bits (index : Nat) (e : DictEntry) : bits (accessByte index e) 1 0 = accessCode e ∧
    bit (accessByte index e) 2 = e.priv ∧ bit (accessByte index e) 3 = e.kept ∧
    bit (accessByte index e) 4 = runState index e.sub ∧ bits (accessByte index e) 7 5 = 0 ∧ accessByte index e < 256 := by
  have hall : ∀ code < 4, ∀ priv kept run : Bool, bits (code + 4 * boolNat priv + 8 * boolNat kept + 16 * boolNat run) 1 0 = code ∧
      bit (code + 4 * boolNat priv + 8 * boolNat kept + 16 * boolNat run) 2 = priv ∧
      bit (code + 4 * boolNat priv + 8 * boolNat kept + 16 * boolNat run) 3 = kept ∧
      bit (code + 4 * boolNat priv + 8 * boolNat kept + 16 * boolNat run) 4 = run ∧
      bits (code + 4 * boolNat priv + 8 * boolNat kept + 16 * boolNat run) 7 5 = 0 ∧
      code + 4 * boolNat priv + 8 * boolNat kept + 16 * boolNat run < 256 := by decide
  exact hall _ (accessCode_lt e) ..

section
variable {index : Nat} {e : DictEntry}

theorem describeBytes_eq (index : Nat) (e : DictEntry) : describeBytes index e =
    leBytes 1 e.ty ++ (leBytes 1 0 ++ (leBytes 2 e.len ++ (leBytes 1 (accessByte index e) ++ (leBytes 3 0 ++ leBytes 8 e.default)))) := by
  unfold describeBytes accessByte accessCode
  simp only [List.append_assoc] <;> rfl

theorem length_describeBytes : (describeBytes index e).length = 16 := by
  rw [describeBytes_eq]
  simp only [List.length_append, length_leBytes]

theorem leNat_describeBytes (hty : e.ty < 256) (hlen : e.len < 65536) : leNat (describeBytes index e) =
    e.ty + 2 ^ 16 * e.len + 2 ^ 32 * accessByte index e + 2 ^ 64 * (e.default % 2 ^ 64) := by
  obtain ⟨-, -, -, -, -, hbyte⟩ := accessByte_bits index e
  rw [describeBytes_eq]
  simp only [leNat_append, leNat_leBytes, length_leBytes, Nat.zero_mod]
  rw [Nat.mod_eq_of_lt (a := e.ty) (by omega), Nat.mod_eq_of_lt (a := e.len) (by omega),
    Nat.mod_eq_of_lt (a := accessByte index e) (by omega), show (256 : Nat) ^ 8 = 2 ^ 64 by norm_num]
  ring

/-- R334: the fields of a describe. -/
theorem field_describeBytes (hty : e.ty < 256) (hlen : e.len < 65536) : field (describeBytes index e) 0 0 = e.ty ∧
    field (describeBytes index e) 1 1 = 0 ∧ field (describeBytes index e) 2 3 = e.len ∧
    field (describeBytes index e) 4 4 = accessByte index e ∧ field (describeBytes index e) 5 7 = 0 ∧
    field (describeBytes index e) 8 15 = e.default % 2 ^ 64 := by
  obtain ⟨-, -, -, -, -, hbyte⟩ := accessByte_bits index e
  have hdefault : e.default % 2 ^ 64 < 2 ^ 64 := Nat.mod_lt _ (by decide)
  simp only [field, leNat_slice, leNat_describeBytes hty hlen]
  generalize e.default % 2 ^ 64 = d at hdefault ⊢
  generalize accessByte index e = a at hbyte ⊢
  norm_num at hdefault ⊢
  omega

end

/-- Settles O18: the describe answers its 16 bytes, whose fields are what the table says of the entry. -/
theorem describeAnswers : Obligations.DescribeAnswers := by
  intro s r e harrives hready hreserved hop he
  obtain ⟨hty, hlen, hsub, -⟩ := dictEntry?_bounds he
  obtain ⟨hfield0, hfield1, hfield2, hfield4, hfield5, hfield8⟩ := field_describeBytes (index := r.index) hty hlen
  obtain ⟨hcode, hpriv, hkept, hrun, hhigh, -⟩ := accessByte_bits r.index e
  obtain ⟨hresponse, hregs, hrest⟩ := respond_responds (counted s) r 2 0 (describeBytes r.index e)
  rw [hop] at hresponse
  rw [← hfield4] at hcode hpriv hkept hrun hhigh
  rw [hsub] at hrun
  exact ⟨_, _, congrArg Host.Outcome.next (serveDescribe_of_accessible harrives hready hreserved hop he), hresponse,
    length_describeBytes, hfield0, hfield1, hfield2, hcode, hpriv, hkept, hrun, hhigh, hfield5, hfield8,
    regsBut_trans (counted_regsBut s) hregs, hrest⟩

end Sys2Proof.Machine
end

section
namespace Sys2Proof.Machine
open Safety State

/-! ### The mailbox page (R349) -/

/-- The page that `GO` takes. -/
def mailboxPage (header data : List Byte) : List Byte := slice header 0 16 ++ slice data 0 1024

section
variable {s : State} {header data : List Byte}

/-- A field of the header stands in the page. -/
theorem field_mailboxPage {lo hi : Nat} (h : hi < 16) : field (mailboxPage header data) lo hi = field header lo hi := by
  have hlength : (slice header 0 16).length = 16 := by
    unfold slice
    simp only [List.length_append, List.length_replicate, List.length_take, List.length_drop]
    omega
  have hpow : (256 : Nat) ^ 16 = 256 ^ lo * 256 ^ (16 - lo) ∨ hi < lo := by
    rw [← pow_add]
    by_cases hlo : lo ≤ 16
    · exact .inl (by rw [Nat.add_sub_cancel' hlo])
    · exact .inr (by omega)
  rw [field, field, leNat_slice, leNat_slice, mailboxPage, leNat_append, hlength, leNat_slice, pow_zero, Nat.div_one]
  obtain hpow | hempty := hpow
  · obtain hspan | hempty := Nat.lt_or_ge hi lo
    · rw [show hi + 1 - lo = 0 by omega, pow_zero, Nat.mod_one, Nat.mod_one]
    · have hhigh : (256 : Nat) ^ (16 - lo) = 256 ^ (hi + 1 - lo) * 256 ^ (15 - hi) := by
        rw [← pow_add]
        congr 1
        omega
      rw [hpow, mul_assoc, Nat.add_mul_div_left _ _ (by positivity), Nat.mod_mul_right_div_self, hhigh, mul_assoc,
        Nat.add_mul_mod_self_left, Nat.mod_mul_right_mod]
  · rw [show hi + 1 - lo = 0 by omega, pow_zero, Nat.mod_one, Nat.mod_one]

/-- The state with the page taken. -/
def State.withPage (s : State) (header data : List Byte) : State :=
  { s with dict := { s.dict with busy := true, request := mailboxPage header data } }

/-- The request of a page whose `OP` is reserved. -/
def badRequest (header data : List Byte) : Request :=
  { (pageRequest (mailboxPage header data)).2 with badOp := some (field (mailboxPage header data) 0 0) }

theorem mailboxGo_of_request (hopen : s.pins.isolated = false) (hfree : s.dict.busy = false) (hop : field header 0 0 ≤ 2) :
    s.mailboxGo header data = s.withPage header data := by
  have hpage : field (slice header 0 16 ++ slice data 0 1024) 0 0 = field header 0 0 := field_mailboxPage (by decide)
  unfold mailboxGo
  rw [if_neg (by simp [hopen]), if_neg (by simp [hfree])]
  unfold pageRequest
  dsimp only
  rw [hpage, if_neg (Nat.not_lt.2 hop)]
  rfl

/-- R338: a reserved `OP` alone is `MALFORMED`. -/
theorem headerAborts_badRequest
    (h : s.headerAborts { (pageRequest (slice header 0 16 ++ slice data 0 1024)).2 with badOp := none } false = []) :
    (s.withPage header data).headerAborts (badRequest header data) false = [malformed] := by
  unfold State.headerAborts at h
  simp only [List.append_eq_nil_iff] at h
  obtain ⟨⟨hready, -⟩, hentry⟩ := h
  have hop : cond ((badRequest header data).reserved || (badRequest header data).badOp.isSome) malformed = [malformed] := by
    rw [show (badRequest header data).badOp.isSome = true from rfl, Bool.or_true]
    rfl
  exact congrArg₂ (· ++ ·) (congrArg₂ (· ++ ·) hready hop) hentry

theorem mailboxGo_of_reserved (hopen : s.pins.isolated = false) (hfree : s.dict.busy = false) (hop : 2 < field header 0 0)
    (h : s.headerAborts { (pageRequest (slice header 0 16 ++ slice data 0 1024)).2 with badOp := none } false = []) :
    s.mailboxGo header data =
      ((s.withPage header data).bump 0x1010 0x05 1).abortWith (field header 0 0) (badRequest header data) malformed := by
  have hpage : field (mailboxPage header data) 0 0 = field header 0 0 := field_mailboxPage (by decide)
  have hlowest : (lowestAbort ((s.withPage header data).headerAborts (badRequest header data) false)).getD malformed = malformed := by
    rw [headerAborts_badRequest h]
    rfl
  unfold mailboxGo
  rw [if_neg (by simp [hopen]), if_neg (by simp [hfree])]
  refine (if_pos (hop.trans_eq hpage.symm)).trans ?_
  exact congrArg₂ (fun op a => State.abortWith _ op (badRequest header data) a) hpage hlowest

theorem mailboxGo_of_busy (hopen : s.pins.isolated = false) (hbusy : s.dict.busy = true) : s.mailboxGo header data = s.stray := by
  unfold mailboxGo
  rw [if_neg (by simp [hopen]), if_pos hbusy]

/-- R349: an answer of the mailbox stands in the page: the request is done. -/
theorem respond_mailbox {r : Request} (hpath : r.path = .mailbox) (op a : Nat) (d : List Byte) :
    (s.respond op r a d).dict.busy = false ∧ (s.respond op r a d).dict.done = true := by
  have hinterrupt (t : State) (v : Nat) : (t.interrupt v).dict.busy = t.dict.busy ∧ (t.interrupt v).dict.done = t.dict.done := by
    unfold interrupt
    dsimp only
    repeat' split
    all_goals exact ⟨rfl, rfl⟩
  unfold respond
  rw [hpath]
  exact ⟨(hinterrupt ..).1, (hinterrupt ..).2⟩

end

/-! ### Vectors (R350) -/

theorem vector_setVector_self (s : State) (v : Nat) (x : IrqVector) : (s.setVector v x).vector v = x := by
  simp [vector, setVector]

theorem vector_setVector_ne (s : State) {v n : Nat} (h : n ≠ v) (x : IrqVector) : (s.setVector v x).vector n = s.vector n :=
  congrArg (Option.getD · _) (Table.find?_put_ne h ..)

/-- Settles O19: what each access of the aperture does, by the conditions of its own definition. -/
theorem aperture : Obligations.Aperture := by
  refine fun s => ⟨fun header data hopen hfree hop _ hready => ?reserved, fun header data hopen hfree hop _ => ?taken,
    fun header data hopen hbusy => ?dropped, fun v hopen hbit => ?done, fun write off hopen hstray => ?stray,
    fun off hisolated => ?isolated, fun v a d m hv hopen hquiet => ?written, fun v a d hv hopen hpending => ?signalled⟩
  case reserved =>
    have hregs := regsBut_trans (regsBut_of_dict (s := s.withPage header data) rfl _)
      (regsBut_widen (regsBut_bump (s.withPage header data) 0x1010 0x05 1) (show _ ⊆ requestCounters by decide))
    obtain ⟨hresponse, habort, hrest⟩ := abortWith_responds (s := s.withPage header data) (op := field header 0 0)
      (r := badRequest header data) (a := malformed) hregs rfl
    obtain ⟨hbusy, hdone⟩ := respond_mailbox (s := ((s.withPage header data).bump 0x1010 0x05 1).countAbort (badRequest header data) malformed)
      (r := badRequest header data) rfl (field header 0 0) malformed []
    have htag : (badRequest header data).tag = field header 1 1 := field_mailboxPage (by decide)
    have hbad : (badRequest header data).badOp.getD (field header 0 0) = field header 0 0 := field_mailboxPage (by decide)
    rw [htag, hbad] at hresponse
    exact ⟨_, congrArg Host.Outcome.next (mailboxGo_of_reserved hopen hfree hop hready), hresponse, hbusy, hdone, habort, hrest⟩
  case taken => exact ⟨_, congrArg Host.Outcome.next (mailboxGo_of_request hopen hfree hop), rfl, rfl, rfl⟩
  case dropped => exact ⟨_, congrArg Host.Outcome.next (mailboxGo_of_busy hopen hbusy), reg_bump_self .., rfl, rfl⟩
  case done => exact ⟨_, congrArg Host.Outcome.next (if_neg (by simp [hopen, hbit])), rfl⟩
  case stray =>
    exact ⟨_, congrArg Host.Outcome.next ((if_neg (by simp [hopen])).trans (if_pos hstray)), reg_bump_self .., regsBut_bump .., rfl⟩
  case isolated => exact ⟨_, congrArg Host.Outcome.next (if_pos hisolated), rfl⟩
  case written =>
    have hwritten : s.vectorWrite v a d m =
        s.setVector v { address := a % 2 ^ 64, data := d % 2 ^ 32, mask := m, pending := (s.vector v).pending } := by
      unfold vectorWrite
      rw [if_neg (by simp [hopen, hv])]
      refine if_neg ?_
      obtain rfl | hquiet := hquiet
      · simp
      · simp [hquiet]
    exact ⟨_, congrArg Host.Outcome.next hwritten, vector_setVector_self .., fun n hn => vector_setVector_ne s hn _, rfl⟩
  case signalled =>
    have hsignalled : s.vectorWrite v a d false =
        (s.setVector v { address := a % 2 ^ 64, data := d % 2 ^ 32, mask := false, pending := false }).send
          (.interrupt v (a % 2 ^ 64) (d % 2 ^ 32)) := by
      unfold vectorWrite
      rw [if_neg (by simp [hopen, hv])]
      refine (if_pos (by simpa using hpending)).trans ?_
      unfold interrupt
      rw [if_neg (by omega), vector_setVector_self]
      rfl
    exact ⟨_, congrArg Host.Outcome.next hsignalled, vector_setVector_self .., fun n hn => vector_setVector_ne s hn _, rfl, rfl⟩

end Sys2Proof.Machine
end

section
namespace Sys2Proof.Machine
open Safety State

/-! ### A warm reset that a die does not come out of (R354, R361, R431)

The frame that O23 gives the release of a warm reset leaves `devMem` as it stood. A die that fails in the self-tests of the
start stops, and a command in flight on it fails: its outputs in memory are undefined. The entry of a warm reset discards
the commands in flight; O23 speaks of every state in a warm reset. -/

theorem pins_devMem_of_besideLedger {s t : State} (h : t.besideLedger = s.besideLedger) : t.pins = s.pins ∧ t.devMem = s.devMem :=
  ⟨(congrArg State.pins h :), (congrArg State.devMem h :)⟩

theorem domainOf_of_nil {s : State} (h : s.integ.domains = []) (loc : Nat) : s.domainOf loc = none := by
  simp [domainOf, h]

theorem reopen_of_nil {s : State} (h : s.integ.shut = []) (loc : Nat) : s.reopen loc = s := by
  simp [reopen, h]

/-- A die that stops outside any open domain leaves what the end of its commands leaves, and its entry. -/
theorem besideLedger_raiseFault_of_stop {s : State} {code loc detail : Nat} (hseverity : liftSeverity (severityOf code loc false) loc = 4)
    (hdomain : s.domainOf (bareLoc loc) = none) (hshut : s.reopen (bareLoc loc) = s) :
    (s.raiseFault code loc detail none false).besideLedger = (s.stopDie (locDie (bareLoc (containerAt 4 loc))) false).besideLedger := by
  have hledger (u : State) (e : LedgerEntry) (exposed : Nat) :
      ((u.ledgerWrite (locDie loc) e).1.noteFault loc 4 exposed).besideLedger = u.besideLedger :=
    (noteFault_besideLedger ..).trans (ledgerWrite_besideLedger ..)
  have hinteg (u : State) (i : Integrity) : { u with integ := i }.besideLedger = u.besideLedger := rfl
  unfold raiseFault
  extract_lets parity sev0 s1 _ box
  have hs1 : s1 = s := by
    unfold s1
    split
    · rfl
    · exact hshut
  have hnone : (if sev0 = 0 then none else s1.domainOf (bareLoc loc)) = none := by
    rw [hs1, hdomain, ite_self]
  rw [hnone, hs1, show sev0 = 4 from hseverity]
  have hacts : s.actOn 4 box parity none false = (s.stopDie (locDie (bareLoc (containerAt 4 loc))) false, 5, false) :=
    congrArg (fun sev => (s.stopDie (locDie (bareLoc (containerAt sev loc))) false, 5, false)) hseverity
  rw [hacts]
  dsimp only
  split
  · rw [hledger]
  · rw [if_neg Bool.false_ne_true]
    exact (hinteg _ _).trans (hledger _ _ _)

/-- The end of a warm reset's start-up leaves device memory. -/
theorem devMem_finishStart_of_warm {s : State} (hwarm : s.pins.warm = true) : s.finishStart.devMem = s.devMem := by
  unfold finishStart
  extract_lets s1 enabled _ _ _ s2 s3
  have hs1 : s1 = s := if_pos hwarm
  have hs3 : s3 = s2 := if_pos (by rw [hwarm, Bool.true_or])
  calc (s3.applyCap.notify 1 0).devMem = s3.applyCap.devMem := (congrArg State.devMem (tells_notify s3.applyCap 1 0).rest :)
    _ = s3.devMem := (congrArg State.devMem (applyCap_caps s3).rest :)
    _ = s1.devMem := (congrArg State.devMem hs3 :)
    _ = s.devMem := congrArg State.devMem hs1

theorem failDies_two (s : State) : s.failDies 2 = s.raiseFault 0x2C0F (s.dieLoc 0) 0 none false := by
  unfold failDies
  rw [show ([0, 1].filter fun d => !bit 2 d) = [0] by decide, List.foldl_cons, List.foldl_nil]

/-- The state in which the dies are tested, as the isolation of a warm reset ends. -/
def State.unisolated (s : State) (us : Nat) : State :=
  { s.elapse (us * 1600) with pins := { (s.elapse (us * 1600)).pins with fatal := 0, stopped := 0, isolated := false } }

/-- The state with the dies that serve, in which every port waits for light. -/
def State.withDarkPorts (s : State) (dies : Nat) : State :=
  { s with
    bruora := { s.bruora with
      ports := s.bruora.ports.zipIdx.map fun e => if s.portOn e.2 then { e.1 with state := 1 } else { e.1 with state := 0 } }
    pins := { s.pins with dies := dies } }

theorem warmRelease_of_domains_nil {s : State} {us dies : Nat} (hstate : s.pins.state = .inReset) (hwarm : s.pins.warm = true)
    (hlife : s.fuses.lifecycle ≠ 3) (hdomains : (s.unisolated us).integ.domains = []) (hdies : dies % 4 ≠ 0) :
    s.warmRelease us dies = (((s.unisolated us).failDies dies).withDarkPorts (dies % 4)).finishStart := by
  unfold warmRelease
  rw [if_neg (by simp [hstate, hwarm]), if_neg hlife]
  extract_lets s1 shut _ s2 s3 d pins port bruora
  have hs2 : s2 = s.unisolated us := by
    have hshut : shut = [] := congrArg (List.filter _) hdomains
    unfold s2
    rw [hshut]
    rfl
  rw [if_neg hdies]
  unfold port pins bruora s3
  rw [hs2]
  rfl

/-- A NORM of one row and one column whose INT8 result goes to address 4096, on die 0. -/
def normInFlight : Cmd :=
  { q := 3, i := 0, pasid := 5, die := 0, region := 0, clusters := 1, wait := .fence,
    recs := { desc := leBytes 64 (4 + 2 ^ 144 * 9 + 2 ^ 224 + 2 ^ 256), args := leBytes 128 (2 ^ 64 * 4096) } }

/-- A warm reset is held while the NORM is in flight; device memory holds one byte where its result goes. -/
def warmHeldNorm (x : Byte) : State :=
  { State.reset with
    pins := { state := .inReset, warm := true, ready := false, isolated := true, startupStep := 4 }
    cmds := [normInFlight]
    trans := { die0 := [{ pasid := 5, va := 0, bytes := 2 ^ 30, pa := 0, read := true, write := true, atomic := true, asked := true }] }
    devMem := [(4096, x)] }

/-- Die 0 stops: the byte takes a free value. -/
theorem stopDie_warmHeldNorm (x : Byte) : (((warmHeldNorm x).unisolated 0).stopDie 0 false).pins.warm = true ∧
    (((warmHeldNorm x).unisolated 0).stopDie 0 false).devMem = memWrite [(4096, x)] 4096 [Config.freeByte 0 0] := ⟨rfl, rfl⟩

theorem dieLoc_warmHeldNorm (x : Byte) : ((warmHeldNorm x).unisolated 0).dieLoc 0 = mkLoc true 0 0 0 0x1F 0 0 0xFF := rfl

/-- The release in which only die 1 passes. -/
theorem devMem_warmRelease_warmHeldNorm (x : Byte) :
    ((warmHeldNorm x).warmRelease 0 2).devMem = memWrite [(4096, x)] 4096 [Config.freeByte 0 0] := by
  obtain ⟨hpins, hmem⟩ := pins_devMem_of_besideLedger (besideLedger_raiseFault_of_stop (s := (warmHeldNorm x).unisolated 0)
    (code := 0x2C0F) (loc := mkLoc true 0 0 0 0x1F 0 0 0xFF) (detail := 0) (by decide) (domainOf_of_nil rfl _) (reopen_of_nil rfl _))
  have hdie : locDie (bareLoc (containerAt 4 (mkLoc true 0 0 0 0x1F 0 0 0xFF))) = 0 := by decide
  rw [← dieLoc_warmHeldNorm x, ← failDies_two, dieLoc_warmHeldNorm x, hdie] at hpins hmem
  obtain ⟨hwarm, hbyte⟩ := stopDie_warmHeldNorm x
  rw [warmRelease_of_domains_nil rfl rfl (show 2 ≠ 3 by decide) rfl (by decide)]
  refine (devMem_finishStart_of_warm ?_).trans (hmem.trans hbyte)
  exact (congrArg Pins.warm hpins).trans hwarm

/-- Refutes O23: the clause of the release frames device memory, but where a die fails, a command that is in flight on it leaves
a free value; the byte here is another. -/
theorem not_warmReset : ¬ Obligations.WarmReset := by
  intro h
  obtain ⟨-, -, -, -, hrelease⟩ := h (warmHeldNorm (Config.freeByte 0 0 + 1)) false
  obtain ⟨t, ht, -, -, -, -, -, -, hmem, -⟩ := hrelease 0 2 rfl rfl (by decide) (by decide)
  have hresult : (warmHeldNorm (Config.freeByte 0 0 + 1)).warmRelease 0 2 = t := by injection ht
  rw [← hresult, devMem_warmRelease_warmHeldNorm] at hmem
  have hfree : memByte (memWrite [(4096, Config.freeByte 0 0 + 1)] 4096 [Config.freeByte 0 0]) 4096 = Config.freeByte 0 0 :=
    memByte_memWrite rfl 4096 [Config.freeByte 0 0] 4096
  have hstored : memByte (warmHeldNorm (Config.freeByte 0 0 + 1)).devMem 4096 = Config.freeByte 0 0 + 1 := rfl
  rw [hmem, hstored] at hfree
  generalize Config.freeByte 0 0 = x at hfree
  exact absurd hfree (by simp)

end Sys2Proof.Machine
end

section
namespace Sys2Proof.Machine
open Safety State

/-! ### Throttling and the loss of power (R420, R428, R429) -/

section
variable {s : State}

/-- R428: in service the pin is taken into force at once. -/
theorem throttle_eq (hserved : s.pins.state ≠ .absent ∧ s.pins.state ≠ .unpowered ∧ s.pins.state ≠ .inReset) (low : Bool) :
    s.throttle low = { s with pins := { s.pins with throttleLow := low } }.applyCap := by
  obtain ⟨habsent, hunpowered, hreset⟩ := hserved
  unfold throttle
  split
  · contradiction
  · contradiction
  · contradiction
  · rfl

theorem throttle_of_inReset (hreset : s.pins.state = .inReset) (low : Bool) :
    s.throttle low = { s with pins := { s.pins with throttleLow := low } } := by
  unfold throttle
  rw [hreset]

/-- R428: what the pin leaves in force. -/
theorem throttle_caps (hserved : s.pins.state ≠ .absent ∧ s.pins.state ≠ .unpowered ∧ s.pins.state ≠ .inReset) (low : Bool) :
    (s.throttle low).pins = { s.pins with
      throttleLow := low, capEffective := if low then min 1000 (s.reg 0x2F00 0x07 3200) else s.reg 0x2F00 0x07 3200
      capUnmet := (s.throttle low).pins.capUnmet } ∧
    s.throttle low = { s with
      pins := (s.throttle low).pins, integ := (s.throttle low).integ, dict := (s.throttle low).dict, obs := (s.throttle low).obs
      outbox := (s.throttle low).outbox, free := (s.throttle low).free } := by
  rw [throttle_eq hserved]
  obtain ⟨hpins, -, -, hrest⟩ := applyCap_caps { s with pins := { s.pins with throttleLow := low } }
  exact ⟨hpins, hrest⟩

/-! ### What a cold reset keeps -/

theorem isolate_eq (s : State) : s.isolate = { s with outbox := s.isolate.outbox } := by
  unfold isolate
  generalize s.trans.invalidations = is
  induction is using List.reverseRecOn with
  | nil => rfl
  | append_singleton is i ih =>
    rw [List.foldl_append]
    exact congrArg (fun u : State => u.send (.invalidationComplete i.1 i.2.1 i.2.2)) ih

/-- From `s` to `t` the engine has been reset cold (R420, R429). -/
structure ResetCold (s t : State) (state : Boundary) (cause : Nat) : Prop where
  pins : t.pins.state = state ∧ t.pins.isolated = true ∧ t.pins.ready = false ∧ t.pins.warm = false ∧ t.pins.cause = cause ∧
    t.pins.coldHeld = decide (state = .inReset)
  discarded : t.queues = [] ∧ t.cmds = [] ∧ t.granary.seqs = [] ∧ t.loft.parts = [] ∧ t.devMem = [] ∧ t.fw.scopes = 0 ∧ t.dict.regs = []
  stored : t.hostMem = s.hostMem ∧ t.fuses = s.fuses ∧ t.dict.kept = s.dict.kept ∧ t.integ.field = s.integ.field ∧ t.pending = s.pending
  slot : t.fw.slot = if s.fw.updateState = 3 then .mixed else s.fw.slot

theorem coldState_resets (s : State) (state : Boundary) (cause : Nat) : ResetCold s (s.coldState state cause) state cause := by
  have hslot (u : State) : u.slotStopped = { u with fw := u.slotStopped.fw } ∧
      u.slotStopped.fw.slot = if u.fw.updateState = 3 then .mixed else u.fw.slot := by
    unfold slotStopped
    split <;> exact ⟨rfl, rfl⟩
  obtain ⟨hrest, hmixed⟩ := hslot s.isolate
  rw [isolate_eq] at hrest hmixed
  unfold coldState
  rw [isolate_eq, hrest]
  exact ⟨⟨rfl, rfl, rfl, rfl, rfl, rfl⟩, ⟨rfl, rfl, rfl, rfl, rfl, rfl, rfl⟩, ⟨rfl, rfl, rfl, rfl, rfl⟩, hmixed⟩

/-- R341: the copies that the loss of power leaves of a commit. -/
theorem cutKept_copies {index sub d v dies : Nat} (hdiffers : s.keptReg index sub d ≠ v) (hstuck : s.stuckCopies (key index sub) = 0)
    (hdies : dies < 4) :
    (dies = 0 → (s.cutKept index sub d v dies).dict.kept = s.dict.kept) ∧
    (dies = 1 ∨ dies = 2 → ∃ k, Table.find? (key index sub) (s.cutKept index sub d v dies).dict.kept = some k ∧
      k.value = s.keptReg index sub d ∧ k.later = some v) ∧
    (dies = 3 → (s.cutKept index sub d v dies).keptReg index sub d = v) ∧
    (∀ n, n ≠ key index sub → Table.find? n (s.cutKept index sub d v dies).dict.kept = Table.find? n s.dict.kept) ∧
    s.cutKept index sub d v dies = { s with dict := (s.cutKept index sub d v dies).dict } := by
  unfold cutKept
  extract_lets k e e1 worn _
  by_cases hnone : dies = 0
  · rw [if_pos (by simp [hnone])]
    exact ⟨fun _ => rfl, fun h => absurd hnone (by omega), fun h => absurd hnone (by omega), fun _ _ => rfl, rfl⟩
  · rw [if_neg (by simp [hdiffers, hstuck, k]; omega)]
    refine ⟨fun h => absurd h hnone, fun hone => ⟨e1, Table.find?_put_self .., ?_⟩, fun hboth => ?_, fun n hn => Table.find?_put_ne hn .., rfl⟩
    · have he1 : e1 = { e with value := s.keptReg index sub d, later := some v } := if_neg (by omega)
      rw [he1]
      exact ⟨rfl, rfl⟩
    · have he1 : e1 = e := if_pos (by omega)
      unfold State.keptReg
      dsimp only
      rw [Table.find?_put_self, he1]
      rfl

/-- An order of a plain entry that no check refuses passes. -/
theorem passes_of_plain {r : Request} {e : DictEntry} (h : s.accessAborts r true = []) (hplain : (r.index, r.sub) ∈ plainEntries)
    (he : dictEntry? r.index r.sub = some e) (hrange : InRange r.index r.sub e (written r)) : s.passes r = true := by
  unfold State.passes
  rw [tryWrite_of_accessible h he, applyEntry_of_plain hplain, if_neg (ne_true_of_eq_false (outOfRange_of_inRange hrange))]
  rfl

theorem exec_requestWrite_cut {r : Request} {rivals : List Request} {e : DictEntry} (h : Accessible s r)
    (hwins : s.loses r rivals = false) (hplain : (r.index, r.sub) ∈ plainEntries) (he : dictEntry? r.index r.sub = some e) (hkept : e.kept = true)
    (hrange : InRange r.index r.sub e (written r)) (dies : Nat) :
    exec (.requestWrite { r with cut := some dies } rivals) s =
      .next (s.cutKept r.index r.sub e.default (written r) dies).powerFall := by
  obtain ⟨harrives, haccess⟩ := h
  have hcut : r.cut = none := by
    unfold State.arrives at harrives
    simp only [Bool.and_eq_true, Option.isNone_iff_eq_none] at harrives
    exact harrives.1.1.1.1.2
  have hwhole : { r with cut := none } = r := by rw [← hcut]
  refine congrArg (fun u : State => Host.Outcome.next u.powerFall) (?_ : s.cutWrite { r with cut := none } rivals dies = _)
  rw [hwhole]
  unfold cutWrite
  rw [he]
  dsimp only
  rw [hkept, harrives, passes_of_plain haccess hplain he hrange, hwins]
  rfl

theorem powerFall_eq (h : s.pins.state ≠ .absent ∧ s.pins.state ≠ .unpowered) :
    s.powerFall = { s.coldState .unpowered 0 with pins := { (s.coldState .unpowered 0).pins with pwrGood := false } } := by
  obtain ⟨habsent, hunpowered⟩ := h
  unfold powerFall
  split
  · contradiction
  · contradiction
  · rfl

theorem coldAssert_eq (h : s.pins.state ≠ .absent ∧ s.pins.state ≠ .unpowered) (hheld : s.pins.coldHeld = false) :
    s.coldAssert = s.coldState .inReset (if s.pins.ordered = 2 then 2 else 1) := by
  obtain ⟨habsent, hunpowered⟩ := h
  unfold coldAssert
  split
  · contradiction
  · contradiction
  · rw [hheld]
    rfl

end

/-- Settles O21: the pin by the rule of the cap, the resets by what a cold reset keeps. -/
theorem throttleAndColdReset : Obligations.ThrottleAndColdReset := by
  refine fun s => ⟨fun hserved => ?throttle, fun hreset => ?inReset, fun hpowered => ?fall, fun hunpowered => ?rise,
    fun r rivals e dies hpowered h hwins hplain he hkept hrange hstuck hdiffers hdies => ?cut, fun hpowered hheld => ?cold⟩
  case throttle =>
    obtain ⟨hlow, hlowRest⟩ := throttle_caps hserved true
    obtain ⟨hhigh, hhighRest⟩ := throttle_caps hserved false
    exact ⟨⟨_, rfl, hlow, hlowRest⟩, ⟨_, rfl, hhigh, hhighRest⟩⟩
  case inReset =>
    exact ⟨congrArg Host.Outcome.next (throttle_of_inReset hreset true), congrArg Host.Outcome.next (throttle_of_inReset hreset false)⟩
  case fall =>
    obtain ⟨⟨hstate, hisolated, hready, -⟩, ⟨hqueues, hcmds, hseqs, hparts, hmem, hscopes, hregs⟩, ⟨hhost, hfuses, hkept, hfield, hpending⟩, hslot⟩ :=
      coldState_resets s .unpowered 0
    exact ⟨_, congrArg Host.Outcome.next (powerFall_eq hpowered), hstate, rfl, hisolated, hready, hqueues, hcmds, hseqs, hparts, hmem, hhost,
      hscopes, hfuses, hkept, hregs, hfield, hpending, hslot⟩
  case rise =>
    obtain ⟨⟨hstate, hisolated, -, -, -, hcold⟩, -, ⟨hhost, hfuses, hkept, hfield, -⟩, -⟩ := coldState_resets s .inReset 0
    exact ⟨_, congrArg Host.Outcome.next (if_pos hunpowered), hstate, rfl, hisolated, hcold, hfuses, hkept, hfield, hhost⟩
  case cut =>
    have hcommits := stuckCopies_of_admitted ⟨h, hstuck⟩ he hkept hdiffers
    obtain ⟨hnone, hone, hboth, hothers, hrest⟩ := cutKept_copies hdiffers hcommits hdies
    have hpowered' : (s.cutKept r.index r.sub e.default (written r) dies).pins.state ≠ .absent ∧
        (s.cutKept r.index r.sub e.default (written r) dies).pins.state ≠ .unpowered := by rwa [hrest]
    have hexec := exec_requestWrite_cut h hwins hplain he hkept hrange dies
    generalize s.cutKept r.index r.sub e.default (written r) dies = u at *
    rw [powerFall_eq hpowered'] at hexec
    obtain ⟨⟨hstate, -⟩, -, ⟨-, -, hstored, -⟩, -⟩ := coldState_resets u .unpowered 0
    refine ⟨_, hexec, hstate, fun hdies => hstored.trans (hnone hdies), fun hdies => ?_, fun hdies => ?_, fun n hn => ?_⟩
    · obtain ⟨k, hfound, hcopies⟩ := hone hdies
      exact ⟨k, (congrArg _ hstored).trans hfound, hcopies⟩
    · rw [← hboth hdies]
      unfold State.keptReg
      exact congrArg (fun kept => match Table.find? (key r.index r.sub) kept with
        | some k => k.value
        | none => e.default) hstored
    · exact (congrArg _ hstored).trans (hothers n hn)
  case cold =>
    obtain ⟨⟨hstate, hisolated, hready, -, hcause, hcold⟩, ⟨hqueues, hcmds, hseqs, hparts, hmem, hscopes, hregs⟩,
      ⟨hhost, hfuses, hkept, hfield, hpending⟩, hslot⟩ := coldState_resets s .inReset (if s.pins.ordered = 2 then 2 else 1)
    exact ⟨_, congrArg Host.Outcome.next (coldAssert_eq hpowered hheld), hstate, hcold, hisolated, hready, hcause, hqueues, hcmds, hseqs,
      hparts, hmem, hhost, hscopes, hfuses, hkept, hregs, hfield, hpending, hslot⟩

end Sys2Proof.Machine
end

section
namespace Sys2Proof.Machine
open Safety State

/-! ### A background update (R380–R382) -/

section
variable {s : State}

section
variable {ok : Bool}

/-! Where no reset is held, a phase ends with its own work alone. -/

theorem updateStep_of_fetching (hphase : s.fw.updateState = 1) (hheld : (s.updateFetched ok).fw.heldWarm = 0) :
    s.updateStep ok = s.updateFetched ok := by
  unfold updateStep
  rw [hphase]
  exact if_neg (by simp [hheld])

theorem updateStep_of_checking (hphase : s.fw.updateState = 2) (hheld : s.updateChecked.fw.heldWarm = 0) :
    s.updateStep ok = s.updateChecked := by
  unfold updateStep
  rw [hphase]
  exact if_neg (by simp [hheld])

theorem updateStep_of_writing (hphase : s.fw.updateState = 3) (hheld : s.fw.heldWarm = 0) : s.updateStep ok = s.updateWritten := by
  unfold updateStep
  rw [hphase]
  exact if_neg (by simp [updateWritten, hheld])

end

theorem updateFetched_of_lost {ok : Bool} (h : (!ok || !(isDevice s.fw.staged.1 s.fw.staged.2 || isHost s.fw.staged.1 s.fw.staged.2)) = true) :
    s.updateFetched ok = s.updateFailed 0x2D08 := if_pos h

theorem updateFetched_of_found (h : (isDevice s.fw.staged.1 s.fw.staged.2 || isHost s.fw.staged.1 s.fw.staged.2) = true)
    (hlength : s.fw.staged.2 ≤ slotBytes) :
    s.updateFetched true = { s with fw := { s.fw with updateState := 2, fetched := s.physRead s.fw.staged.1 s.fw.staged.2 } } := by
  refine (if_neg (by simp [h])).trans ?_
  rw [Nat.min_eq_left (Nat.le_succ_of_le hlength)]

theorem commitKept_besideLedger (s : State) (k v : Nat) : (s.commitKept k v).besideLedger = s.besideLedger := by
  cases hworn : s.keptWorn k with
  | true =>
    unfold commitKept
    rw [if_pos hworn]
  | false =>
    by_cases hstuck : s.stuckCopies k = 0
    · exact (commitKept_commits hworn hstuck).2
    · unfold commitKept
      rw [if_neg (ne_true_of_eq_false hworn), if_pos (by simpa using hstuck)]
      exact (commitNotices_rest ..).2

/-- R380: a write of the slot that both copies can count is counted. -/
theorem keptReg_countSlotWrite (hstuck : s.stuckCopies (key 0x2D00 0x0A) = 0) (hworn : s.keptWorn (key 0x2D00 0x0A) = false) :
    s.countSlotWrite.keptReg 0x2D00 0x0A 0 = s.keptReg 0x2D00 0x0A 0 + 1 := by
  obtain ⟨⟨e, hcounts, hvalue⟩, -⟩ := commitKept_commits (v := s.keptReg 0x2D00 0x0A 0 + 1) hworn hstuck
  change (s.commitKept (key 0x2D00 0x0A) (s.keptReg 0x2D00 0x0A 0 + 1)).keptReg 0x2D00 0x0A 0 = s.keptReg 0x2D00 0x0A 0 + 1
  generalize s.keptReg 0x2D00 0x0A 0 + 1 = v at hcounts hvalue
  unfold State.keptReg
  rw [hcounts]
  exact hvalue

end

/-- Settles O24: by the phase that ends. -/
theorem updatePhases : Obligations.UpdatePhases := by
  refine fun s ok hheld => ⟨fun hphase hok => ?lost, fun hphase hok hplace hlength => ?found, fun hphase => ?checked, fun hphase => ?written⟩
  case lost =>
    subst hok
    have hlost : s.updateFetched false = s.updateFailed 0x2D08 := updateFetched_of_lost rfl
    have hstep := (updateStep_of_fetching hphase ((congrArg (fun u : State => u.fw.heldWarm) hlost).trans hheld)).trans hlost
    exact ⟨_, congrArg Host.Outcome.next hstep, rfl, rfl, rfl, rfl⟩
  case found =>
    subst hok
    have hfound := updateFetched_of_found hplace hlength
    have hstep := (updateStep_of_fetching hphase ((congrArg (fun u : State => u.fw.heldWarm) hfound).trans hheld)).trans hfound
    exact ⟨_, congrArg Host.Outcome.next hstep, rfl, rfl, rfl, rfl⟩
  case written => exact ⟨_, congrArg Host.Outcome.next (updateStep_of_writing hphase hheld), rfl, rfl, rfl⟩
  case checked =>
    have hstep {u : State} (hu : s.updateChecked = u) (hheld : u.fw.heldWarm = 0) : s.updateStep ok = u :=
      (updateStep_of_checking hphase ((congrArg (fun u : State => u.fw.heldWarm) hu).trans hheld)).trans hu
    cases hverify : s.fuses.verify s.fw.fetched (some s.fw.staged.2) with
    | some code =>
      have hchecked : s.updateChecked = s.updateFailed code := by
        unfold updateChecked
        rw [hverify]
      refine ⟨_, congrArg Host.Outcome.next (hstep hchecked hheld), rfl, rfl, rfl, rfl, rfl, fun c hc => ?_, fun hc => nomatch hc⟩
      obtain rfl : code = c := Option.some.inj hc
      exact ⟨rfl, rfl, rfl⟩
    | none =>
      have hchecked : s.updateChecked = { s with fw := { s.fw with updateState := 3 } }.countSlotWrite := by
        unfold updateChecked
        rw [hverify]
      have hrest : ({ s with fw := { s.fw with updateState := 3 } }.countSlotWrite).besideLedger =
        { s with fw := { s.fw with updateState := 3 } }.besideLedger := commitKept_besideLedger ..
      have hfw : ({ s with fw := { s.fw with updateState := 3 } }.countSlotWrite).fw = { s.fw with updateState := 3 } :=
        (congrArg State.fw hrest :)
      refine ⟨_, congrArg Host.Outcome.next (hstep hchecked ((congrArg Firmware.heldWarm hfw).trans hheld)), (congrArg Firmware.slot hfw :),
        (congrArg State.fuses hrest :), (congrArg State.queues hrest :), (congrArg State.cmds hrest :), (congrArg State.devMem hrest :),
        fun c hc => (nomatch hc), fun _ => ⟨(congrArg Firmware.updateState hfw :), fun hstuck hworn => ?_⟩⟩
      exact keptReg_countSlotWrite (s := { s with fw := { s.fw with updateState := 3 } }) hstuck hworn

end Sys2Proof.Machine
end

section
namespace Sys2Proof.Machine
open Safety

/-! ### A port that pumps (R303, R307) -/

namespace Port
variable {x : Port}

@[simp] theorem control_rx (x : Port) : x.control.rx = x.rx := by
  unfold control
  split <;> rfl

theorem pump_rx (x : Port) : x.pump.1.rx = x.rx := by
  rw [pump_eq]
  refine List.foldlRecOn (motive := fun a : Port × List Message => a.1.rx = x.rx) _ _ rfl fun a ha u _ => ?_
  unfold pumpFlit
  split
  · exact ha
  · simpa [sendFlit] using ha

theorem pump_of_unsent_nil (h : x.unsent = []) : x.pump = (x, []) := by
  rw [pump_eq, h, List.foldl_nil, ← h]

@[simp] theorem control_state (x : Port) : x.control.state = x.state := by
  unfold control
  split <;> rfl

theorem pump_state (x : Port) : x.pump.1.state = x.state := by
  rw [pump_eq]
  refine List.foldlRecOn (motive := fun a : Port × List Message => a.1.state = x.state) _ _ rfl fun a ha u _ => ?_
  unfold pumpFlit
  split
  · exact ha
  · simpa [sendFlit] using ha

/-- Flits that a port affords leave, and leave it the credits for those after them. -/
theorem foldl_pumpFlit_affords {l more : List Unsent} : ∀ {y : Port}, y.unsent = [] → (∀ u ∈ l, u.channel < 3) → y.Affords (l ++ more) →
    ∀ ms, (l.foldl pumpFlit (y, ms)).1.unsent = [] ∧ (l.foldl pumpFlit (y, ms)).1.Affords more := by
  induction l with
  | nil => exact fun hy _ h _ => ⟨hy, h⟩
  | cons u l ih =>
    intro y hunsent hch h ms
    obtain ⟨z, hflit, hz, hmore⟩ := pumpFlit_of_affords hunsent (hch u (by simp)) h ms
    rw [List.foldl_cons, hflit]
    exact ih hz (fun v hv => hch v (by simp [hv])) hmore _

/-- Nothing waits where there are credits for every flit. -/
theorem pump_unsent_of_affords {more : List Unsent} (hch : ∀ u ∈ x.unsent, u.channel < 3) (h : x.Affords (x.unsent ++ more)) :
    x.pump.1.unsent = [] ∧ x.pump.1.Affords more := by
  rw [pump_eq]
  exact foldl_pumpFlit_affords (y := { x with unsent := [] }) rfl hch h []

/-! ### Link control flits (R303, R305) -/

theorem release_keeps (x : Port) (seq : Nat) :
    (x.release seq).rx = x.rx ∧ (x.release seq).unsent = x.unsent ∧ (x.release seq).credits = x.credits := by
  unfold release
  split
  · exact ⟨rfl, rfl, rfl⟩
  · split <;> exact ⟨rfl, rfl, rfl⟩

theorem takeControl_keeps (x : Port) (payload : List Byte) :
    (x.takeControl payload).rx = x.rx ∧ (x.takeControl payload).unsent = x.unsent := by
  obtain ⟨hrx, hunsent, -⟩ := x.release_keeps (Config.controlAck payload % 4096)
  exact ⟨hrx, hunsent⟩

theorem pick_takeControl (x : Port) (payload : List Byte) {ch : Nat} (hch : ch < 3) :
    pick (x.takeControl payload).credits ch = min 1024 (pick x.credits ch + Config.controlCredits payload ch) := by
  obtain ⟨-, -, hcredits⟩ := x.release_keeps (Config.controlAck payload % 4096)
  have htaken : (x.takeControl payload).credits = (min 1024 (x.credits.1 + Config.controlCredits payload 0),
      min 1024 (x.credits.2.1 + Config.controlCredits payload 1), min 1024 (x.credits.2.2 + Config.controlCredits payload 2)) := by
    rw [← hcredits]
    rfl
  rw [htaken]
  interval_cases ch <;> rfl

theorem release_all (h : seq = x.tx) : (x.release seq).kept = [] := by
  unfold release
  rw [if_pos h]

/-- The kept flits from the first with a sequence number on. -/
theorem dropWhile_kept {before rest : List (Nat × List Byte)} {seq : Nat} {b : List Byte} (hfirst : ∀ f ∈ before, f.1 ≠ seq) :
    (before ++ (seq, b) :: rest).dropWhile (fun f => f.1 != seq) = (seq, b) :: rest := by
  rw [List.dropWhile_append_of_pos (by simpa using hfirst)]
  simp

theorem release_from {before rest : List (Nat × List Byte)} {seq : Nat} {b : List Byte} (hkept : x.kept = before ++ (seq, b) :: rest)
    (hfirst : ∀ f ∈ before, f.1 ≠ seq) (hne : seq ≠ x.tx) : (x.release seq).kept = (seq, b) :: rest := by
  unfold release
  rw [if_neg hne, if_pos (by simp [hkept])]
  dsimp only
  rw [hkept]
  exact dropWhile_kept hfirst

end Port

namespace State

/-! ### Ports of a state -/

section
variable {s : State} {p : Nat}

theorem port_setPort_ne (x : Port) {n : Nat} (h : n ≠ p) : (s.setPort p x).port n = s.port n := by
  unfold port setPort
  simp only [List.getD_eq_getElem?_getD, List.getElem?_map, List.getElem?_zipIdx, Nat.zero_add, Option.map_map, Function.comp_def, if_neg h]
  rw [Option.map_id']

theorem pumpPort_sends (s : State) (p : Nat) : (s.pumpPort p).bruora = (s.setPort p (s.port p).pump.1).bruora ∧
    (s.pumpPort p).outbox = s.outbox ++ (s.port p).pump.2.map (.message p) := by
  rw [pumpPort_eq]
  generalize (s.port p).pump.2 = ms
  induction ms using List.reverseRecOn with
  | nil => exact ⟨rfl, (List.append_nil _).symm⟩
  | append_singleton ms m ih =>
    obtain ⟨hbruora, houtbox⟩ := ih
    rw [List.foldl_append, List.map_append, ← List.append_assoc]
    exact ⟨hbruora, congrArg (· ++ [Out.message p m]) houtbox⟩

theorem port_pumpPort (hp : p < s.bruora.ports.length) : (s.pumpPort p).port p = (s.port p).pump.1 ∧
    ∀ n, n ≠ p → (s.pumpPort p).port n = s.port n := by
  have hbruora := (s.pumpPort_sends p).1
  have hport (n : Nat) : (s.pumpPort p).port n = (s.setPort p (s.port p).pump.1).port n :=
    congrArg (fun b : Bruora => b.ports.getD n {}) hbruora
  exact ⟨(hport p).trans (port_setPort hp _), fun n hn => (hport n).trans (port_setPort_ne _ hn)⟩

/-! ### A flit arrives (R304, R305, R310, R324) -/

/-- R324: the codewords of a flit are counted. -/
def fecCounted (s : State) (corrected uncorrectable : Nat) : State := (s.bump 0x2B00 0x0F corrected).bump 0x2B00 0x10 uncorrectable

variable {flit : List Byte} {bad : Bool} {cor unc : Nat}

theorem takeFlit_of_bad (hp : p < 16) (hup : (s.port p).up = true) (hbad : bad = true ∨ ¬GoodFlit flit) :
    s.takeFlit p flit bad cor unc =
      ((if bad then s.fecCounted cor unc else (s.fecCounted cor unc).bump 0x2B00 0x0E 1).bump 0x2B00 0x11 1).send (.replay p (s.port p).rx) := by
  unfold takeFlit
  dsimp only
  rw [if_neg (by simp [hp, hup])]
  refine if_pos ?_
  obtain rfl | hcrc := hbad
  · rfl
  · rw [Bool.or_eq_true]
    exact .inr (by simpa [GoodFlit, Classical.or_iff_not_imp_left] using hcrc)

theorem takeFlit_of_good (hp : p < 16) (hup : (s.port p).up = true) (hgood : GoodFlit flit) :
    s.takeFlit p flit false cor unc =
      if field flit 0 1 % 4096 = (s.port p).rx then (s.fecCounted cor unc).acceptFlit p flit else s.fecCounted cor unc := by
  obtain ⟨hlength, hcrc⟩ := hgood
  unfold takeFlit
  dsimp only
  rw [if_neg (by simp [hp, hup])]
  refine if_neg ?_
  simp [hlength, hcrc]

theorem regsBut_fecCounted (s : State) (cor unc : Nat) :
    RegsBut s (s.fecCounted cor unc) [State.key 0x2B00 0x0F, State.key 0x2B00 0x10] :=
  regsBut_trans (regsBut_widen (regsBut_bump s 0x2B00 0x0F cor) (by simp))
    (regsBut_widen (regsBut_bump (s.bump 0x2B00 0x0F cor) 0x2B00 0x10 unc) (by simp))

theorem reg_fecCounted (s : State) (cor unc : Nat) : (s.fecCounted cor unc).reg 0x2B00 0x0F 0 = s.reg 0x2B00 0x0F 0 + cor ∧
    (s.fecCounted cor unc).reg 0x2B00 0x10 0 = s.reg 0x2B00 0x10 0 + unc ∧ ∀ i n, key i n ≠ key 0x2B00 0x0F → key i n ≠ key 0x2B00 0x10 →
      (s.fecCounted cor unc).reg i n 0 = s.reg i n 0 := by
  refine ⟨?_, ?_, fun i n hcor hunc => ?_⟩
  · exact (reg_bump_ne _ (by decide) ..).trans (reg_bump_self ..)
  · exact (reg_bump_self ..).trans (congrArg (· + unc) (reg_bump_ne _ (by decide) ..))
  · exact (reg_bump_ne _ hunc ..).trans (reg_bump_ne _ hcor ..)

/-- R304, R324: what a bad flit has counted before it is asked for again. -/
theorem badFlit_counts (s : State) (cor unc : Nat) (bad : Bool) :
    let u := if bad then s.fecCounted cor unc else (s.fecCounted cor unc).bump 0x2B00 0x0E 1
    u.reg 0x2B00 0x0E 0 = s.reg 0x2B00 0x0E 0 + (if bad then 0 else 1) ∧ u.reg 0x2B00 0x0F 0 = s.reg 0x2B00 0x0F 0 + cor ∧
      u.reg 0x2B00 0x10 0 = s.reg 0x2B00 0x10 0 + unc ∧ RegsBut s u [key 0x2B00 0x0F, key 0x2B00 0x10, key 0x2B00 0x0E] ∧
      u.reg 0x2B00 0x11 0 = s.reg 0x2B00 0x11 0 ∧ u = { s with dict := u.dict } := by
  obtain ⟨hcor, hunc, hothers⟩ := reg_fecCounted s cor unc
  have hregs : RegsBut s (s.fecCounted cor unc) [key 0x2B00 0x0F, key 0x2B00 0x10, key 0x2B00 0x0E] :=
    regsBut_widen (regsBut_fecCounted s cor unc) (by simp)
  cases bad with
  | true => exact ⟨hothers _ _ (by decide) (by decide), hcor, hunc, hregs, hothers _ _ (by decide) (by decide), rfl⟩
  | false =>
    refine ⟨(reg_bump_self ..).trans (congrArg (· + 1) (hothers _ _ (by decide) (by decide))), (reg_bump_ne _ (by decide) ..).trans hcor,
      (reg_bump_ne _ (by decide) ..).trans hunc, ?_, (reg_bump_ne _ (by decide) ..).trans (hothers _ _ (by decide) (by decide)), rfl⟩
    exact regsBut_trans hregs (regsBut_widen (regsBut_bump (s.fecCounted cor unc) 0x2B00 0x0E 1) (by simp))

/-- The port with a flit in the receive buffer of its channel. -/
def buffered (x : Port) (flit : List Byte) : Port :=
  { x with rx := (x.rx + 1) % 4096, owed := Port.onChannel x.owed (flitChannel flit) (· + 1) }

theorem acceptFlit_of_data (h : flitChannel flit ≠ 3) : s.acceptFlit p flit =
    if Port.pick (s.port p).owed (flitChannel flit) = 1024 then s else s.setPort p (buffered (s.port p) flit) := if_neg h

/-- A data, response or management flit changes at most its port. -/
theorem acceptFlit_rest (h : flitChannel flit ≠ 3) : s.acceptFlit p flit = { s with bruora := (s.acceptFlit p flit).bruora } ∧
    ∀ n, n ≠ p → (s.acceptFlit p flit).port n = s.port n := by
  rw [acceptFlit_of_data h]
  split
  · exact ⟨rfl, fun _ _ => rfl⟩
  · exact ⟨rfl, fun n hn => port_setPort_ne _ hn⟩

/-- The port that has taken a link control flit, before it sends. -/
def controlled (x : Port) (flit : List Byte) : Port :=
  Port.takeControl { x with rx := (x.rx + 1) % 4096 } (slice flit 4 248)

theorem acceptFlit_of_control (hp : p < s.bruora.ports.length) (h : flitChannel flit = 3) :
    (s.acceptFlit p flit).port p = (controlled (s.port p) flit).pump.1 ∧
    (s.acceptFlit p flit).outbox = s.outbox ++ (controlled (s.port p) flit).pump.2.map (.message p) ∧
    ∀ n, n ≠ p → (s.acceptFlit p flit).port n = s.port n := by
  have haccept : s.acceptFlit p flit = (s.setPort p (controlled (s.port p) flit)).pumpPort p := if_pos h
  have hset := port_setPort hp (controlled (s.port p) flit)
  obtain ⟨hport, hothers⟩ := port_pumpPort (s := s.setPort p (controlled (s.port p) flit)) (p := p) (by simpa [setPort] using hp)
  rw [haccept]
  refine ⟨hport.trans (congrArg (fun x => x.pump.1) hset), ?_, fun n hn => (hothers n hn).trans (port_setPort_ne _ hn)⟩
  rw [(pumpPort_sends ..).2, hset]
  rfl

/-! ### A port that goes down, and a replay (R305, R308, R310) -/

/-- The port that has left service. -/
def left (x : Port) (state : Nat) (retrain : Bool) : Port :=
  { x.cleared with
    state := state, retrain := retrain, partner := if state = 0 ∨ state = 1 then none else x.partner
    width := if state = 5 then 0 else x.width }

theorem leaveUp_leaves (hp : p < s.bruora.ports.length) (state : Nat) (retrain : Bool) :
    (s.leaveUp p state retrain).port p = left (s.port p) state retrain ∧
    (∀ n, n ≠ p → (s.leaveUp p state retrain).port n = s.port n) ∧
    (s.leaveUp p state retrain).reg 0x2B00 0x13 0 = s.reg 0x2B00 0x13 0 + (if (s.port p).up then 1 else 0) ∧
    RegsBut s (s.leaveUp p state retrain) [key 0x2B00 0x13] ∧
    s.leaveUp p state retrain = { s with
      bruora := (s.leaveUp p state retrain).bruora, cmds := (s.leaveUp p state retrain).cmds, dict := (s.leaveUp p state retrain).dict } := by
  by_cases hup : (s.port p).up = true
  · have hleave : s.leaveUp p state retrain = ((s.stopPort p).bump 0x2B00 0x13 1).setPort p (left (s.port p) state retrain) :=
      congrArg (fun u : State => u.setPort p (left (s.port p) state retrain)) (if_pos hup)
    rw [hleave, if_pos hup]
    exact ⟨port_setPort hp _, fun n hn => port_setPort_ne _ hn, reg_bump_self (s := s.stopPort p) .., regsBut_bump (s.stopPort p) .., rfl⟩
  · have hleave : s.leaveUp p state retrain = s.setPort p (left (s.port p) state retrain) :=
      congrArg (fun u : State => u.setPort p (left (s.port p) state retrain)) (if_neg hup)
    rw [hleave, if_neg hup]
    exact ⟨port_setPort hp _, fun n hn => port_setPort_ne _ hn, rfl, regsBut_refl .., rfl⟩

section
variable {before rest : List (Nat × List Byte)} {seq again : Nat} {b : List Byte} (hp : p < 16) (hup : (s.port p).up = true)
  (hkept : (s.port p).kept = before ++ (seq, b) :: rest) (hfirst : ∀ f ∈ before, f.1 ≠ seq)
  (hagain : again = if before = [] then (s.port p).replays else 0)
include hp hup hkept hfirst hagain

theorem replayFrom_eq : s.replayFrom p seq = if 8 ≤ again then s.leaveUp p 2 true else
    ((seq, b) :: rest).foldl (fun s f => s.send (.flit p f.2))
      (s.setPort p { s.port p with kept := (seq, b) :: rest, replays := again + 1 }) := by
  have hcount : (if ((s.port p).kept.head?.map Prod.fst) = some seq then (s.port p).replays else 0) = again := by
    rw [hagain, hkept]
    cases before with
    | nil => simp
    | cons f fs => simp [hfirst f (by simp)]
  unfold replayFrom
  dsimp only
  rw [if_neg (by simp [hp, hup, hkept]), hcount, hkept, Port.dropWhile_kept hfirst]

end

theorem foldl_send_flit (s : State) (p : Nat) (fs : List (Nat × List Byte)) :
    fs.foldl (fun s f => s.send (.flit p f.2)) s = { s with outbox := s.outbox ++ fs.map fun f => .flit p f.2 } := by
  induction fs using List.reverseRecOn with
  | nil => rw [List.map_nil, List.append_nil, List.foldl_nil]
  | append_singleton fs f ih =>
    rw [List.foldl_append, ih, List.map_append, ← List.append_assoc]
    rfl

end
end State

open State

section
variable {s : State} {p : Nat} {flit : List Byte} (hlength : s.bruora.ports.length = 16) (hp : p < 16) (hup : (s.port p).up = true)
include hlength hp hup

/-- R303, R305, R307: a link control flit releases what it acknowledges, and what its credits let leave leaves. -/
theorem flit_control (hchannel : flitChannel flit = 3) (cor unc : Nat) (hseq : field flit 0 1 % 4096 = (s.port p).rx) (hgood : GoodFlit flit) :
    ((s.takeFlit p flit false cor unc).port p).rx = ((s.port p).rx + 1) % 4096 ∧
    ((s.port p).unsent = [] → (s.takeFlit p flit false cor unc).outbox = s.outbox ∧
      (s.takeFlit p flit false cor unc).port p = controlled (s.port p) flit ∧ (controlled (s.port p) flit).unsent = []) ∧
    (∀ m, (s.port p).unsent = unsentOf m → (unsentOf m).length ≤
        min 1024 (Port.pick (s.port p).credits (channelOf m) + Config.controlCredits (slice flit 4 248) (channelOf m)) →
      (s.takeFlit p flit false cor unc).outbox = s.outbox ++ [.message p m] ∧ ((s.takeFlit p flit false cor unc).port p).unsent = []) := by
  have htake := (takeFlit_of_good (cor := cor) (unc := unc) hp hup hgood).trans (if_pos hseq)
  obtain ⟨hport, houtbox, -⟩ := acceptFlit_of_control (s := s.fecCounted cor unc) (p := p) (flit := flit) (by
    rw [show (s.fecCounted cor unc).bruora.ports.length = 16 from hlength]
    exact hp) hchannel
  change (_ : Port) = (controlled (s.port p) flit).pump.1 at hport
  change (_ : List Out) = s.outbox ++ (controlled (s.port p) flit).pump.2.map (.message p) at houtbox
  obtain ⟨hrx, hunsent⟩ := Port.takeControl_keeps { s.port p with rx := ((s.port p).rx + 1) % 4096 } (slice flit 4 248)
  rw [htake, hport, houtbox]
  refine ⟨(Port.pump_rx _).trans hrx, fun hnil => ?_, fun m hm hcredits => ?_⟩
  · have hnone : (controlled (s.port p) flit).unsent = [] := hunsent.trans hnil
    rw [Port.pump_of_unsent_nil hnone]
    exact ⟨List.append_nil _, rfl, hnone⟩
  · have hwaiting : (controlled (s.port p) flit).unsent = unsentOf m := hunsent.trans hm
    have hch : ∀ u ∈ (controlled (s.port p) flit).unsent, u.channel < 3 := fun u hu => unsentOf_channel (hwaiting ▸ hu)
    have haffords : (controlled (s.port p) flit).Affords (controlled (s.port p) flit).unsent := by
      intro ch hlt
      rw [hwaiting]
      refine le_trans ?_ (Port.pick_takeControl _ _ hlt).ge
      by_cases hsame : ch = channelOf m
      · rw [hsame]
        exact (List.length_filter_le ..).trans hcredits
      · have hnone : (unsentOf m).filter (fun u => u.channel == ch) = [] := by
          refine List.filter_eq_nil_iff.2 fun u hu => ?_
          obtain ⟨_, -, rfl⟩ := List.mem_map.1 hu
          simpa using fun h => hsame h.symm
        rw [hnone]
        exact Nat.zero_le _
    rw [Port.pump_of_affords hch haffords, hwaiting, leaving_unsentOf]
    exact ⟨rfl, (Port.pump_unsent_of_affords (more := []) hch (by rwa [List.append_nil])).1⟩

end

/-- Settles O31: by what the flit is, and whether it is the one expected. -/
theorem flits : Obligations.Flits := by
  refine ⟨fun s p flit bad cor unc hlength hp hup => ⟨fun hbad => ?bad, fun hfec hgood => ?good⟩,
    fun s p seq again before rest b hlength hp hup hkept hfirst hagain => ⟨fun hmore => ?replay, fun hlimit => ?retrain⟩⟩
  case bad =>
    obtain ⟨hcrc, hcor, hunc, hregs, hreplays, hrest⟩ := badFlit_counts s cor unc bad
    refine ⟨_, congrArg Host.Outcome.next (takeFlit_of_bad hp hup hbad), ?_, ?_, ?_, ?_, ?_, ?_, ?_⟩
    · exact congrArg (fun u : State => u.outbox ++ [.replay p (s.port p).rx]) hrest
    · exact (reg_bump_self ..).trans (congrArg (· + 1) hreplays)
    · exact (reg_bump_ne _ (by decide) ..).trans hcor
    · exact (reg_bump_ne _ (by decide) ..).trans hunc
    · exact (reg_bump_ne _ (by decide) ..).trans hcrc
    · exact regsBut_trans (regsBut_widen hregs (by simp)) (regsBut_widen (regsBut_bump _ 0x2B00 0x11 1) (by simp))
    · dsimp only
      rw [hrest]
      rfl
  case good =>
    subst hfec
    have htake := takeFlit_of_good (cor := cor) (unc := unc) hp hup hgood
    have hcounted : (s.fecCounted cor unc).bruora.ports.length = 16 := hlength
    refine ⟨s.takeFlit p flit false cor unc, rfl, fun hdata => ?_, fun n hn => ?_, fun hother => ?_, fun hseq hdata hroom => ?_, fun hseq hcontrol => ?_⟩
    · obtain ⟨hcor, hunc, -⟩ := reg_fecCounted s cor unc
      obtain ⟨haccept, -⟩ := acceptFlit_rest (s := s.fecCounted cor unc) (p := p) hdata
      rw [htake]
      split
      · rw [haccept]
        exact ⟨hcor, hunc, regsBut_fecCounted s cor unc, rfl⟩
      · exact ⟨hcor, hunc, regsBut_fecCounted s cor unc, rfl⟩
    · rw [htake]
      split
      · by_cases hcontrol : flitChannel flit = 3
        · exact (acceptFlit_of_control (s := s.fecCounted cor unc) (by rw [hcounted]; exact hp) hcontrol).2.2 n hn
        · exact (acceptFlit_rest (s := s.fecCounted cor unc) hcontrol).2 n hn
      · rfl
    · rw [htake, if_neg hother]
      exact ⟨rfl, rfl⟩
    · rw [htake, if_pos hseq]
      rw [acceptFlit_of_data hdata]
      refine (congrArg (fun u : State => u.port p) (if_neg (Nat.ne_of_lt hroom))).trans (port_setPort (by rw [hcounted]; exact hp) _)
    · obtain ⟨hrx, hnil, hsends⟩ := flit_control hlength hp hup hcontrol cor unc hseq hgood
      refine ⟨hrx, fun hunsent => ?_, hsends⟩
      obtain ⟨houtbox, hport, hnone⟩ := hnil hunsent
      rw [hport]
      refine ⟨houtbox, hnone, fun ch hch => Port.pick_takeControl _ _ hch, fun hack => Port.release_all hack,
        fun before seq b rest hkept hfirst hne hack => ?_⟩
      rw [← hack] at hne hfirst hkept ⊢
      exact Port.release_from (x := { s.port p with rx := ((s.port p).rx + 1) % 4096 }) hkept hfirst hne
  case replay =>
    refine ⟨_, congrArg Host.Outcome.next ((replayFrom_eq hp hup hkept hfirst hagain).trans
      ((if_neg (Nat.not_le.2 hmore)).trans (foldl_send_flit ..))), rfl, port_setPort (by omega) _, fun n hn => port_setPort_ne _ hn, rfl⟩
  case retrain =>
    obtain ⟨hport, hothers, hreg, hregs, hrest⟩ := leaveUp_leaves (s := s) (p := p) (by omega) 2 true
    rw [hup] at hreg
    refine ⟨_, congrArg Host.Outcome.next ((replayFrom_eq hp hup hkept hfirst hagain).trans (if_pos hlimit)), ?_, ?_, ?_, hothers, hreg, hregs, hrest⟩
    all_goals rw [hport]; rfl

end Sys2Proof.Machine
end

section
namespace Sys2Proof.Machine
open Safety

/-! ### A port that is trained in step 5 of a start-up (R309, R432)

The frame that O32 gives the end of a training leaves `pins` as they stood. In step 5 of a start-up the engine waits for the
ports that train, and the one whose training ends is no longer among them: `Pins.training` loses its bit. -/

/-- In step 5 of a start-up, ports 0 and 1 train. -/
def twoPortsTraining : State :=
  { State.reset with
    pins := { state := .booting, startupStep := 5, training := 3 }
    bruora := { ports := { state := 2 } :: { state := 2 } :: List.replicate 14 {} } }

/-- Port 0 is in training, the partner is another package, and all 18 lanes of a full mask are serviceable. -/
theorem twoPortsTraining_trains :
    twoPortsTraining.bruora.ports.length = 16 ∧ (twoPortsTraining.port 0).state = 2 ∧ (twoPortsTraining.port 0).retrain = false ∧
      1 ≠ twoPortsTraining.packageId ∧
      8 ≤ ((List.range 18).filter fun n => bit (2 ^ 18 - 1) n && !twoPortsTraining.listed (twoPortsTraining.portLoc 0 n)).length := by
  decide +kernel

/-- The engine waits for port 1 alone. -/
theorem training_twoPortsTraining :
    (((twoPortsTraining.endTraining 0 (2 ^ 18 - 1) 1 0 7 true).portSettled 0).pins.training) = 2 := by
  decide +kernel

/-- Refutes O32: the clause of a training that ends frames all of `pins`, but in step 5 of a start-up the port is struck off the
ports that the engine waits for. -/
theorem not_portTraining : ¬ Obligations.PortTraining := by
  intro h
  obtain ⟨hlength, hstate, hfresh, hpackage, hlanes⟩ := twoPortsTraining_trains
  obtain ⟨-, htrained, -⟩ := h twoPortsTraining 0 hlength (by decide)
  obtain ⟨t, ht, -, -, -, -, -, -, -, -, -, -, -, -, hframe⟩ :=
    htrained (2 ^ 18 - 1) 1 0 7 _ hstate hfresh hpackage rfl hlanes
  have hresult : (twoPortsTraining.endTraining 0 (2 ^ 18 - 1) 1 0 7 true).portSettled 0 = t := by injection ht
  have hpins : t.pins.training = 3 := (congrArg (fun u : State => u.pins.training) hframe :)
  have hwaits := training_twoPortsTraining
  rw [hresult, hpins] at hwaits
  exact absurd hwaits (by decide)

end Sys2Proof.Machine
end

section
namespace Sys2Proof.Machine
open Safety
namespace State

/-! ### Messages sent again (R307, R321) -/

section
variable {s : State} {p dst : Nat}

/-- The links and counters that what leaves by a port may change. -/
theorem emit_rest (s : State) (p : Nat) (m : Message) : ∃ ports dict outbox, s.emit p m = { s with
    bruora := { s.bruora with ports := ports }, dict := dict, outbox := outbox } := by
  unfold emit
  dsimp only
  rw [pumpPort_eq]
  generalize Prod.snd _ = ms
  induction ms using List.reverseRecOn with
  | nil => exact ⟨_, _, _, rfl⟩
  | append_singleton ms n ih =>
    obtain ⟨_, _, _, hsent⟩ := ih
    rw [List.foldl_append, hsent]
    exact ⟨_, _, _, rfl⟩

/-- A message leaves, and the port holds the credits for those after it. -/
theorem emit_sends (hup : (s.port p).up = true) {m : Message} {ms : List Message} (hsends : Sends s p (m :: ms)) :
    (s.emit p m).outbox = s.outbox ++ [.message p m] ∧ ((s.emit p m).port p).up = true ∧ Sends (s.emit p m) p ms := by
  obtain ⟨hunsent, hcredits⟩ := hsends
  have hset : (s.setPort p { s.port p with unsent := (s.port p).unsent ++ unsentOf m }).port p =
      { s.port p with unsent := unsentOf m } := by
    rw [port_setPort (lt_of_up hup), hunsent, List.nil_append]
  have hch : ∀ u ∈ ({ s.port p with unsent := unsentOf m } : Port).unsent, u.channel < 3 := fun u hu => unsentOf_channel hu
  have hmore : ({ s.port p with unsent := unsentOf m } : Port).Affords (unsentOf m ++ (ms.map unsentOf).flatten) := hcredits
  have hfirst : ({ s.port p with unsent := unsentOf m } : Port).Affords (unsentOf m) := fun ch hlt =>
    ((List.sublist_append_left ..).filter _).length_le.trans (hmore ch hlt)
  obtain ⟨hleft, haffords⟩ := Port.pump_unsent_of_affords hch hmore
  obtain ⟨-, houtbox⟩ := pumpPort_sends (s.setPort p { s.port p with unsent := (s.port p).unsent ++ unsentOf m }) p
  obtain ⟨hport, -⟩ := port_pumpPort (s := s.setPort p { s.port p with unsent := (s.port p).unsent ++ unsentOf m }) (p := p)
    (by simpa [setPort] using lt_of_up hup)
  rw [hset] at hport houtbox
  rw [Port.pump_of_affords hch hfirst, leaving_unsentOf] at houtbox
  have hpumped : (s.emit p m).port p = (Port.pump { s.port p with unsent := unsentOf m }).1 := hport
  refine ⟨houtbox, ?_, ?_⟩
  · have hstate : ((s.emit p m).port p).state = (s.port p).state := (congrArg Port.state hpumped).trans (Port.pump_state _)
    unfold Port.up at hup ⊢
    rwa [hstate]
  · unfold Sends
    rw [hpumped]
    exact ⟨hleft, haffords⟩

/-- Messages that a port holds the credits for leave in their order. -/
theorem foldl_emit_of_sends {ms : List Message} : ∀ {s : State}, (s.port p).up = true → Sends s p ms →
    ∃ ports dict, ms.foldl (fun s m => s.emit p m) s = { s with
      bruora := { s.bruora with ports := ports }, dict := dict, outbox := s.outbox ++ ms.map (.message p) } := by
  induction ms with
  | nil => exact fun _ _ => ⟨_, _, by rw [List.map_nil, List.append_nil, List.foldl_nil]⟩
  | cons m ms ih =>
    intro s hup hsends
    obtain ⟨houtbox, hup', hsends'⟩ := emit_sends hup hsends
    obtain ⟨ports, dict, hrest⟩ := ih hup' hsends'
    obtain ⟨_, _, _, hemit⟩ := emit_rest s p m
    rw [List.foldl_cons, hrest, houtbox, hemit]
    exact ⟨_, _, by rw [List.map_cons, List.append_assoc]; rfl⟩

/-! ### What waits for a route tries again (R313) -/

theorem answer_rest (s : State) (m : Message) : ∃ ports held dict outbox, s.answer m = { s with
    bruora := { s.bruora with ports := ports, held := held }, dict := dict, outbox := outbox } := by
  unfold answer
  split
  · obtain ⟨_, _, _, hemit⟩ := emit_rest s _ m
    exact ⟨_, _, _, _, hemit⟩
  · exact ⟨_, _, _, _, rfl⟩
  · exact ⟨_, _, _, _, rfl⟩

theorem sendHeld_rest (s : State) (dst : Nat) : ∃ ports held dict outbox, s.sendHeld dst = { s with
    bruora := { s.bruora with ports := ports, held := held }, dict := dict, outbox := outbox } := by
  unfold sendHeld
  extract_lets mine _ s1
  refine List.foldlRecOn (motive := fun t : State => ∃ ports held dict outbox, t = { s with
    bruora := { s.bruora with ports := ports, held := held }, dict := dict, outbox := outbox }) _ _ ⟨_, _, _, _, rfl⟩ fun t ht m _ => ?_
  obtain ⟨_, _, _, _, rfl⟩ := ht
  split
  · split
    · obtain ⟨_, _, _, hemit⟩ := emit_rest _ _ m
      rw [hemit]
      exact ⟨_, _, _, _, rfl⟩
    · exact ⟨_, _, _, _, rfl⟩
  · obtain ⟨_, _, _, _, hanswer⟩ := answer_rest _ m
    rw [hanswer]
    exact ⟨_, _, _, _, rfl⟩

/-! ### Links that are lost or come back (R321) -/

theorem up_of_reachable (h : s.reachable dst = some p) : (s.port p).up = true := by
  unfold reachable at h
  dsimp only at h
  split at h
  · cases h
    exact (Bool.and_eq_true_iff.1 ‹_›).2
  · split at h
    · cases h
      exact (Bool.and_eq_true_iff.1 ‹_›).2
    · cases h

theorem linkTimeout_of_reachable (h : s.reachable dst = some p) : s.linkTimeout dst = s := if_pos (by rw [h]; rfl)

/-- The state that has given up what was sent to a package. -/
def givenUp (s : State) (dst : Nat) : State :=
  { s with bruora := { s.bruora with
      sent := s.bruora.sent.filter fun m => m.msg.dst != dst, lost := s.bruora.lost.filter (· != dst),
      held := s.bruora.held.filter fun m => m.dst != dst } }

theorem linkTimeout_of_unused (h : s.reachable dst = none) (hunused : s.linkUsers dst = []) : s.linkTimeout dst = s.givenUp dst := by
  unfold linkTimeout
  rw [h, hunused]
  rfl

theorem linkTimeout_of_send (h : s.reachable dst = none) {c : Cmd} (huser : s.linkUsers dst = [c]) (hfound : s.cmd? c.q c.i = some c)
    (htransfer : c.transfer = none) (hopen : openCmd c = true) :
    s.linkTimeout dst = (s.givenUp dst).failCmd { c with sends := [] } 0x2B06 0 := by
  have hfound' : (s.givenUp dst).cmd? c.q c.i = some c := hfound
  unfold linkTimeout
  rw [h, huser]
  change (match (s.givenUp dst).cmd? c.q c.i with
    | some c => if openCmd c then (s.givenUp dst).failLink c (slotTo dst) 0x2B06 else s.givenUp dst
    | none => s.givenUp dst) = _
  rw [hfound']
  exact (if_pos hopen).trans (failLink_of_none htransfer ..)

/-- The state that has sent again, by a port, what was not acknowledged. -/
def resent (s : State) (dst p : Nat) : State :=
  { (s.bruora.sent.filter fun m => m.msg.dst == dst).foldl (fun s m => s.emit p m.msg) s with
    bruora := { ((s.bruora.sent.filter fun m => m.msg.dst == dst).foldl (fun s m => s.emit p m.msg) s).bruora with
      sent := ((s.bruora.sent.filter fun m => m.msg.dst == dst).foldl (fun s m => s.emit p m.msg) s).bruora.sent.map fun m =>
        if m.msg.dst == dst then { m with port := p } else m
      lost := ((s.bruora.sent.filter fun m => m.msg.dst == dst).foldl (fun s m => s.emit p m.msg) s).bruora.lost.filter (· != dst) } }

theorem linkBack_of_lost (h : s.reachable dst = some p) (hlost : dst ∈ s.bruora.lost) :
    s.linkBack dst = ((s.resent dst p).sendHeld dst).resumeThose fun c => (s.linkUsers dst).any fun u => u.q == c.q && u.i == c.i := by
  have hcontains : s.bruora.lost.contains dst = true := by simpa using hlost
  unfold linkBack
  rw [h]
  dsimp only
  rw [hcontains, if_neg (by simp)]
  simp only [Bool.and_true, if_true]
  rfl

theorem resent_rest (s : State) (dst p : Nat) : ∃ ports dict outbox, s.resent dst p = { s with
    bruora := { s.bruora with
      ports := ports, sent := s.bruora.sent.map fun m => if m.msg.dst == dst then { m with port := p } else m
      lost := s.bruora.lost.filter (· != dst) }
    dict := dict, outbox := outbox } := by
  have hfold : ∃ ports dict outbox, (s.bruora.sent.filter fun m => m.msg.dst == dst).foldl (fun s m => s.emit p m.msg) s =
      { s with bruora := { s.bruora with ports := ports }, dict := dict, outbox := outbox } := by
    refine List.foldlRecOn (motive := fun t : State => ∃ ports dict outbox, t =
      { s with bruora := { s.bruora with ports := ports }, dict := dict, outbox := outbox }) _ _ ⟨_, _, _, rfl⟩ fun t ht m _ => ?_
    obtain ⟨_, _, _, rfl⟩ := ht
    obtain ⟨_, _, _, hemit⟩ := emit_rest _ p m.msg
    rw [hemit]
    exact ⟨_, _, _, rfl⟩
  obtain ⟨_, _, _, hfold⟩ := hfold
  unfold resent
  rw [hfold]
  exact ⟨_, _, _, rfl⟩

theorem outbox_resent (hup : (s.port p).up = true) (hsends : Sends s p ((s.bruora.sent.filter fun m => m.msg.dst == dst).map Sent.msg)) :
    (s.resent dst p).outbox = s.outbox ++ (s.bruora.sent.filter fun m => m.msg.dst == dst).map fun m => .message p m.msg := by
  obtain ⟨_, _, hfold⟩ := foldl_emit_of_sends hup hsends
  rw [List.foldl_map] at hfold
  rw [List.map_map] at hfold
  exact (congrArg State.outbox hfold :)

/-- R321: until what was sent to a lost package has been sent again, no new message goes to it. -/
theorem sendTo_of_lost {q i d ref off len elem : Nat} {write : Bool} {segs : List (Nat × List Byte)} (hlost : refPackage ref ∈ s.bruora.lost)
    (hknown : refPackage ref < s.keptReg 0x2000 0x02 1) (hother : refPackage ref ≠ s.packageId) (hroute : s.routeByte false (refPackage ref) < 16) :
    s.sendTo q i d ref write off len segs elem = (.wait, s) := by
  have hwait : s.route (refPackage ref) = .wait := by
    unfold route
    dsimp only
    rw [if_neg (by omega), if_pos (by simpa using hlost)]
  unfold sendTo
  dsimp only
  rw [if_neg (Nat.not_le.2 hknown), if_neg hother, hwait]

end
end State

open State

/-- Settles O36: a timeout by what uses the link, a recovery by the messages that are sent again. -/
theorem links : Obligations.Links := by
  refine ⟨fun s dst => ⟨fun p hreach => ?reached, fun hlost hunused => ?unused, fun c hlost huser hfound htransfer hopen => ?fails⟩,
    fun s dst p hreach hlost hheld hsends => ?resent, fun s dst p hreach hlost hunused => ?unwaited,
    fun s dst q i d ref off len elem w segs hlost href hknown hother hroute => ?held⟩
  case reached => exact congrArg Host.Outcome.next (linkTimeout_of_reachable hreach)
  case unused => exact ⟨_, congrArg Host.Outcome.next (linkTimeout_of_unused hlost hunused), rfl, rfl⟩
  case fails =>
    have hbruora := failCmd_bruora (s.givenUp dst) { c with sends := [] } 0x2B06 0
    have hcmd := failCmd_cmd? (s := s.givenUp dst) (c := { c with sends := [] }) (Option.isSome_iff_exists.2 ⟨c, hfound⟩) 0x2B06 0
    obtain ⟨_, _, _, _, _, _, _, hfail⟩ := failCmd_eq (s.givenUp dst) { c with sends := [] } 0x2B06 0
    refine ⟨_, congrArg Host.Outcome.next (linkTimeout_of_send hlost huser hfound htransfer hopen), hcmd, fun m hm => ?_, ?_, ?_⟩
    · rw [hbruora] at hm
      obtain ⟨hsent, hother⟩ := List.mem_filter.1 hm
      exact ⟨by simpa using (List.mem_filter.1 hsent).2, fun hkey => by simp [hkey.1, hkey.2] at hother⟩
    · rw [hbruora]
      simp [withoutSent, givenUp]
    · unfold FailsAlone
      rw [hfail]
      rfl
  case resent =>
    obtain ⟨_, _, _, hrest⟩ := resent_rest s dst p
    have hnone : ∀ m ∈ (s.resent dst p).bruora.held, m.dst ≠ dst := by
      rw [hrest]
      exact hheld
    refine ⟨s.resent dst p, congrArg Host.Outcome.next ?_, outbox_resent (up_of_reachable hreach) hsends, ?_, ?_, ?_⟩
    · rw [linkBack_of_lost hreach hlost, sendHeld_of_none hnone]
    · rw [hrest]
      intro m hm hdst
      obtain ⟨x, -, rfl⟩ := List.mem_map.1 hm
      by_cases hx : (x.msg.dst == dst) = true
      · rw [if_pos hx]
      · rw [if_neg hx] at hdst
        exact absurd (beq_iff_eq.2 hdst) hx
    · rw [hrest]
      simp
    · rw [hrest]
  case unwaited =>
    obtain ⟨_, _, _, hrest⟩ := resent_rest s dst p
    obtain ⟨_, _, _, _, hsent⟩ := sendHeld_rest (s.resent dst p) dst
    have hback : s.linkBack dst = (s.resent dst p).sendHeld dst := by
      rw [linkBack_of_lost hreach hlost, hunused]
      exact resumeThose_of_none fun _ => rfl
    refine ⟨_, congrArg Host.Outcome.next hback, ?_, ?_⟩
    · rw [hsent, hrest]
      simp
    · rw [hsent, hrest]
  case held =>
    subst href
    exact sendTo_of_lost hlost hknown hother hroute

end Sys2Proof.Machine
end

section
namespace Sys2Proof.Machine
open Safety State

/-! ### Locators of units -/

/-- The package of a locator is no part of its place. -/
theorem bareLoc_fullLoc (s : State) (l : Nat) : bareLoc (s.fullLoc l) = bareLoc l := by
  unfold State.fullLoc bareLoc
  have hpackage : s.packageId % 64 < 64 := Nat.mod_lt _ (by decide)
  omega

theorem samePlace_fullLoc (s : State) (l : Nat) : samePlace (s.fullLoc l) l = true := by
  unfold samePlace
  rw [bareLoc_fullLoc, beq_self_eq_true]

/-- Units of one kind of a cluster lie in different places. -/
theorem bareLoc_unitLoc_inj {r c k i j : Nat} (hi : i < 5) (hj : j < 5) (h : bareLoc (unitLoc r c k i 0xFF) = bareLoc (unitLoc r c k j 0xFF)) :
    i = j := by
  unfold bareLoc unitLoc mkLoc boolNat at h
  simp only [if_true] at h
  omega

namespace State

/-! ### Phases of units (R356) -/

section
variable {s : State} {l x : Nat} {p : UnitPhase}

theorem phase?_setPhase (s : State) (l : Nat) (p : UnitPhase) : (s.setPhase l p).phase? l = some p := Table.find?_put_self ..

theorem phase?_setPhase_ne (h : bareLoc x ≠ bareLoc l) : (s.setPhase l p).phase? x = s.phase? x := Table.find?_put_ne h ..

theorem hostsOf_setHosts (s : State) (r c : Nat) (h : ClusterHosts) : (s.setHosts r c h).hostsOf r c = h :=
  congrArg (fun x : Option ClusterHosts => x.getD {}) (Table.find?_put_self (clusterKey r c) h s.integ.hosts)

/-! ### A rotation step (R356) -/

theorem rotate_of_tested {r c i : Nat} {g : Bool} (hr : r < 16) (hc : c < 18) (hi : i < 5)
    (hnone : ∀ j, j < 5 → s.phase? (unitLoc r c (if g then 2 else 1) j 0xFF) ≠ some .probation)
    (htested : s.phase? (unitLoc r c (if g then 2 else 1) i 0xFF) = some .tested)
    (hfirst : ∀ j, j < i → s.phase? (unitLoc r c (if g then 2 else 1) j 0xFF) ≠ some .tested) :
    s.rotate r c g = (s.setHosts r c { s.hostsOf r c with step := (s.hostsOf r c).step + boolNat (!g) }).setPhase
      (unitLoc r c (if g then 2 else 1) i 0xFF) .probation := by
  have hfound : ((List.range 5).map fun i => unitLoc r c (if g then 2 else 1) i 0xFF).find? (fun l => s.phase? l == some .tested) =
      some (unitLoc r c (if g then 2 else 1) i 0xFF) := by
    rw [List.find?_map, List.find?_range_eq_some.2 ⟨by simpa using htested, List.mem_range.2 hi, fun j hj => ?_⟩]
    · rfl
    · simpa using hfirst j hj
  have hidle : ((List.range 5).map fun i => unitLoc r c (if g then 2 else 1) i 0xFF).any (fun x => s.phase? x == some .probation) = false := by
    rw [List.any_eq_false]
    rintro _ hx
    obtain ⟨j, hj, rfl⟩ := List.mem_map.1 hx
    simpa using hnone j (List.mem_range.1 hj)
  unfold rotate
  rw [if_neg (by omega)]
  dsimp only
  rw [hfound]
  dsimp only
  rw [hidle]
  rfl

/-! ### A probation that is late (R358) -/

theorem noteDegraded_rest (s : State) : s.noteDegraded = { s with bell := s.noteDegraded.bell } := by
  unfold noteDegraded
  split <;> rfl

theorem probationLate_of_running {r c i : Nat} {g : Bool} (hi : i < 5)
    (hrunning : s.phase? (unitLoc r c (if g then 2 else 1) i 0xFF) = some .probation) : s.probationLate r c g =
      (s.setHosts r c (if g then { s.hostsOf r c with overrunGleaner := true } else { s.hostsOf r c with overrunThresher := true })).noteDegraded := by
  unfold probationLate
  refine if_pos (List.any_eq_true.2 ⟨i, List.mem_range.2 hi, ?_⟩)
  exact beq_iff_eq.2 hrunning

/-- R358: where one probation is late, so is the detection interval of the engine. -/
theorem detectMax_of_overrun {r c : Nat} {h : ClusterHosts} (hosts : s.hostsOf r c = h) (hlate : (h.overrunThresher || h.overrunGleaner) = true)
    (hknown : (Table.find? (clusterKey r c) s.integ.hosts).isSome = true) : s.detectMax = 20000 := by
  obtain ⟨x, hx⟩ := Option.isSome_iff_exists.1 hknown
  have hsomewhere : s.overrunSomewhere = true := by
    refine List.any_eq_true.2 ⟨(clusterKey r c, x), Table.mem_of_find? hx, ?_⟩
    have hx' : x = h := (congrArg (fun x : Option ClusterHosts => x.getD {}) hx).symm.trans hosts
    rw [hx']
    exact hlate
  unfold detectMax
  rw [hsomewhere, Bool.or_true]
  rfl

/-! ### What retirement and the tests write down (R14, R18, R368) -/

/-- From `s` to `t` entries and records have been added. -/
structure Records (s t : State) : Prop where
  listed : ∀ x ∈ s.listedLocs, x ∈ t.listedLocs
  seq : ∀ die, (s.ledger die).seq ≤ (t.ledger die).seq
  rest : t.besideLedger = s.besideLedger

variable {t u : State}

theorem Records.refl (s : State) : Records s s := ⟨fun _ h => h, fun _ => le_rfl, rfl⟩

theorem Records.trans (hst : Records s t) (htu : Records t u) : Records s u :=
  ⟨fun x hx => htu.listed x (hst.listed x hx), fun die => (hst.seq die).trans (htu.seq die), htu.rest.trans hst.rest⟩

theorem Records.foldl {α : Type} {f : State → α → State} (hf : ∀ s a, Records s (f s a)) (s : State) (as : List α) :
    Records s (as.foldl f s) :=
  List.foldlRecOn (motive := Records s) _ _ (.refl s) fun _ ht _ _ => ht.trans (hf ..)

/-- Records that leave the lists and the ledgers as they are. -/
theorem records_of_integ {i : Integrity} (hfield : i.field = s.integ.field) (hunrecorded : i.unrecorded = s.integ.unrecorded)
    (hledger0 : i.ledger0 = s.integ.ledger0) (hledger1 : i.ledger1 = s.integ.ledger1) : Records s { s with integ := i } where
  listed x hx := by
    unfold listedLocs at hx ⊢
    dsimp only
    rwa [hfield, hunrecorded]
  seq die := by
    unfold ledger
    dsimp only
    rw [hledger0, hledger1]
  rest := rfl

theorem Enters.records {die : Nat} {e : LedgerEntry} (h : Enters s t die e) : Records s t where
  listed x hx := by
    have hfuses : t.fuses = s.fuses := (congrArg State.fuses h.rest :)
    have hsame : (s.setLedger die (s.ledgerAfter die e)).integ.field = s.integ.field ∧
        (s.setLedger die (s.ledgerAfter die e)).integ.unrecorded = s.integ.unrecorded := by
      unfold setLedger
      split <;> exact ⟨rfl, rfl⟩
    obtain ⟨hfield, hunrecorded⟩ := hsame
    unfold listedLocs at hx ⊢
    rwa [hfuses, h.integ, hfield, hunrecorded]
  seq other := by
    by_cases hsame : die = 0 ↔ other = 0
    · have hother : (t.ledger other).seq = (s.ledger other).seq + 1 := by
        have hseq := h.seq
        unfold State.ledger at hseq ⊢
        by_cases hdie : die = 0
        · simpa [hdie, hsame.1 hdie] using hseq
        · simpa [hdie, mt hsame.2 hdie] using hseq
      omega
    · exact (congrArg Ledger.seq (h.others hsame)).ge
  rest := h.rest

theorem Tells.records (h : Tells s t) : Records s t where
  listed x hx := by
    have hfuses : t.fuses = s.fuses := (congrArg State.fuses h.rest :)
    unfold listedLocs at hx ⊢
    rwa [hfuses, h.integ]
  seq die := (congrArg Ledger.seq (ledger_of_integ h.integ die)).ge
  rest := h.rest

theorem records_ledgerWrite (s : State) (die : Nat) (e : LedgerEntry) : Records s (s.ledgerWrite die e).1 :=
  (ledgerWrite_enters s die e).records

theorem records_keptNotice (s : State) (code k : Nat) : Records s (s.keptNotice code k) :=
  .foldl (fun s die => records_ledgerWrite s die _) s _

theorem records_dict (s : State) (d : Dictionary) : Records s { s with dict := d } := ⟨fun _ h => h, fun _ => le_rfl, rfl⟩

theorem records_setWear (s : State) (k state : Nat) : Records s (s.setWear k state) :=
  (records_dict s { s.dict with wearList := if s.dict.wearList.contains k then s.dict.wearList else s.dict.wearList ++ [k] }).trans
    (tells_dayEvent ..).records

theorem records_commitNotices (s : State) (k dies : Nat) : Records s (s.commitNotices k dies) := by
  refine .foldl (fun s die => ?_) s _
  split
  · exact records_ledgerWrite s die _
  · exact .refl s

theorem records_commitKept (s : State) (k v : Nat) : Records s (s.commitKept k v) := by
  unfold commitKept
  split
  · exact .refl s
  · split
    · exact records_commitNotices ..
    · extract_lets e _ s1
      have hs1 : Records s s1 := records_dict ..
      split
      · exact hs1.trans (((tells_notify s1 3 k).records.trans (tells_interrupt ..).records).trans (records_setWear ..))
      · split
        · exact hs1.trans ((records_setWear ..).trans (records_keptNotice ..))
        · exact hs1

theorem records_unrecorded (s : State) (l : Nat) :
    Records s { s with integ := { s.integ with unrecorded := s.integ.unrecorded ++ [s.fullLoc l] } } where
  listed x hx := by
    unfold listedLocs at hx ⊢
    rw [← List.append_assoc]
    exact List.mem_append_left _ hx
  seq _ := le_rfl
  rest := rfl

theorem records_field (s : State) (l : Nat) :
    Records s { s with integ := { s.integ with field := s.integ.field ++ [s.fullLoc l] } } where
  listed x hx := by
    unfold listedLocs at hx ⊢
    simp only [List.mem_append] at hx ⊢
    tauto
  seq _ := le_rfl
  rest := rfl

/-- R18: a retirement is recorded in the field map, or enforced without it. -/
theorem recordRetired_records (s : State) (l : Nat) : Records s (s.recordRetired l) ∧ (s.recordRetired l).listedLocs.any (samePlace l) = true := by
  have hplace : samePlace l (s.fullLoc l) = true := by
    unfold samePlace
    rw [bareLoc_fullLoc, beq_self_eq_true]
  have hlists {t u : State} (hmem : s.fullLoc l ∈ t.listedLocs) (htu : Records t u) : u.listedLocs.any (samePlace l) = true :=
    List.any_eq_true.2 ⟨_, htu.listed _ hmem, hplace⟩
  have hunrecorded : s.fullLoc l ∈ ({ s with integ := { s.integ with unrecorded := s.integ.unrecorded ++ [s.fullLoc l] } } : State).listedLocs := by
    simp [listedLocs]
  have hfield : s.fullLoc l ∈ ({ s with integ := { s.integ with field := s.integ.field ++ [s.fullLoc l] } } : State).listedLocs := by
    simp [listedLocs]
  unfold recordRetired
  split
  · exact ⟨.refl s, ‹_›⟩
  · split
    · have hnotes := records_commitKept { s with integ := { s.integ with unrecorded := s.integ.unrecorded ++ [s.fullLoc l] } } (key 0x2000 0x12) 0
      exact ⟨(records_unrecorded s l).trans hnotes, hlists hunrecorded hnotes⟩
    · split
      · exact ⟨records_unrecorded s l, hlists hunrecorded (.refl _)⟩
      · split
        · have hnotes := (records_commitKept { s with integ := { s.integ with field := s.integ.field ++ [s.fullLoc l] } } (key 0x2000 0x12) 0).trans
            (records_commitKept _ (key 0x2000 0x13) 0)
          exact ⟨(records_field s l).trans hnotes, hlists hfield hnotes⟩
        · have hnotes : Records { s with integ := { s.integ with unrecorded := s.integ.unrecorded ++ [s.fullLoc l] } }
              ({ s with integ := { s.integ with unrecorded := s.integ.unrecorded ++ [s.fullLoc l] } }.unitNotice 0x2004 l) := records_ledgerWrite ..
          exact ⟨(records_unrecorded s l).trans hnotes, hlists hunrecorded hnotes⟩

/-! ### A unit leaves service (R14, R361) -/

theorem records_setHosts (s : State) (r c : Nat) (h : ClusterHosts) : Records s (s.setHosts r c h) := records_of_integ rfl rfl rfl rfl

theorem records_noteSlot (s : State) (l : Nat) : Records s (s.noteSlot l) := by
  unfold noteSlot
  dsimp only
  split
  · exact .refl s
  · exact records_of_integ rfl rfl rfl rfl

theorem records_vacate (s : State) (l : Nat) : Records s (s.vacate l) := by
  unfold vacate
  extract_lets r c s1 h free
  have hs1 : Records s s1 := by
    unfold s1
    split
    · exact records_noteSlot ..
    · exact .refl s
  split
  · exact hs1.trans (records_setHosts ..)
  · exact hs1.trans (records_setHosts ..)
  · split
    · exact hs1
    · exact hs1.trans (records_setHosts ..)
  · exact hs1

theorem records_dropPhases (s : State) (l : Nat) : Records s (s.dropPhases l) := records_of_integ rfl rfl rfl rfl

theorem records_setMap (s : State) (r : Nat) (m : List (Option Nat)) : Records s (s.setMap r m) := records_of_integ rfl rfl rfl rfl

theorem records_dropLostClusters (s : State) : Records s s.dropLostClusters := by
  refine .foldl (fun s r => ?_) s _
  extract_lets m ok keep m1 s1
  split
  · exact .refl s
  · split
    · exact records_setMap ..
    · exact (records_setMap ..).trans (records_of_integ rfl rfl rfl rfl)

theorem records_setLedger {die : Nat} {l : Ledger} (hseq : (s.ledger die).seq ≤ l.seq) : Records s (s.setLedger die l) where
  listed x hx := by
    unfold setLedger
    split <;> exact hx
  seq other := by
    unfold State.ledger at hseq
    unfold setLedger State.ledger
    by_cases hdie : die = 0
    · by_cases hother : other = 0
      · simpa [hdie, hother] using hseq
      · simp [hdie, hother]
    · by_cases hother : other = 0
      · simp [hdie, hother]
      · simpa [hdie, hother] using hseq
  rest := by
    unfold setLedger
    split <;> rfl

theorem records_closeEntries (s : State) (es : List (Nat × Nat)) (st : Nat) : Records s (s.closeEntries es st) := by
  refine .foldl (fun s die => ?_) s _
  exact records_setLedger le_rfl

theorem records_closeDomain (s : State) (d : Domain) (st : Nat) : Records s (s.closeDomain d st) :=
  (records_closeEntries s d.entries st).trans (records_of_integ rfl rfl rfl rfl)

theorem records_comeBack (s : State) : Records s s.comeBack := by
  unfold comeBack
  refine .foldl (fun s a => ?_) s _
  extract_lets busy m _ s1
  have hs1 : Records s s1 := records_of_integ rfl rfl rfl rfl
  split
  · exact .refl s
  · split
    · exact hs1.trans (records_setMap ..)
    · exact hs1

theorem records_settleDomains (s : State) : Records s s.settleDomains := by
  refine (Records.foldl (fun s d => ?_) s _).trans (records_comeBack _)
  split
  · exact .refl s
  · exact records_closeDomain ..

/-- The unit of a part is of its kind. -/
theorem locKind_containerAt (l : Nat) : locKind (containerAt 1 l) = locKind l := by
  simp only [locKind, containerAt, locSub, bits]
  omega

/-- R14: a unit that leaves service for good is listed. -/
theorem retireNow_records (s : State) {l : Nat} (hunit : locKind l = 1 ∨ locKind l = 2) : ∃ u bell, s.retireNow l = { u with bell := bell } ∧
    Records s u ∧ u.listedLocs.any (samePlace l) = true := by
  obtain ⟨hrecords, hlisted⟩ := recordRetired_records s l
  have hstays {u : State} (hu : Records (s.recordRetired l) u) : u.listedLocs.any (samePlace l) = true := by
    obtain ⟨x, hx, hplace⟩ := List.any_eq_true.1 hlisted
    exact List.any_eq_true.2 ⟨x, hu.listed x hx, hplace⟩
  have hleaves (v : State) {m : Nat} (hm : locKind m = 1 ∨ locKind m = 2) :
      ∃ u bell, (((v.vacate m).dropPhases m).partsOut m).afterUnits = { u with bell := bell } ∧ Records v u := by
    have hparts : ((v.vacate m).dropPhases m).partsOut m = (v.vacate m).dropPhases m := by
      unfold partsOut
      obtain hm | hm := hm
      · rw [hm]
        rfl
      · rw [hm]
        rfl
    rw [hparts]
    exact ⟨_, _, noteDegraded_rest _, (((records_vacate v m).trans (records_dropPhases ..)).trans (records_dropLostClusters _)).trans
      (records_settleDomains _)⟩
  unfold retireNow
  extract_lets s1 column out
  split
  · obtain ⟨u, bell, heq, hu⟩ := hleaves s1 hunit
    exact ⟨u, bell, heq, hrecords.trans hu, hstays hu⟩
  · split
    · exact ⟨s1, s1.bell, rfl, hrecords, hlisted⟩
    · rename_i hcolumn _
      have hthresher : locKind l = 1 := (by simpa [column] using hcolumn : locKind l = 1 ∧ locSub l ≠ 0xFF).1
      have hcontainer := (locKind_containerAt l).trans hthresher
      obtain ⟨u, bell, heq, hu⟩ := hleaves (s1.recordRetired (containerAt 1 l)) (.inl hcontainer)
      have hu' := (recordRetired_records s1 (containerAt 1 l)).1.trans hu
      exact ⟨u, bell, heq, hrecords.trans hu', hstays hu'⟩

/-- R14, R368: the entry of a failed self-test. -/
theorem testEntry_records (s : State) (l : Nat) : Records s (s.testEntry l) ∧ (s.ledger (locDie l)).seq < ((s.testEntry l).ledger (locDie l)).seq := by
  unfold testEntry
  extract_lets u _ e
  have henters := ledgerWrite_enters s (locDie l) e
  have hnoted : Records (s.ledgerWrite (locDie l) e).1 ((s.ledgerWrite (locDie l) e).1.noteFault (s.fullLoc l) 1 e.exposed) := by
    unfold noteFault
    exact records_of_integ rfl rfl rfl rfl
  exact ⟨henters.records.trans hnoted, (henters.seq ▸ Nat.lt_succ_self _ : _ < _).trans_le (hnoted.seq _)⟩

/-! ### Columns that are steered out (R14, R356) -/

/-- The state with one more column of a Thresher steered out. -/
def steerOut (l : Nat) (s : State) (c : Nat) : State := (s.testEntry (bareLoc l - 0xFF + c)).recordRetired (bareLoc l - 0xFF + c)

theorem foldl_steerOut (s : State) (l : Nat) (cs : List Nat) : Records s (cs.foldl (steerOut l) s) ∧
    ∀ x ∈ cs, (cs.foldl (steerOut l) s).listedLocs.any (samePlace (bareLoc l - 0xFF + x)) = true := by
  induction cs using List.reverseRecOn with
  | nil => exact ⟨.refl s, fun x hx => absurd hx List.not_mem_nil⟩
  | append_singleton cs c ih =>
    obtain ⟨hrecords, hlisted⟩ := ih
    have hentry := (testEntry_records (cs.foldl (steerOut l) s) (bareLoc l - 0xFF + c)).1
    obtain ⟨hretired, hlast⟩ := recordRetired_records ((cs.foldl (steerOut l) s).testEntry (bareLoc l - 0xFF + c)) (bareLoc l - 0xFF + c)
    have hstep : Records (cs.foldl (steerOut l) s) (steerOut l (cs.foldl (steerOut l) s) c) := hentry.trans hretired
    rw [List.foldl_append, List.foldl_cons, List.foldl_nil]
    refine ⟨hrecords.trans hstep, fun x hx => ?_⟩
    obtain hx | hx := List.mem_append.1 hx
    · obtain ⟨y, hy, hplace⟩ := List.any_eq_true.1 (hlisted x hx)
      exact List.any_eq_true.2 ⟨y, hstep.listed y hy, hplace⟩
    · rw [List.mem_singleton.1 hx]
      exact hlast

theorem eraseDups_of_nodup : ∀ {l : List Nat}, l.Nodup → l.eraseDups = l
  | [], _ => rfl
  | a :: l, h => by
    obtain ⟨ha, hl⟩ := List.nodup_cons.1 h
    have hrest : l.filter (fun b => !b == a) = l := List.filter_eq_self.2 fun b hb => by
      simpa using fun hba : b = a => ha (hba ▸ hb)
    rw [List.eraseDups_cons, hrest, eraseDups_of_nodup hl]

theorem testComplete_of_columns {cs : List Nat} (htest : s.inSelfTest l = true) (hkind : locKind l = 1) (hsome : cs ≠ [])
    (hnew : ∀ x ∈ cs, x < 67 ∧ x ∉ s.columnsOf l) (hnodup : cs.Nodup) (hroom : (s.columnsOf l).length + cs.length ≤ 2) :
    s.testComplete l (.columns cs) = (cs.foldl (steerOut l) s).setPhase l .tested := by
  have hall : ((cs.filter fun c => c < 67).eraseDups.filter fun c => !(s.columnsOf l).contains c) = cs := by
    have hcolumns : cs.filter (fun c => c < 67) = cs := List.filter_eq_self.2 fun x hx => by simpa using (hnew x hx).1
    rw [hcolumns, eraseDups_of_nodup hnodup]
    exact List.filter_eq_self.2 fun x hx => by simpa using (hnew x hx).2
  unfold testComplete
  rw [htest]
  dsimp only
  rw [hall]
  simp only [Bool.not_true, Bool.false_eq_true, if_false, hkind, bne_self_eq_false, List.isEmpty_iff, hsome, hroom, if_true]
  rfl

end
end State

open State

/-- Settles O37: by the phase that ends. -/
theorem selfTests : Obligations.SelfTests := by
  refine ⟨fun s r c i g hr hc hi hnone htested hfirst => ?rotation,
    fun s l htest hunit => ⟨fun hplaced => ?pass, ?fail, fun cs hkind hsome hnew hnodup hroom => ?columns⟩,
    fun s l hrunning => ?probation, fun s r c i g hi hrunning => ?late, fun s l => rfl⟩
  case rotation =>
    refine ⟨_, congrArg Host.Outcome.next (rotate_of_tested hr hc hi hnone htested hfirst), phase?_setPhase .., fun j hj hne => ?_, ?_, rfl⟩
    · exact phase?_setPhase_ne fun hplace => hne (bareLoc_unitLoc_inj hj hi hplace)
    · refine (hostsOf_setHosts ..).trans ?_
      cases g <;> rfl
  case pass =>
    have hpass : s.testComplete l .pass = (s.setPassed l).setPhase l .tested := by
      unfold testComplete
      rw [htest]
      change s.testPassed l = _
      unfold testPassed
      dsimp only
      exact if_pos (by simpa [hplaced] using hunit)
    exact ⟨_, congrArg Host.Outcome.next hpass, phase?_setPhase .., Table.find?_put_self .., rfl, rfl, rfl⟩
  case fail =>
    have hfail : s.testComplete l .fail = (s.testEntry l).retireNow l := by
      have hbank : isBank l = false := by
        obtain hunit | hunit := hunit <;> simp [isBank, hunit]
      unfold testComplete
      rw [htest, hbank]
      rfl
    obtain ⟨hentry, hseq⟩ := testEntry_records s l
    obtain ⟨u, bell, hretired, hu, hlisted⟩ := retireNow_records (s.testEntry l) hunit
    have hrest := eq_of_besideLedger (hentry.trans hu).rest
    refine ⟨{ u with bell := bell }, congrArg Host.Outcome.next (hfail.trans hretired), hlisted, hseq.trans_le (hu.seq _), ?_⟩
    exact congrArg (fun v : State => { v with bell := bell }) hrest
  case columns =>
    obtain ⟨hrecords, hlisted⟩ := foldl_steerOut s l cs
    have hrest := eq_of_besideLedger hrecords.rest
    refine ⟨_, congrArg Host.Outcome.next (testComplete_of_columns htest hkind hsome hnew hnodup hroom), phase?_setPhase .., hlisted, ?_⟩
    exact congrArg (fun v : State => v.setPhase l .tested) hrest
  case probation =>
    exact ⟨_, congrArg Host.Outcome.next (if_pos hrunning), phase?_setPhase .., Table.find?_put_self .., rfl, rfl⟩
  case late =>
    have hlate := probationLate_of_running hi hrunning
    rw [noteDegraded_rest] at hlate
    refine ⟨_, congrArg Host.Outcome.next hlate, ?_, hostsOf_setHosts .., rfl⟩
    have hhosts := hostsOf_setHosts s r c
      (if g then { s.hostsOf r c with overrunGleaner := true } else { s.hostsOf r c with overrunThresher := true })
    refine detectMax_of_overrun (r := r) (c := c) hhosts ?_ ?_
    · cases g <;> simp
    · exact Option.isSome_iff_exists.2 ⟨_, Table.find?_put_self ..⟩

end Sys2Proof.Machine
end

section
namespace Sys2Proof.Machine
open Safety State

/-! ### Places of locators (R10) -/

theorem bareLoc_bareLoc (l : Nat) : bareLoc (bareLoc l) = bareLoc l := by
  unfold bareLoc
  omega

theorem locDie_fullLoc (s : State) (l : Nat) : locDie (s.fullLoc l) = locDie l := by
  simp only [locDie, bits, State.fullLoc, bareLoc]
  omega

/-- The unit that a locator names or lies in has its region, cluster, kind and index. -/
theorem unit_of_fullLoc (s : State) (l : Nat) : locRegion16 (bareLoc (containerAt 1 (s.fullLoc l))) = locRegion16 l ∧
    locCluster (bareLoc (containerAt 1 (s.fullLoc l))) = locCluster l ∧ locKind (bareLoc (containerAt 1 (s.fullLoc l))) = locKind l ∧
    locIndex (bareLoc (containerAt 1 (s.fullLoc l))) = locIndex l := by
  simp only [locRegion16, locDie, locRegion, locCluster, locKind, locIndex, locSub, bits, bareLoc, containerAt, State.fullLoc]
  omega

namespace State

/-! ### A fault at unit severity, out of any domain (R354, R361) -/

section
variable {s t u : State} {l : Nat}

/-- From `u` to `t` one entry has been written, with what a fault notes. -/
structure Raises (u t : State) (die : Nat) : Prop where
  seq : (t.ledger die).seq = (u.ledger die).seq + 1
  regs : RegsBut u t [droppedKey]
  phases : t.integ.phases = u.integ.phases
  rest : t.besideLedger = u.besideLedger

theorem raises_noteFault (u : State) (die : Nat) (e : LedgerEntry) (loc exposed : Nat) :
    Raises u ((u.ledgerWrite die e).1.noteFault loc 1 exposed) die := by
  have henters := ledgerWrite_enters u die e
  have hphases : (u.ledgerWrite die e).1.integ.phases = u.integ.phases := by
    rw [henters.integ]
    unfold setLedger
    split <;> rfl
  unfold noteFault
  exact ⟨henters.seq, henters.regs, hphases, henters.rest⟩

/-- A domain that opens beside the entry. -/
theorem Raises.withDomains {die : Nat} (h : Raises u t die) (ds : List Domain) :
    Raises u { t with integ := { t.integ with domains := ds } } die := ⟨h.seq, h.regs, h.phases, h.rest⟩

theorem raiseFault_raises {code loc detail : Nat} {affected : Option (Nat × Nat)} {atUse : Bool} {act : Nat}
    (hseverity : liftSeverity (severityOf code loc atUse) loc = 1) (hfree : NoDomain s (bareLoc loc))
    (hacts : s.actOn 1 (bareLoc (containerAt 1 loc)) (code == 0x2C09) affected atUse = (u, act, false)) :
    Raises u (s.raiseFault code loc detail affected atUse) (locDie loc) := by
  obtain ⟨hdomain, hshut⟩ := hfree
  have hreopen : s.reopen (bareLoc loc) = s := by
    have hnone : s.integ.shut.find? (fun x => x.1 == s.clk && locHolds x.2.loc (bareLoc loc)) = none :=
      List.find?_eq_none.2 fun x hx => by simpa using hshut x hx
    unfold reopen
    rw [hnone]
  unfold raiseFault
  extract_lets parity sev0 s1 die box c tied shut
  have hs1 : s1 = s := by
    unfold s1
    split
    · rfl
    · exact hreopen
  have hnone : (if sev0 = 0 then none else s1.domainOf (bareLoc loc)) = none := by
    rw [hs1, hdomain, ite_self]
  have hbox : box = bareLoc (containerAt 1 loc) := congrArg (fun sev => bareLoc (containerAt sev loc)) hseverity
  rw [hnone, hs1, hbox, show sev0 = 1 from hseverity, show parity = (code == 0x2C09) from rfl, hacts]
  dsimp only
  split
  · exact raises_noteFault ..
  · rw [if_neg Bool.false_ne_true]
    exact (raises_noteFault ..).withDomains _

theorem reg_of_dict {t u : State} (h : t.dict = u.dict) (i n d : Nat) : t.reg i n d = u.reg i n d := by
  unfold reg
  rw [h]

/-! ### A unit that stops (R361) -/

/-- R13: at the boundary of its slot no command that has begun works on a unit. -/
theorem actOn_of_boundary (hboundary : s.atBoundary l = true) :
    s.actOn 1 (bareLoc l) false none false = (s.benchUnit (bareLoc l), 3, false) := by
  have hidle : ∀ c ∈ s.cmds, (openCmd c && (s.worksOn c.region c.clusters (bareLoc l) &&
      ((1 != 1) || (c.begun && c.wait != .done && (s.phase? (containerAt 1 (bareLoc l))).isNone)) || none == some (c.q, c.i))) = false := by
    intro c hc
    unfold atBoundary at hboundary
    rw [Bool.not_eq_true', List.any_eq_false] at hboundary
    have hworks : s.worksOn c.region c.clusters (bareLoc l) = s.worksOn c.region c.clusters l := by
      unfold worksOn
      rw [bareLoc_bareLoc]
    have hcmd := hboundary c hc
    rw [hworks]
    cases hbegun : c.begun && c.wait != .done
    · simp
    · rw [hbegun] at hcmd
      simp only [Bool.true_and, Bool.not_eq_true] at hcmd
      simp [hcmd]
  unfold actOn
  dsimp only
  rw [List.filter_eq_nil_iff.2 fun c hc => ne_true_of_eq_false (hidle c hc)]
  rfl

theorem vacate_rest (s : State) (l : Nat) : s.vacate l = { s with integ := (s.vacate l).integ } ∧
    (s.vacate l).listedLocs = s.listedLocs ∧ (s.vacate l).integ.ledger0 = s.integ.ledger0 ∧ (s.vacate l).integ.ledger1 = s.integ.ledger1 := by
  have hslot (u : State) (m : Nat) : u.noteSlot m = { u with integ := (u.noteSlot m).integ } ∧ (u.noteSlot m).listedLocs = u.listedLocs ∧
      (u.noteSlot m).integ.ledger0 = u.integ.ledger0 ∧ (u.noteSlot m).integ.ledger1 = u.integ.ledger1 := by
    unfold noteSlot
    dsimp only
    split <;> exact ⟨rfl, rfl, rfl, rfl⟩
  have hhosts {u : State} (hu : u = { s with integ := u.integ } ∧ u.listedLocs = s.listedLocs ∧ u.integ.ledger0 = s.integ.ledger0 ∧
      u.integ.ledger1 = s.integ.ledger1) (r c : Nat) (h : ClusterHosts) :
      u.setHosts r c h = { s with integ := (u.setHosts r c h).integ } ∧ (u.setHosts r c h).listedLocs = s.listedLocs ∧
        (u.setHosts r c h).integ.ledger0 = s.integ.ledger0 ∧ (u.setHosts r c h).integ.ledger1 = s.integ.ledger1 := by
    obtain ⟨hrest, hlisted, hledger0, hledger1⟩ := hu
    exact ⟨congrArg (fun v : State => v.setHosts r c h) hrest, hlisted, hledger0, hledger1⟩
  unfold vacate
  extract_lets r c s1 h free
  have hs1 : s1 = { s with integ := s1.integ } ∧ s1.listedLocs = s.listedLocs ∧ s1.integ.ledger0 = s.integ.ledger0 ∧
      s1.integ.ledger1 = s.integ.ledger1 := by
    unfold s1
    split
    · exact hslot ..
    · exact ⟨rfl, rfl, rfl, rfl⟩
  clear_value s1
  split
  · exact hhosts hs1 ..
  · exact hhosts hs1 ..
  · split
    · exact hs1
    · exact hhosts hs1 ..
  · exact hs1

/-- A unit of a cluster that is not listed begins its self-test. -/
theorem benchUnit_tests {m r c k i : Nat} (hr : locRegion16 m = r) (hc : locCluster m = c) (hk : locKind m = k) (hi : locIndex m = i) (hunit : k = 1 ∨ k = 2)
    (hserves : s.listed (unitLoc r c k i 0xFF) = false) :
    (s.benchUnit m).phase? (unitLoc r c k i 0xFF) = some .selfTest ∧ (∀ die, (s.benchUnit m).ledger die = s.ledger die) ∧
      s.benchUnit m = { s with integ := (s.benchUnit m).integ } := by
  obtain ⟨hrest, hlisted, hledger0, hledger1⟩ := vacate_rest s m
  have hserves' : (s.vacate m).listed (unitLoc r c k i 0xFF) = false := by
    unfold State.listed at hserves ⊢
    rwa [hlisted]
  have hbench : s.benchUnit m = (s.vacate m).sendToTest (unitLoc r c k i 0xFF) := by
    have hsub : (if k = 4 then locSub m else 0xFF) = 0xFF := if_neg (by omega)
    unfold benchUnit
    rw [hr, hc, hk, hi, hsub]
    exact if_neg (ne_true_of_eq_false hserves')
  rw [hbench]
  refine ⟨phase?_setPhase .., fun die => ?_, congrArg (fun v : State => v.sendToTest (unitLoc r c k i 0xFF)) hrest⟩
  change (s.vacate m).ledger die = s.ledger die
  unfold State.ledger
  rw [hledger0, hledger1]

theorem correctedLimit_of_few {n : Nat} (h : n ≤ s.keptReg 0x2C00 0x0A 1000) : s.correctedLimit l n = s := if_pos (by simp [h])

theorem correctedLimit_of_many {n : Nat} (h : s.keptReg 0x2C00 0x0A 1000 < n) (hok : locOk l = true) (hphys : locPhys l = true)
    (hdie : bit s.pins.dies (locDie l) = true) :
    s.correctedLimit l n = (s.bump 0x2C00 0x0D n).raiseFault 0x2C14 (s.fullLoc l) n none false := if_neg (by simp [hok, hphys, hdie, h])

/-! ### The scrub (R216, R354) -/

theorem scrub_of_memory {die n : Nat} {what : Scrubbed} {bad : List (Nat × Nat × Nat)} (hdie : bit s.pins.dies die = true) (hwhat : what ≠ .loft) :
    s.scrub die what n bad = s.bump 0x2C00 0x0D n := by
  unfold scrub
  extract_lets one s1
  rw [if_neg (by simp [hdie]), if_neg hwhat]

/-- The state with a bad row counted and marked. -/
def scrubbed (s : State) (r c row : Nat) : State :=
  (s.bump 0x2600 0x0C 1).setRow (loftKey r c row) { s.loftRow (loftKey r c row) with mark := true }

theorem scrub_of_row {n r c row : Nat} (hdie : bit s.pins.dies (r / 8) = true) (hc : c < 16) (hrow : row < 3072) :
    s.scrub (r / 8) .loft n [(r, c, row)] =
      ((s.bump 0x2C00 0x0D n).scrubbed r c row).raiseFault 0x2C09 (((s.bump 0x2C00 0x0D n).scrubbed r c row).bankLoc r c row) row none true := by
  unfold scrub
  extract_lets one s1
  rw [if_neg (by simp [hdie]), if_pos rfl, List.foldl_cons, List.foldl_nil]
  unfold one
  rw [if_neg (by simp [hc, hrow])]
  rfl

/-- The entry that tells of a bad row changes no row and neither counter. -/
theorem row_marked {x t : State} {r c row die : Nat} (h : Raises (x.scrubbed r c row) t die) :
    t.reg 0x2C00 0x0D 0 = x.reg 0x2C00 0x0D 0 ∧ t.reg 0x2600 0x0C 0 = x.reg 0x2600 0x0C 0 + 1 ∧
      t.loftRow (loftKey r c row) = { x.loftRow (loftKey r c row) with mark := true } ∧
      (∀ k, k ≠ loftKey r c row → t.loftRow k = x.loftRow k) ∧
      t = { x with loft := t.loft, integ := t.integ, dict := t.dict, obs := t.obs, outbox := t.outbox } := by
  obtain ⟨-, hregs, -, hrest⟩ := h
  have hloft : t.loft = (x.scrubbed r c row).loft := (congrArg State.loft hrest :)
  have hrows := loftRow_of_loft hloft
  refine ⟨?_, ?_, ?_, fun k hk => ?_, (eq_of_besideLedger hrest).trans ?_⟩
  · exact (reg_of_regsBut hregs (by decide) 0).trans (reg_bump_ne _ (by decide) ..)
  · exact (reg_of_regsBut hregs (by decide) 0).trans (reg_bump_self ..)
  · exact (hrows _).trans ((loftRow_setRow ..).trans (if_pos rfl))
  · exact (hrows k).trans ((loftRow_setRow ..).trans (if_neg hk))
  · rw [hloft]
    rfl

/-! ### A stopped die and its self-test (R361) -/

theorem bit_clearBit_die {x die : Nat} (hdie : die ≤ 1) :
    bit (clearBit x die) die = false ∧ bit (clearBit x die) (1 - die) = bit x (1 - die) := by
  unfold clearBit bit
  interval_cases die
  · split <;> simp at * <;> omega
  · split <;> simp at * <;> omega

/-- Its domains close, and the die serves again. -/
theorem dieTested_of_pass {die : Nat} (hdie : bit s.pins.dies die = true) (hstopped : bit s.pins.stopped die = true)
    (hfatal : bit s.pins.fatal die = false) : s.dieTested die true =
      (s.integ.domains.filter fun d => d.severity == 4 && locDie d.loc == die).foldl (fun s d => s.closeDomain d 1)
        { s with pins := { s.pins with stopped := clearBit s.pins.stopped die } } := if_neg (by simp [hdie, hstopped, hfatal])

theorem setLedger_rest (s : State) (die : Nat) (l : Ledger) : (s.setLedger die l).integ.domains = s.integ.domains ∧
    s.setLedger die l = { s with integ := (s.setLedger die l).integ } := by
  unfold setLedger
  split <;> exact ⟨rfl, rfl⟩

theorem closeEntries_rest (s : State) (es : List (Nat × Nat)) (st : Nat) :
    (s.closeEntries es st).integ.domains = s.integ.domains ∧ s.closeEntries es st = { s with integ := (s.closeEntries es st).integ } := by
  refine List.foldlRecOn (motive := fun t : State => t.integ.domains = s.integ.domains ∧ t = { s with integ := t.integ }) _ _ ⟨rfl, rfl⟩
    fun t ht die _ => ?_
  obtain ⟨hdomains, hrest⟩ := ht
  extract_lets l
  obtain ⟨hkept, hset⟩ := setLedger_rest t die { l with places := l.places.map fun p =>
    if (es.any fun e => e.1 == die && e.2 == p.2.seq) && p.2.state == 0 then (p.1, { p.2 with state := st }) else p }
  refine ⟨hkept.trans hdomains, ?_⟩
  rw [hset, hrest]

theorem closeDomain_rest (s : State) (d : Domain) (st : Nat) : s.closeDomain d st = { s with integ := (s.closeDomain d st).integ } := by
  unfold closeDomain
  rw [(closeEntries_rest ..).2]

/-- Domains that close are open no more. -/
theorem foldl_closeDomain (s : State) (ds : List Domain) (st : Nat) :
    (∀ d ∈ (ds.foldl (fun s d => s.closeDomain d st) s).integ.domains, d ∈ s.integ.domains ∧ d ∉ ds) ∧
      ds.foldl (fun s d => s.closeDomain d st) s = { s with integ := (ds.foldl (fun s d => s.closeDomain d st) s).integ } := by
  induction ds using List.reverseRecOn with
  | nil => exact ⟨fun d hd => ⟨hd, List.not_mem_nil⟩, rfl⟩
  | append_singleton ds d ih =>
    obtain ⟨hopen, hrest⟩ := ih
    obtain ⟨hdomains, hentries⟩ := closeEntries_rest (ds.foldl (fun s d => s.closeDomain d st) s) d.entries st
    rw [List.foldl_append, List.foldl_cons, List.foldl_nil]
    refine ⟨fun x hx => ?_, ?_⟩
    · obtain ⟨hmem, hne⟩ := List.mem_filter.1 (show x ∈ (State.integ ((ds.foldl (fun s d => s.closeDomain d st) s).closeEntries d.entries st)).domains.filter (· != d) from hx)
      rw [hdomains] at hmem
      obtain ⟨hbefore, hnot⟩ := hopen x hmem
      exact ⟨hbefore, by simpa [hnot] using hne⟩
    · rw [closeDomain_rest, hrest]

/-! ### An access of yard firmware outside its context (R376) -/

/-- R376: the entry of the access. -/
def yardEntry (s : State) (l : Nat) (c : Cmd) : LedgerEntry := s.faultEntry 0x2D30 0 (s.fullLoc l) false 0 2 0 (some c)

theorem yardViolation_of_serving {q i : Nat} {c : Cmd} (hfound : s.cmd? q i = some c) (hopen : openCmd c = true) (hrunning : c.wait ≠ .done)
    (hok : locOk l = true) (hphys : locPhys l = true) (hkind : locKind l = 2) (hworks : s.worksOn c.region c.clusters l = true) :
    s.yardViolation l q i = (s.ledgerWrite (locDie l) (s.yardEntry l c)).1.failCmd c 0x2D31 0 := by
  unfold yardViolation
  rw [hfound]
  exact if_neg (by simp [hopen, hrunning, hok, hphys, hkind, hworks])

end
end State

/-- Settles O40: by the row that tells of the repair. -/
theorem repairs : Obligations.Repairs := by
  refine ⟨fun s l n hfew => congrArg Host.Outcome.next (correctedLimit_of_few hfew),
    fun s l n hmany hok hphys hdie hfree hboundary hunit hserves => ?many, fun s die n what bad hdie hwhat => ?memory,
    fun s n r c row hdie hr hc hrow hfree => ?row, fun s die hlt hdie hstopped hfatal => ⟨rfl, ?tested⟩,
    fun s l q i c hfound hopen hrunning hok hphys hkind hworks => ?yard⟩
  case many =>
    obtain ⟨hregion, hcluster, hkind, hindex⟩ := unit_of_fullLoc s l
    have hacts := actOn_of_boundary (s := s.bump 0x2C00 0x0D n) (l := containerAt 1 (s.fullLoc l)) hboundary
    obtain ⟨hphase, hledger, hrest⟩ := benchUnit_tests (s := s.bump 0x2C00 0x0D n) hregion hcluster hkind hindex hunit hserves
    have hraises := raiseFault_raises (s := s.bump 0x2C00 0x0D n) (code := 0x2C14) (detail := n) rfl hfree hacts
    rw [locDie_fullLoc] at hraises
    refine ⟨_, congrArg Host.Outcome.next (correctedLimit_of_many hmany hok hphys hdie), ?_, ?_, ?_, ?_⟩
    · refine (reg_of_regsBut hraises.regs (by decide) 0).trans ?_
      exact (reg_of_dict (by rw [hrest]) ..).trans (reg_bump_self s 0x2C00 0x0D n)
    · unfold State.phase? at hphase ⊢
      rwa [hraises.phases]
    · rw [hraises.seq, hledger]
      rfl
    · refine (eq_of_besideLedger hraises.rest).trans ?_
      rw [hrest]
      rfl
  case memory => exact ⟨_, congrArg Host.Outcome.next (scrub_of_memory hdie hwhat), reg_bump_self .., regsBut_bump .., rfl⟩
  case row =>
    have hraises := raiseFault_raises (s := (s.bump 0x2C00 0x0D n).scrubbed r c row) (code := 0x2C09) (detail := row) (affected := none)
      (atUse := true) rfl hfree rfl
    have hexec : exec (.scrubSweep (r / 8) .loft n [(r, c, row)]) s = .next _ := congrArg Host.Outcome.next (scrub_of_row hdie hc hrow)
    obtain ⟨hcorrected, hcounted, hmarked, hothers, hrest⟩ := row_marked hraises
    refine ⟨_, hexec, hcorrected.trans (reg_bump_self ..), hcounted.trans (congrArg (· + 1) (reg_bump_ne _ (by decide) ..)), hmarked,
      hothers, hrest⟩
  case tested =>
    obtain ⟨hopen, hrest⟩ := foldl_closeDomain { s with pins := { s.pins with stopped := clearBit s.pins.stopped die } }
      (s.integ.domains.filter fun d => d.severity == 4 && locDie d.loc == die) 1
    obtain ⟨hclear, hkeeps⟩ := bit_clearBit_die (x := s.pins.stopped) hlt
    refine ⟨_, congrArg Host.Outcome.next (dieTested_of_pass hdie hstopped hfatal), ?_, ?_, fun d hd hclosed => ?_, ?_⟩
    · rw [hrest]
      exact hclear
    · rw [hrest]
      exact hkeeps
    · obtain ⟨hmem, hnot⟩ := hopen d hd
      exact hnot (List.mem_filter.2 ⟨hmem, by simpa using hclosed⟩)
    · rw [hrest]
  case yard =>
    obtain ⟨hcq, hci⟩ := key_of_cmd? hfound
    have henters := ledgerWrite_enters s (locDie l) (s.yardEntry l c)
    have hbefore := eq_of_besideLedger henters.rest
    have hexec : exec (.yardAccessViolation l q i) s = .next _ := congrArg Host.Outcome.next (yardViolation_of_serving hfound hopen hrunning hok hphys hkind hworks)
    have hseq := henters.seq
    have hentry := henters.entry
    generalize (s.ledgerWrite (locDie l) (s.yardEntry l c)).1 = u at hbefore hexec hseq hentry
    have hcmds (a b : Nat) : u.cmd? a b = s.cmd? a b := by rw [hbefore]; rfl
    obtain ⟨_, _, _, _, _, _, _, hfail⟩ := failCmd_eq u c 0x2D31 0
    have hinteg : (u.failCmd c 0x2D31 0).integ = u.integ := by rw [hfail]
    have hledger : (u.failCmd c 0x2D31 0).ledger (locDie l) = u.ledger (locDie l) := ledger_of_integ hinteg _
    refine ⟨_, hexec, ?_, fun a b hother => ?_, ?_, fun hfits => ?_, ?_⟩
    · rw [← hcq, ← hci]
      exact failCmd_cmd? (by rw [hcmds, hcq, hci, hfound]; rfl) ..
    · exact (failCmd_cmd?_ne u (by rwa [hcq, hci]) ..).trans (hcmds a b)
    · rw [hledger, hseq]
    · rw [hledger]
      exact ⟨_, hentry hfits, rfl, rfl, rfl, rfl⟩
    · unfold FailsAlone
      rw [hfail, hbefore]

end Sys2Proof.Machine
end

section
namespace Sys2Proof.Machine
open Safety State

/-! ### What a DICT command may write (R330, R338) -/

/-- The rows that a path without admission may write are the two of the windows. -/
def rowsClosed (index : Nat) (rows : List DictEntry) : Bool :=
  rows.all fun e => e.access == .ro || e.priv || (index == 0x2B00 && (e.sub == 9 || e.sub == 10))

theorem rowsClosed_of_dictRows {index top : Nat} {rows : List DictEntry} (h : dictRows index = some (rows, top)) :
    rowsClosed (dictFamily index).1 rows = true := by
  unfold dictRows at h
  split at h <;> rename_i hbase <;> cases h <;> rw [hbase] <;> decide

theorem dictFamily_windows {index : Nat} (h : (dictFamily index).1 = 0x2B00) : index = 0x2B00 := by
  unfold dictFamily at h
  repeat' split at h
  all_goals simp_all

/-- R330: an entry other than those of the windows is read-only or privileged. -/
theorem dictEntry?_closed {index sub : Nat} {e : DictEntry} (h : dictEntry? index sub = some e)
    (hopen : ¬(index = 0x2B00 ∧ sub = 9)) (hclose : ¬(index = 0x2B00 ∧ sub = 10)) : e.access = .ro ∨ e.priv = true := by
  have hsub := (dictEntry?_bounds h).2.2.1
  unfold dictEntry? at h
  split at h
  · cases h
  · rename_i rows top hrows
    split at h
    · cases h
      exact .inl rfl
    · have hall := List.all_eq_true.1 (rowsClosed_of_dictRows hrows) e (List.mem_of_find?_eq_some h)
      simp only [Bool.or_eq_true, Bool.and_eq_true, beq_iff_eq, hsub] at hall
      rcases hall with hall | ⟨hbase, hwindow⟩
      · exact hall
      · have hindex := dictFamily_windows hbase
        rcases hwindow with hwindow | hwindow
        · exact absurd ⟨hindex, hwindow⟩ hopen
        · exact absurd ⟨hindex, hwindow⟩ hclose

theorem lowest_of_mem {n : Nat} {cs : List Nat} (h : n ∈ cs) : ∃ m ∈ cs, lowest cs = some m := by
  induction cs generalizing n with
  | nil => cases h
  | cons c cs ih =>
    unfold lowest
    cases cs with
    | nil => exact ⟨c, List.mem_singleton_self _, rfl⟩
    | cons d ds =>
      obtain ⟨m, hm, hlow⟩ := ih (List.mem_cons_self ..)
      rw [hlow]
      refine ⟨_, ?_, rfl⟩
      split
      · exact List.mem_cons_self ..
      · exact List.mem_cons_of_mem _ hm

theorem exists_lowestAbort {a : Nat} {as : List Nat} (h : a ∈ as) : ∃ b, lowestAbort as = some b := by
  obtain ⟨m, hm, hlow⟩ := lowest_of_mem (List.mem_map_of_mem (f := fun c => c % 65536) h)
  obtain ⟨b, hb, hmod⟩ := List.mem_map.1 hm
  unfold lowestAbort
  rw [hlow]
  exact Option.isSome_iff_exists.1 (List.find?_isSome.2 ⟨b, hb, by simpa using hmod⟩)

namespace State
section
variable {s t u v : State} {c : Cmd} {k : Queue} {e : DictEntry} {a : Nat}

/-- R330: a write of a DICT command outside the windows is aborted. -/
theorem dictWrite_aborts (s : State) {c : Cmd} (hopen : ¬(c.recs.b 16 17 = 0x2B00 ∧ c.recs.b 18 18 = 9))
    (hclose : ¬(c.recs.b 16 17 = 0x2B00 ∧ c.recs.b 18 18 = 10)) : ∃ a, lowestAbort (s.accessAborts (dictRequest c) true) = some a := by
  have hsome : ∃ a, a ∈ s.accessAborts (dictRequest c) true := by
    unfold accessAborts
    cases hrow : dictEntry? (dictRequest c).index (dictRequest c).sub with
    | none =>
      cases hrows : dictRows (dictRequest c).index with
      | none => exact ⟨noObject, by simp [headerAborts, hrows]⟩
      | some x => exact ⟨noSubindex, by simp [headerAborts, hrows, hrow, cond]⟩
    | some e =>
      rcases dictEntry?_closed hrow hopen hclose with hro | hpriv
      · exact ⟨readOnly, by simp [hro, cond]⟩
      · exact ⟨privileged, by simp [hpriv, cond, admitted, dictRequest]⟩
  obtain ⟨a, ha⟩ := hsome
  exact exists_lowestAbort ha

/-! ### The attempts of a DICT command (R336, R339) -/

theorem attempt_dict (hcls : c.recs.cls = 15) (hrun : v.mayRun c = true) (hbreak : v.breakHolds c = false) :
    v.attempt c = if v.dictTurn c then v.attemptDict c else v.setCmd { c with wait := .dictionary } := by
  unfold attempt
  rw [hrun, hbreak, hcls]
  rfl

theorem attemptDict_of_abort {write : Bool} (hwrite : (c.recs.b 19 19 == 1) = write)
    (ha : lowestAbort (v.accessAborts (dictRequest c) write) = some a) :
    v.attemptDict c = (v.bump 0x1010 0x05 1).dictAbort c (dictRequest c) a := by
  unfold attemptDict
  extract_lets req w buf s0
  rw [show w = write from hwrite, show req = dictRequest c from rfl, ha]

theorem attemptDict_of_read (hread : c.recs.b 19 19 = 0) (hnone : lowestAbort (v.accessAborts (dictRequest c) false) = none)
    (hentry : dictEntry? (dictRequest c).index (dictRequest c).sub = some e)
    (hclear : Clear v c [{ va := c.recs.b 24 31, len := (v.readBytes (dictRequest c) e).length, kind := 1 }]) :
    v.attemptDict c = (((v.noteAll c.region c.pasid [{ va := c.recs.b 24 31, len := (v.readBytes (dictRequest c) e).length, kind := 1 }]).bump
      0x1010 0x05 1).writeVA c.region c.pasid (c.recs.b 24 31) 1 (v.readBytes (dictRequest c) e)).setCmd
        { c with wait := .done, detail := (v.readBytes (dictRequest c) e).length } := by
  unfold attemptDict
  extract_lets req w buf s0
  have hw : w = false := by simp [w, hread]
  rw [hw, show req = dictRequest c from rfl, hnone, hentry]
  dsimp only
  rw [if_neg Bool.false_ne_true]
  exact withAccess_of_clear hclear _

theorem attemptDict_of_window {n : Nat} (hwrite : c.recs.b 19 19 = 1) (hnone : lowestAbort (v.accessAborts (dictRequest c) true) = none)
    (hentry : dictEntry? (dictRequest c).index (dictRequest c).sub = some e) (hlen : e.len = n)
    (hclear : Clear v c [{ va := c.recs.b 24 31, len := n, kind := 0 }]) :
    v.attemptDict c =
      if (dictRequest c).sub = 0x09 then
        ((v.noteAll c.region c.pasid [{ va := c.recs.b 24 31, len := n, kind := 0 }]).bump 0x1010 0x05 1).openWindow c (dictRequest c)
          (v.readVA c.region c.pasid (c.recs.b 24 31) n)
      else ((v.noteAll c.region c.pasid [{ va := c.recs.b 24 31, len := n, kind := 0 }]).bump 0x1010 0x05 1).closeWindow c (dictRequest c)
          (leNat (v.readVA c.region c.pasid (c.recs.b 24 31) n)) := by
  subst hlen
  unfold attemptDict
  extract_lets req w buf s0
  have hw : w = true := by simp [w, hwrite]
  rw [hw, show req = dictRequest c from rfl, hnone, hentry]
  dsimp only
  rw [if_pos rfl]
  exact withAccess_of_clear hclear _

/-- R339: an aborted command fails alone. -/
theorem dictAbort_failsAlone {r : Request} (hfound : v.cmd? c.q c.i = some c) :
    ((v.bump 0x1010 0x05 1).dictAbort c r a).cmd? c.q c.i =
        some { c with status := if a % 65536 = 0x100A then a / 65536 else a % 65536, detail := a, wait := .done } ∧
      FailsAlone v ((v.bump 0x1010 0x05 1).dictAbort c r a) := by
  unfold dictAbort
  have hcounted : ∃ dict, (v.bump 0x1010 0x05 1).countAbort r a = { v with dict := dict } := ⟨_, rfl⟩
  obtain ⟨dict, hcounted⟩ := hcounted
  rw [hcounted]
  refine ⟨failCmd_cmd? (s := { v with dict := dict }) ((congrArg Option.isSome hfound).trans rfl) .., ?_⟩
  obtain ⟨_, _, _, _, _, _, _, hfail⟩ := failCmd_eq { v with dict := dict } c (if a % 65536 = 0x100A then a / 65536 else a % 65536) a
  unfold FailsAlone
  rw [hfail]

/-! ### Writes of task memory -/

theorem writeVA_rest (s : State) (port pasid va access : Nat) (bs : List Byte) : ∃ devMem hostMem poisoned,
    s.writeVA port pasid va access bs = { s with devMem := devMem, hostMem := hostMem, poisoned := poisoned } := by
  refine List.foldlRecOn (motive := fun t : State => ∃ devMem hostMem poisoned,
    t = { s with devMem := devMem, hostMem := hostMem, poisoned := poisoned }) _ _ ⟨_, _, _, rfl⟩ fun t ht p _ => ?_
  obtain ⟨_, _, _, rfl⟩ := ht
  split
  · unfold physWrite
    split <;> exact ⟨_, _, _, rfl⟩
  · exact ⟨_, _, _, rfl⟩

/-! ### Windows open and close (R316, R317, R320) -/

theorem reachAll_bump (s : State) (i n x port pasid : Nat) (as : List Access) :
    (s.bump i n x).reachAll port pasid as = s.reachAll port pasid as := by
  induction as with
  | nil => rfl
  | cons a as ih =>
    unfold reachAll
    rw [ih]
    rfl

theorem openWindow_of_free {r : Request} {b : List Byte} (hqueue : s.queue? c.q = some k)
    (hcodes : lowest (s.windowOpenCodes k (WindowRecord.ofBytes b)) = none)
    (hreach : s.reachAll c.region c.pasid (windowAccesses (WindowRecord.ofBytes b)) = none) :
    s.openWindow c r b = (s.addWindow c.q k (WindowRecord.ofBytes b)).setCmd { c with wait := .done, detail := 32 } := by
  unfold openWindow
  dsimp only
  rw [hqueue]
  dsimp only
  rw [hcodes]
  dsimp only
  rw [hreach]

/-- R320: a window that no code refuses has a partition. -/
theorem part_of_noCode {w : WindowRecord} (h : lowest (s.windowOpenCodes k w) = none) : ∃ e, k.part = some e := by
  cases hpart : k.part with
  | some e => exact ⟨e, rfl⟩
  | none =>
    have hmem : 0x2B13 ∈ s.windowOpenCodes k w := by simp [windowOpenCodes, windowMalformed, hpart, cond]
    obtain ⟨m, -, hm⟩ := lowest_of_mem hmem
    rw [h] at hm
    cases hm

/-- What reading the buffer of a window order leaves. -/
theorem noted_eq (v : State) (port pasid : Nat) (as : List Access) : ∃ trans barn dict obs,
    (v.noteAll port pasid as).bump 0x1010 0x05 1 = { v with trans := trans, barn := barn, dict := dict, obs := obs } :=
  eq_of_besideAccess ((bump_besideAccess ..).trans (noteAll_besideAccess ..))

/-- A count changes no view of task memory. -/
theorem bumped_view (s : State) : SameView s (s.bump 0x1010 0x05 1) := ⟨rfl, rfl, rfl, rfl, rfl⟩

/-- R316, R317: the window stands, and its partition is pinned. -/
theorem addWindow_opens (s : State) (c d : Cmd) {e : Nat} (w : WindowRecord) (hpart : k.part = some e) (hpasid : k.pasid = c.pasid) :
    ∃ x, ((s.addWindow c.q k w).setCmd d).bruora.windows = s.bruora.windows ++ [x] ∧ x.id = w.id ∧ x.pasid = c.pasid ∧ x.q = c.q ∧
      x.memory = w.memory ∧ x.read = w.read ∧ x.write = w.write ∧ x.counter = w.counter ∧ x.base = w.base ∧ x.size = w.size ∧
      x.peers = w.peers ∧ x.region = k.region ∧ x.part = e ∧ (((s.addWindow c.q k w).setCmd d).part k.region e).pinned = true ∧
      (s.addWindow c.q k w).setCmd d = { s with
        cmds := (s.setCmd d).cmds, loft := ((s.addWindow c.q k w).setCmd d).loft, bruora := ((s.addWindow c.q k w).setCmd d).bruora } := by
  have hopened : (s.addWindow c.q k w).part k.region e = { s.part k.region e with pinned := true } := by
    unfold addWindow
    rw [hpart]
    exact part_setPart_self ..
  refine ⟨_, rfl, rfl, hpasid, rfl, rfl, rfl, rfl, rfl, rfl, rfl, rfl, rfl, ?_, ?_, rfl⟩
  · rw [hpart]
    rfl
  · exact congrArg Partition.pinned hopened

/-- R319, R320: the window is gone, and its partition is free once no window is open on it. -/
theorem dropWindow_closes {id : Nat} {x : Window}
    (hfound : s.bruora.windows.find? (fun w => w.id == id && w.pasid == c.pasid) = some x) : ∃ t, s.dropWindow c.pasid id = some t ∧
      t.bruora.windows = s.bruora.windows.filter (fun w => w.id != x.id) ∧
      ((∀ w ∈ s.bruora.windows, w.id ≠ x.id → ¬(w.region = x.region ∧ w.part = x.part)) → (t.part x.region x.part).pinned = false) ∧
      t = { s with loft := t.loft, bruora := t.bruora } := by
  have hid : x.id = id := by
    have hmatch := List.find?_some hfound
    simp only [Bool.and_eq_true, beq_iff_eq] at hmatch
    exact hmatch.1
  subst hid
  unfold dropWindow
  rw [hfound]
  refine ⟨_, rfl, ?_⟩
  dsimp only
  split
  · rename_i hshared
    refine ⟨rfl, fun hlast => ?_, rfl⟩
    obtain ⟨w, hw, hsame⟩ := List.any_eq_true.1 hshared
    obtain ⟨hmem, hne⟩ := List.mem_filter.1 hw
    exact absurd (by simpa using hsame) (hlast w hmem (by simpa using hne))
  · exact ⟨rfl, fun _ => congrArg Partition.pinned (part_setPart_self ..), rfl⟩

theorem windowAccesses_reached {w : WindowRecord} {port pasid : Nat}
    (h : w.memory = true → s.reachAll port pasid ((if w.read then [{ va := w.base, len := w.size, kind := 0 }] else []) ++
      (if w.write then [{ va := w.base, len := w.size, kind := 1 }] else [])) = none) :
    s.reachAll port pasid (windowAccesses w) = none := by
  unfold windowAccesses
  cases hmemory : w.memory with
  | false => rfl
  | true => exact h hmemory

theorem closeWindow_of_drop {r : Request} {id : Nat} (h : s.dropWindow c.pasid id = some t) :
    s.closeWindow c r id = t.setCmd { c with wait := .done, detail := 2 } := by
  unfold closeWindow
  rw [h]

end
end State

/-! ### The rows of DICT (R330) -/

section
variable {s v : State} {q : Nat} {c : Cmd}

/-- A row tells a command by its descriptor. -/
theorem takes_desc {row : Instr} {takes : Recs → Bool} (h : (row, takes) ∈ rowOf q) (r : Recs) : takes { desc := r.desc } = takes r := by
  unfold rowOf at h
  fin_cases h
  all_goals rfl

/-- R270: each row of DICT lets its form begin its work. -/
theorem exec_dictRow (h : Issues s q v c) {row : Instr} {form : Nat} (hrow : (row, takesForm 15 3 form dictRow) ∈ rowOf q)
    (hcls : c.recs.cls = 15) (hform : dictRow c.recs = form) :
    exec row s = .next (if v.dictTurn c then v.attemptDict c else v.setCmd { c with wait := .dictionary }) := by
  obtain ⟨hrun, hbreak⟩ := h.mayWork
  rw [exec_row hrow, h.issueNext_eq, attempt_dict hcls hrun hbreak]
  rw [takes_desc hrow]
  simp [takesForm, hcls, hform]

theorem write_of_dictRow {r : Recs} {form : Nat} (h : dictRow r = form) (hfirst : form = 1 ∨ form = 2 ∨ form = 3) : r.b 19 19 = 1 := by
  unfold dictRow at h
  split at h
  · omega
  · split at h <;> omega

theorem read_of_dictRow {r : Recs} (h : dictRow r = 0) : r.b 19 19 = 0 := by
  unfold dictRow at h
  repeat' split at h
  all_goals omega

theorem open_of_dictRow {r : Recs} (h : dictRow r = 2) : r.b 16 17 = 0x2B00 ∧ r.b 18 18 = 9 := by
  unfold dictRow at h
  repeat' split at h
  all_goals omega

theorem close_of_dictRow {r : Recs} (h : dictRow r = 3) : r.b 16 17 = 0x2B00 ∧ r.b 18 18 = 10 := by
  unfold dictRow at h
  repeat' split at h
  all_goals omega

theorem other_of_dictRow {r : Recs} (h : dictRow r = 1) :
    ¬(r.b 16 17 = 0x2B00 ∧ r.b 18 18 = 9) ∧ ¬(r.b 16 17 = 0x2B00 ∧ r.b 18 18 = 10) := by
  unfold dictRow at h
  repeat' split at h
  all_goals omega

/-- Its queue stands, with the command's task. -/
theorem pasid_of_issues {k : Queue} (h : Issues s q v c) (hqueue : v.queue? q = some k) : k.pasid = c.pasid := by
  have hissues := h
  obtain ⟨k0, _, _, _, hacc, -⟩ := h
  obtain ⟨left, hserved⟩ := (Safety.Issues.issueOf hissues hacc.bound).queue
  obtain rfl := Option.some.inj (hserved.symm.trans hqueue)
  exact ((Safety.Issues.fetched hissues hacc.bound).2.pasid).symm

end

/-- Settles O58: by the form of the command, through what its attempt does. -/
theorem dictCommands : Obligations.DictCommands := by
  intro s v q c hissues hcls
  obtain ⟨rfl, -, -, hfound⟩ := hissues.begins
  obtain ⟨hrun, hbreak⟩ := hissues.mayWork
  refine ⟨fun x hx htakes hturn => ?waits, fun hturn => ⟨fun e b hform hnone hentry hb hclear => ?read,
    fun a hform ha => ?readAborts, fun hform => ?writeAborts, fun b w k u hform hnone hclear hb hw hqueue hcodes hu hreach => ?opens,
    fun x hform hnone hclear hx => ?closes⟩⟩
  case waits =>
    have hexec : exec x.1 s = .next (v.setCmd { c with wait := .dictionary }) := by
      rw [exec_row hx, hissues.issueNext_eq ((takes_desc hx c.recs).trans htakes), attempt_dict hcls hrun hbreak, hturn]
      rfl
    exact ⟨_, hexec, cmd?_of_setCmd_cmds hfound rfl rfl rfl, rfl⟩
  case read =>
    subst hb
    have hexec := exec_dictRow hissues (row := .dictRead c.q) (by simp [rowOf]) hcls hform
    rw [hturn, if_pos rfl, attemptDict_of_read (read_of_dictRow hform) hnone hentry hclear] at hexec
    obtain ⟨trans, barn, dict, obs, hnoted⟩ := noted_eq v c.region c.pasid
      [{ va := c.recs.b 24 31, len := (v.readBytes (dictRequest c) e).length, kind := 1 }]
    have hview := SameView.writeVA (bumped_view (v.noteAll c.region c.pasid
      [{ va := c.recs.b 24 31, len := (v.readBytes (dictRequest c) e).length, kind := 1 }])) c.region c.pasid (c.recs.b 24 31) 1
        (v.readBytes (dictRequest c) e)
    rw [hnoted] at hexec hview
    obtain ⟨devMem, hostMem, poisoned, hwrite⟩ := writeVA_rest { v with trans := trans, barn := barn, dict := dict, obs := obs }
      c.region c.pasid (c.recs.b 24 31) 1 (v.readBytes (dictRequest c) e)
    obtain ⟨hdev, hhost, -, -, -⟩ := hview
    rw [hwrite] at hexec hdev hhost
    exact ⟨_, hexec, cmd?_of_setCmd_cmds hfound rfl rfl rfl, hdev, hhost, rfl⟩
  case readAborts =>
    have hexec := exec_dictRow hissues (row := .dictRead c.q) (by simp [rowOf]) hcls hform
    rw [hturn, if_pos rfl, attemptDict_of_abort (by simp [read_of_dictRow hform]) ha] at hexec
    exact ⟨_, hexec, dictAbort_failsAlone hfound⟩
  case writeAborts =>
    obtain ⟨hopen, hclose⟩ := other_of_dictRow hform
    obtain ⟨a, ha⟩ := dictWrite_aborts v hopen hclose
    have hexec := exec_dictRow hissues (row := .dictWrite c.q) (by simp [rowOf]) hcls hform
    rw [hturn, if_pos rfl, attemptDict_of_abort (by simp [write_of_dictRow hform]) ha] at hexec
    exact ⟨_, a, hexec, ha, dictAbort_failsAlone hfound⟩
  case opens =>
    subst hb hw hu
    obtain ⟨hindex, hsub⟩ := open_of_dictRow hform
    have hentry : dictEntry? (dictRequest c).index (dictRequest c).sub = some ⟨0x09, 8, 32, .wo, false, false, 0⟩ := by
      rw [show (dictRequest c).index = 0x2B00 from hindex, show (dictRequest c).sub = 9 from hsub]
      rfl
    have hexec := exec_dictRow hissues (row := .windowOpen c.q) (by simp [rowOf]) hcls hform
    rw [hturn, if_pos rfl, attemptDict_of_window (write_of_dictRow hform (by simp)) hnone hentry (n := 32) rfl hclear, if_pos (show (dictRequest c).sub = 9 from hsub)] at hexec
    have hreached := windowAccesses_reached hreach
    obtain ⟨trans, barn, dict, obs, hnoted⟩ := noted_eq v c.region c.pasid [{ va := c.recs.b 24 31, len := 32, kind := 0 }]
    rw [← reachAll_bump _ 0x1010 0x05 1] at hreached
    rw [hnoted] at hexec hreached
    rw [openWindow_of_free (s := { v with trans := trans, barn := barn, dict := dict, obs := obs }) hqueue hcodes hreached] at hexec
    obtain ⟨e, hpart⟩ := part_of_noCode hcodes
    obtain ⟨x, hwindows, hid, hpasid, hxq, hmemory, hread, hwrite, hcounter, hbase, hsize, hpeers, hregion, hxpart, hpinned, hrest⟩ :=
      addWindow_opens { v with trans := trans, barn := barn, dict := dict, obs := obs } c { c with wait := .done, detail := 32 }
        (WindowRecord.ofBytes (v.readVA c.region c.pasid (c.recs.b 24 31) 32)) hpart (pasid_of_issues hissues hqueue)
    refine ⟨_, x, e, hexec, cmd?_of_setCmd_cmds hfound ?_ rfl rfl, hwindows, hid, hpasid, hxq, hmemory, hread, hwrite, hcounter, hbase,
      hsize, hpeers, hpart, hregion, hxpart, hpinned, ?_⟩
    · rfl
    · exact hrest
  case closes =>
    obtain ⟨hindex, hsub⟩ := close_of_dictRow hform
    have hentry : dictEntry? (dictRequest c).index (dictRequest c).sub = some ⟨0x0A, 3, 2, .wo, false, false, 0⟩ := by
      rw [show (dictRequest c).index = 0x2B00 from hindex, show (dictRequest c).sub = 10 from hsub]
      rfl
    have hexec := exec_dictRow hissues (row := .windowClose c.q) (by simp [rowOf]) hcls hform
    rw [hturn, if_pos rfl, attemptDict_of_window (write_of_dictRow hform (by simp)) hnone hentry (n := 2) rfl hclear,
      if_neg (by rw [show (dictRequest c).sub = 10 from hsub]; decide)] at hexec
    obtain ⟨trans, barn, dict, obs, hnoted⟩ := noted_eq v c.region c.pasid [{ va := c.recs.b 24 31, len := 2, kind := 0 }]
    rw [hnoted] at hexec
    obtain ⟨t, hdrop, hwindows, hfree, hrest⟩ :=
      dropWindow_closes (s := { v with trans := trans, barn := barn, dict := dict, obs := obs }) hx
    rw [closeWindow_of_drop hdrop] at hexec
    refine ⟨_, hexec, cmd?_of_setCmd_cmds hfound ?_ rfl rfl, hwindows, hfree, ?_⟩
    · rw [hrest]
      rfl
    · rw [hrest]
      rfl

end Sys2Proof.Machine
end

section
namespace Sys2Proof.Machine
open Safety State

/-! ### The Daybook port (R405) -/

/-- The first even data block from a block on. -/
theorem pairFrom_eq {m p : Nat} (heven : p % 2 = 0) (hdata : 4 ≤ p % 65536) (hle : m ≤ p)
    (hfirst : ∀ n, n % 2 = 0 → 4 ≤ n % 65536 → m ≤ n → p ≤ n) : pairFrom m = p := by
  have hspec : pairFrom m % 2 = 0 ∧ 4 ≤ pairFrom m % 65536 ∧ m ≤ pairFrom m ∧
      (pairFrom m = m + m % 2 ∨ (m + m % 2) % 65536 < 4 ∧ pairFrom m = (m + m % 2) - (m + m % 2) % 65536 + 4) := by
    unfold pairFrom isMarker
    dsimp only
    split
    · rename_i hmarker
      rw [decide_eq_true_eq] at hmarker
      omega
    · rename_i hmarker
      rw [decide_eq_true_eq] at hmarker
      omega
  obtain ⟨heven', hdata', hle', hwhere⟩ := hspec
  have hlow := hfirst _ heven' hdata' hle'
  omega

theorem le_pairFrom (m : Nat) : m ≤ pairFrom m := by
  unfold pairFrom isMarker
  dsimp only
  split
  · rename_i hmarker
    rw [decide_eq_true_eq] at hmarker
    omega
  · omega

namespace State

theorem DayRun.deal_of_limit {r : DayRun} {limit : Nat} (h : limit ≤ pairFrom r.port.next) : r.deal limit = r := by
  unfold DayRun.deal
  exact if_pos h

/-- The state of the port once it has sent an event of a die. -/
def DayRun.afterEvent (r : DayRun) (die x : Nat) : DayRun :=
  { r with
    port := { r.port with next := pairFrom r.port.next + 2, turn := 1 - die }, out := r.out ++ eventBlocks (pairFrom r.port.next) x,
    events0 := if die = 0 then r.events0.tail else r.events0, events1 := if die = 1 then r.events1.tail else r.events1 }

/-- R404: the oldest event of a die leaves, in turn where both dies hold one. -/
theorem DayRun.deal_eq {r : DayRun} {limit die x : Nat} (hroom : pairFrom r.port.next < limit)
    (hturn : (die = 0 ∧ r.events0.head? = some x ∧ (r.events1 = [] ∨ r.port.turn = 0)) ∨
      (die = 1 ∧ r.events1.head? = some x ∧ (r.events0 = [] ∨ r.port.turn ≠ 0))) : r.deal limit = r.afterEvent die x := by
  unfold DayRun.deal
  extract_lets p port take
  rw [if_neg (Nat.not_le.2 hroom)]
  rcases hturn with ⟨rfl, hhead, hother⟩ | ⟨rfl, hhead, hother⟩
  · obtain ⟨es, h0⟩ := List.head?_eq_some_iff.1 hhead
    cases h1 : r.events1 with
    | nil => simp [h0, h1, DayRun.afterEvent, take, p, port]
    | cons f fs =>
      have hzero : r.port.turn = 0 := hother.resolve_left (by simp [h1])
      simp [h0, h1, hzero, DayRun.afterEvent, take, p, port]
  · obtain ⟨fs, h1⟩ := List.head?_eq_some_iff.1 hhead
    cases h0 : r.events0 with
    | nil => simp [h0, h1, DayRun.afterEvent, take, p, port]
    | cons e es =>
      have hone : r.port.turn ≠ 0 := hother.resolve_left (by simp [h0])
      simp [h0, h1, hone, DayRun.afterEvent, take, p, port]

theorem DayRun.foldl_deal_of_limit {r : DayRun} {limit : Nat} (h : limit ≤ pairFrom r.port.next) (l : List Nat) :
    l.foldl (fun r _ => r.deal limit) r = r :=
  List.foldlRecOn (motive := fun t : DayRun => t = r) _ _ rfl fun _ ht _ _ => by
    rw [ht, DayRun.deal_of_limit h]

/-- The port before its first event of a clk. -/
def dayStart (s : State) (n : Nat) : DayRun :=
  { port := { s.obs.dayPort with
      blocks := s.obs.dayPort.blocks + (s.obs.dayPort.frac + 35 * n) / 33, frac := (s.obs.dayPort.frac + 35 * n) % 33,
      next := max s.obs.dayPort.next s.obs.dayPort.blocks },
    events0 := s.obs.daybook0.events, events1 := s.obs.daybook1.events }

/-- R405: in one clk no more than one event leaves. -/
theorem dayRun_one {s : State} {die x p : Nat} (hready : s.pins.state = .ready) (hon : s.keptReg 0x2E00 0x0C 0 = 1)
    (hturn : (die = 0 ∧ s.obs.daybook0.events.head? = some x ∧ (s.obs.daybook1.events = [] ∨ s.obs.dayPort.turn = 0)) ∨
      (die = 1 ∧ s.obs.daybook1.events.head? = some x ∧ (s.obs.daybook0.events = [] ∨ s.obs.dayPort.turn ≠ 0)))
    (hp : pairFrom (max s.obs.dayPort.next s.obs.dayPort.blocks) = p) (hfrac : s.obs.dayPort.frac < 33)
    (hroom : p < s.obs.dayPort.blocks + (s.obs.dayPort.frac + 35) / 33) : s.dayRun 1 = (s.dayStart 1).afterEvent die x := by
  unfold State.dayRun
  extract_lets y limit r
  rw [if_neg (by simp [hready, hon])]
  have hdeal : r.deal limit = (s.dayStart 1).afterEvent die x :=
    DayRun.deal_eq (r := r) (by rw [show pairFrom r.port.next = p from hp]; exact hroom) hturn
  have hsome : ∃ n, s.obs.daybook0.events.length + s.obs.daybook1.events.length = n + 1 := by
    refine Nat.exists_eq_add_one_of_ne_zero fun hzero => ?_
    obtain ⟨h0, h1⟩ : s.obs.daybook0.events = [] ∧ s.obs.daybook1.events = [] := by simpa using hzero
    simp [h0, h1] at hturn
  obtain ⟨n, hn⟩ := hsome
  rw [show r.events0.length + r.events1.length = n + 1 from hn, List.range_succ_eq_map, List.foldl_cons, hdeal]
  refine DayRun.foldl_deal_of_limit ?_ _
  have hnext := le_pairFrom (p + 2)
  have hbefore := le_pairFrom (max s.obs.dayPort.next s.obs.dayPort.blocks)
  rw [hp] at hbefore
  change s.obs.dayPort.blocks + (s.obs.dayPort.frac + 35 * 1) / 33 ≤ pairFrom (pairFrom (max s.obs.dayPort.next s.obs.dayPort.blocks) + 2)
  rw [hp]
  omega

section
variable {s : State}

/-! ### Events put in a buffer (R404) -/

theorem dayEvent_rest (s : State) (die place region cluster kind payload : Nat) : ∃ d0 d1 dict,
    s.dayEvent die place region cluster kind payload = { s with obs := { s.obs with daybook0 := d0, daybook1 := d1 }, dict := dict } := by
  unfold dayEvent setDaybook
  dsimp only
  repeat' split
  all_goals exact ⟨_, _, _, rfl⟩

theorem daybook_setDaybook (s : State) {die : Nat} (hdie : die ≤ 1) (b : DaybookBuffer) :
    (s.setDaybook die b).daybook die = b ∧ (s.setDaybook die b).daybook (1 - die) = s.daybook (1 - die) := by
  interval_cases die <;> exact ⟨rfl, rfl⟩

/-- A sync that has room takes its place. -/
theorem daySync_eq {die : Nat} (hdie : die ≤ 1) (hformed : s.eventFormed 1 = true) (hlost : (s.daybook die).lost = false)
    (hroom : (s.daybook die).events.length < 16384) : s.daySync die = s.setDaybook die { s.daybook die with
      events := (s.daybook die).events ++ [eventWord (s.reel die) die 0 0 0 1 (s.reel die) false], lastSync := s.reel die } := by
  have hevent : s.dayEvent die 0 0 0 1 (s.reel die) = s.setDaybook die { s.daybook die with
      events := (s.daybook die).events ++ [eventWord (s.reel die) die 0 0 0 1 (s.reel die) false] } := by
    unfold dayEvent
    extract_lets b now room need sync
    rw [if_neg (by simp [hformed]), if_pos (by simp [room, need, traceKind, b, hlost]; omega)]
    simp only [b, sync, hlost, now, Bool.false_eq_true, if_false, List.append_nil]
  unfold daySync
  rw [hevent]
  dsimp only
  rw [(daybook_setDaybook s hdie _).1]
  interval_cases die <;> rfl

theorem syncDue_of_due {die dt : Nat} (hformed : (s.elapse dt).eventFormed 1 = true)
    (hdue : ((s.elapse dt).daybook die).lastSync + 1000000 ≤ (s.elapse dt).reel die) : s.syncDue die dt = (s.elapse dt).daySync die :=
  if_pos (by simp [hformed, hdue])

/-! ### A die takes its part of a freeze (R399) -/

theorem freezeOn_early {die dt time mask : Nat} (hdue : s.obs.due = some (time, mask)) (hearly : (s.elapse dt).reel die < time) :
    s.freezeOn die dt = s := by
  unfold freezeOn
  extract_lets s1
  rw [show s1.obs.due = some (time, mask) from hdue]
  exact if_pos (by simp [s1, hearly])

theorem freezeOn_part {die dt time mask : Nat} (hdue : s.obs.due = some (time, mask)) (hmask : bit mask die = true)
    (hreached : time ≤ (s.elapse dt).reel die) (hothers : mask ≠ 2 ^ die) :
    s.freezeOn die dt = { s.elapse dt with obs := { (s.elapse dt).obs with due := some (time, mask - 2 ^ die) } } := by
  have hle : 2 ^ die ≤ mask := by
    refine Nat.le_of_not_lt fun hlt => ?_
    simp [bit, Nat.div_eq_of_lt hlt] at hmask
  unfold freezeOn
  extract_lets s1
  rw [show s1.obs.due = some (time, mask) from hdue]
  dsimp only
  rw [if_neg (by simp [hmask, s1, hreached]), if_pos (by rw [bne_iff_ne]; omega)]

theorem freezeOn_last {die dt time : Nat} (hdue : s.obs.due = some (time, 2 ^ die)) (hmask : bit (2 ^ die) die = true)
    (hreached : time ≤ (s.elapse dt).reel die) : s.freezeOn die dt =
      { s.elapse dt with obs := { (s.elapse dt).obs with
        due := none, frozen := true, freezeTime := time, snapshot := (s.elapse dt).snapshotAll, snapshotTasks := s.obs.tasks } }.dayEvent
          (s.elapse dt).noticeDie 0 0 0 9 time := by
  unfold freezeOn
  extract_lets s1
  rw [show s1.obs.due = some (time, 2 ^ die) from hdue]
  dsimp only
  rw [if_neg (by simp [hmask, s1, hreached]), if_neg (by simp)]
  rfl

/-! ### Breakpoints (R413–R415) -/

theorem putHalt_halts (hnext : s.obs.haltNext < 16) (h : HaltRecord) : h ∈ (s.putHalt h).obs.halts := by
  unfold putHalt
  split
  · exact List.mem_append_right _ (List.mem_singleton_self _)
  · rename_i hfull
    exact List.mem_set (by omega) h

theorem putHalt_rest (s : State) (h : HaltRecord) : ∃ halts haltNext,
    s.putHalt h = { s with obs := { s.obs with halts := halts, haltNext := haltNext } } := by
  unfold putHalt
  split <;> exact ⟨_, _, rfl⟩

/-- A queue of a task that a hit halts. -/
def haltedQueue (pasid : Nat) (e : Nat × Queue) : Nat × Queue := if e.2.pasid = pasid then (e.1, { e.2 with halted := true }) else e

/-- R414: what a hit of a task that runs leaves. -/
structure Halts (s t : State) (h : HaltRecord) : Prop where
  halted : t.obs.halted = s.obs.halted ++ [h.pasid]
  record : s.obs.haltNext < 16 → h ∈ t.obs.halts
  queues : t.queues = s.queues.map (haltedQueue h.pasid)
  rest : t = { s with queues := t.queues, obs := t.obs, dict := t.dict }

/-- The task halts, its record put. -/
def halting (s : State) (h : HaltRecord) : State :=
  { s.putHalt h with
    queues := (s.putHalt h).queues.map (haltedQueue h.pasid),
    obs := { (s.putHalt h).obs with halted := (s.putHalt h).obs.halted ++ [h.pasid] } }

theorem haltTask_eq {die : Nat} {h : HaltRecord} (hruns : h.pasid ∉ s.obs.halted) : ∃ hits, s.haltTask die h =
    (halting { s with obs := { s.obs with hits := hits } } h).dayEvent die 0 0 0 10 (h.pasid + 2 ^ 20 * h.breakpoint) :=
  ⟨_, if_neg (by simpa using hruns)⟩

theorem halting_halts (s : State) (h : HaltRecord) : Halts s (s.halting h) h := by
  have hrecord := putHalt_halts (s := s) (h := h)
  obtain ⟨halts, haltNext, hput⟩ := putHalt_rest s h
  unfold halting
  rw [hput] at hrecord ⊢
  exact ⟨rfl, hrecord, rfl, rfl⟩

theorem haltTask_halts {die : Nat} {h : HaltRecord} (hruns : h.pasid ∉ s.obs.halted) : Halts s (s.haltTask die h) h := by
  obtain ⟨hits, heq⟩ := haltTask_eq (die := die) hruns
  obtain ⟨hhalted, hrecord, hqueues, hrest⟩ := halting_halts { s with obs := { s.obs with hits := hits } } h
  obtain ⟨d0, d1, dict, hevent⟩ := dayEvent_rest (halting { s with obs := { s.obs with hits := hits } } h) die 0 0 0 10
    (h.pasid + 2 ^ 20 * h.breakpoint)
  rw [heq, hevent]
  exact ⟨hhalted, hrecord, hqueues, by rw [hrest]⟩

theorem Halts.all_halted {t : State} {h : HaltRecord} (hh : Halts s t h) : ∀ e ∈ t.queues, e.2.pasid = h.pasid → e.2.halted = true := by
  intro e he hpasid
  rw [hh.queues] at he
  obtain ⟨x, -, rfl⟩ := List.mem_map.1 he
  unfold haltedQueue at hpasid ⊢
  split
  · rfl
  · rename_i hother
    rw [if_neg hother] at hpasid
    exact absurd hpasid hother

theorem Halts.other_queue {t : State} {h : HaltRecord} (hh : Halts s t h) {q : Nat} {k : Queue} (hqueue : s.queue? q = some k)
    (hother : k.pasid ≠ h.pasid) : t.queue? q = some k := by
  have hmap : s.queues.map (haltedQueue h.pasid) =
      s.queues.map fun e => (e.1, if e.2.pasid = h.pasid then { e.2 with halted := true } else e.2) :=
    List.map_congr_left fun e _ => by unfold haltedQueue; split <;> rfl
  unfold queue? at hqueue ⊢
  rw [hh.queues, hmap]
  refine (Table.find?_mapValues (fun k : Queue => if k.pasid = h.pasid then { k with halted := true } else k) q s.queues).trans ?_
  rw [hqueue, Option.map_some, if_neg hother]

theorem hit_of_image {b w loc offset : Nat} {image : List Byte} {cmd : Option (Nat × Nat)} (hscope : bit s.fw.scopes 3 = true)
    (hw : Table.find? b s.obs.breakpoints = some w) (hkind : bits w 21 20 = 1) (hoffset : bits w 63 32 = offset)
    (hserves : ∃ e ∈ s.queues, e.2.pasid = bits w 19 0) (hlocator : locKind loc = 2) : s.hit b loc offset image cmd =
      s.haltTask (locDie loc) {
        pasid := bits w 19 0, breakpoint := b, loc := loc, time := s.reel (locDie loc), offset := offset, image := slice image 0 512 } := by
  unfold hit
  rw [hw, Option.getD_some]
  dsimp only
  rw [if_neg (by simp [hscope]), hkind]
  exact if_pos ⟨hoffset, by simpa using hserves, hlocator⟩

theorem hit_of_command {b w loc offset q i : Nat} {image : List Byte} {c : Cmd} (hscope : bit s.fw.scopes 3 = true)
    (hw : Table.find? b s.obs.breakpoints = some w) (hkind : bits w 21 20 = 2) (hfound : s.cmd? q i = some c)
    (hmatch : c.pasid = bits w 19 0 ∧ bits w 83 64 = q ∧ bits w 63 32 = c.recs.tag ∧ c.begun = false ∧ c.hit = false ∧ c.wait = .parked) :
    s.hit b loc offset image (some (q, i)) = (s.setCmd { c with hit := true }).haltTask c.die {
      pasid := bits w 19 0, breakpoint := b, loc := 0, time := s.reel c.die, offset := 0, image := [] } := by
  unfold hit
  rw [hw, Option.getD_some]
  dsimp only
  rw [if_neg (by simp [hscope]), hkind]
  simp only [hfound]
  exact if_pos (by simpa using hmatch)

end
end State

/-- Settles O41: the port by the one event that a clk can deal, the freeze by the dies that still have to copy, a hit by what
halting leaves. -/
theorem traceAndBreakpoints : Obligations.TraceAndBreakpoints := by
  refine ⟨fun s a b x die p hpending hready hon ha hb hturn hp hfrac hroom => ?port, fun s die dt time mask hdue hmask =>
    ⟨fun hearly => congrArg Host.Outcome.next (freezeOn_early hdue hearly), fun hreached hothers => ?part, fun hreached hlast => ?last⟩,
    fun s die dt hdie hformed hlost hroom hdue => ?sync,
    fun s b w l off image hinv hscope hw hkind hoff hlocator hserves hruns => ?image,
    fun s b w l off q i image c hscope hw hkind hfound hpasid hq htag hbegun hhit hwait hruns => ?command,
    fun s b l off image cmd hscope => congrArg Host.Outcome.next (if_pos (by simp [hscope]))⟩
  case port =>
    subst ha hb
    obtain ⟨heven, hdata, hle, hfirst⟩ := hp
    have hrun := dayRun_one hready hon hturn (pairFrom_eq heven hdata hle hfirst) hfrac hroom
    have hstep : step s = .next (s.elapse 1) := by
      unfold step
      rw [hpending]
    have hpair : pairFrom (s.dayStart 1).port.next = p := pairFrom_eq heven hdata hle hfirst
    have hout : (s.dayRun 1).out = eventBlocks p x := (congrArg DayRun.out hrun).trans (congrArg (eventBlocks · x) hpair)
    refine ⟨_, hstep, ?_, ?_, ?_, ?_, ?_⟩
    · exact congrArg (s.outbox ++ ·) hout
    · exact congrArg DayRun.events0 hrun
    · exact congrArg DayRun.events1 hrun
    · refine (congrArg (fun out : List Out => s.obs.sent + out.length / 2) hout).trans ?_
      rw [show (eventBlocks p x).length = 2 from rfl]
    · exact congrArg (fun r : DayRun => r.port.turn) hrun
  case part => exact ⟨_, congrArg Host.Outcome.next (freezeOn_part hdue hmask hreached hothers), rfl, rfl, rfl⟩
  case last =>
    subst hlast
    have hexec : exec (.freezeSnapshot die dt) s = .next _ := congrArg Host.Outcome.next (freezeOn_last hdue hmask hreached)
    obtain ⟨d0, d1, dict, hevent⟩ := dayEvent_rest { s.elapse dt with obs := { (s.elapse dt).obs with
        due := none, frozen := true, freezeTime := time, snapshot := (s.elapse dt).snapshotAll, snapshotTasks := s.obs.tasks } }
      (s.elapse dt).noticeDie 0 0 0 9 time
    rw [hevent] at hexec
    exact ⟨_, hexec, rfl, rfl, rfl, rfl, rfl, rfl⟩
  case sync =>
    have hexec : exec (.daybookSync die dt) s = .next _ :=
      congrArg Host.Outcome.next ((syncDue_of_due hformed hdue).trans (daySync_eq hdie hformed hlost hroom))
    obtain ⟨hself, hother⟩ := daybook_setDaybook (s.elapse dt) hdie { (s.elapse dt).daybook die with
      events := ((s.elapse dt).daybook die).events ++ [eventWord ((s.elapse dt).reel die) die 0 0 0 1 ((s.elapse dt).reel die) false],
      lastSync := (s.elapse dt).reel die }
    exact ⟨_, hexec, congrArg DaybookBuffer.lastSync hself, congrArg DaybookBuffer.events hself, hother, rfl⟩
  case image =>
    have hexec : exec (.breakpointHit b l off image none) s = .next _ :=
      congrArg Host.Outcome.next (hit_of_image hscope hw hkind hoff hserves hlocator)
    have hhalts := haltTask_halts (s := s) (die := locDie l) (h := {
      pasid := bits w 19 0, breakpoint := b, loc := l, time := s.reel (locDie l), offset := off, image := slice image 0 512 }) hruns
    exact ⟨_, _, hexec, hhalts.halted, hhalts.record hinv.halts.2, rfl, rfl, rfl, rfl, rfl, hhalts.all_halted,
      fun q k hqueue hother => hhalts.other_queue hqueue hother, hhalts.rest⟩
  case command =>
    obtain ⟨hcq, hci⟩ := key_of_cmd? hfound
    have hexec : exec (.breakpointHit b l off image (some (q, i))) s = .next _ :=
      congrArg Host.Outcome.next (hit_of_command hscope hw hkind hfound ⟨hpasid, hq.symm, htag.symm, hbegun, hhit, hwait⟩)
    have hhalts := haltTask_halts (s := s.setCmd { c with hit := true }) (die := c.die) (h := {
      pasid := bits w 19 0, breakpoint := b, loc := 0, time := s.reel c.die, offset := 0, image := [] }) hruns
    have hcmds := (congrArg State.cmds hhalts.rest :)
    refine ⟨_, hexec, hhalts.halted, ?_, hhalts.all_halted, hhalts.rest.trans (by rw [hcmds]; rfl)⟩
    rw [← hcq, ← hci] at hfound ⊢
    exact cmd?_of_setCmd_cmds hfound hcmds rfl rfl

end Sys2Proof.Machine
end

section
namespace Sys2Proof.Machine
open Safety

namespace State
variable {s : State} {m : Message} {o : Out}

/-! ### What a served request has sent stays sent -/

theorem mem_emit (p : Nat) (h : o ∈ s.outbox) : o ∈ (s.emit p m).outbox := by
  unfold emit
  dsimp only
  rw [pumpPort_eq]
  exact List.foldlRecOn (motive := fun t : State => o ∈ t.outbox) _ _ h fun t ht n _ => List.mem_append_left _ ht

theorem mem_answer (h : o ∈ s.outbox) : o ∈ (s.answer m).outbox := by
  unfold answer
  split
  · exact mem_emit _ h
  · exact h
  · exact h

/-- R318: the answer to a read request leaves after what serving it has sent. -/
theorem mem_remoteRead (hmine : s.mine m 2 = true) (h : o ∈ ((s.noteArrival m).serveWindow m false).2.2.outbox) :
    o ∈ (s.remoteRead m).outbox := by
  unfold remoteRead
  rw [if_neg (by simp [hmine])]
  dsimp only
  split
  · rename_i hlanded
    have hserve : (s.noteArrival m).serveWindow m false = (0, [], s.noteArrival m) := if_pos hlanded
    rw [hserve] at h
    exact mem_answer h
  · split
    · exact mem_answer h
    · exact mem_answer (mem_answer h)

end State

/-! ### A read request that finds a bad sector (R215, R318, R350)

The clause of O34 on a bad row has nothing but the NACK leave. A bad sector that the read is the first to find is entered in the
ledger (R215), and the entry signals the interrupt vector that `FAULT_VECTOR` names. -/

/-- A window on the row of one cluster, open to package 5. -/
def oneRowWindow : Window :=
  { id := 9, pasid := 5, q := 3, memory := false, read := true, write := true, counter := 0, base := 0, size := 512, peers := 0x20,
    region := 0, part := 0 }

/-- Package 5 stands behind port 0, the row of its window has lost a bit and is not marked, and faults signal vector 0. -/
def unfoundBadSector : State :=
  { State.reset with
    dict := {
      regs := [(State.key 0x2C00 0x08, 0)]
      kept := [(State.key 0x2B00 0x05, { value := 2 ^ 512 - 1 - 0xFF * 256 ^ 5, writes := 1 })]
      vectors := [(0, { address := 0xFEE00000, data := 1, mask := false, pending := false })] }
    bruora := { ports := { state := 3, partner := some (5, 2) } :: List.replicate 15 {}, windows := [oneRowWindow] }
    loft := {
      parts := [(0, { state := 1, units := 1, mask := 1 })]
      rows := [(loftKey 0 0 0, { data := .known (List.replicate 512 0), parity := 1 })] } }

/-- Package 5 asks for the row. -/
def rowRequest : Message :=
  { kind := 2, src := 5, dst := 0, window := 9, seq := 0, offset := 0, transit := false, length := 512, incarnation := 4, segs := [] }

/-- The engine takes the request, its window opens the row to it, and the row is bad. -/
theorem unfoundBadSector_serves :
    rowRequest.dst = unfoundBadSector.packageId ∧ rowRequest.src ≠ unfoundBadSector.packageId ∧ unfoundBadSector.pins.ready = true ∧
      unfoundBadSector.route rowRequest.src = .port 0 ∧ unfoundBadSector.landedBefore rowRequest = false ∧
      unfoundBadSector.window? rowRequest.window = some oneRowWindow ∧ unfoundBadSector.windowCode rowRequest false = 0 ∧
      ∃ r ∈ (unfoundBadSector.windowRows oneRowWindow rowRequest).2, r.2.2.1 = true := by
  decide +kernel

/-- Port 0 holds the credits of the NACK. -/
theorem unfoundBadSector_sends : Sends unfoundBadSector 0 [unfoundBadSector.reply rowRequest 5 0x2605 []] := by
  unfold Sends
  decide +kernel

/-- The entry of the bad sector signals its interrupt. -/
theorem interrupt_unfoundBadSector : unfoundBadSector.mine rowRequest 2 = true ∧ unfoundBadSector.outbox = [] ∧
    .interrupt 0 0xFEE00000 1 ∈ ((unfoundBadSector.noteArrival rowRequest).serveWindow rowRequest false).2.2.outbox := by
  decide +kernel

/-- Refutes O34: a read that is the first to find a bad sector sends its NACK behind the interrupt of the ledger's entry. -/
theorem not_remoteMessages : ¬ Obligations.RemoteMessages := by
  intro h
  obtain ⟨hdst, hsrc, hready, hroute, hfresh, hwindow, hcode, hbad⟩ := unfoundBadSector_serves
  obtain ⟨hmine, hempty, hsignal⟩ := interrupt_unfoundBadSector
  obtain ⟨-, -, hmarked, -⟩ := h.2.1 unfoundBadSector rowRequest 0 rfl hdst hsrc hready hroute
  obtain ⟨t, code, ht, hsent, -⟩ := hmarked oneRowWindow hfresh hwindow hcode rfl hbad unfoundBadSector_sends
  have hresult : unfoundBadSector.remoteRead rowRequest = t := by injection ht
  have hmem := State.mem_remoteRead hmine hsignal
  rw [hresult, hsent, hempty] at hmem
  simp at hmem

end Sys2Proof.Machine
end
